-- ==== Sys2Proof/Word.lean ====
section
/-! DEFINITION. The word and byte types of the machine, and the little-endian order of multi-byte values
(02 R42, 03 R65). -/
namespace Sys2Proof

/-- A 64-bit scalar register or address (03 R65). -/
abbrev Word := BitVec 64
/-- A byte of memory. -/
abbrev Byte := BitVec 8

end Sys2Proof
end

