-- ==== Sys2Proof/Syntax.lean ====
section
/-! DEFINITION. The instructions of the package: one constructor for each row of spec/opcode_table.json.
Slot instructions carry their operands as the slot and its header give them (03 R66, R87, R94);
steps without an encoding (95) carry nothing: what they act on stands in the state's field arg.
The constructors without fields come last. -/
namespace Sys2Proof

/-- A scalar register name s0 to s63 (03 R65). -/
abbrev SReg := Fin 64
/-- A predicate register name p0 to p15 (03 R65). -/
abbrev PReg := Fin 16
/-- A vector register name v0 to v31 (03 R65). -/
abbrev VIdx := Fin 32
/-- A mask register name m0 to m7 (03 R65). -/
abbrev MReg := Fin 8
/-- A tile register name t0 to t7 (03 R65). -/
abbrev TReg := Fin 8
/-- A chain name k0 to k31 (03 R65). -/
abbrev KReg := Fin 32
/-- A token register name q0 to q31 (03 R65). -/
abbrev QReg := Fin 32

/-- The rounding field of an instruction that rounds (02 R43); its reserved values are refused by the decoder. -/
inductive Rm where
  | rne | rtz | rdn | rup | rmm | dyn
  deriving DecidableEq, Repr

/-- A register that a slot reads or writes (03 R91), by its architectural name. -/
inductive Res where
  | s (i : SReg)
  | p (i : PReg)
  | v (i : VIdx)
  | m (i : MReg)
  | t (i : TReg)
  | q (i : QReg)
  | k (i : KReg)
  | csr (a : Nat)
  deriving DecidableEq, Repr

/-- What a header adds to one slot's fields (03 R87): nothing, bit 5 of the fields D, A and B, or eight bits
above the field named imm. -/
inductive Ext where
  | none
  | regs (d a b : Bool)
  | imm (e : Nat)
  deriving DecidableEq, Repr

/-- One constructor for each row of the opcode table. -/
inductive Instr where
  /-- ADD (R99). Integer addition modulo 2^w. -/
  | add (d : SReg) (a : SReg) (b : SReg) (w : Bool)
  /-- SUB (R99). Integer subtraction modulo 2^w. -/
  | sub (d : SReg) (a : SReg) (b : SReg) (w : Bool)
  /-- MUL (R99). Low w bits of the product. -/
  | mul (d : SReg) (a : SReg) (b : SReg) (w : Bool)
  /-- MULH (R99). High w bits of the signed product. -/
  | mulh (d : SReg) (a : SReg) (b : SReg) (w : Bool)
  /-- MULHN (R99). High w bits of the natural product. -/
  | mulhn (d : SReg) (a : SReg) (b : SReg) (w : Bool)
  /-- DIV (R100). Signed quotient truncated toward zero, with the limit results of R100. -/
  | div (d : SReg) (a : SReg) (b : SReg) (w : Bool)
  /-- DIVN (R100). Natural quotient, with the limit results of R100. -/
  | divn (d : SReg) (a : SReg) (b : SReg) (w : Bool)
  /-- REM (R100). Signed remainder whose sign is that of a. -/
  | rem (d : SReg) (a : SReg) (b : SReg) (w : Bool)
  /-- REMN (R100). Natural remainder. -/
  | remn (d : SReg) (a : SReg) (b : SReg) (w : Bool)
  /-- AND (R99). Bitwise AND. -/
  | and (d : SReg) (a : SReg) (b : SReg) (w : Bool)
  /-- OR (R99). Bitwise OR. -/
  | or (d : SReg) (a : SReg) (b : SReg) (w : Bool)
  /-- XOR (R99). Bitwise XOR. -/
  | xor (d : SReg) (a : SReg) (b : SReg) (w : Bool)
  /-- ANDN (R99). a AND NOT b. -/
  | andn (d : SReg) (a : SReg) (b : SReg) (w : Bool)
  /-- SHL (R99). Shift left by b mod w. -/
  | shl (d : SReg) (a : SReg) (b : SReg) (w : Bool)
  /-- SHR (R99). Logical shift right by b mod w. -/
  | shr (d : SReg) (a : SReg) (b : SReg) (w : Bool)
  /-- SRA (R99). Arithmetic shift right by b mod w. -/
  | sra (d : SReg) (a : SReg) (b : SReg) (w : Bool)
  /-- ROTL (R99). Rotate left within w bits. -/
  | rotl (d : SReg) (a : SReg) (b : SReg) (w : Bool)
  /-- MIN (R99). Signed minimum. -/
  | min (d : SReg) (a : SReg) (b : SReg) (w : Bool)
  /-- MINN (R99). Natural minimum. -/
  | minn (d : SReg) (a : SReg) (b : SReg) (w : Bool)
  /-- MAX (R99). Signed maximum. -/
  | max (d : SReg) (a : SReg) (b : SReg) (w : Bool)
  /-- MAXN (R99). Natural maximum. -/
  | maxn (d : SReg) (a : SReg) (b : SReg) (w : Bool)
  /-- CLZ (R99). Count leading zero bits. -/
  | clz (d : SReg) (a : SReg) (w : Bool)
  /-- CTZ (R99). Count trailing zero bits. -/
  | ctz (d : SReg) (a : SReg) (w : Bool)
  /-- POPC (R99). Count one bits. -/
  | popc (d : SReg) (a : SReg) (w : Bool)
  /-- ADD_IMMEDIATE (R101). 64-bit add of a sign-extended immediate. -/
  | addImm (d : SReg) (a : SReg) (imm : Int)
  /-- MUL_IMMEDIATE (R101). 64-bit multiply by a sign-extended immediate. -/
  | mulImm (d : SReg) (a : SReg) (imm : Int)
  /-- AND_IMMEDIATE (R101). AND with a sign-extended immediate. -/
  | andImm (d : SReg) (a : SReg) (imm : Int)
  /-- OR_IMMEDIATE (R101). OR with a sign-extended immediate. -/
  | orImm (d : SReg) (a : SReg) (imm : Int)
  /-- XOR_IMMEDIATE (R101). XOR with a sign-extended immediate. -/
  | xorImm (d : SReg) (a : SReg) (imm : Int)
  /-- ANDN_IMMEDIATE (R101). AND NOT with a sign-extended immediate. -/
  | andnImm (d : SReg) (a : SReg) (imm : Int)
  /-- SHL_IMMEDIATE (R101). Shift left by imm[5:0]. -/
  | shlImm (d : SReg) (a : SReg) (sh : Fin 64)
  /-- SHR_IMMEDIATE (R101). Logical shift right by imm[5:0]. -/
  | shrImm (d : SReg) (a : SReg) (sh : Fin 64)
  /-- SRA_IMMEDIATE (R101). Arithmetic shift right by imm[5:0]. -/
  | sraImm (d : SReg) (a : SReg) (sh : Fin 64)
  /-- ROTL_IMMEDIATE (R101). Rotate left by imm[5:0]. -/
  | rotlImm (d : SReg) (a : SReg) (sh : Fin 64)
  /-- MIN_IMMEDIATE (R101). Signed minimum with a sign-extended immediate. -/
  | minImm (d : SReg) (a : SReg) (imm : Int)
  /-- MINN_IMMEDIATE (R101). Natural minimum with a zero-extended immediate. -/
  | minnImm (d : SReg) (a : SReg) (imm : Nat)
  /-- MAX_IMMEDIATE (R101). Signed maximum with a sign-extended immediate. -/
  | maxImm (d : SReg) (a : SReg) (imm : Int)
  /-- MAXN_IMMEDIATE (R101). Natural maximum with a zero-extended immediate. -/
  | maxnImm (d : SReg) (a : SReg) (imm : Nat)
  /-- MOVI (R102). Sets D to a sign-extended immediate. -/
  | movi (d : SReg) (imm : Int)
  /-- MOVHI (R103). Writes one 16-bit lane of D and keeps the rest. -/
  | movhi (d : SReg) (h : Fin 4) (lit : Fin 65536)
  /-- CMP_EQ (R104). Writes a predicate with bitwise equality. -/
  | cmpEq (p : PReg) (a : SReg) (b : SReg) (w : Bool)
  /-- CMP_NE (R104). Writes a predicate with bitwise inequality. -/
  | cmpNe (p : PReg) (a : SReg) (b : SReg) (w : Bool)
  /-- CMP_LT (R104). Writes a predicate with signed less-than. -/
  | cmpLt (p : PReg) (a : SReg) (b : SReg) (w : Bool)
  /-- CMP_GE (R104). Writes a predicate with signed greater-or-equal. -/
  | cmpGe (p : PReg) (a : SReg) (b : SReg) (w : Bool)
  /-- CMP_LTN (R104). Writes a predicate with natural less-than. -/
  | cmpLtn (p : PReg) (a : SReg) (b : SReg) (w : Bool)
  /-- CMP_GEN (R104). Writes a predicate with natural greater-or-equal. -/
  | cmpGen (p : PReg) (a : SReg) (b : SReg) (w : Bool)
  /-- SEL (R105). Selects A or B by a predicate. -/
  | sel (d : SReg) (a : SReg) (b : SReg) (p : PReg)
  /-- BFX (R106). Extracts a bit field, zero- or sign-extended. -/
  | bfx (d : SReg) (a : SReg) (pos : Fin 64) (lm1 : Fin 64) (sx : Bool)
  /-- BFI (R106). Inserts the low bits of A into a field of D. -/
  | bfi (d : SReg) (a : SReg) (pos : Fin 64) (lm1 : Fin 64)
  /-- LEA (R107). D := A + (B << SH). -/
  | lea (d : SReg) (a : SReg) (b : SReg) (sh : Fin 8)
  /-- CSRR (R108). Reads a CSR into D. -/
  | csrr (d : SReg) (c : Fin 4096)
  /-- CSRW (R108). Writes A to a CSR at bundle end, returning the old value. -/
  | csrw (d : SReg) (a : SReg) (c : Fin 4096)
  /-- CSRS (R108). Sets the bits of A in a CSR, returning the old value. -/
  | csrs (d : SReg) (a : SReg) (c : Fin 4096)
  /-- CSRC (R108). Clears the bits of A in a CSR, returning the old value. -/
  | csrc (d : SReg) (a : SReg) (c : Fin 4096)
  /-- BR (R111). Conditional relative branch on a predicate. -/
  | br (p : PReg) (neg : Bool) (imm : Int)
  /-- JMP (R112). Relative jump. -/
  | jmp (imm : Int)
  /-- CALL (R112). Relative call that sets s31 to the return address. -/
  | call (imm : Int)
  /-- JMPR (R113). Jump to the address in A. -/
  | jmpr (a : SReg)
  /-- CALLR (R113). Call the address in A, setting s31. -/
  | callr (a : SReg)
  /-- LOOP_ST (R116). Starts a counted software-pipelined loop, setting PASS, PIPE, ROTB and the stage predicates. -/
  | loopSt (sc : Fin 16) (a : SReg) (imm : Int)
  /-- LOOP_BR (R117). Ends a loop pass: decrements PASS, advances the rotation and branches back. -/
  | loopBr (imm : Int)
  /-- PAND (R110). Predicate AND. -/
  | pand (d : PReg) (a : PReg) (b : PReg)
  /-- POR (R110). Predicate OR. -/
  | por (d : PReg) (a : PReg) (b : PReg)
  /-- PXOR (R110). Predicate XOR. -/
  | pxor (d : PReg) (a : PReg) (b : PReg)
  /-- PANDN (R110). Predicate AND NOT. -/
  | pandn (d : PReg) (a : PReg) (b : PReg)
  /-- PNOT (R110). Predicate NOT. -/
  | pnot (d : PReg) (a : PReg)
  /-- PMOV (R110). Predicate move. -/
  | pmov (d : PReg) (a : PReg)
  /-- WAIT (R118). Blocks the bundle until the outstanding counters are at or below the given limits. -/
  | wait (ld : Fin 128) (st : Fin 128) (cp : Fin 64) (tl : Fin 32)
  /-- FADD (R124). FP addition with one rounding. -/
  | fadd (f64 : Bool) (d : SReg) (a : SReg) (b : SReg) (rm : Rm)
  /-- FSUB (R124). FP subtraction with one rounding. -/
  | fsub (f64 : Bool) (d : SReg) (a : SReg) (b : SReg) (rm : Rm)
  /-- FMUL (R124). FP multiplication with one rounding. -/
  | fmul (f64 : Bool) (d : SReg) (a : SReg) (b : SReg) (rm : Rm)
  /-- FDIV (R125). FP division with the special cases of R125. -/
  | fdiv (f64 : Bool) (d : SReg) (a : SReg) (b : SReg) (rm : Rm)
  /-- FSQRT (R124). FP square root. -/
  | fsqrt (f64 : Bool) (d : SReg) (a : SReg) (rm : Rm)
  /-- FMA (R124). Fused a × b + d with one rounding. -/
  | fma (f64 : Bool) (d : SReg) (a : SReg) (b : SReg) (rm : Rm)
  /-- FMS (R124). Fused a × b − d with one rounding. -/
  | fms (f64 : Bool) (d : SReg) (a : SReg) (b : SReg) (rm : Rm)
  /-- FNMA (R124). Fused d − a × b with one rounding. -/
  | fnma (f64 : Bool) (d : SReg) (a : SReg) (b : SReg) (rm : Rm)
  /-- FMIN (R52). FP minimum. -/
  | fmin (f64 : Bool) (d : SReg) (a : SReg) (b : SReg)
  /-- FMAX (R52). FP maximum. -/
  | fmax (f64 : Bool) (d : SReg) (a : SReg) (b : SReg)
  /-- FNEG (R124). Inverts the sign bit. -/
  | fneg (f64 : Bool) (d : SReg) (a : SReg)
  /-- FABS (R124). Clears the sign bit. -/
  | fabs (f64 : Bool) (d : SReg) (a : SReg)
  /-- FCPSGN (R124). Copies the sign of b onto a. -/
  | fcpsgn (f64 : Bool) (d : SReg) (a : SReg) (b : SReg)
  /-- FMOV (R124). Copies a unchanged. -/
  | fmov (f64 : Bool) (d : SReg) (a : SReg)
  /-- FCMP_EQ (R126). FP equality into a predicate. -/
  | fcmpEq (p : PReg) (a : SReg) (b : SReg) (f64 : Bool)
  /-- FCMP_LT (R126). FP less-than into a predicate. -/
  | fcmpLt (p : PReg) (a : SReg) (b : SReg) (f64 : Bool)
  /-- FCMP_LE (R126). FP less-or-equal into a predicate. -/
  | fcmpLe (p : PReg) (a : SReg) (b : SReg) (f64 : Bool)
  /-- FCMP_UN (R126). Unordered test into a predicate. -/
  | fcmpUn (p : PReg) (a : SReg) (b : SReg) (f64 : Bool)
  /-- FCLASS (R127). Writes 2^c for the class of a. -/
  | fclass (d : SReg) (a : SReg) (f64 : Bool)
  /-- FCVT (R129). Converts between the FP side and another scalar type. -/
  | fcvt (d : SReg) (a : SReg) (ot : Fin 16) (dir : Bool) (rm : Rm) (f64 : Bool)
  /-- FRINT (R130). Rounds to an integral value in the same format. -/
  | frint (d : SReg) (a : SReg) (rm : Rm) (f64 : Bool)
  /-- FEXP (R57). Correctly rounded e^x. -/
  | fexp (d : SReg) (a : SReg) (rm : Rm) (f64 : Bool)
  /-- FEXP2 (R57). Correctly rounded 2^x. -/
  | fexp2 (d : SReg) (a : SReg) (rm : Rm) (f64 : Bool)
  /-- FLOG (R57). Correctly rounded ln x. -/
  | flog (d : SReg) (a : SReg) (rm : Rm) (f64 : Bool)
  /-- FLOG2 (R57). Correctly rounded log2 x. -/
  | flog2 (d : SReg) (a : SReg) (rm : Rm) (f64 : Bool)
  /-- FERF (R57). Correctly rounded erf x. -/
  | ferf (d : SReg) (a : SReg) (rm : Rm) (f64 : Bool)
  /-- FERFC (R57). Correctly rounded erfc x. -/
  | ferfc (d : SReg) (a : SReg) (rm : Rm) (f64 : Bool)
  /-- FRCP (R59). Reciprocal approximation to 13 bits. -/
  | frcp (d : SReg) (a : SReg) (rm : Rm) (f64 : Bool)
  /-- FRSQ (R59). Reciprocal square root approximation to 13 bits. -/
  | frsq (d : SReg) (a : SReg) (rm : Rm) (f64 : Bool)
  /-- FRCPS (R61). Newton step 2 − a × b with one rounding. -/
  | frcps (d : SReg) (a : SReg) (b : SReg) (rm : Rm) (f64 : Bool)
  /-- FRSQS (R61). Newton step (3 − a × b) / 2 with one rounding. -/
  | frsqs (d : SReg) (a : SReg) (b : SReg) (rm : Rm) (f64 : Bool)
  /-- VADD (R136). Element-wise add, optionally saturating. -/
  | vadd (d : VIdx) (a : VIdx) (b : VIdx) (sat : Bool) (nat : Bool) (mk : MReg)
  /-- VSUB (R136). Element-wise subtract, optionally saturating. -/
  | vsub (d : VIdx) (a : VIdx) (b : VIdx) (sat : Bool) (nat : Bool) (mk : MReg)
  /-- VMUL (R136). Element-wise low product. -/
  | vmul (d : VIdx) (a : VIdx) (b : VIdx) (mk : MReg)
  /-- VMULH (R136). Element-wise signed high product. -/
  | vmulh (d : VIdx) (a : VIdx) (b : VIdx) (mk : MReg)
  /-- VMULHN (R136). Element-wise natural high product. -/
  | vmulhn (d : VIdx) (a : VIdx) (b : VIdx) (mk : MReg)
  /-- VDIV (R136). Element-wise signed division. -/
  | vdiv (d : VIdx) (a : VIdx) (b : VIdx) (mk : MReg)
  /-- VDIVN (R136). Element-wise natural division. -/
  | vdivn (d : VIdx) (a : VIdx) (b : VIdx) (mk : MReg)
  /-- VREM (R136). Element-wise signed remainder. -/
  | vrem (d : VIdx) (a : VIdx) (b : VIdx) (mk : MReg)
  /-- VREMN (R136). Element-wise natural remainder. -/
  | vremn (d : VIdx) (a : VIdx) (b : VIdx) (mk : MReg)
  /-- VAND (R136). Element-wise AND. -/
  | vand (d : VIdx) (a : VIdx) (b : VIdx) (mk : MReg)
  /-- VOR (R136). Element-wise OR. -/
  | vor (d : VIdx) (a : VIdx) (b : VIdx) (mk : MReg)
  /-- VXOR (R136). Element-wise XOR. -/
  | vxor (d : VIdx) (a : VIdx) (b : VIdx) (mk : MReg)
  /-- VANDN (R136). Element-wise AND NOT. -/
  | vandn (d : VIdx) (a : VIdx) (b : VIdx) (mk : MReg)
  /-- VSHL (R136). Element-wise shift left. -/
  | vshl (d : VIdx) (a : VIdx) (b : VIdx) (mk : MReg)
  /-- VSHR (R136). Element-wise logical shift right. -/
  | vshr (d : VIdx) (a : VIdx) (b : VIdx) (mk : MReg)
  /-- VSRA (R136). Element-wise arithmetic shift right. -/
  | vsra (d : VIdx) (a : VIdx) (b : VIdx) (mk : MReg)
  /-- VROTL (R136). Element-wise rotate left. -/
  | vrotl (d : VIdx) (a : VIdx) (b : VIdx) (mk : MReg)
  /-- VMIN (R136). Element-wise signed minimum. -/
  | vmin (d : VIdx) (a : VIdx) (b : VIdx) (mk : MReg)
  /-- VMINN (R136). Element-wise natural minimum. -/
  | vminn (d : VIdx) (a : VIdx) (b : VIdx) (mk : MReg)
  /-- VMAX (R136). Element-wise signed maximum. -/
  | vmax (d : VIdx) (a : VIdx) (b : VIdx) (mk : MReg)
  /-- VMAXN (R136). Element-wise natural maximum. -/
  | vmaxn (d : VIdx) (a : VIdx) (b : VIdx) (mk : MReg)
  /-- VCLZ (R136). Element-wise count leading zeros. -/
  | vclz (d : VIdx) (a : VIdx) (mk : MReg)
  /-- VCTZ (R136). Element-wise count trailing zeros. -/
  | vctz (d : VIdx) (a : VIdx) (mk : MReg)
  /-- VPOPC (R136). Element-wise population count. -/
  | vpopc (d : VIdx) (a : VIdx) (mk : MReg)
  /-- VFADD (R137). Element-wise FP addition. -/
  | vfadd (d : VIdx) (a : VIdx) (b : VIdx) (rm : Rm) (mk : MReg)
  /-- VFSUB (R137). Element-wise FP subtraction. -/
  | vfsub (d : VIdx) (a : VIdx) (b : VIdx) (rm : Rm) (mk : MReg)
  /-- VFMUL (R137). Element-wise FP multiplication. -/
  | vfmul (d : VIdx) (a : VIdx) (b : VIdx) (rm : Rm) (mk : MReg)
  /-- VFDIV (R137). Element-wise FP division. -/
  | vfdiv (d : VIdx) (a : VIdx) (b : VIdx) (rm : Rm) (mk : MReg)
  /-- VFSQRT (R137). Element-wise FP square root. -/
  | vfsqrt (d : VIdx) (a : VIdx) (rm : Rm) (mk : MReg)
  /-- VFMA (R137). Element-wise fused multiply-add. -/
  | vfma (d : VIdx) (a : VIdx) (b : VIdx) (rm : Rm) (mk : MReg)
  /-- VFMS (R137). Element-wise fused multiply-subtract. -/
  | vfms (d : VIdx) (a : VIdx) (b : VIdx) (rm : Rm) (mk : MReg)
  /-- VFNMA (R137). Element-wise fused negated multiply-add. -/
  | vfnma (d : VIdx) (a : VIdx) (b : VIdx) (rm : Rm) (mk : MReg)
  /-- VFMIN (R137). Element-wise FP minimum. -/
  | vfmin (d : VIdx) (a : VIdx) (b : VIdx) (mk : MReg)
  /-- VFMAX (R137). Element-wise FP maximum. -/
  | vfmax (d : VIdx) (a : VIdx) (b : VIdx) (mk : MReg)
  /-- VFNEG (R137). Element-wise sign inversion. -/
  | vfneg (d : VIdx) (a : VIdx) (mk : MReg)
  /-- VFABS (R137). Element-wise absolute value. -/
  | vfabs (d : VIdx) (a : VIdx) (mk : MReg)
  /-- VFCPSGN (R137). Element-wise copy-sign. -/
  | vfcpsgn (d : VIdx) (a : VIdx) (b : VIdx) (mk : MReg)
  /-- VFMOV (R137). Element-wise FP move. -/
  | vfmov (d : VIdx) (a : VIdx) (mk : MReg)
  /-- VCVT (R140). Converts elements between types of one width. -/
  | vcvt (d : VIdx) (a : VIdx) (cc : Fin 32) (rm : Rm) (mk : MReg)
  /-- VPACK (R141). Narrows wide elements into one part of D. -/
  | vpack (d : VIdx) (a : VIdx) (cc : Fin 32) (rm : Rm) (part : Fin 8)
  /-- VUNPACK (R141). Widens one part of narrow elements exactly. -/
  | vunpack (d : VIdx) (a : VIdx) (cc : Fin 32) (part : Fin 8)
  /-- VMXNORM (R142). Normalises FP32 blocks into an MX format with sidecar scales. -/
  | vmxnorm (d : VIdx) (a : VIdx) (cc : Fin 32) (rm : Rm) (part : Fin 8)
  /-- VMXSCALE (R142). Scales MX elements back to FP32. -/
  | vmxscale (d : VIdx) (a : VIdx) (cc : Fin 32) (rm : Rm) (part : Fin 8)
  /-- VFEXP (R138). Element-wise exact e^x on a V-core. -/
  | vfexp (d : VIdx) (a : VIdx) (rm : Rm) (mk : MReg)
  /-- VFEXP2 (R138). Element-wise exact 2^x. -/
  | vfexp2 (d : VIdx) (a : VIdx) (rm : Rm) (mk : MReg)
  /-- VFLOG (R138). Element-wise exact ln x. -/
  | vflog (d : VIdx) (a : VIdx) (rm : Rm) (mk : MReg)
  /-- VFLOG2 (R138). Element-wise exact log2 x. -/
  | vflog2 (d : VIdx) (a : VIdx) (rm : Rm) (mk : MReg)
  /-- VFERF (R138). Element-wise exact erf x. -/
  | vferf (d : VIdx) (a : VIdx) (rm : Rm) (mk : MReg)
  /-- VFERFC (R138). Element-wise exact erfc x. -/
  | vferfc (d : VIdx) (a : VIdx) (rm : Rm) (mk : MReg)
  /-- VFRCP (R138). Element-wise reciprocal approximation. -/
  | vfrcp (d : VIdx) (a : VIdx) (rm : Rm) (mk : MReg)
  /-- VFRSQ (R138). Element-wise reciprocal square root approximation. -/
  | vfrsq (d : VIdx) (a : VIdx) (rm : Rm) (mk : MReg)
  /-- VFRCPS (R138). Element-wise reciprocal Newton step. -/
  | vfrcps (d : VIdx) (a : VIdx) (b : VIdx) (rm : Rm) (mk : MReg)
  /-- VFRSQS (R138). Element-wise reciprocal square root Newton step. -/
  | vfrsqs (d : VIdx) (a : VIdx) (b : VIdx) (rm : Rm) (mk : MReg)
  /-- VRED_FSUM (R143). FP sum reduction by the architected tree. -/
  | vredFsum (d : SReg) (a : VIdx) (row : Bool) (rm : Rm) (mk : MReg)
  /-- VRED_FMIN (R143). FP minimum reduction. -/
  | vredFmin (d : SReg) (a : VIdx) (row : Bool) (mk : MReg)
  /-- VRED_FMAX (R143). FP maximum reduction. -/
  | vredFmax (d : SReg) (a : VIdx) (row : Bool) (mk : MReg)
  /-- VRED_ISUM (R143). Exact integer sum reduction, wrapped or saturated once. -/
  | vredIsum (d : SReg) (a : VIdx) (row : Bool) (sat : Bool) (nat : Bool) (mk : MReg)
  /-- VRED_IMIN (R143). Signed minimum reduction. -/
  | vredImin (d : SReg) (a : VIdx) (row : Bool) (mk : MReg)
  /-- VRED_IMAX (R143). Signed maximum reduction. -/
  | vredImax (d : SReg) (a : VIdx) (row : Bool) (mk : MReg)
  /-- VRED_NMIN (R143). Natural minimum reduction. -/
  | vredNmin (d : SReg) (a : VIdx) (row : Bool) (mk : MReg)
  /-- VRED_NMAX (R143). Natural maximum reduction. -/
  | vredNmax (d : SReg) (a : VIdx) (row : Bool) (mk : MReg)
  /-- VMOV (R144). Copies active elements, and the sidecar when unmasked. -/
  | vmov (d : VIdx) (a : VIdx) (mk : MReg)
  /-- VBCAST (R144). Broadcasts a scalar into active elements. -/
  | vbcast (d : VIdx) (a : SReg) (mk : MReg)
  /-- VEXTR (R144). Extracts element sB into a scalar. -/
  | vextr (d : SReg) (a : VIdx) (b : SReg)
  /-- MAND (R145). Mask AND over 2,048 bits. -/
  | mand (d : MReg) (a : MReg) (b : MReg)
  /-- MOR (R145). Mask OR. -/
  | mor (d : MReg) (a : MReg) (b : MReg)
  /-- MXOR (R145). Mask XOR. -/
  | mxor (d : MReg) (a : MReg) (b : MReg)
  /-- MANDN (R145). Mask AND NOT. -/
  | mandn (d : MReg) (a : MReg) (b : MReg)
  /-- MNOT (R145). Mask NOT. -/
  | mnot (d : MReg) (a : MReg)
  /-- VCMP (R145). Integer element compare into a mask. -/
  | vcmp (d : MReg) (a : VIdx) (b : VIdx) (cc : Fin 8) (mk : MReg)
  /-- VFCMP (R145). FP element compare into a mask. -/
  | vfcmp (d : MReg) (a : VIdx) (b : VIdx) (cc : Fin 8) (mk : MReg)
  /-- MPOPC (R145). Counts ones in the first n bits of a mask. -/
  | mpopc (d : SReg) (a : MReg)
  /-- VXB (R146). Permutes each group of 16 elements by a scalar pattern, trapping on collision. -/
  | vxb (d : VIdx) (a : VIdx) (b : SReg) (mk : MReg)
  /-- TZERO (R181). Zeroes a tile's byte image and sidecar. -/
  | tzero (d : TReg)
  /-- TTRANS (R182). Transposes a tile. -/
  | ttrans (d : TReg) (a : TReg)
  /-- TCVT (R183). Converts a tile element by element. -/
  | tcvt (d : TReg) (a : TReg) (rm : Rm)
  /-- TSCALE (R184). Scales a tile by a scalar with one rounding per element. -/
  | tscale (d : TReg) (a : TReg) (b : SReg) (rm : Rm)
  /-- TMOV (R181). Copies one tile's byte image and sidecar to another. -/
  | tmov (d : TReg) (a : TReg)
  /-- TMOV_FROM_VECTOR (R181). Copies a vector register into a tile from row sB. -/
  | tmovFromVector (d : TReg) (a : VIdx) (b : SReg)
  /-- TMOV_TO_VECTOR (R181). Copies tile image bytes from row sB into a vector register. -/
  | tmovToVector (d : VIdx) (a : TReg) (b : SReg)
  /-- TFILL (R181). Fills every tile element with a scalar's bits. -/
  | tfill (d : TReg) (a : SReg)
  /-- TLD (R187). Loads a tile row by row from global or scratchpad memory, producing a token. -/
  | tld (d : TReg) (a : SReg) (b : SReg) (q : QReg) (sp : Bool)
  /-- TST (R187). Stores a tile row by row, producing a token. -/
  | tst (d : TReg) (a : SReg) (b : SReg) (q : QReg) (sp : Bool)
  /-- MMA (R192). Adds one unscaled matrix contribution into the link at a chain position. -/
  | mma (k : KReg) (a : TReg) (b : TReg) (pos : Fin 32) (ta : Bool) (tb : Bool) (sat : Bool) (qt : Fin 8)
  /-- MMA_MX (R193). Adds one MX-scaled contribution into a link. -/
  | mmaMx (k : KReg) (a : TReg) (b : TReg) (pos : Fin 32) (qk : Bool)
  /-- MMA_SC (R193). Adds one SC-scaled contribution into a link. -/
  | mmaSc (k : KReg) (a : TReg) (b : TReg) (pos : Fin 32) (qk : Bool)
  /-- CHAIN_BUILD (R198). Reads and checks a chain descriptor and builds the chain. -/
  | chainBuild (k : KReg) (a : SReg) (sp : Bool)
  /-- CHAIN_CLOSE (R200). Arms the close of a chain into a tile or scratchpad. -/
  | chainClose (k : KReg) (a : SReg) (b : SReg) (rm : Rm) (dst : Bool)
  /-- CHAIN_STAT (R201). Takes a snapshot of a chain into a scalar and optionally memory. -/
  | chainStat (d : SReg) (a : SReg) (k : KReg) (sp : Bool)
  /-- CHAIN_SPLICE (R202). Replaces a faulted link with a spare. -/
  | chainSplice (k : KReg) (a : SReg) (pos : Fin 32)
  /-- CHAIN_RESUME (R203). Thaws a fault-frozen chain with no faulted link. -/
  | chainResume (k : KReg)
  /-- CHAIN_FREE (R204). Returns a chain to IDLE, discarding partials and cancelling an armed close. -/
  | chainFree (k : KReg)
  /-- LD (R210). Loads 1–8 bytes into a scalar register. -/
  | ld (d : SReg) (a : SReg) (imm : Int) (sp : Bool) (sz : Fin 8)
  /-- ST (R210). Stores 1–8 bytes from a scalar register. -/
  | st (d : SReg) (a : SReg) (imm : Int) (sp : Bool) (sz : Fin 8)
  /-- VLD (R211). Loads a vector register row by row, or its sidecar. -/
  | vld (d : VIdx) (a : SReg) (b : SReg) (sp : Bool) (scr : Bool) (mk : MReg)
  /-- VST (R211). Stores a vector register row by row, or its sidecar. -/
  | vst (d : VIdx) (a : SReg) (b : SReg) (sp : Bool) (scr : Bool) (mk : MReg)
  /-- PREF (R212). Hints a fetch of granules toward L1 or L2. -/
  | pref (a : SReg) (b : SReg) (lvl : Fin 8)
  /-- CLEAN (R212). Writes dirty granules down to L2 or memory. -/
  | clean (a : SReg) (b : SReg) (lvl : Fin 8)
  /-- INVL (R212). Writes back dirty granules and drops this core's L1 copies. -/
  | invl (a : SReg) (b : SReg)
  /-- AMO_SWAP (R215). Atomic swap returning the old value. -/
  | amoSwap (d : SReg) (a : SReg) (b : SReg) (ty : Fin 8)
  /-- AMO_CAS (R215). Atomic compare-and-swap against D. -/
  | amoCas (d : SReg) (a : SReg) (b : SReg) (ty : Fin 8)
  /-- AMO_ADD (R215). Atomic wrapping add returning the old value. -/
  | amoAdd (d : SReg) (a : SReg) (b : SReg) (ty : Fin 8)
  /-- AMO_AND (R215). Atomic AND returning the old value. -/
  | amoAnd (d : SReg) (a : SReg) (b : SReg) (ty : Fin 8)
  /-- AMO_OR (R215). Atomic OR returning the old value. -/
  | amoOr (d : SReg) (a : SReg) (b : SReg) (ty : Fin 8)
  /-- AMO_XOR (R215). Atomic XOR returning the old value. -/
  | amoXor (d : SReg) (a : SReg) (b : SReg) (ty : Fin 8)
  /-- AMO_MIN (R215). Atomic integer minimum returning the old value. -/
  | amoMin (d : SReg) (a : SReg) (b : SReg) (ty : Fin 8)
  /-- AMO_MAX (R215). Atomic integer maximum returning the old value. -/
  | amoMax (d : SReg) (a : SReg) (b : SReg) (ty : Fin 8)
  /-- AMO_FADD (R216). Atomic FP add with one RNE rounding, at home slice or press. -/
  | amoFadd (d : SReg) (a : SReg) (b : SReg) (ty : Fin 8)
  /-- AMO_FMIN (R215). Atomic FP minimum returning the old value. -/
  | amoFmin (d : SReg) (a : SReg) (b : SReg) (ty : Fin 8)
  /-- AMO_FMAX (R215). Atomic FP maximum returning the old value. -/
  | amoFmax (d : SReg) (a : SReg) (b : SReg) (ty : Fin 8)
  /-- RED_ADD (R215). Atomic wrapping add with no return. -/
  | redAdd (a : SReg) (b : SReg) (ty : Fin 8)
  /-- RED_AND (R215). Atomic AND with no return. -/
  | redAnd (a : SReg) (b : SReg) (ty : Fin 8)
  /-- RED_OR (R215). Atomic OR with no return. -/
  | redOr (a : SReg) (b : SReg) (ty : Fin 8)
  /-- RED_XOR (R215). Atomic XOR with no return. -/
  | redXor (a : SReg) (b : SReg) (ty : Fin 8)
  /-- RED_MIN (R215). Atomic integer minimum with no return. -/
  | redMin (a : SReg) (b : SReg) (ty : Fin 8)
  /-- RED_MAX (R215). Atomic integer maximum with no return. -/
  | redMax (a : SReg) (b : SReg) (ty : Fin 8)
  /-- RED_FADD (R216). Atomic FP add with no return, at home, press or switch. -/
  | redFadd (a : SReg) (b : SReg) (ty : Fin 8)
  /-- RED_FMIN (R215). Atomic FP minimum with no return. -/
  | redFmin (a : SReg) (b : SReg) (ty : Fin 8)
  /-- RED_FMAX (R215). Atomic FP maximum with no return. -/
  | redFmax (a : SReg) (b : SReg) (ty : Fin 8)
  /-- LD_ACQ (R223). Load that acts as an acquire at its scope. -/
  | ldAcq (d : SReg) (a : SReg) (scope : Fin 8) (sz : Fin 8)
  /-- ST_REL (R223). Store that acts as a release at its scope. -/
  | stRel (d : SReg) (a : SReg) (scope : Fin 8) (sz : Fin 8)
  /-- FENCE (R224). Orders the context's earlier accesses before later ones at a scope, optionally closing a press window. -/
  | fence (scope : Fin 8) (press : Bool)
  /-- BAR_ARRIVE (R226). Arrives at a barrier. -/
  | barArrive (bar : Fin 16)
  /-- BAR_WAIT (R226). Optionally arrives, then blocks until the barrier's phase advances. -/
  | barWait (bar : Fin 16) (arr : Bool)
  /-- BAR_DROP (R226). Drops the context from a barrier, lowering E. -/
  | barDrop (bar : Fin 16)
  /-- BAR_TWAIT (R228). Timed barrier wait returning COMPLETED or TIMEOUT. -/
  | barTwait (d : SReg) (a : SReg) (bar : Fin 16) (arr : Bool)
  /-- FLAG_SET (R230). Sets a flag in a flag object as a release. -/
  | flagSet (a : SReg) (b : SReg) (scope : Fin 8)
  /-- FLAG_WAIT (R230). Blocks until every flag in the mask has arrived, optionally timed. -/
  | flagWait (d : SReg) (a : SReg) (b : SReg) (timed : Bool) (scope : Fin 8)
  /-- FLAG_WAIT_ANY (R230). Blocks until a flag in the mask has arrived and returns the chosen index. -/
  | flagWaitAny (d : SReg) (a : SReg) (b : SReg) (timed : Bool) (scope : Fin 8)
  /-- TRIG (R231). Adds to a trigger counter, or resets it and cancels its armed commands. -/
  | trig (a : SReg) (b : SReg) (rst : Bool) (scope : Fin 8)
  /-- ARM (R231). Registers an engine command to fire when a trigger counter passes a threshold. -/
  | arm (d : SReg) (a : SReg) (b : SReg) (q : QReg)
  /-- CP (R238). Queues a copy command. -/
  | cp (q : QReg) (a : SReg) (c0 : QReg) (c1 : QReg) (c2 : Option QReg)
  /-- GATHER (R239). Queues a gather command. -/
  | gather (q : QReg) (a : SReg) (c0 : QReg) (c1 : QReg) (c2 : Option QReg)
  /-- SCATTER (R239). Queues a scatter command. -/
  | scatter (q : QReg) (a : SReg) (c0 : QReg) (c1 : QReg) (c2 : Option QReg)
  /-- COLL_RESHARD (R240). Queues a reshard of a distributed tensor on the thresher. -/
  | collReshard (q : QReg) (a : SReg) (c0 : QReg) (c1 : QReg) (c2 : Option QReg)
  /-- COMBINE (R244). Queues a fold of the staged contributions of a reduction window. -/
  | combine (q : QReg) (a : SReg) (c0 : QReg) (c1 : QReg) (c2 : Option QReg)
  /-- TOKWAIT (R248). Blocks until a token completes, then acts as an acquire. -/
  | tokwait (a : QReg) (okOnly : Bool)
  /-- TOKTEST (R248). Writes a token's state and status to a scalar. -/
  | toktest (d : SReg) (a : QReg)
  /-- TOKJOIN (R248). Produces a token that completes when its consumed tokens complete. -/
  | tokjoin (d : QReg) (a : QReg) (b : QReg) (c : QReg)
  /-- PHASE_BEGIN (R250). Opens a phase with a record, restart point and checkpoint. -/
  | phaseBegin (a : SReg)
  /-- PHASE_COMMIT (R251). Drains counters, waits for the gang's commit point and flips the input buffer. -/
  | phaseCommit (d : SReg)
  /-- CHK (R252). Compares two operands bit for bit and traps with CHECK_MISMATCH if they differ. -/
  | chk (a : SReg) (b : SReg) (kk : Fin 4)
  /-- TRAP (R254). Takes a SOFTWARE trap carrying CODE. -/
  | trap (code : Fin 32768)
  /-- HRULES (R323). Verifies a signed rule-set image and replaces the cluster's harrow rule table. -/
  | hrules (d : SReg) (a : SReg)
  /-- INVR (R365). Invalidates translations of a range package-wide and waits for the drain. -/
  | invr (d : SReg) (a : SReg) (b : SReg) (aa : Bool)
  /-- DETSET (R254). Enqueues a change of a work queue's DETL. -/
  | detset (a : SReg) (b : SReg)
  /-- NODE_DONE (R254). ORs a value into the node's DONEVAL. -/
  | nodeDone (a : SReg)
  /-- GRAPH_SIGNAL (R254). Posts an event to the queue's completion ring as a sys release. -/
  | graphSignal (a : SReg)
  /-- NOP (R120). Does nothing, belongs to no class and may stand in any slot. -/
  | nop
  /-- EXIT (R121). Ends the context after the other slots of its bundle, dropping it from every barrier it has not yet dropped. -/
  | exit
  /-- YIELD (R122). Makes the running context switchable after its bundle if another context is ready. -/
  | yield
  /-- RET (R113). Jump to the address in s31. -/
  | ret
  /-- ERET (R254). Returns to TRAPPC, restoring the mode and possibly opening a replay stretch. -/
  | eret
  /-- HFLUSH (R254). Flushes the context's harrow window. -/
  | hflush
  /-- BUNDLE_REISSUE (R18). A bundle blocked under R18 reissues from its start when its context runs again. -/
  | bundleReissue
  /-- LOAD_RETURN (R209). Returning load or AMO data writes its pending register through a free write port. -/
  | loadReturn
  /-- STORE_ACKNOWLEDGE (R208). A write performed at its home is acknowledged and releases its OCS count. -/
  | storeAcknowledge
  /-- MEMORY_ACCESS_PERFORM (R263). An access reaches its home slice and is performed there once its vector clock allows. -/
  | memoryAccessPerform
  /-- END_MARKER_RECEIPT (R269). A slice receives a mod-scope end marker and increments its DONE counter. -/
  | endMarkerReceipt
  /-- HOME_ATOMIC_PERFORM (R216). An atomic is applied at its home slice in arrival order. -/
  | homeAtomicPerform
  /-- PRESS_ENTRY_ARRIVAL (R217). A press atomic enters the press holding buffer in key order. -/
  | pressEntryArrival
  /-- PRESS_WINDOW_APPLY (R218). At a closing point the press merges and applies the gang's window in key order. -/
  | pressWindowApply
  /-- REMOTE_ATOMIC_RETRY (R220). A remote atomic with no response within the retry interval is re-sent with the same tag. -/
  | remoteAtomicRetry
  /-- SWITCH_CONTRIBUTION (R221). A plane switch receives a reduction-window contribution and merges or stages it. -/
  | switchContribution
  /-- SWITCH_ACCUMULATOR_WRITE (R409). Within 1 µs of its first unmerged contribution a switch writes its accumulator to the home. -/
  | switchAccumulatorWrite
  /-- COMBINE_FOLD (R244). The switch folds an element's staged contributions in source order and delivers the result. -/
  | combineFold
  /-- ENGINE_COMMAND_START (R235). A queued command starts, or is cancelled, once its consumed tokens complete. -/
  | engineCommandStart
  /-- ENGINE_COMMAND_COMPLETE (R235). A command finishes and its token completes OK, or FAULT on a failing access. -/
  | engineCommandComplete
  /-- RESHARD_DIGEST_EXCHANGE (R242). Once every rank has accepted, threshers compare block digests and run or fault the reshard. -/
  | reshardDigestExchange
  /-- RESHARD_CHUNK_READ (R243). A chunk is read once its trigger counter passes the threshold. -/
  | reshardChunkRead
  /-- TOKJOIN_COMPLETE (R248). A join token completes with the combined status when its inputs complete. -/
  | tokjoinComplete
  /-- TIMED_WAIT_EXPIRY (R228). A timed wait's expiry cycle passes and it returns TIMEOUT. -/
  | timedWaitExpiry
  /-- FENCE_SYS_ACKNOWLEDGE (R224). Every live furrow acknowledges a FENCE.sys marker and the fence unblocks. -/
  | fenceSysAcknowledge
  /-- TLD_COMPLETE (R187). The last TLD row is written, clearing WPEND and completing the token. -/
  | tldComplete
  /-- TST_COMPLETE (R187). Every TST row is performed, completing the token. -/
  | tstComplete
  /-- TILE_OP_COMPLETE (R185). A whole-tile instruction writes its last row and delivers its flags, possibly making FP_EXCEPTION due. -/
  | tileOpComplete
  /-- ARRAY_WINDOW_START (R171). An array issue window ends after W cycles or its stretching MMA, and the next begins. -/
  | arrayWindowStart
  /-- MMA_PROMOTION_COMPLETE (R157). A contribution's last promotion finishes, possibly making the link COMPLETE. -/
  | mmaPromotionComplete
  /-- HANDOFF_FORM (R158). A COMPLETE link with its inbound partial forms L with one rounding and shifts it out. -/
  | handoffForm
  /-- HANDOFF_ARRIVAL (R162). A hand-off's last row reaches the receiver's inbound buffer. -/
  | handoffArrival
  /-- CLOSE_ACT (R160). The tail's L is converted by the armed close and written to the destination. -/
  | closeAct
  /-- CLOSE_WRITTEN (R161). The close finishes writing: chain CLOSED, links DONE, flags ORed into FXF. -/
  | closeWritten
  /-- LINK_UNCORRECTABLE_ERROR (R166). An uncorrectable error hits a link, faulting it and freezing its chain, or is discarded. -/
  | linkUncorrectableError
  /-- DEFERRED_TRAP_DELIVERY (R370). At a bundle boundary the lowest-cause queued deferred trap is taken. -/
  | deferredTrapDelivery
  /-- HARROW_DECISION (R308). When the two-cycle harrow delay ends, the harrow matches rules for the head and applies at most one. -/
  | harrowDecision
  /-- TABLE_WALK_COMPLETE (R364). A page-table walk ends with a translation or PAGE_FAULT. -/
  | tableWalkComplete
  /-- INVR_ACKNOWLEDGE (R365). Once every old access has drained, the INVR is acknowledged and its bundle completes. -/
  | invrAcknowledge
  /-- CONTEXT_SLOT_FREE (R121). An exited context's slot becomes free when all its counters reach zero. -/
  | contextSlotFree
  /-- SLICE_SWITCH (R16). A time-sliced cluster swaps logical clusters after 32,768 cycles or when the running one has no ready context. -/
  | sliceSwitch
  /-- REGISTER_PARITY_REPLAY (R414). A register parity error is repaired by re-executing its producer from the replay queue. -/
  | registerParityReplay
  /-- REGISTER_UNCORRECTABLE (R381). A register error replay cannot repair traps at the reading bundle. -/
  | registerUncorrectable
  /-- ERROR_CONSUMED (R382). Poisoned data consumed inside an open phase aborts the gang's phase. -/
  | errorConsumed
  /-- PHASE_RESTART (R382). After the recopy, contexts restore their checkpoints and resume at the restart point. -/
  | phaseRestart
  /-- DOORBELL (R346). A doorbell write submits the packets between TAIL and the written value, or sets ERR. -/
  | doorbell
  /-- NOP_PACKET (R347). A NOP packet submits nothing and optionally writes a KIND-3 entry. -/
  | nopPacket
  /-- NODE_PACKET (R347). A NODE packet submits a one-node graph once the granary has room. -/
  | nodePacket
  /-- GRAPH_PACKET (R352). A GRAPH packet reads and checks a graph record and admits its nodes. -/
  | graphPacket
  /-- DETSET_PACKET (R348). A DETSET packet queues a change of the queue's DETL at its position. -/
  | detsetPacket
  /-- DETSET_TAKES_EFFECT (R348). Once earlier nodes have finished, the queue's DETL changes and later packets may be admitted. -/
  | detsetTakesEffect
  /-- NODE_DISPATCH (R28). The granary dispatches a ready node that fits and the sowers start its gang. -/
  | nodeDispatch
  /-- AGING_INTERVAL_EXPIRY (R28). A ready node that has waited one aging interval has its class number lowered. -/
  | agingIntervalExpiry
  /-- PREEMPT (R373). The granary pre-empts a gang, freezing its chains and saving links and contexts. -/
  | preempt
  /-- PREEMPT_ABANDON (R373). If owed writes do not finish within 65,536 cycles, the pre-emption is abandoned. -/
  | preemptAbandon
  /-- GANG_RESUME (R378). The sowers restore a pre-empted gang's links, chains, barriers and contexts. -/
  | gangResume
  /-- SAVE_BLOCK_ERROR (R378). An uncorrectable error in a save block kills the gang with status 0x69. -/
  | saveBlockError
  /-- NODE_COMPLETE (R27). All contexts have exited and tokens completed: resources are released and successors counted. -/
  | nodeComplete
  /-- DUAL_SECOND_RUN (R385). At DETL DUAL the operands are restored from the shadow and the node runs again. -/
  | dualSecondRun
  /-- COMPLETION_ENTRY_WRITE (R357). A completion entry is written when ring room allows, advancing CTAIL and raising MSI-X. -/
  | completionEntryWrite
  /-- REMAP_WRITE (R350). A BAR0 write of a REMAP entry records a new placement and stops placement on that logical cluster. -/
  | remapWrite
  /-- REMAP_TAKES_EFFECT (R350). A written REMAP entry takes effect once no gang is resident on its logical cluster. -/
  | remapTakesEffect
  /-- RESYNC (R358). Writing GO pauses admission and writes a snapshot summary. -/
  | resync
  /-- BAR0_REGISTER_WRITE (R344). A write of a BAR0 register without behaviour of its own stores its RW fields. -/
  | bar0RegisterWrite
  /-- HOST_BAR2_ACCESS (R260). A host access through BAR2 goes to HBM directly, bypassing L2. -/
  | hostBar2Access
  /-- HOST_CXL_MEM_ACCESS (R260). A host access through the CXL.mem window goes to the home slice. -/
  | hostCxlMemAccess
  /-- DEADLOCK_DELIVERY (R384). The driver delivers DEADLOCK to contexts blocked on a reported cycle. -/
  | deadlockDelivery
  /-- FLIT_CRC_FAILURE (R399). A flit failing after eight retries declares its furrow link dead. -/
  | flitCrcFailure
  /-- FURROW_SILENCE (R399). No credit return or idle flit for 4 µs declares the furrow link dead. -/
  | furrowSilence
  /-- PLANE_SWITCH_FAULT (R399). A plane switch's uncorrectable error declares its furrow dead. -/
  | planeSwitchFault
  /-- DEAD_FURROW_REPORT (R400). The domain master receives a dead-furrow report and starts a quiesce toward a new mask. -/
  | deadFurrowReport
  /-- QREQ (R400). A package stops injecting requests and begins draining toward the target mask. -/
  | qreq
  /-- DRAIN_COMPLETE (R401). A package finishes draining and sends DRAINED. -/
  | drainComplete
  /-- DRAINED (R400). The master receives a package's DRAINED message. -/
  | drained
  /-- INSTALL (R402). A package installs the new PMAP, moves press and trigger state and resets clocks. -/
  | install
  /-- INSTALLED (R400). The master receives a package's INSTALLED message. -/
  | installed
  /-- RESUME (R403). A package replays unanswered requests on the new furrows and releases held ones. -/
  | resume
  /-- QUIESCE_TIMEOUT (R404). A quiesce not resumed within 1 ms is reported as DOMAIN_FAIL. -/
  | quiesceTimeout
  /-- STATUS (R411). Returns boot stage, CAPS, firmware, power and save-region figures. -/
  | status
  /-- COUNTERS (R413). Returns the counter block. -/
  | counters
  /-- CLRCNT (R413). Zeroes every counter except STATE fields. -/
  | clrcnt
  /-- SETPFT (R415). Sets an array's predictive-failure threshold. -/
  | setpft
  /-- SETUV (R415). Sets a die's undervolt offset and clears its arrays' strikes. -/
  | setuv
  /-- SETPCAP (R422). Sets the module power cap. -/
  | setpcap
  /-- ARRAYOUT (R416). Takes an array's cluster out of service by rewriting a REMAP entry. -/
  | arrayout
  /-- ARRAYIN (R416). Returns an array's cluster to service and clears its strikes. -/
  | arrayin
  /-- KILL (R379). Kills a gang with the containment of R379 and R380. -/
  | kill
  /-- FALLOW (R399). Operator command that declares a furrow dead. -/
  | fallow
  /-- RESTORE (R405). Runs a quiesce returning a repaired furrow to service. -/
  | restore
  /-- WINREG (R408). Registers a multi-chip reduction window on every live plane switch. -/
  | winreg
  /-- WINDEL (R408). Removes a reduction window and discards its staging. -/
  | windel
  /-- ATTEST (R419). Returns a signed attestation of firmware, rule tables and time. -/
  | attest
  /-- EVENTS (R412). Returns and removes up to 16 events from the event ring. -/
  | events
  /-- KEYUPD (R411). Replaces the rule-signing key from the next reset. -/
  | keyupd
  /-- FWUPD (R418). Stages a signed firmware image for the next reset. -/
  | fwupd
  /-- SETSAVE (R420). Sets the save region's size from the next reset. -/
  | setsave
  /-- SETTIME (R421). Sets WALLNS in one step. -/
  | settime
  /-- SLEWTIME (R421). Sets the rate at which WALLNS advances. -/
  | slewtime
  /-- PLDM_SENSOR_READ (R411). Returns a power, temperature or voltage sensor reading. -/
  | pldmSensorRead
  /-- ERROR_WINDOW_END (R415). At the end of each one-second window, each array's corrected count is judged against its threshold. -/
  | errorWindowEnd
  /-- WAIT_FOR_WALK (R417). Every 10 ms the management core searches the wait-for table for closed sets. -/
  | waitForWalk
  /-- POWER_OVER_CAP (R422). Measured power above the cap lowers array and vector duty. -/
  | powerOverCap
  /-- PACKAGE_RESET (R418). Reset verifies firmware, trains HBM, reserves the save region, resets PMAP, joins the domain and enables doorbells. -/
  | packageReset
  /-- UNASSIGNED_ENCODING (R95). A slot word that no instruction assigns (reserved major, major 0x3E, reserved minor) reaches issue and traps with ILLEGAL_INSTR. -/
  | unassignedEncoding
  /-- BUNDLE_FETCH_FAULT (R114). A context reaches a bundle that cannot be fetched, and the translation fault is reported against that bundle with SLOT 0. -/
  | bundleFetchFault
  /-- DUAL_SHADOW_ERROR (R420). An uncorrectable error in a DETL DUAL shadow fails the node with status 0x69. -/
  | dualShadowError
  deriving DecidableEq, Repr

end Sys2Proof
end

