-- ==== Sys2Proof/WellFormed.lean ====
section
/-! DEFINITION. Which terms of Instr are instructions: the limits that the chapters set on field values
(a breach traps with ILLEGAL_INSTR, 03 R95), and the limits of the encoding itself. -/
namespace Sys2Proof

/-- Whether a scalar register name needs its extension bit (03 R66). -/
def high (r : SReg) : Bool := decide (32 ≤ r.val)

/-- The extension byte of a signed imm of n bits; none where n bits hold it (03 R87). -/
def signedByte (n : Nat) (v : Int) : Option Nat :=
  if -(2 ^ (n - 1)) ≤ v ∧ v < 2 ^ (n - 1) then none else some ((v % 2 ^ (n + 8)) / 2 ^ n).toNat

/-- The extension byte of a natural imm of 12 bits; none where they hold it (04 R101). -/
def naturalByte (v : Nat) : Option Nat := if v < 2 ^ 12 then none else some (v / 2 ^ 12 % 256)

/-- The extension byte that names a third consumed token (09 R233). -/
def tokenByte : Option QReg → Option Nat
  | none => none
  | some q => some (128 + q.val)

/-- SZ codes of loads and stores (08 R210): stores have no extending forms. -/
def loadSize (sz : Fin 8) : Bool := decide (sz.val < 7)
/-- SZ codes of stores (08 R210). -/
def storeSize (sz : Fin 8) : Bool := decide (sz.val < 4)
/-- Integer TYPE codes of atomics (08 R214). -/
def intType (ty : Fin 8) : Bool := decide (ty.val < 4)
/-- Floating-point TYPE codes of atomics (08 R214). -/
def floatType (ty : Fin 8) : Bool := decide (ty.val = 4 ∨ ty.val = 5)
/-- Any assigned TYPE code (08 R214). -/
def anyType (ty : Fin 8) : Bool := decide (ty.val < 6)
/-- SCOPE codes (08 R223). -/
def scopeOk (sc : Fin 8) : Bool := decide (sc.val < 5)

/-- The ratio of the wide to the narrow type of a VPACK or VUNPACK code, 0 for a reserved code (05 R141). -/
def packRatio (pc : Nat) : Nat :=
  match pc with
  | 0x00 => 2 | 0x01 => 2 | 0x02 => 4 | 0x03 => 4 | 0x04 => 8 | 0x05 => 2 | 0x06 => 4 | 0x07 => 4
  | 0x09 => 2 | 0x0A => 4 | 0x0B => 4 | 0x0C => 2 | 0x0D => 4 | 0x0E => 2 | 0x0F => 4
  | 0x10 => 2 | 0x11 => 2 | 0x12 => 2 | 0x13 => 2
  | _ => 0

/-- The ratio of an MX code of VMXNORM or VMXSCALE, 0 for a reserved code (05 R142). -/
def mxRatio (xc : Nat) : Nat :=
  match xc with
  | 0 => 4 | 1 => 4 | 2 => 8 | 3 => 4
  | _ => 0

/-- The assigned CSR addresses (03 R67). -/
def csrAssigned (a : Nat) : Bool :=
  decide (a ∈ [0x000, 0x001, 0x002, 0x010, 0x011, 0x012, 0x013, 0x014, 0x020, 0x030, 0x031, 0x032,
    0x040, 0x041, 0x042, 0x043, 0x044, 0x045, 0x046, 0x047, 0x050, 0x060, 0x070, 0x071, 0x072, 0x073,
    0x074, 0x075, 0x080, 0x081, 0x090, 0x0A0, 0x0A1])

/-- Operands that name no scalar register in one variant of a form stay below 32: the vector result of a row
reduction (05 R143), the tile of a CHAIN.CLOSE (07 R195), the vectors and predicates of CHK (09 R249), B of a sidecar
form (08 R211), D of a FLAG.WAIT without a time limit and of an INVR of a whole address space (08 R230, 09 R254). -/
def variantOk : Instr → Bool
  | .vredFsum d _ row _ _ => !row || decide (d.val < 32)
  | .vredFmin d _ row _ => !row || decide (d.val < 32)
  | .vredFmax d _ row _ => !row || decide (d.val < 32)
  | .vredIsum d _ row _ _ _ => !row || decide (d.val < 32)
  | .vredImin d _ row _ => !row || decide (d.val < 32)
  | .vredImax d _ row _ => !row || decide (d.val < 32)
  | .vredNmin d _ row _ => !row || decide (d.val < 32)
  | .vredNmax d _ row _ => !row || decide (d.val < 32)
  | .chainClose _ a _ _ dst => dst || decide (a.val < 32)
  | .chk a b kk => decide (kk.val = 0) || decide (a.val < 32 ∧ b.val < 32)
  | .vld _ _ b _ scr _ => !scr || decide (b.val < 32)
  | .vst _ _ b _ scr _ => !scr || decide (b.val < 32)
  | .flagWait d _ _ timed _ => timed || decide (d.val < 32)
  | .invr d _ _ aa => !aa || decide (d.val < 32)
  | _ => true

/-- Which of the fields D, A and B name a scalar register above s31, so that a kind-00 header is needed (03 R66). -/
def Instr.highBits : Instr → Bool × Bool × Bool
  | .add d a b _ => (high d, high a, high b)
  | .sub d a b _ => (high d, high a, high b)
  | .mul d a b _ => (high d, high a, high b)
  | .mulh d a b _ => (high d, high a, high b)
  | .mulhn d a b _ => (high d, high a, high b)
  | .div d a b _ => (high d, high a, high b)
  | .divn d a b _ => (high d, high a, high b)
  | .rem d a b _ => (high d, high a, high b)
  | .remn d a b _ => (high d, high a, high b)
  | .and d a b _ => (high d, high a, high b)
  | .or d a b _ => (high d, high a, high b)
  | .xor d a b _ => (high d, high a, high b)
  | .andn d a b _ => (high d, high a, high b)
  | .shl d a b _ => (high d, high a, high b)
  | .shr d a b _ => (high d, high a, high b)
  | .sra d a b _ => (high d, high a, high b)
  | .rotl d a b _ => (high d, high a, high b)
  | .min d a b _ => (high d, high a, high b)
  | .minn d a b _ => (high d, high a, high b)
  | .max d a b _ => (high d, high a, high b)
  | .maxn d a b _ => (high d, high a, high b)
  | .clz d a _ => (high d, high a, false)
  | .ctz d a _ => (high d, high a, false)
  | .popc d a _ => (high d, high a, false)
  | .addImm d a _ => (high d, high a, false)
  | .mulImm d a _ => (high d, high a, false)
  | .andImm d a _ => (high d, high a, false)
  | .orImm d a _ => (high d, high a, false)
  | .xorImm d a _ => (high d, high a, false)
  | .andnImm d a _ => (high d, high a, false)
  | .shlImm d a _ => (high d, high a, false)
  | .shrImm d a _ => (high d, high a, false)
  | .sraImm d a _ => (high d, high a, false)
  | .rotlImm d a _ => (high d, high a, false)
  | .minImm d a _ => (high d, high a, false)
  | .minnImm d a _ => (high d, high a, false)
  | .maxImm d a _ => (high d, high a, false)
  | .maxnImm d a _ => (high d, high a, false)
  | .movi d _ => (high d, false, false)
  | .movhi d _ _ => (high d, false, false)
  | .cmpEq _ a b _ => (false, high a, high b)
  | .cmpNe _ a b _ => (false, high a, high b)
  | .cmpLt _ a b _ => (false, high a, high b)
  | .cmpGe _ a b _ => (false, high a, high b)
  | .cmpLtn _ a b _ => (false, high a, high b)
  | .cmpGen _ a b _ => (false, high a, high b)
  | .sel d a b _ => (high d, high a, high b)
  | .bfx d a _ _ _ => (high d, high a, false)
  | .bfi d a _ _ => (high d, high a, false)
  | .lea d a b _ => (high d, high a, high b)
  | .csrr d _ => (high d, false, false)
  | .csrw d a _ => (high d, high a, false)
  | .csrs d a _ => (high d, high a, false)
  | .csrc d a _ => (high d, high a, false)
  | .jmpr a => (false, high a, false)
  | .callr a => (false, high a, false)
  | .loopSt _ a _ => (false, high a, false)
  | .fadd _ d a b _ => (high d, high a, high b)
  | .fsub _ d a b _ => (high d, high a, high b)
  | .fmul _ d a b _ => (high d, high a, high b)
  | .fdiv _ d a b _ => (high d, high a, high b)
  | .fsqrt _ d a _ => (high d, high a, false)
  | .fma _ d a b _ => (high d, high a, high b)
  | .fms _ d a b _ => (high d, high a, high b)
  | .fnma _ d a b _ => (high d, high a, high b)
  | .fmin _ d a b => (high d, high a, high b)
  | .fmax _ d a b => (high d, high a, high b)
  | .fneg _ d a => (high d, high a, false)
  | .fabs _ d a => (high d, high a, false)
  | .fcpsgn _ d a b => (high d, high a, high b)
  | .fmov _ d a => (high d, high a, false)
  | .fcmpEq _ a b _ => (false, high a, high b)
  | .fcmpLt _ a b _ => (false, high a, high b)
  | .fcmpLe _ a b _ => (false, high a, high b)
  | .fcmpUn _ a b _ => (false, high a, high b)
  | .fclass d a _ => (high d, high a, false)
  | .fcvt d a _ _ _ _ => (high d, high a, false)
  | .frint d a _ _ => (high d, high a, false)
  | .fexp d a _ _ => (high d, high a, false)
  | .fexp2 d a _ _ => (high d, high a, false)
  | .flog d a _ _ => (high d, high a, false)
  | .flog2 d a _ _ => (high d, high a, false)
  | .ferf d a _ _ => (high d, high a, false)
  | .ferfc d a _ _ => (high d, high a, false)
  | .frcp d a _ _ => (high d, high a, false)
  | .frsq d a _ _ => (high d, high a, false)
  | .frcps d a b _ _ => (high d, high a, high b)
  | .frsqs d a b _ _ => (high d, high a, high b)
  | .vredFsum d _ _ _ _ => (high d, false, false)
  | .vredFmin d _ _ _ => (high d, false, false)
  | .vredFmax d _ _ _ => (high d, false, false)
  | .vredIsum d _ _ _ _ _ => (high d, false, false)
  | .vredImin d _ _ _ => (high d, false, false)
  | .vredImax d _ _ _ => (high d, false, false)
  | .vredNmin d _ _ _ => (high d, false, false)
  | .vredNmax d _ _ _ => (high d, false, false)
  | .vbcast _ a _ => (false, high a, false)
  | .vextr d _ b => (high d, false, high b)
  | .mpopc d _ => (high d, false, false)
  | .vxb _ _ b _ => (false, false, high b)
  | .tscale _ _ b _ => (false, false, high b)
  | .tmovFromVector _ _ b => (false, false, high b)
  | .tmovToVector _ _ b => (false, false, high b)
  | .tfill _ a => (false, high a, false)
  | .tld _ a b _ _ => (false, high a, high b)
  | .tst _ a b _ _ => (false, high a, high b)
  | .chainBuild _ a _ => (false, high a, false)
  | .chainClose _ a b _ _ => (false, high a, high b)
  | .chainStat d a _ _ => (high d, high a, false)
  | .chainSplice _ a _ => (false, high a, false)
  | .ld d a _ _ _ => (high d, high a, false)
  | .st d a _ _ _ => (high d, high a, false)
  | .vld _ a b _ _ _ => (false, high a, high b)
  | .vst _ a b _ _ _ => (false, high a, high b)
  | .pref a b _ => (false, high a, high b)
  | .clean a b _ => (false, high a, high b)
  | .invl a b => (false, high a, high b)
  | .amoSwap d a b _ => (high d, high a, high b)
  | .amoCas d a b _ => (high d, high a, high b)
  | .amoAdd d a b _ => (high d, high a, high b)
  | .amoAnd d a b _ => (high d, high a, high b)
  | .amoOr d a b _ => (high d, high a, high b)
  | .amoXor d a b _ => (high d, high a, high b)
  | .amoMin d a b _ => (high d, high a, high b)
  | .amoMax d a b _ => (high d, high a, high b)
  | .amoFadd d a b _ => (high d, high a, high b)
  | .amoFmin d a b _ => (high d, high a, high b)
  | .amoFmax d a b _ => (high d, high a, high b)
  | .redAdd a b _ => (false, high a, high b)
  | .redAnd a b _ => (false, high a, high b)
  | .redOr a b _ => (false, high a, high b)
  | .redXor a b _ => (false, high a, high b)
  | .redMin a b _ => (false, high a, high b)
  | .redMax a b _ => (false, high a, high b)
  | .redFadd a b _ => (false, high a, high b)
  | .redFmin a b _ => (false, high a, high b)
  | .redFmax a b _ => (false, high a, high b)
  | .ldAcq d a _ _ => (high d, high a, false)
  | .stRel d a _ _ => (high d, high a, false)
  | .barTwait d a _ _ => (high d, high a, false)
  | .flagSet a b _ => (false, high a, high b)
  | .flagWait d a b _ _ => (high d, high a, high b)
  | .flagWaitAny d a b _ _ => (high d, high a, high b)
  | .trig a b _ _ => (false, high a, high b)
  | .arm d a b _ => (high d, high a, high b)
  | .cp _ a _ _ _ => (false, high a, false)
  | .gather _ a _ _ _ => (false, high a, false)
  | .scatter _ a _ _ _ => (false, high a, false)
  | .collReshard _ a _ _ _ => (false, high a, false)
  | .combine _ a _ _ _ => (false, high a, false)
  | .toktest d _ => (high d, false, false)
  | .phaseBegin a => (false, high a, false)
  | .phaseCommit d => (high d, false, false)
  | .chk a b _ => (false, high a, high b)
  | .hrules d a => (high d, high a, false)
  | .invr d a b _ => (high d, high a, high b)
  | .detset a b => (false, high a, high b)
  | .nodeDone a => (false, high a, false)
  | .graphSignal a => (false, high a, false)
  | _ => (false, false, false)
/-- The extension byte that a kind-01 header must give the slot, none where the narrow imm holds the value (03 R87). -/
def Instr.immByte : Instr → Option Nat
  | .addImm _ _ imm => signedByte 12 imm
  | .mulImm _ _ imm => signedByte 12 imm
  | .andImm _ _ imm => signedByte 12 imm
  | .orImm _ _ imm => signedByte 12 imm
  | .xorImm _ _ imm => signedByte 12 imm
  | .andnImm _ _ imm => signedByte 12 imm
  | .minImm _ _ imm => signedByte 12 imm
  | .minnImm _ _ imm => naturalByte imm
  | .maxImm _ _ imm => signedByte 12 imm
  | .maxnImm _ _ imm => naturalByte imm
  | .movi _ imm => signedByte 21 imm
  | .br _ _ imm => signedByte 21 imm
  | .jmp imm => signedByte 25 imm
  | .call imm => signedByte 25 imm
  | .loopSt _ _ imm => signedByte 16 imm
  | .loopBr imm => signedByte 25 imm
  | .ld _ _ imm _ _ => signedByte 12 imm
  | .st _ _ imm _ _ => signedByte 12 imm
  | .cp _ _ _ _ c2 => tokenByte c2
  | .gather _ _ _ _ c2 => tokenByte c2
  | .scatter _ _ _ _ c2 => tokenByte c2
  | .collReshard _ _ _ _ c2 => tokenByte c2
  | .combine _ _ _ _ c2 => tokenByte c2
  | _ => none
/-- The range of the field named imm, narrow or widened (03 R87). -/
def Instr.immInRange : Instr → Bool
  | .addImm _ _ imm => decide (-(2 ^ 19) ≤ imm) && decide (imm < 2 ^ 19)
  | .mulImm _ _ imm => decide (-(2 ^ 19) ≤ imm) && decide (imm < 2 ^ 19)
  | .andImm _ _ imm => decide (-(2 ^ 19) ≤ imm) && decide (imm < 2 ^ 19)
  | .orImm _ _ imm => decide (-(2 ^ 19) ≤ imm) && decide (imm < 2 ^ 19)
  | .xorImm _ _ imm => decide (-(2 ^ 19) ≤ imm) && decide (imm < 2 ^ 19)
  | .andnImm _ _ imm => decide (-(2 ^ 19) ≤ imm) && decide (imm < 2 ^ 19)
  | .minImm _ _ imm => decide (-(2 ^ 19) ≤ imm) && decide (imm < 2 ^ 19)
  | .minnImm _ _ imm => decide (imm < 2 ^ 20)
  | .maxImm _ _ imm => decide (-(2 ^ 19) ≤ imm) && decide (imm < 2 ^ 19)
  | .maxnImm _ _ imm => decide (imm < 2 ^ 20)
  | .movi _ imm => decide (-(2 ^ 28) ≤ imm) && decide (imm < 2 ^ 28)
  | .br _ _ imm => decide (-(2 ^ 28) ≤ imm) && decide (imm < 2 ^ 28)
  | .jmp imm => decide (-(2 ^ 32) ≤ imm) && decide (imm < 2 ^ 32)
  | .call imm => decide (-(2 ^ 32) ≤ imm) && decide (imm < 2 ^ 32)
  | .loopSt _ _ imm => decide (-(2 ^ 23) ≤ imm) && decide (imm < 2 ^ 23)
  | .loopBr imm => decide (-(2 ^ 32) ≤ imm) && decide (imm < 2 ^ 32)
  | .ld _ _ imm _ _ => decide (-(2 ^ 19) ≤ imm) && decide (imm < 2 ^ 19)
  | .st _ _ imm _ _ => decide (-(2 ^ 19) ≤ imm) && decide (imm < 2 ^ 19)
  | _ => true

/-- The limits on field values that the instruction chapters set: where one is broken the slot traps with
ILLEGAL_INSTR as a decode-time trap (03 R95). -/
def Instr.limits : Instr → Bool
  | .csrr _ c | .csrw _ _ c | .csrs _ _ c | .csrc _ _ c => csrAssigned c.val
  | .bfx _ _ pos lm1 _ => decide (pos.val + lm1.val + 1 ≤ 64)
  | .bfi _ _ pos lm1 => decide (pos.val + lm1.val + 1 ≤ 64)
  | .loopSt sc _ _ => decide (1 ≤ sc.val ∧ sc.val ≤ 8)
  | .wait nld nst ncp ntl => decide (nld.val ≤ 64 ∧ nst.val ≤ 64 ∧ ncp.val ≤ 32 ∧ ntl.val ≤ 16)
  | .fcvt _ _ ot _ _ f64 => decide (ot.val ≠ 15) && (if f64 then decide (ot.val ≠ 0) else decide (ot.val ≠ 1))
  | .vadd _ _ _ sat nat _ => sat || !nat
  | .vsub _ _ _ sat nat _ => sat || !nat
  | .vcvt _ _ cc _ _ => decide (cc.val < 16)
  | .vpack _ _ cc _ part => decide (part.val < packRatio cc.val)
  | .vunpack _ _ cc part => decide (part.val < packRatio cc.val)
  | .vmxnorm _ _ cc _ part => decide (part.val < mxRatio cc.val)
  | .vmxscale _ _ cc _ part => decide (part.val < mxRatio cc.val)
  | .vcmp _ _ _ cc _ => decide (cc.val < 6)
  | .vfcmp _ _ _ cc _ => decide (cc.val < 4)
  | .ld _ _ _ _ sz => loadSize sz
  | .st _ _ _ _ sz => storeSize sz
  | .vld _ _ b _ scr mk => !scr || (decide (b = 0) && decide (mk = 0))
  | .vst _ _ b _ scr mk => !scr || (decide (b = 0) && decide (mk = 0))
  | .pref _ _ lvl => decide (lvl.val < 2)
  | .clean _ _ lvl => decide (lvl.val < 2)
  | .amoSwap _ _ _ ty | .amoCas _ _ _ ty => anyType ty
  | .amoAdd _ _ _ ty | .amoAnd _ _ _ ty | .amoOr _ _ _ ty | .amoXor _ _ _ ty => intType ty
  | .amoMin _ _ _ ty | .amoMax _ _ _ ty => intType ty
  | .amoFadd _ _ _ ty | .amoFmin _ _ _ ty | .amoFmax _ _ _ ty => floatType ty
  | .redAdd _ _ ty | .redAnd _ _ ty | .redOr _ _ ty | .redXor _ _ ty => intType ty
  | .redMin _ _ ty | .redMax _ _ ty => intType ty
  | .redFadd _ _ ty | .redFmin _ _ ty | .redFmax _ _ ty => floatType ty
  | .ldAcq _ _ scope sz => scopeOk scope && loadSize sz
  | .stRel _ _ scope sz => scopeOk scope && storeSize sz
  | .fence scope _ => scopeOk scope
  | .flagSet _ _ scope => scopeOk scope
  | .flagWait d _ _ timed scope => scopeOk scope && (timed || decide (d = 0))
  | .flagWaitAny _ _ _ _ scope => scopeOk scope
  | .trig _ _ _ scope => scopeOk scope
  | .chk a b kk => decide (kk.val < 3) && (decide (kk.val ≠ 2) || decide (a.val < 16 ∧ b.val < 16))
  | .invr d _ _ aa => !aa || decide (d = 0)
  | .chainClose _ a _ _ dst => dst || decide (a.val < 8)
  | _ => true

/-- The limits of the encoding that the types do not carry: what imm can hold, and that one header cannot give
both extension bits and an extension byte (03 R87). -/
def Instr.encodable (i : Instr) : Bool :=
  i.immInRange && variantOk i
    && (i.immByte.isNone || (let (d, a, b) := i.highBits; !d && !a && !b))

/-- An instruction of the machine: encodable, and within the limits of its chapter. -/
def WellFormed (i : Instr) : Bool := i.encodable && i.limits

end Sys2Proof
end

