-- ==== Sys2Proof/Decode.lean ====
section
/-! DEFINITION. The decoder of a slot word (03 R86, R87, R93 to R95) and, after it, the encoder.
A word is read as a natural number; its bit 0 is the least significant bit of the slot. -/
namespace Sys2Proof

/-- Why a slot word is no instruction (03 R95): a breach that makes the whole bundle illegal, or an encoding
of the slot that no instruction assigns. -/
inductive DecodeError where
  | illegalBundle
  | illegalInstr
  deriving DecidableEq, Repr

/-- The field of a word that starts at bit lo and has n bits. -/
def fld (w lo n : Nat) : Nat := w / 2 ^ lo % 2 ^ n
/-- A field read as a number below n; n is two to the power of the field's width. -/
def fin (n w lo : Nat) [NeZero n] : Fin n := Fin.ofNat n (w / 2 ^ lo)
/-- One bit of a word. -/
def bit (w lo : Nat) : Bool := w / 2 ^ lo % 2 == 1

/-- Bit 5 of field D, from a kind-00 header (03 R66, R87). -/
def Ext.dBit : Ext → Nat
  | .regs d _ _ => d.toNat
  | _ => 0
/-- Bit 5 of field A (03 R66, R87). -/
def Ext.aBit : Ext → Nat
  | .regs _ a _ => a.toNat
  | _ => 0
/-- Bit 5 of field B (03 R66, R87). -/
def Ext.bBit : Ext → Nat
  | .regs _ _ b => b.toNat
  | _ => 0

/-- Scalar field D at [25:21] with its extension bit (03 R66, R94). -/
def sD (w : Nat) (x : Ext) : SReg := Fin.ofNat 64 (w / 2 ^ 21 % 32 + 32 * x.dBit)
/-- Scalar field A at [20:16] with its extension bit. -/
def sA (w : Nat) (x : Ext) : SReg := Fin.ofNat 64 (w / 2 ^ 16 % 32 + 32 * x.aBit)
/-- Scalar field B at [15:11] with its extension bit. -/
def sB (w : Nat) (x : Ext) : SReg := Fin.ofNat 64 (w / 2 ^ 11 % 32 + 32 * x.bBit)

/-- A number of n bits read as two's complement. -/
def sext (n v : Nat) : Int := if v < 2 ^ (n - 1) then (v : Int) else (v : Int) - 2 ^ n

/-- A signed imm of n bits from bit lo, widened by a kind-01 header to n + 8 (03 R87). -/
def simm (lo n w : Nat) (x : Ext) : Int :=
  match x with
  | .imm e => sext (n + 8) (fld w lo n + e * 2 ^ n)
  | _ => sext n (fld w lo n)

/-- A natural imm of n bits, widened by a kind-01 header (03 R87, 04 R101). -/
def uimm (n w : Nat) (x : Ext) : Nat :=
  match x with
  | .imm e => fld w 0 n + e * 2 ^ n
  | _ => fld w 0 n

/-- The third consumed token of an engine instruction, from its extension byte (09 R233). -/
def thirdToken : Ext → Option QReg
  | .imm e => if e / 128 % 2 = 1 then some (Fin.ofNat 32 e) else none
  | _ => none

/-- The rounding field at [5:3] (02 R43); 0b101 and 0b110 are reserved. -/
def rmOf (w : Nat) : Option Rm :=
  match fld w 3 3 with
  | 0 => some .rne
  | 1 => some .rtz
  | 2 => some .rdn
  | 3 => some .rup
  | 4 => some .rmm
  | 7 => some .dyn
  | _ => none

/-- Whether the header's additions to a slot are allowed for its fields (03 R66, R87): an extension bit only
where the field names a scalar register, an extension byte only where there is a field imm. -/
def extOk (x : Ext) (d a b imm : Bool) : Bool :=
  match x with
  | .none => true
  | .regs dx ax bx => (!dx || d) && (!ax || a) && (!bx || b)
  | .imm e => imm || e == 0

/-- The fixed fields of a form: each (lo, n, v) says that the n bits from lo hold v. Reserved fields hold 0
(03 R94, R95). -/
def fixedOk (w : Nat) : List (Nat × Nat × Nat) → Bool
  | [] => true
  | (lo, n, v) :: l => fld w lo n == v && fixedOk w l

/-- One decoded form: the extension rules first, then the fixed fields (03 R95). -/
def form (w : Nat) (x : Ext) (d a b imm : Bool) (fixed : List (Nat × Nat × Nat)) (i : Instr) :
    Except DecodeError Instr :=
  if !extOk x d a b imm then .error .illegalBundle
  else if fixedOk w fixed then .ok i
  else .error .illegalInstr

/-- A form with a rounding field (02 R43). -/
def formRm (w : Nat) (x : Ext) (d a b imm : Bool) (fixed : List (Nat × Nat × Nat)) (i : Rm → Instr) :
    Except DecodeError Instr :=
  match rmOf w with
  | some rm => form w x d a b imm fixed (i rm)
  | none => if !extOk x d a b imm then .error .illegalBundle else .error .illegalInstr

/-- A word that no instruction assigns: it names no register, so any header bit for it is a bundle breach
(03 R66, R95). -/
def unassigned (x : Ext) : Except DecodeError Instr :=
  if extOk x false false false false then .error .illegalInstr else .error .illegalBundle
/-- The extension byte of a kind-01 header, 0 without one. -/
def extImm : Ext → Nat
  | .imm e => e
  | _ => 0
/-- Major 0x00 (03 R93). -/
def decodeMajor00 (w : Nat) (x : Ext) : Except DecodeError Instr :=
  match fld w 6 5 with
  | 0 => form w x false false false false [(0, 26, 0)] (.nop)
  | 1 => form w x false false false false [(0, 26, 64)] (.exit)
  | 2 => form w x false false false false [(0, 26, 128)] (.yield)
  | _ => unassigned x

/-- Major 0x01 (03 R93). -/
def decodeMajor01 (w : Nat) (x : Ext) : Except DecodeError Instr :=
  match fld w 6 5 with
  | 0 => form w x true true true false [(1, 10, 0)] (.add (sD w x) (sA w x) (sB w x) (bit w 0))
  | 1 => form w x true true true false [(1, 10, 32)] (.sub (sD w x) (sA w x) (sB w x) (bit w 0))
  | 2 => form w x true true true false [(1, 10, 64)] (.mul (sD w x) (sA w x) (sB w x) (bit w 0))
  | 3 => form w x true true true false [(1, 10, 96)] (.mulh (sD w x) (sA w x) (sB w x) (bit w 0))
  | 4 => form w x true true true false [(1, 10, 128)] (.mulhn (sD w x) (sA w x) (sB w x) (bit w 0))
  | 5 => form w x true true true false [(1, 10, 160)] (.div (sD w x) (sA w x) (sB w x) (bit w 0))
  | 6 => form w x true true true false [(1, 10, 192)] (.divn (sD w x) (sA w x) (sB w x) (bit w 0))
  | 7 => form w x true true true false [(1, 10, 224)] (.rem (sD w x) (sA w x) (sB w x) (bit w 0))
  | 8 => form w x true true true false [(1, 10, 256)] (.remn (sD w x) (sA w x) (sB w x) (bit w 0))
  | 9 => form w x true true true false [(1, 10, 288)] (.and (sD w x) (sA w x) (sB w x) (bit w 0))
  | 10 => form w x true true true false [(1, 10, 320)] (.or (sD w x) (sA w x) (sB w x) (bit w 0))
  | 11 => form w x true true true false [(1, 10, 352)] (.xor (sD w x) (sA w x) (sB w x) (bit w 0))
  | 12 => form w x true true true false [(1, 10, 384)] (.andn (sD w x) (sA w x) (sB w x) (bit w 0))
  | 13 => form w x true true true false [(1, 10, 416)] (.shl (sD w x) (sA w x) (sB w x) (bit w 0))
  | 14 => form w x true true true false [(1, 10, 448)] (.shr (sD w x) (sA w x) (sB w x) (bit w 0))
  | 15 => form w x true true true false [(1, 10, 480)] (.sra (sD w x) (sA w x) (sB w x) (bit w 0))
  | 16 => form w x true true true false [(1, 10, 512)] (.rotl (sD w x) (sA w x) (sB w x) (bit w 0))
  | 17 => form w x true true true false [(1, 10, 544)] (.min (sD w x) (sA w x) (sB w x) (bit w 0))
  | 18 => form w x true true true false [(1, 10, 576)] (.minn (sD w x) (sA w x) (sB w x) (bit w 0))
  | 19 => form w x true true true false [(1, 10, 608)] (.max (sD w x) (sA w x) (sB w x) (bit w 0))
  | 20 => form w x true true true false [(1, 10, 640)] (.maxn (sD w x) (sA w x) (sB w x) (bit w 0))
  | 21 => form w x true true false false [(1, 15, 672)] (.clz (sD w x) (sA w x) (bit w 0))
  | 22 => form w x true true false false [(1, 15, 704)] (.ctz (sD w x) (sA w x) (bit w 0))
  | 23 => form w x true true false false [(1, 15, 736)] (.popc (sD w x) (sA w x) (bit w 0))
  | _ => unassigned x

/-- Major 0x02 (03 R93). -/
def decodeMajor02 (w : Nat) (x : Ext) : Except DecodeError Instr :=
  match fld w 12 4 with
  | 0 => form w x true true false true [(12, 4, 0)] (.addImm (sD w x) (sA w x) (simm 0 12 w x))
  | 1 => form w x true true false true [(12, 4, 1)] (.mulImm (sD w x) (sA w x) (simm 0 12 w x))
  | 2 => form w x true true false true [(12, 4, 2)] (.andImm (sD w x) (sA w x) (simm 0 12 w x))
  | 3 => form w x true true false true [(12, 4, 3)] (.orImm (sD w x) (sA w x) (simm 0 12 w x))
  | 4 => form w x true true false true [(12, 4, 4)] (.xorImm (sD w x) (sA w x) (simm 0 12 w x))
  | 5 => form w x true true false true [(12, 4, 5)] (.andnImm (sD w x) (sA w x) (simm 0 12 w x))
  | 6 => if extImm x ≠ 0 then .error .illegalInstr else form w x true true false true [(6, 10, 384)] (.shlImm (sD w x) (sA w x) (fin 64 w 0))
  | 7 => if extImm x ≠ 0 then .error .illegalInstr else form w x true true false true [(6, 10, 448)] (.shrImm (sD w x) (sA w x) (fin 64 w 0))
  | 8 => if extImm x ≠ 0 then .error .illegalInstr else form w x true true false true [(6, 10, 512)] (.sraImm (sD w x) (sA w x) (fin 64 w 0))
  | 9 => if extImm x ≠ 0 then .error .illegalInstr else form w x true true false true [(6, 10, 576)] (.rotlImm (sD w x) (sA w x) (fin 64 w 0))
  | 10 => form w x true true false true [(12, 4, 10)] (.minImm (sD w x) (sA w x) (simm 0 12 w x))
  | 11 => form w x true true false true [(12, 4, 11)] (.minnImm (sD w x) (sA w x) (uimm 12 w x))
  | 12 => form w x true true false true [(12, 4, 12)] (.maxImm (sD w x) (sA w x) (simm 0 12 w x))
  | 13 => form w x true true false true [(12, 4, 13)] (.maxnImm (sD w x) (sA w x) (uimm 12 w x))
  | _ => unassigned x

/-- Major 0x03 (03 R93). -/
def decodeMajor03 (w : Nat) (x : Ext) : Except DecodeError Instr :=
  form w x true false false true [] (.movi (sD w x) (simm 0 21 w x))
/-- Major 0x04 (03 R93). -/
def decodeMajor04 (w : Nat) (x : Ext) : Except DecodeError Instr :=
  form w x true false false false [(18, 3, 0)] (.movhi (sD w x) (fin 4 w 16) (fin 65536 w 0))
/-- Major 0x05 (03 R93). -/
def decodeMajor05 (w : Nat) (x : Ext) : Except DecodeError Instr :=
  match fld w 6 5 with
  | 0 => form w x false true true false [(1, 10, 0), (25, 1, 0)] (.cmpEq (fin 16 w 21) (sA w x) (sB w x) (bit w 0))
  | 1 => form w x false true true false [(1, 10, 32), (25, 1, 0)] (.cmpNe (fin 16 w 21) (sA w x) (sB w x) (bit w 0))
  | 2 => form w x false true true false [(1, 10, 64), (25, 1, 0)] (.cmpLt (fin 16 w 21) (sA w x) (sB w x) (bit w 0))
  | 3 => form w x false true true false [(1, 10, 96), (25, 1, 0)] (.cmpGe (fin 16 w 21) (sA w x) (sB w x) (bit w 0))
  | 4 => form w x false true true false [(1, 10, 128), (25, 1, 0)] (.cmpLtn (fin 16 w 21) (sA w x) (sB w x) (bit w 0))
  | 5 => form w x false true true false [(1, 10, 160), (25, 1, 0)] (.cmpGen (fin 16 w 21) (sA w x) (sB w x) (bit w 0))
  | 8 => form w x true true true false [(0, 1, 0), (5, 6, 16)] (.sel (sD w x) (sA w x) (sB w x) (fin 16 w 1))
  | _ => unassigned x

/-- Major 0x06 (03 R93). -/
def decodeMajor06 (w : Nat) (x : Ext) : Except DecodeError Instr :=
  match fld w 0 2 with
  | 0 => form w x true true false false [(0, 2, 0), (3, 1, 0)] (.bfx (sD w x) (sA w x) (fin 64 w 10) (fin 64 w 4) (bit w 2))
  | 1 => form w x true true false false [(0, 4, 1)] (.bfi (sD w x) (sA w x) (fin 64 w 10) (fin 64 w 4))
  | 2 => form w x true true true false [(0, 8, 2)] (.lea (sD w x) (sA w x) (sB w x) (fin 8 w 8))
  | _ => unassigned x

/-- Major 0x07 (03 R93). -/
def decodeMajor07 (w : Nat) (x : Ext) : Except DecodeError Instr :=
  match fld w 12 2 with
  | 0 => form w x true false false false [(12, 9, 0)] (.csrr (sD w x) (fin 4096 w 0))
  | 1 => form w x true true false false [(12, 4, 1)] (.csrw (sD w x) (sA w x) (fin 4096 w 0))
  | 2 => form w x true true false false [(12, 4, 2)] (.csrs (sD w x) (sA w x) (fin 4096 w 0))
  | 3 => form w x true true false false [(12, 4, 3)] (.csrc (sD w x) (sA w x) (fin 4096 w 0))
  | _ => unassigned x

/-- Major 0x08 (03 R93). -/
def decodeMajor08 (w : Nat) (x : Ext) : Except DecodeError Instr :=
  form w x false false false true [] (.br (fin 16 w 22) (bit w 21) (simm 0 21 w x))
/-- Major 0x09 (03 R93). -/
def decodeMajor09 (w : Nat) (x : Ext) : Except DecodeError Instr :=
  match fld w 25 1 with
  | 0 => form w x false false false true [(25, 1, 0)] (.jmp (simm 0 25 w x))
  | 1 => form w x false false false true [(25, 1, 1)] (.call (simm 0 25 w x))
  | _ => unassigned x

/-- Major 0x0A (03 R93). -/
def decodeMajor0A (w : Nat) (x : Ext) : Except DecodeError Instr :=
  match fld w 6 5 with
  | 0 => form w x false true false false [(0, 16, 0), (21, 5, 0)] (.jmpr (sA w x))
  | 1 => form w x false true false false [(0, 16, 64), (21, 5, 0)] (.callr (sA w x))
  | 2 => form w x false false false false [(0, 26, 128)] (.ret)
  | _ => unassigned x

/-- Major 0x0B (03 R93). -/
def decodeMajor0B (w : Nat) (x : Ext) : Except DecodeError Instr :=
  match fld w 25 1 with
  | 0 => form w x false true false true [(25, 1, 0)] (.loopSt (fin 16 w 21) (sA w x) (simm 0 16 w x))
  | 1 => form w x false false false true [(25, 1, 1)] (.loopBr (simm 0 25 w x))
  | _ => unassigned x

/-- Major 0x0C (03 R93). -/
def decodeMajor0C (w : Nat) (x : Ext) : Except DecodeError Instr :=
  match fld w 6 5 with
  | 0 => form w x false false false false [(0, 11, 0), (15, 1, 0), (20, 1, 0), (25, 1, 0)] (.pand (fin 16 w 21) (fin 16 w 16) (fin 16 w 11))
  | 1 => form w x false false false false [(0, 11, 64), (15, 1, 0), (20, 1, 0), (25, 1, 0)] (.por (fin 16 w 21) (fin 16 w 16) (fin 16 w 11))
  | 2 => form w x false false false false [(0, 11, 128), (15, 1, 0), (20, 1, 0), (25, 1, 0)] (.pxor (fin 16 w 21) (fin 16 w 16) (fin 16 w 11))
  | 3 => form w x false false false false [(0, 11, 192), (15, 1, 0), (20, 1, 0), (25, 1, 0)] (.pandn (fin 16 w 21) (fin 16 w 16) (fin 16 w 11))
  | 4 => form w x false false false false [(0, 16, 256), (20, 1, 0), (25, 1, 0)] (.pnot (fin 16 w 21) (fin 16 w 16))
  | 5 => form w x false false false false [(0, 16, 320), (20, 1, 0), (25, 1, 0)] (.pmov (fin 16 w 21) (fin 16 w 16))
  | _ => unassigned x

/-- Major 0x0D (03 R93). -/
def decodeMajor0D (w : Nat) (x : Ext) : Except DecodeError Instr :=
  form w x false false false false [(0, 1, 0)] (.wait (fin 128 w 19) (fin 128 w 12) (fin 64 w 6) (fin 32 w 1))
/-- Major 0x10 (03 R93). -/
def decodeMajor10 (w : Nat) (x : Ext) : Except DecodeError Instr :=
  match fld w 6 5 with
  | 0 => formRm w x true true true false [(0, 3, 0), (6, 5, 0)] (fun rm => .fadd (bit w 26) (sD w x) (sA w x) (sB w x) rm)
  | 1 => formRm w x true true true false [(0, 3, 0), (6, 5, 1)] (fun rm => .fsub (bit w 26) (sD w x) (sA w x) (sB w x) rm)
  | 2 => formRm w x true true true false [(0, 3, 0), (6, 5, 2)] (fun rm => .fmul (bit w 26) (sD w x) (sA w x) (sB w x) rm)
  | 3 => formRm w x true true true false [(0, 3, 0), (6, 5, 3)] (fun rm => .fdiv (bit w 26) (sD w x) (sA w x) (sB w x) rm)
  | 4 => formRm w x true true false false [(0, 3, 0), (6, 10, 4)] (fun rm => .fsqrt (bit w 26) (sD w x) (sA w x) rm)
  | 5 => formRm w x true true true false [(0, 3, 0), (6, 5, 5)] (fun rm => .fma (bit w 26) (sD w x) (sA w x) (sB w x) rm)
  | 6 => formRm w x true true true false [(0, 3, 0), (6, 5, 6)] (fun rm => .fms (bit w 26) (sD w x) (sA w x) (sB w x) rm)
  | 7 => formRm w x true true true false [(0, 3, 0), (6, 5, 7)] (fun rm => .fnma (bit w 26) (sD w x) (sA w x) (sB w x) rm)
  | 8 => form w x true true true false [(0, 11, 512)] (.fmin (bit w 26) (sD w x) (sA w x) (sB w x))
  | 9 => form w x true true true false [(0, 11, 576)] (.fmax (bit w 26) (sD w x) (sA w x) (sB w x))
  | 10 => form w x true true false false [(0, 16, 640)] (.fneg (bit w 26) (sD w x) (sA w x))
  | 11 => form w x true true false false [(0, 16, 704)] (.fabs (bit w 26) (sD w x) (sA w x))
  | 12 => form w x true true true false [(0, 11, 768)] (.fcpsgn (bit w 26) (sD w x) (sA w x) (sB w x))
  | 13 => form w x true true false false [(0, 16, 832)] (.fmov (bit w 26) (sD w x) (sA w x))
  | _ => unassigned x

/-- Major 0x12 (03 R93). -/
def decodeMajor12 (w : Nat) (x : Ext) : Except DecodeError Instr :=
  match fld w 6 5 with
  | 0 => form w x false true true false [(1, 10, 0), (25, 1, 0)] (.fcmpEq (fin 16 w 21) (sA w x) (sB w x) (bit w 0))
  | 1 => form w x false true true false [(1, 10, 32), (25, 1, 0)] (.fcmpLt (fin 16 w 21) (sA w x) (sB w x) (bit w 0))
  | 2 => form w x false true true false [(1, 10, 64), (25, 1, 0)] (.fcmpLe (fin 16 w 21) (sA w x) (sB w x) (bit w 0))
  | 3 => form w x false true true false [(1, 10, 96), (25, 1, 0)] (.fcmpUn (fin 16 w 21) (sA w x) (sB w x) (bit w 0))
  | 8 => form w x true true false false [(1, 15, 256)] (.fclass (sD w x) (sA w x) (bit w 0))
  | _ => unassigned x

/-- Major 0x13 (03 R93). -/
def decodeMajor13 (w : Nat) (x : Ext) : Except DecodeError Instr :=
  match fld w 6 5 with
  | 0 => formRm w x true true false false [(1, 2, 0), (6, 5, 0)] (fun rm => .fcvt (sD w x) (sA w x) (fin 16 w 12) (bit w 11) rm (bit w 0))
  | 1 => formRm w x true true false false [(1, 2, 0), (6, 10, 1)] (fun rm => .frint (sD w x) (sA w x) rm (bit w 0))
  | _ => unassigned x

/-- Major 0x14 (03 R93). -/
def decodeMajor14 (w : Nat) (x : Ext) : Except DecodeError Instr :=
  match fld w 6 5 with
  | 0 => formRm w x true true false false [(1, 2, 0), (6, 10, 0)] (fun rm => .fexp (sD w x) (sA w x) rm (bit w 0))
  | 1 => formRm w x true true false false [(1, 2, 0), (6, 10, 1)] (fun rm => .fexp2 (sD w x) (sA w x) rm (bit w 0))
  | 2 => formRm w x true true false false [(1, 2, 0), (6, 10, 2)] (fun rm => .flog (sD w x) (sA w x) rm (bit w 0))
  | 3 => formRm w x true true false false [(1, 2, 0), (6, 10, 3)] (fun rm => .flog2 (sD w x) (sA w x) rm (bit w 0))
  | 4 => formRm w x true true false false [(1, 2, 0), (6, 10, 4)] (fun rm => .ferf (sD w x) (sA w x) rm (bit w 0))
  | 5 => formRm w x true true false false [(1, 2, 0), (6, 10, 5)] (fun rm => .ferfc (sD w x) (sA w x) rm (bit w 0))
  | _ => unassigned x

/-- Major 0x15 (03 R93). -/
def decodeMajor15 (w : Nat) (x : Ext) : Except DecodeError Instr :=
  match fld w 6 5 with
  | 0 => formRm w x true true false false [(1, 2, 0), (6, 10, 0)] (fun rm => .frcp (sD w x) (sA w x) rm (bit w 0))
  | 1 => formRm w x true true false false [(1, 2, 0), (6, 10, 1)] (fun rm => .frsq (sD w x) (sA w x) rm (bit w 0))
  | 2 => formRm w x true true true false [(1, 2, 0), (6, 5, 2)] (fun rm => .frcps (sD w x) (sA w x) (sB w x) rm (bit w 0))
  | 3 => formRm w x true true true false [(1, 2, 0), (6, 5, 3)] (fun rm => .frsqs (sD w x) (sA w x) (sB w x) rm (bit w 0))
  | _ => unassigned x

/-- Major 0x18 (03 R93). -/
def decodeMajor18 (w : Nat) (x : Ext) : Except DecodeError Instr :=
  match fld w 6 5 with
  | 0 => form w x false false false false [(3, 1, 0), (6, 5, 0)] (.vadd (fin 32 w 21) (fin 32 w 16) (fin 32 w 11) (bit w 5) (bit w 4) (fin 8 w 0))
  | 1 => form w x false false false false [(3, 1, 0), (6, 5, 1)] (.vsub (fin 32 w 21) (fin 32 w 16) (fin 32 w 11) (bit w 5) (bit w 4) (fin 8 w 0))
  | 2 => form w x false false false false [(3, 8, 16)] (.vmul (fin 32 w 21) (fin 32 w 16) (fin 32 w 11) (fin 8 w 0))
  | 3 => form w x false false false false [(3, 8, 24)] (.vmulh (fin 32 w 21) (fin 32 w 16) (fin 32 w 11) (fin 8 w 0))
  | 4 => form w x false false false false [(3, 8, 32)] (.vmulhn (fin 32 w 21) (fin 32 w 16) (fin 32 w 11) (fin 8 w 0))
  | 5 => form w x false false false false [(3, 8, 40)] (.vdiv (fin 32 w 21) (fin 32 w 16) (fin 32 w 11) (fin 8 w 0))
  | 6 => form w x false false false false [(3, 8, 48)] (.vdivn (fin 32 w 21) (fin 32 w 16) (fin 32 w 11) (fin 8 w 0))
  | 7 => form w x false false false false [(3, 8, 56)] (.vrem (fin 32 w 21) (fin 32 w 16) (fin 32 w 11) (fin 8 w 0))
  | 8 => form w x false false false false [(3, 8, 64)] (.vremn (fin 32 w 21) (fin 32 w 16) (fin 32 w 11) (fin 8 w 0))
  | 9 => form w x false false false false [(3, 8, 72)] (.vand (fin 32 w 21) (fin 32 w 16) (fin 32 w 11) (fin 8 w 0))
  | 10 => form w x false false false false [(3, 8, 80)] (.vor (fin 32 w 21) (fin 32 w 16) (fin 32 w 11) (fin 8 w 0))
  | 11 => form w x false false false false [(3, 8, 88)] (.vxor (fin 32 w 21) (fin 32 w 16) (fin 32 w 11) (fin 8 w 0))
  | 12 => form w x false false false false [(3, 8, 96)] (.vandn (fin 32 w 21) (fin 32 w 16) (fin 32 w 11) (fin 8 w 0))
  | 13 => form w x false false false false [(3, 8, 104)] (.vshl (fin 32 w 21) (fin 32 w 16) (fin 32 w 11) (fin 8 w 0))
  | 14 => form w x false false false false [(3, 8, 112)] (.vshr (fin 32 w 21) (fin 32 w 16) (fin 32 w 11) (fin 8 w 0))
  | 15 => form w x false false false false [(3, 8, 120)] (.vsra (fin 32 w 21) (fin 32 w 16) (fin 32 w 11) (fin 8 w 0))
  | 16 => form w x false false false false [(3, 8, 128)] (.vrotl (fin 32 w 21) (fin 32 w 16) (fin 32 w 11) (fin 8 w 0))
  | 17 => form w x false false false false [(3, 8, 136)] (.vmin (fin 32 w 21) (fin 32 w 16) (fin 32 w 11) (fin 8 w 0))
  | 18 => form w x false false false false [(3, 8, 144)] (.vminn (fin 32 w 21) (fin 32 w 16) (fin 32 w 11) (fin 8 w 0))
  | 19 => form w x false false false false [(3, 8, 152)] (.vmax (fin 32 w 21) (fin 32 w 16) (fin 32 w 11) (fin 8 w 0))
  | 20 => form w x false false false false [(3, 8, 160)] (.vmaxn (fin 32 w 21) (fin 32 w 16) (fin 32 w 11) (fin 8 w 0))
  | 21 => form w x false false false false [(3, 13, 168)] (.vclz (fin 32 w 21) (fin 32 w 16) (fin 8 w 0))
  | 22 => form w x false false false false [(3, 13, 176)] (.vctz (fin 32 w 21) (fin 32 w 16) (fin 8 w 0))
  | 23 => form w x false false false false [(3, 13, 184)] (.vpopc (fin 32 w 21) (fin 32 w 16) (fin 8 w 0))
  | _ => unassigned x

/-- Major 0x19 (03 R93). -/
def decodeMajor19 (w : Nat) (x : Ext) : Except DecodeError Instr :=
  match fld w 6 5 with
  | 0 => formRm w x false false false false [(6, 5, 0)] (fun rm => .vfadd (fin 32 w 21) (fin 32 w 16) (fin 32 w 11) rm (fin 8 w 0))
  | 1 => formRm w x false false false false [(6, 5, 1)] (fun rm => .vfsub (fin 32 w 21) (fin 32 w 16) (fin 32 w 11) rm (fin 8 w 0))
  | 2 => formRm w x false false false false [(6, 5, 2)] (fun rm => .vfmul (fin 32 w 21) (fin 32 w 16) (fin 32 w 11) rm (fin 8 w 0))
  | 3 => formRm w x false false false false [(6, 5, 3)] (fun rm => .vfdiv (fin 32 w 21) (fin 32 w 16) (fin 32 w 11) rm (fin 8 w 0))
  | 4 => formRm w x false false false false [(6, 10, 4)] (fun rm => .vfsqrt (fin 32 w 21) (fin 32 w 16) rm (fin 8 w 0))
  | 5 => formRm w x false false false false [(6, 5, 5)] (fun rm => .vfma (fin 32 w 21) (fin 32 w 16) (fin 32 w 11) rm (fin 8 w 0))
  | 6 => formRm w x false false false false [(6, 5, 6)] (fun rm => .vfms (fin 32 w 21) (fin 32 w 16) (fin 32 w 11) rm (fin 8 w 0))
  | 7 => formRm w x false false false false [(6, 5, 7)] (fun rm => .vfnma (fin 32 w 21) (fin 32 w 16) (fin 32 w 11) rm (fin 8 w 0))
  | 8 => form w x false false false false [(3, 8, 64)] (.vfmin (fin 32 w 21) (fin 32 w 16) (fin 32 w 11) (fin 8 w 0))
  | 9 => form w x false false false false [(3, 8, 72)] (.vfmax (fin 32 w 21) (fin 32 w 16) (fin 32 w 11) (fin 8 w 0))
  | 10 => form w x false false false false [(3, 13, 80)] (.vfneg (fin 32 w 21) (fin 32 w 16) (fin 8 w 0))
  | 11 => form w x false false false false [(3, 13, 88)] (.vfabs (fin 32 w 21) (fin 32 w 16) (fin 8 w 0))
  | 12 => form w x false false false false [(3, 8, 96)] (.vfcpsgn (fin 32 w 21) (fin 32 w 16) (fin 32 w 11) (fin 8 w 0))
  | 13 => form w x false false false false [(3, 13, 104)] (.vfmov (fin 32 w 21) (fin 32 w 16) (fin 8 w 0))
  | _ => unassigned x

/-- Major 0x1A (03 R93). -/
def decodeMajor1A (w : Nat) (x : Ext) : Except DecodeError Instr :=
  match fld w 6 5 with
  | 0 => formRm w x false false false false [(6, 5, 0)] (fun rm => .vcvt (fin 32 w 21) (fin 32 w 16) (fin 32 w 11) rm (fin 8 w 0))
  | 1 => formRm w x false false false false [(6, 5, 1)] (fun rm => .vpack (fin 32 w 21) (fin 32 w 16) (fin 32 w 11) rm (fin 8 w 0))
  | 2 => form w x false false false false [(3, 8, 16)] (.vunpack (fin 32 w 21) (fin 32 w 16) (fin 32 w 11) (fin 8 w 0))
  | 3 => formRm w x false false false false [(6, 5, 3)] (fun rm => .vmxnorm (fin 32 w 21) (fin 32 w 16) (fin 32 w 11) rm (fin 8 w 0))
  | 4 => formRm w x false false false false [(6, 5, 4)] (fun rm => .vmxscale (fin 32 w 21) (fin 32 w 16) (fin 32 w 11) rm (fin 8 w 0))
  | _ => unassigned x

/-- Major 0x1B (03 R93). -/
def decodeMajor1B (w : Nat) (x : Ext) : Except DecodeError Instr :=
  match fld w 6 5 with
  | 0 => formRm w x false false false false [(6, 10, 0)] (fun rm => .vfexp (fin 32 w 21) (fin 32 w 16) rm (fin 8 w 0))
  | 1 => formRm w x false false false false [(6, 10, 1)] (fun rm => .vfexp2 (fin 32 w 21) (fin 32 w 16) rm (fin 8 w 0))
  | 2 => formRm w x false false false false [(6, 10, 2)] (fun rm => .vflog (fin 32 w 21) (fin 32 w 16) rm (fin 8 w 0))
  | 3 => formRm w x false false false false [(6, 10, 3)] (fun rm => .vflog2 (fin 32 w 21) (fin 32 w 16) rm (fin 8 w 0))
  | 4 => formRm w x false false false false [(6, 10, 4)] (fun rm => .vferf (fin 32 w 21) (fin 32 w 16) rm (fin 8 w 0))
  | 5 => formRm w x false false false false [(6, 10, 5)] (fun rm => .vferfc (fin 32 w 21) (fin 32 w 16) rm (fin 8 w 0))
  | 8 => formRm w x false false false false [(6, 10, 8)] (fun rm => .vfrcp (fin 32 w 21) (fin 32 w 16) rm (fin 8 w 0))
  | 9 => formRm w x false false false false [(6, 10, 9)] (fun rm => .vfrsq (fin 32 w 21) (fin 32 w 16) rm (fin 8 w 0))
  | 10 => formRm w x false false false false [(6, 5, 10)] (fun rm => .vfrcps (fin 32 w 21) (fin 32 w 16) (fin 32 w 11) rm (fin 8 w 0))
  | 11 => formRm w x false false false false [(6, 5, 11)] (fun rm => .vfrsqs (fin 32 w 21) (fin 32 w 16) (fin 32 w 11) rm (fin 8 w 0))
  | _ => unassigned x

/-- Major 0x1C (03 R93). -/
def decodeMajor1C (w : Nat) (x : Ext) : Except DecodeError Instr :=
  match fld w 6 5 with
  | 0 => formRm w x (!bit w 15) false false false [(6, 9, 0)] (fun rm => .vredFsum (sD w x) (fin 32 w 16) (bit w 15) rm (fin 8 w 0))
  | 1 => form w x (!bit w 15) false false false [(3, 12, 8)] (.vredFmin (sD w x) (fin 32 w 16) (bit w 15) (fin 8 w 0))
  | 2 => form w x (!bit w 15) false false false [(3, 12, 16)] (.vredFmax (sD w x) (fin 32 w 16) (bit w 15) (fin 8 w 0))
  | 3 => form w x (!bit w 15) false false false [(3, 10, 24)] (.vredIsum (sD w x) (fin 32 w 16) (bit w 15) (bit w 14) (bit w 13) (fin 8 w 0))
  | 4 => form w x (!bit w 15) false false false [(3, 12, 32)] (.vredImin (sD w x) (fin 32 w 16) (bit w 15) (fin 8 w 0))
  | 5 => form w x (!bit w 15) false false false [(3, 12, 40)] (.vredImax (sD w x) (fin 32 w 16) (bit w 15) (fin 8 w 0))
  | 6 => form w x (!bit w 15) false false false [(3, 12, 48)] (.vredNmin (sD w x) (fin 32 w 16) (bit w 15) (fin 8 w 0))
  | 7 => form w x (!bit w 15) false false false [(3, 12, 56)] (.vredNmax (sD w x) (fin 32 w 16) (bit w 15) (fin 8 w 0))
  | _ => unassigned x

/-- Major 0x1D (03 R93). -/
def decodeMajor1D (w : Nat) (x : Ext) : Except DecodeError Instr :=
  match fld w 6 5 with
  | 0 => form w x false false false false [(3, 13, 0)] (.vmov (fin 32 w 21) (fin 32 w 16) (fin 8 w 0))
  | 1 => form w x false true false false [(3, 13, 8)] (.vbcast (fin 32 w 21) (sA w x) (fin 8 w 0))
  | 2 => form w x true false true false [(0, 11, 128)] (.vextr (sD w x) (fin 32 w 16) (sB w x))
  | _ => unassigned x

/-- Major 0x1E (03 R93). -/
def decodeMajor1E (w : Nat) (x : Ext) : Except DecodeError Instr :=
  match fld w 6 5 with
  | 0 => form w x false false false false [(0, 11, 0), (14, 2, 0), (19, 2, 0), (24, 2, 0)] (.mand (fin 8 w 21) (fin 8 w 16) (fin 8 w 11))
  | 1 => form w x false false false false [(0, 11, 64), (14, 2, 0), (19, 2, 0), (24, 2, 0)] (.mor (fin 8 w 21) (fin 8 w 16) (fin 8 w 11))
  | 2 => form w x false false false false [(0, 11, 128), (14, 2, 0), (19, 2, 0), (24, 2, 0)] (.mxor (fin 8 w 21) (fin 8 w 16) (fin 8 w 11))
  | 3 => form w x false false false false [(0, 11, 192), (14, 2, 0), (19, 2, 0), (24, 2, 0)] (.mandn (fin 8 w 21) (fin 8 w 16) (fin 8 w 11))
  | 4 => form w x false false false false [(0, 16, 256), (19, 2, 0), (24, 2, 0)] (.mnot (fin 8 w 21) (fin 8 w 16))
  | 8 => form w x false false false false [(6, 5, 8), (24, 2, 0)] (.vcmp (fin 8 w 21) (fin 32 w 16) (fin 32 w 11) (fin 8 w 3) (fin 8 w 0))
  | 9 => form w x false false false false [(6, 5, 9), (24, 2, 0)] (.vfcmp (fin 8 w 21) (fin 32 w 16) (fin 32 w 11) (fin 8 w 3) (fin 8 w 0))
  | 10 => form w x true false false false [(0, 16, 640), (19, 2, 0)] (.mpopc (sD w x) (fin 8 w 16))
  | _ => unassigned x

/-- Major 0x20 (03 R93). -/
def decodeMajor20 (w : Nat) (x : Ext) : Except DecodeError Instr :=
  form w x false false true false [(3, 8, 0)] (.vxb (fin 32 w 21) (fin 32 w 16) (sB w x) (fin 8 w 0))
/-- Major 0x24 (03 R93). -/
def decodeMajor24 (w : Nat) (x : Ext) : Except DecodeError Instr :=
  match fld w 6 5 with
  | 0 => form w x false false false false [(0, 21, 0), (24, 2, 0)] (.tzero (fin 8 w 21))
  | 1 => form w x false false false false [(0, 16, 64), (19, 2, 0), (24, 2, 0)] (.ttrans (fin 8 w 21) (fin 8 w 16))
  | 2 => formRm w x false false false false [(0, 3, 0), (6, 10, 2), (19, 2, 0), (24, 2, 0)] (fun rm => .tcvt (fin 8 w 21) (fin 8 w 16) rm)
  | 3 => formRm w x false false true false [(0, 3, 0), (6, 5, 3), (19, 2, 0), (24, 2, 0)] (fun rm => .tscale (fin 8 w 21) (fin 8 w 16) (sB w x) rm)
  | 4 => match fld w 0 3 with
    | 0 => form w x false false false false [(0, 16, 256), (19, 2, 0), (24, 2, 0)] (.tmov (fin 8 w 21) (fin 8 w 16))
    | 1 => form w x false false true false [(0, 11, 257), (24, 2, 0)] (.tmovFromVector (fin 8 w 21) (fin 32 w 16) (sB w x))
    | 2 => form w x false false true false [(0, 11, 258), (19, 2, 0)] (.tmovToVector (fin 32 w 21) (fin 8 w 16) (sB w x))
    | _ => unassigned x
  | 5 => form w x false true false false [(0, 16, 320), (24, 2, 0)] (.tfill (fin 8 w 21) (sA w x))
  | _ => unassigned x

/-- Major 0x25 (03 R93). -/
def decodeMajor25 (w : Nat) (x : Ext) : Except DecodeError Instr :=
  match fld w 6 5 with
  | 0 => form w x false true true false [(6, 5, 0), (24, 2, 0)] (.tld (fin 8 w 21) (sA w x) (sB w x) (fin 32 w 1) (bit w 0))
  | 1 => form w x false true true false [(6, 5, 1), (24, 2, 0)] (.tst (fin 8 w 21) (sA w x) (sB w x) (fin 32 w 1) (bit w 0))
  | _ => unassigned x

/-- Major 0x26 (03 R93). -/
def decodeMajor26 (w : Nat) (x : Ext) : Except DecodeError Instr :=
  form w x false false false false [(14, 2, 0), (19, 2, 0)] (.mma (fin 32 w 21) (fin 8 w 16) (fin 8 w 11) (fin 32 w 6) (bit w 5) (bit w 4) (bit w 3) (fin 8 w 0))
/-- Major 0x27 (03 R93). -/
def decodeMajor27 (w : Nat) (x : Ext) : Except DecodeError Instr :=
  match fld w 6 5 with
  | 0 => form w x false false false false [(6, 5, 0), (14, 2, 0), (19, 2, 0)] (.mmaMx (fin 32 w 21) (fin 8 w 16) (fin 8 w 11) (fin 32 w 1) (bit w 0))
  | 1 => form w x false false false false [(6, 5, 1), (14, 2, 0), (19, 2, 0)] (.mmaSc (fin 32 w 21) (fin 8 w 16) (fin 8 w 11) (fin 32 w 1) (bit w 0))
  | _ => unassigned x

/-- Major 0x28 (03 R93). -/
def decodeMajor28 (w : Nat) (x : Ext) : Except DecodeError Instr :=
  match fld w 6 5 with
  | 0 => form w x false true false false [(1, 15, 0)] (.chainBuild (fin 32 w 21) (sA w x) (bit w 0))
  | 1 => formRm w x false (bit w 2) true false [(0, 2, 0), (6, 5, 1)] (fun rm => .chainClose (fin 32 w 21) (sA w x) (sB w x) rm (bit w 2))
  | 2 => form w x true true false false [(1, 10, 64)] (.chainStat (sD w x) (sA w x) (fin 32 w 11) (bit w 0))
  | 3 => form w x false true false false [(0, 11, 192)] (.chainSplice (fin 32 w 21) (sA w x) (fin 32 w 11))
  | 4 => form w x false false false false [(0, 21, 256)] (.chainResume (fin 32 w 21))
  | 5 => form w x false false false false [(0, 21, 320)] (.chainFree (fin 32 w 21))
  | _ => unassigned x

/-- Major 0x2C (03 R93). -/
def decodeMajor2C (w : Nat) (x : Ext) : Except DecodeError Instr :=
  form w x true true false true [] (.ld (sD w x) (sA w x) (simm 4 12 w x) (bit w 3) (fin 8 w 0))
/-- Major 0x2D (03 R93). -/
def decodeMajor2D (w : Nat) (x : Ext) : Except DecodeError Instr :=
  form w x true true false true [] (.st (sD w x) (sA w x) (simm 4 12 w x) (bit w 3) (fin 8 w 0))
/-- Major 0x2E (03 R93). -/
def decodeMajor2E (w : Nat) (x : Ext) : Except DecodeError Instr :=
  match fld w 6 5 with
  | 0 => form w x false true (!bit w 4) false [(3, 1, 0), (6, 5, 0)] (.vld (fin 32 w 21) (sA w x) (sB w x) (bit w 5) (bit w 4) (fin 8 w 0))
  | 1 => form w x false true (!bit w 4) false [(3, 1, 0), (6, 5, 1)] (.vst (fin 32 w 21) (sA w x) (sB w x) (bit w 5) (bit w 4) (fin 8 w 0))
  | _ => unassigned x

/-- Major 0x2F (03 R93). -/
def decodeMajor2F (w : Nat) (x : Ext) : Except DecodeError Instr :=
  match fld w 6 5 with
  | 0 => form w x false true true false [(0, 3, 0), (6, 5, 0), (21, 5, 0)] (.pref (sA w x) (sB w x) (fin 8 w 3))
  | 1 => form w x false true true false [(0, 3, 0), (6, 5, 1), (21, 5, 0)] (.clean (sA w x) (sB w x) (fin 8 w 3))
  | 2 => form w x false true true false [(0, 11, 128), (21, 5, 0)] (.invl (sA w x) (sB w x))
  | _ => unassigned x

/-- Major 0x30 (03 R93). -/
def decodeMajor30 (w : Nat) (x : Ext) : Except DecodeError Instr :=
  match fld w 7 4 with
  | 0 => form w x true true true false [(0, 4, 0), (7, 4, 0)] (.amoSwap (sD w x) (sA w x) (sB w x) (fin 8 w 4))
  | 1 => form w x true true true false [(0, 4, 0), (7, 4, 1)] (.amoCas (sD w x) (sA w x) (sB w x) (fin 8 w 4))
  | 2 => form w x true true true false [(0, 4, 0), (7, 4, 2)] (.amoAdd (sD w x) (sA w x) (sB w x) (fin 8 w 4))
  | 3 => form w x true true true false [(0, 4, 0), (7, 4, 3)] (.amoAnd (sD w x) (sA w x) (sB w x) (fin 8 w 4))
  | 4 => form w x true true true false [(0, 4, 0), (7, 4, 4)] (.amoOr (sD w x) (sA w x) (sB w x) (fin 8 w 4))
  | 5 => form w x true true true false [(0, 4, 0), (7, 4, 5)] (.amoXor (sD w x) (sA w x) (sB w x) (fin 8 w 4))
  | 6 => form w x true true true false [(0, 4, 0), (7, 4, 6)] (.amoMin (sD w x) (sA w x) (sB w x) (fin 8 w 4))
  | 7 => form w x true true true false [(0, 4, 0), (7, 4, 7)] (.amoMax (sD w x) (sA w x) (sB w x) (fin 8 w 4))
  | 8 => form w x true true true false [(0, 4, 0), (7, 4, 8)] (.amoFadd (sD w x) (sA w x) (sB w x) (fin 8 w 4))
  | 9 => form w x true true true false [(0, 4, 0), (7, 4, 9)] (.amoFmin (sD w x) (sA w x) (sB w x) (fin 8 w 4))
  | 10 => form w x true true true false [(0, 4, 0), (7, 4, 10)] (.amoFmax (sD w x) (sA w x) (sB w x) (fin 8 w 4))
  | _ => unassigned x

/-- Major 0x31 (03 R93). -/
def decodeMajor31 (w : Nat) (x : Ext) : Except DecodeError Instr :=
  match fld w 7 4 with
  | 2 => form w x false true true false [(0, 4, 0), (7, 4, 2), (21, 5, 0)] (.redAdd (sA w x) (sB w x) (fin 8 w 4))
  | 3 => form w x false true true false [(0, 4, 0), (7, 4, 3), (21, 5, 0)] (.redAnd (sA w x) (sB w x) (fin 8 w 4))
  | 4 => form w x false true true false [(0, 4, 0), (7, 4, 4), (21, 5, 0)] (.redOr (sA w x) (sB w x) (fin 8 w 4))
  | 5 => form w x false true true false [(0, 4, 0), (7, 4, 5), (21, 5, 0)] (.redXor (sA w x) (sB w x) (fin 8 w 4))
  | 6 => form w x false true true false [(0, 4, 0), (7, 4, 6), (21, 5, 0)] (.redMin (sA w x) (sB w x) (fin 8 w 4))
  | 7 => form w x false true true false [(0, 4, 0), (7, 4, 7), (21, 5, 0)] (.redMax (sA w x) (sB w x) (fin 8 w 4))
  | 8 => form w x false true true false [(0, 4, 0), (7, 4, 8), (21, 5, 0)] (.redFadd (sA w x) (sB w x) (fin 8 w 4))
  | 9 => form w x false true true false [(0, 4, 0), (7, 4, 9), (21, 5, 0)] (.redFmin (sA w x) (sB w x) (fin 8 w 4))
  | 10 => form w x false true true false [(0, 4, 0), (7, 4, 10), (21, 5, 0)] (.redFmax (sA w x) (sB w x) (fin 8 w 4))
  | _ => unassigned x

/-- Major 0x32 (03 R93). -/
def decodeMajor32 (w : Nat) (x : Ext) : Except DecodeError Instr :=
  match fld w 6 5 with
  | 0 => form w x true true false false [(6, 10, 0)] (.ldAcq (sD w x) (sA w x) (fin 8 w 3) (fin 8 w 0))
  | 1 => form w x true true false false [(6, 10, 1)] (.stRel (sD w x) (sA w x) (fin 8 w 3) (fin 8 w 0))
  | _ => unassigned x

/-- Major 0x34 (03 R93). -/
def decodeMajor34 (w : Nat) (x : Ext) : Except DecodeError Instr :=
  form w x false false false false [(0, 2, 0), (6, 20, 0)] (.fence (fin 8 w 3) (bit w 2))
/-- Major 0x35 (03 R93). -/
def decodeMajor35 (w : Nat) (x : Ext) : Except DecodeError Instr :=
  match fld w 6 5 with
  | 0 => form w x false false false false [(0, 2, 0), (6, 20, 0)] (.barArrive (fin 16 w 2))
  | 1 => form w x false false false false [(0, 1, 0), (6, 20, 1)] (.barWait (fin 16 w 2) (bit w 1))
  | 2 => form w x false false false false [(0, 2, 0), (6, 20, 2)] (.barDrop (fin 16 w 2))
  | 3 => form w x true true false false [(0, 1, 0), (6, 10, 3)] (.barTwait (sD w x) (sA w x) (fin 16 w 2) (bit w 1))
  | _ => unassigned x

/-- Major 0x36 (03 R93). -/
def decodeMajor36 (w : Nat) (x : Ext) : Except DecodeError Instr :=
  match fld w 6 5 with
  | 0 => form w x false true true false [(0, 2, 0), (5, 6, 0), (21, 5, 0)] (.flagSet (sA w x) (sB w x) (fin 8 w 2))
  | 1 => form w x (bit w 5) true true false [(0, 2, 0), (6, 5, 1)] (.flagWait (sD w x) (sA w x) (sB w x) (bit w 5) (fin 8 w 2))
  | 2 => form w x true true true false [(0, 2, 0), (6, 5, 2)] (.flagWaitAny (sD w x) (sA w x) (sB w x) (bit w 5) (fin 8 w 2))
  | 3 => form w x false true true false [(0, 2, 0), (6, 5, 3), (21, 5, 0)] (.trig (sA w x) (sB w x) (bit w 5) (fin 8 w 2))
  | 4 => form w x true true true false [(0, 1, 0), (6, 5, 4)] (.arm (sD w x) (sA w x) (sB w x) (fin 32 w 1))
  | _ => unassigned x

/-- Major 0x38 (03 R93). -/
def decodeMajor38 (w : Nat) (x : Ext) : Except DecodeError Instr :=
  match fld w 6 5 with
  | 0 => if extImm x / 32 % 4 ≠ 0 then .error .illegalInstr else form w x false true false true [(0, 1, 0), (6, 5, 0)] (.cp (fin 32 w 21) (sA w x) (fin 32 w 11) (fin 32 w 1) (thirdToken x))
  | 1 => if extImm x / 32 % 4 ≠ 0 then .error .illegalInstr else form w x false true false true [(0, 1, 0), (6, 5, 1)] (.gather (fin 32 w 21) (sA w x) (fin 32 w 11) (fin 32 w 1) (thirdToken x))
  | 2 => if extImm x / 32 % 4 ≠ 0 then .error .illegalInstr else form w x false true false true [(0, 1, 0), (6, 5, 2)] (.scatter (fin 32 w 21) (sA w x) (fin 32 w 11) (fin 32 w 1) (thirdToken x))
  | _ => unassigned x

/-- Major 0x39 (03 R93). -/
def decodeMajor39 (w : Nat) (x : Ext) : Except DecodeError Instr :=
  match fld w 6 5 with
  | 0 => if extImm x / 32 % 4 ≠ 0 then .error .illegalInstr else form w x false true false true [(0, 1, 0), (6, 5, 0)] (.collReshard (fin 32 w 21) (sA w x) (fin 32 w 11) (fin 32 w 1) (thirdToken x))
  | 1 => if extImm x / 32 % 4 ≠ 0 then .error .illegalInstr else form w x false true false true [(0, 1, 0), (6, 5, 1)] (.combine (fin 32 w 21) (sA w x) (fin 32 w 11) (fin 32 w 1) (thirdToken x))
  | _ => unassigned x

/-- Major 0x3A (03 R93). -/
def decodeMajor3A (w : Nat) (x : Ext) : Except DecodeError Instr :=
  match fld w 6 5 with
  | 0 => form w x false false false false [(1, 15, 0), (21, 5, 0)] (.tokwait (fin 32 w 16) (bit w 0))
  | 1 => form w x true false false false [(0, 16, 64)] (.toktest (sD w x) (fin 32 w 16))
  | 2 => form w x false false false false [(0, 1, 0), (6, 5, 2)] (.tokjoin (fin 32 w 21) (fin 32 w 16) (fin 32 w 11) (fin 32 w 1))
  | _ => unassigned x

/-- Major 0x3B (03 R93). -/
def decodeMajor3B (w : Nat) (x : Ext) : Except DecodeError Instr :=
  match fld w 6 5 with
  | 0 => form w x false true false false [(0, 16, 0), (21, 5, 0)] (.phaseBegin (sA w x))
  | 1 => form w x true false false false [(0, 21, 64)] (.phaseCommit (sD w x))
  | 2 => form w x false (fld w 0 2 == 0) (fld w 0 2 == 0) false [(2, 9, 32), (21, 5, 0)] (.chk (sA w x) (sB w x) (fin 4 w 0))
  | _ => unassigned x

/-- Major 0x3C (03 R93). -/
noncomputable def decodeMajor3C (w : Nat) (x : Ext) : Except DecodeError Instr :=
  match fld w 6 5 with
  | 0 => form w x false false false false [(0, 11, 0)] (.trap (fin 32768 w 11))
  | 1 => form w x false false false false [(0, 26, 64)] (.eret)
  | 2 => form w x false false false false [(0, 26, 128)] (.hflush)
  | 3 => form w x true true false false [(0, 16, 192)] (.hrules (sD w x) (sA w x))
  | 4 => form w x (!bit w 0) true true false [(1, 10, 128)] (.invr (sD w x) (sA w x) (sB w x) (bit w 0))
  | 5 => form w x false true true false [(0, 11, 320), (21, 5, 0)] (.detset (sA w x) (sB w x))
  | 6 => form w x false true false false [(0, 16, 384), (21, 5, 0)] (.nodeDone (sA w x))
  | 7 => form w x false true false false [(0, 16, 448), (21, 5, 0)] (.graphSignal (sA w x))
  | _ => unassigned x

/-- The instruction of a slot word under a header (03 R93), where sys is that of a word of major 0x3C. Major 0x3F, a
header, is refused here: it is legal only in slot 0, where the bundle reads it (R86). -/
def decodeBy (sys : Except DecodeError Instr) (w : Nat) (x : Ext) : Except DecodeError Instr :=
  match fld w 26 6 with
  | 0 => decodeMajor00 w x
  | 1 => decodeMajor01 w x
  | 2 => decodeMajor02 w x
  | 3 => decodeMajor03 w x
  | 4 => decodeMajor04 w x
  | 5 => decodeMajor05 w x
  | 6 => decodeMajor06 w x
  | 7 => decodeMajor07 w x
  | 8 => decodeMajor08 w x
  | 9 => decodeMajor09 w x
  | 10 => decodeMajor0A w x
  | 11 => decodeMajor0B w x
  | 12 => decodeMajor0C w x
  | 13 => decodeMajor0D w x
  | 16 => decodeMajor10 w x
  | 17 => decodeMajor10 w x
  | 18 => decodeMajor12 w x
  | 19 => decodeMajor13 w x
  | 20 => decodeMajor14 w x
  | 21 => decodeMajor15 w x
  | 24 => decodeMajor18 w x
  | 25 => decodeMajor19 w x
  | 26 => decodeMajor1A w x
  | 27 => decodeMajor1B w x
  | 28 => decodeMajor1C w x
  | 29 => decodeMajor1D w x
  | 30 => decodeMajor1E w x
  | 32 => decodeMajor20 w x
  | 36 => decodeMajor24 w x
  | 37 => decodeMajor25 w x
  | 38 => decodeMajor26 w x
  | 39 => decodeMajor27 w x
  | 40 => decodeMajor28 w x
  | 44 => decodeMajor2C w x
  | 45 => decodeMajor2D w x
  | 46 => decodeMajor2E w x
  | 47 => decodeMajor2F w x
  | 48 => decodeMajor30 w x
  | 49 => decodeMajor31 w x
  | 50 => decodeMajor32 w x
  | 52 => decodeMajor34 w x
  | 53 => decodeMajor35 w x
  | 54 => decodeMajor36 w x
  | 56 => decodeMajor38 w x
  | 57 => decodeMajor39 w x
  | 58 => decodeMajor3A w x
  | 59 => decodeMajor3B w x
  | 60 => sys
  | 63 => .error .illegalBundle
  | _ => unassigned x

/-- The instruction of a slot word under a header (03 R93). -/
noncomputable def decode (w : Nat) (x : Ext) : Except DecodeError Instr := decodeBy (decodeMajor3C w x) w x

/-- The instruction that the decoder reads from a slot word with no header (the words of the opcode table). -/
noncomputable def decodeTableWord (nbits w : Nat) : Option Instr :=
  if nbits = 32 then
    match decode (w % 2 ^ 32) .none with
    | .ok i => some i
    | .error _ => none
  else none
/-- The five low bits of a scalar field. -/
def loS (r : SReg) : Nat := r.val % 32
/-- The value of the rounding field (02 R43). -/
def Rm.code : Rm → Nat
  | .rne => 0
  | .rtz => 1
  | .rdn => 2
  | .rup => 3
  | .rmm => 4
  | .dyn => 7

/-- The low n bits of a signed number. -/
def lowBits (n : Nat) (v : Int) : Nat := (v % 2 ^ n).toNat

/-- A word with fields added: each (v, lo) puts v at bit lo of a word whose bits there are 0. -/
def pack (w : Nat) : List (Nat × Nat) → Nat
  | [] => w
  | (v, lo) :: l => pack (w + v * 2 ^ lo) l

/-- The slot word of an instruction, from the encodings of its chapter; 0 for a step without an encoding. -/
def encodeWord : Instr → Nat
  | .add d a b w => pack 0x04000000 [(loS d, 21), (loS a, 16), (loS b, 11), (w.toNat, 0)]
  | .sub d a b w => pack 0x04000040 [(loS d, 21), (loS a, 16), (loS b, 11), (w.toNat, 0)]
  | .mul d a b w => pack 0x04000080 [(loS d, 21), (loS a, 16), (loS b, 11), (w.toNat, 0)]
  | .mulh d a b w => pack 0x040000C0 [(loS d, 21), (loS a, 16), (loS b, 11), (w.toNat, 0)]
  | .mulhn d a b w => pack 0x04000100 [(loS d, 21), (loS a, 16), (loS b, 11), (w.toNat, 0)]
  | .div d a b w => pack 0x04000140 [(loS d, 21), (loS a, 16), (loS b, 11), (w.toNat, 0)]
  | .divn d a b w => pack 0x04000180 [(loS d, 21), (loS a, 16), (loS b, 11), (w.toNat, 0)]
  | .rem d a b w => pack 0x040001C0 [(loS d, 21), (loS a, 16), (loS b, 11), (w.toNat, 0)]
  | .remn d a b w => pack 0x04000200 [(loS d, 21), (loS a, 16), (loS b, 11), (w.toNat, 0)]
  | .and d a b w => pack 0x04000240 [(loS d, 21), (loS a, 16), (loS b, 11), (w.toNat, 0)]
  | .or d a b w => pack 0x04000280 [(loS d, 21), (loS a, 16), (loS b, 11), (w.toNat, 0)]
  | .xor d a b w => pack 0x040002C0 [(loS d, 21), (loS a, 16), (loS b, 11), (w.toNat, 0)]
  | .andn d a b w => pack 0x04000300 [(loS d, 21), (loS a, 16), (loS b, 11), (w.toNat, 0)]
  | .shl d a b w => pack 0x04000340 [(loS d, 21), (loS a, 16), (loS b, 11), (w.toNat, 0)]
  | .shr d a b w => pack 0x04000380 [(loS d, 21), (loS a, 16), (loS b, 11), (w.toNat, 0)]
  | .sra d a b w => pack 0x040003C0 [(loS d, 21), (loS a, 16), (loS b, 11), (w.toNat, 0)]
  | .rotl d a b w => pack 0x04000400 [(loS d, 21), (loS a, 16), (loS b, 11), (w.toNat, 0)]
  | .min d a b w => pack 0x04000440 [(loS d, 21), (loS a, 16), (loS b, 11), (w.toNat, 0)]
  | .minn d a b w => pack 0x04000480 [(loS d, 21), (loS a, 16), (loS b, 11), (w.toNat, 0)]
  | .max d a b w => pack 0x040004C0 [(loS d, 21), (loS a, 16), (loS b, 11), (w.toNat, 0)]
  | .maxn d a b w => pack 0x04000500 [(loS d, 21), (loS a, 16), (loS b, 11), (w.toNat, 0)]
  | .clz d a w => pack 0x04000540 [(loS d, 21), (loS a, 16), (w.toNat, 0)]
  | .ctz d a w => pack 0x04000580 [(loS d, 21), (loS a, 16), (w.toNat, 0)]
  | .popc d a w => pack 0x040005C0 [(loS d, 21), (loS a, 16), (w.toNat, 0)]
  | .addImm d a imm => pack 0x08000000 [(loS d, 21), (loS a, 16), (lowBits 12 imm, 0)]
  | .mulImm d a imm => pack 0x08001000 [(loS d, 21), (loS a, 16), (lowBits 12 imm, 0)]
  | .andImm d a imm => pack 0x08002000 [(loS d, 21), (loS a, 16), (lowBits 12 imm, 0)]
  | .orImm d a imm => pack 0x08003000 [(loS d, 21), (loS a, 16), (lowBits 12 imm, 0)]
  | .xorImm d a imm => pack 0x08004000 [(loS d, 21), (loS a, 16), (lowBits 12 imm, 0)]
  | .andnImm d a imm => pack 0x08005000 [(loS d, 21), (loS a, 16), (lowBits 12 imm, 0)]
  | .shlImm d a sh => pack 0x08006000 [(loS d, 21), (loS a, 16), (sh.val, 0)]
  | .shrImm d a sh => pack 0x08007000 [(loS d, 21), (loS a, 16), (sh.val, 0)]
  | .sraImm d a sh => pack 0x08008000 [(loS d, 21), (loS a, 16), (sh.val, 0)]
  | .rotlImm d a sh => pack 0x08009000 [(loS d, 21), (loS a, 16), (sh.val, 0)]
  | .minImm d a imm => pack 0x0800A000 [(loS d, 21), (loS a, 16), (lowBits 12 imm, 0)]
  | .minnImm d a imm => pack 0x0800B000 [(loS d, 21), (loS a, 16), (imm % 2 ^ 12, 0)]
  | .maxImm d a imm => pack 0x0800C000 [(loS d, 21), (loS a, 16), (lowBits 12 imm, 0)]
  | .maxnImm d a imm => pack 0x0800D000 [(loS d, 21), (loS a, 16), (imm % 2 ^ 12, 0)]
  | .movi d imm => pack 0x0C000000 [(loS d, 21), (lowBits 21 imm, 0)]
  | .movhi d h lit => pack 0x10000000 [(loS d, 21), (h.val, 16), (lit.val, 0)]
  | .cmpEq p a b w => pack 0x14000000 [(p.val, 21), (loS a, 16), (loS b, 11), (w.toNat, 0)]
  | .cmpNe p a b w => pack 0x14000040 [(p.val, 21), (loS a, 16), (loS b, 11), (w.toNat, 0)]
  | .cmpLt p a b w => pack 0x14000080 [(p.val, 21), (loS a, 16), (loS b, 11), (w.toNat, 0)]
  | .cmpGe p a b w => pack 0x140000C0 [(p.val, 21), (loS a, 16), (loS b, 11), (w.toNat, 0)]
  | .cmpLtn p a b w => pack 0x14000100 [(p.val, 21), (loS a, 16), (loS b, 11), (w.toNat, 0)]
  | .cmpGen p a b w => pack 0x14000140 [(p.val, 21), (loS a, 16), (loS b, 11), (w.toNat, 0)]
  | .sel d a b p => pack 0x14000200 [(loS d, 21), (loS a, 16), (loS b, 11), (p.val, 1)]
  | .bfx d a pos lm1 sx => pack 0x18000000 [(loS d, 21), (loS a, 16), (pos.val, 10), (lm1.val, 4), (sx.toNat, 2)]
  | .bfi d a pos lm1 => pack 0x18000001 [(loS d, 21), (loS a, 16), (pos.val, 10), (lm1.val, 4)]
  | .lea d a b sh => pack 0x18000002 [(loS d, 21), (loS a, 16), (loS b, 11), (sh.val, 8)]
  | .csrr d c => pack 0x1C000000 [(loS d, 21), (c.val, 0)]
  | .csrw d a c => pack 0x1C001000 [(loS d, 21), (loS a, 16), (c.val, 0)]
  | .csrs d a c => pack 0x1C002000 [(loS d, 21), (loS a, 16), (c.val, 0)]
  | .csrc d a c => pack 0x1C003000 [(loS d, 21), (loS a, 16), (c.val, 0)]
  | .br p neg imm => pack 0x20000000 [(p.val, 22), (neg.toNat, 21), (lowBits 21 imm, 0)]
  | .jmp imm => pack 0x24000000 [(lowBits 25 imm, 0)]
  | .call imm => pack 0x26000000 [(lowBits 25 imm, 0)]
  | .jmpr a => pack 0x28000000 [(loS a, 16)]
  | .callr a => pack 0x28000040 [(loS a, 16)]
  | .loopSt sc a imm => pack 0x2C000000 [(sc.val, 21), (loS a, 16), (lowBits 16 imm, 0)]
  | .loopBr imm => pack 0x2E000000 [(lowBits 25 imm, 0)]
  | .pand d a b => pack 0x30000000 [(d.val, 21), (a.val, 16), (b.val, 11)]
  | .por d a b => pack 0x30000040 [(d.val, 21), (a.val, 16), (b.val, 11)]
  | .pxor d a b => pack 0x30000080 [(d.val, 21), (a.val, 16), (b.val, 11)]
  | .pandn d a b => pack 0x300000C0 [(d.val, 21), (a.val, 16), (b.val, 11)]
  | .pnot d a => pack 0x30000100 [(d.val, 21), (a.val, 16)]
  | .pmov d a => pack 0x30000140 [(d.val, 21), (a.val, 16)]
  | .wait ld st cp tl => pack 0x34000000 [(ld.val, 19), (st.val, 12), (cp.val, 6), (tl.val, 1)]
  | .fadd f64 d a b rm => pack 0x40000000 [(f64.toNat, 26), (loS d, 21), (loS a, 16), (loS b, 11), (rm.code, 3)]
  | .fsub f64 d a b rm => pack 0x40000040 [(f64.toNat, 26), (loS d, 21), (loS a, 16), (loS b, 11), (rm.code, 3)]
  | .fmul f64 d a b rm => pack 0x40000080 [(f64.toNat, 26), (loS d, 21), (loS a, 16), (loS b, 11), (rm.code, 3)]
  | .fdiv f64 d a b rm => pack 0x400000C0 [(f64.toNat, 26), (loS d, 21), (loS a, 16), (loS b, 11), (rm.code, 3)]
  | .fsqrt f64 d a rm => pack 0x40000100 [(f64.toNat, 26), (loS d, 21), (loS a, 16), (rm.code, 3)]
  | .fma f64 d a b rm => pack 0x40000140 [(f64.toNat, 26), (loS d, 21), (loS a, 16), (loS b, 11), (rm.code, 3)]
  | .fms f64 d a b rm => pack 0x40000180 [(f64.toNat, 26), (loS d, 21), (loS a, 16), (loS b, 11), (rm.code, 3)]
  | .fnma f64 d a b rm => pack 0x400001C0 [(f64.toNat, 26), (loS d, 21), (loS a, 16), (loS b, 11), (rm.code, 3)]
  | .fmin f64 d a b => pack 0x40000200 [(f64.toNat, 26), (loS d, 21), (loS a, 16), (loS b, 11)]
  | .fmax f64 d a b => pack 0x40000240 [(f64.toNat, 26), (loS d, 21), (loS a, 16), (loS b, 11)]
  | .fneg f64 d a => pack 0x40000280 [(f64.toNat, 26), (loS d, 21), (loS a, 16)]
  | .fabs f64 d a => pack 0x400002C0 [(f64.toNat, 26), (loS d, 21), (loS a, 16)]
  | .fcpsgn f64 d a b => pack 0x40000300 [(f64.toNat, 26), (loS d, 21), (loS a, 16), (loS b, 11)]
  | .fmov f64 d a => pack 0x40000340 [(f64.toNat, 26), (loS d, 21), (loS a, 16)]
  | .fcmpEq p a b f64 => pack 0x48000000 [(p.val, 21), (loS a, 16), (loS b, 11), (f64.toNat, 0)]
  | .fcmpLt p a b f64 => pack 0x48000040 [(p.val, 21), (loS a, 16), (loS b, 11), (f64.toNat, 0)]
  | .fcmpLe p a b f64 => pack 0x48000080 [(p.val, 21), (loS a, 16), (loS b, 11), (f64.toNat, 0)]
  | .fcmpUn p a b f64 => pack 0x480000C0 [(p.val, 21), (loS a, 16), (loS b, 11), (f64.toNat, 0)]
  | .fclass d a f64 => pack 0x48000200 [(loS d, 21), (loS a, 16), (f64.toNat, 0)]
  | .fcvt d a ot dir rm f64 => pack 0x4C000000 [(loS d, 21), (loS a, 16), (ot.val, 12), (dir.toNat, 11), (rm.code, 3), (f64.toNat, 0)]
  | .frint d a rm f64 => pack 0x4C000040 [(loS d, 21), (loS a, 16), (rm.code, 3), (f64.toNat, 0)]
  | .fexp d a rm f64 => pack 0x50000000 [(loS d, 21), (loS a, 16), (rm.code, 3), (f64.toNat, 0)]
  | .fexp2 d a rm f64 => pack 0x50000040 [(loS d, 21), (loS a, 16), (rm.code, 3), (f64.toNat, 0)]
  | .flog d a rm f64 => pack 0x50000080 [(loS d, 21), (loS a, 16), (rm.code, 3), (f64.toNat, 0)]
  | .flog2 d a rm f64 => pack 0x500000C0 [(loS d, 21), (loS a, 16), (rm.code, 3), (f64.toNat, 0)]
  | .ferf d a rm f64 => pack 0x50000100 [(loS d, 21), (loS a, 16), (rm.code, 3), (f64.toNat, 0)]
  | .ferfc d a rm f64 => pack 0x50000140 [(loS d, 21), (loS a, 16), (rm.code, 3), (f64.toNat, 0)]
  | .frcp d a rm f64 => pack 0x54000000 [(loS d, 21), (loS a, 16), (rm.code, 3), (f64.toNat, 0)]
  | .frsq d a rm f64 => pack 0x54000040 [(loS d, 21), (loS a, 16), (rm.code, 3), (f64.toNat, 0)]
  | .frcps d a b rm f64 => pack 0x54000080 [(loS d, 21), (loS a, 16), (loS b, 11), (rm.code, 3), (f64.toNat, 0)]
  | .frsqs d a b rm f64 => pack 0x540000C0 [(loS d, 21), (loS a, 16), (loS b, 11), (rm.code, 3), (f64.toNat, 0)]
  | .vadd d a b sat nat mk => pack 0x60000000 [(d.val, 21), (a.val, 16), (b.val, 11), (sat.toNat, 5), (nat.toNat, 4), (mk.val, 0)]
  | .vsub d a b sat nat mk => pack 0x60000040 [(d.val, 21), (a.val, 16), (b.val, 11), (sat.toNat, 5), (nat.toNat, 4), (mk.val, 0)]
  | .vmul d a b mk => pack 0x60000080 [(d.val, 21), (a.val, 16), (b.val, 11), (mk.val, 0)]
  | .vmulh d a b mk => pack 0x600000C0 [(d.val, 21), (a.val, 16), (b.val, 11), (mk.val, 0)]
  | .vmulhn d a b mk => pack 0x60000100 [(d.val, 21), (a.val, 16), (b.val, 11), (mk.val, 0)]
  | .vdiv d a b mk => pack 0x60000140 [(d.val, 21), (a.val, 16), (b.val, 11), (mk.val, 0)]
  | .vdivn d a b mk => pack 0x60000180 [(d.val, 21), (a.val, 16), (b.val, 11), (mk.val, 0)]
  | .vrem d a b mk => pack 0x600001C0 [(d.val, 21), (a.val, 16), (b.val, 11), (mk.val, 0)]
  | .vremn d a b mk => pack 0x60000200 [(d.val, 21), (a.val, 16), (b.val, 11), (mk.val, 0)]
  | .vand d a b mk => pack 0x60000240 [(d.val, 21), (a.val, 16), (b.val, 11), (mk.val, 0)]
  | .vor d a b mk => pack 0x60000280 [(d.val, 21), (a.val, 16), (b.val, 11), (mk.val, 0)]
  | .vxor d a b mk => pack 0x600002C0 [(d.val, 21), (a.val, 16), (b.val, 11), (mk.val, 0)]
  | .vandn d a b mk => pack 0x60000300 [(d.val, 21), (a.val, 16), (b.val, 11), (mk.val, 0)]
  | .vshl d a b mk => pack 0x60000340 [(d.val, 21), (a.val, 16), (b.val, 11), (mk.val, 0)]
  | .vshr d a b mk => pack 0x60000380 [(d.val, 21), (a.val, 16), (b.val, 11), (mk.val, 0)]
  | .vsra d a b mk => pack 0x600003C0 [(d.val, 21), (a.val, 16), (b.val, 11), (mk.val, 0)]
  | .vrotl d a b mk => pack 0x60000400 [(d.val, 21), (a.val, 16), (b.val, 11), (mk.val, 0)]
  | .vmin d a b mk => pack 0x60000440 [(d.val, 21), (a.val, 16), (b.val, 11), (mk.val, 0)]
  | .vminn d a b mk => pack 0x60000480 [(d.val, 21), (a.val, 16), (b.val, 11), (mk.val, 0)]
  | .vmax d a b mk => pack 0x600004C0 [(d.val, 21), (a.val, 16), (b.val, 11), (mk.val, 0)]
  | .vmaxn d a b mk => pack 0x60000500 [(d.val, 21), (a.val, 16), (b.val, 11), (mk.val, 0)]
  | .vclz d a mk => pack 0x60000540 [(d.val, 21), (a.val, 16), (mk.val, 0)]
  | .vctz d a mk => pack 0x60000580 [(d.val, 21), (a.val, 16), (mk.val, 0)]
  | .vpopc d a mk => pack 0x600005C0 [(d.val, 21), (a.val, 16), (mk.val, 0)]
  | .vfadd d a b rm mk => pack 0x64000000 [(d.val, 21), (a.val, 16), (b.val, 11), (rm.code, 3), (mk.val, 0)]
  | .vfsub d a b rm mk => pack 0x64000040 [(d.val, 21), (a.val, 16), (b.val, 11), (rm.code, 3), (mk.val, 0)]
  | .vfmul d a b rm mk => pack 0x64000080 [(d.val, 21), (a.val, 16), (b.val, 11), (rm.code, 3), (mk.val, 0)]
  | .vfdiv d a b rm mk => pack 0x640000C0 [(d.val, 21), (a.val, 16), (b.val, 11), (rm.code, 3), (mk.val, 0)]
  | .vfsqrt d a rm mk => pack 0x64000100 [(d.val, 21), (a.val, 16), (rm.code, 3), (mk.val, 0)]
  | .vfma d a b rm mk => pack 0x64000140 [(d.val, 21), (a.val, 16), (b.val, 11), (rm.code, 3), (mk.val, 0)]
  | .vfms d a b rm mk => pack 0x64000180 [(d.val, 21), (a.val, 16), (b.val, 11), (rm.code, 3), (mk.val, 0)]
  | .vfnma d a b rm mk => pack 0x640001C0 [(d.val, 21), (a.val, 16), (b.val, 11), (rm.code, 3), (mk.val, 0)]
  | .vfmin d a b mk => pack 0x64000200 [(d.val, 21), (a.val, 16), (b.val, 11), (mk.val, 0)]
  | .vfmax d a b mk => pack 0x64000240 [(d.val, 21), (a.val, 16), (b.val, 11), (mk.val, 0)]
  | .vfneg d a mk => pack 0x64000280 [(d.val, 21), (a.val, 16), (mk.val, 0)]
  | .vfabs d a mk => pack 0x640002C0 [(d.val, 21), (a.val, 16), (mk.val, 0)]
  | .vfcpsgn d a b mk => pack 0x64000300 [(d.val, 21), (a.val, 16), (b.val, 11), (mk.val, 0)]
  | .vfmov d a mk => pack 0x64000340 [(d.val, 21), (a.val, 16), (mk.val, 0)]
  | .vcvt d a cc rm mk => pack 0x68000000 [(d.val, 21), (a.val, 16), (cc.val, 11), (rm.code, 3), (mk.val, 0)]
  | .vpack d a cc rm part => pack 0x68000040 [(d.val, 21), (a.val, 16), (cc.val, 11), (rm.code, 3), (part.val, 0)]
  | .vunpack d a cc part => pack 0x68000080 [(d.val, 21), (a.val, 16), (cc.val, 11), (part.val, 0)]
  | .vmxnorm d a cc rm part => pack 0x680000C0 [(d.val, 21), (a.val, 16), (cc.val, 11), (rm.code, 3), (part.val, 0)]
  | .vmxscale d a cc rm part => pack 0x68000100 [(d.val, 21), (a.val, 16), (cc.val, 11), (rm.code, 3), (part.val, 0)]
  | .vfexp d a rm mk => pack 0x6C000000 [(d.val, 21), (a.val, 16), (rm.code, 3), (mk.val, 0)]
  | .vfexp2 d a rm mk => pack 0x6C000040 [(d.val, 21), (a.val, 16), (rm.code, 3), (mk.val, 0)]
  | .vflog d a rm mk => pack 0x6C000080 [(d.val, 21), (a.val, 16), (rm.code, 3), (mk.val, 0)]
  | .vflog2 d a rm mk => pack 0x6C0000C0 [(d.val, 21), (a.val, 16), (rm.code, 3), (mk.val, 0)]
  | .vferf d a rm mk => pack 0x6C000100 [(d.val, 21), (a.val, 16), (rm.code, 3), (mk.val, 0)]
  | .vferfc d a rm mk => pack 0x6C000140 [(d.val, 21), (a.val, 16), (rm.code, 3), (mk.val, 0)]
  | .vfrcp d a rm mk => pack 0x6C000200 [(d.val, 21), (a.val, 16), (rm.code, 3), (mk.val, 0)]
  | .vfrsq d a rm mk => pack 0x6C000240 [(d.val, 21), (a.val, 16), (rm.code, 3), (mk.val, 0)]
  | .vfrcps d a b rm mk => pack 0x6C000280 [(d.val, 21), (a.val, 16), (b.val, 11), (rm.code, 3), (mk.val, 0)]
  | .vfrsqs d a b rm mk => pack 0x6C0002C0 [(d.val, 21), (a.val, 16), (b.val, 11), (rm.code, 3), (mk.val, 0)]
  | .vredFsum d a row rm mk => pack 0x70000000 [(loS d, 21), (a.val, 16), (row.toNat, 15), (rm.code, 3), (mk.val, 0)]
  | .vredFmin d a row mk => pack 0x70000040 [(loS d, 21), (a.val, 16), (row.toNat, 15), (mk.val, 0)]
  | .vredFmax d a row mk => pack 0x70000080 [(loS d, 21), (a.val, 16), (row.toNat, 15), (mk.val, 0)]
  | .vredIsum d a row sat nat mk => pack 0x700000C0 [(loS d, 21), (a.val, 16), (row.toNat, 15), (sat.toNat, 14), (nat.toNat, 13), (mk.val, 0)]
  | .vredImin d a row mk => pack 0x70000100 [(loS d, 21), (a.val, 16), (row.toNat, 15), (mk.val, 0)]
  | .vredImax d a row mk => pack 0x70000140 [(loS d, 21), (a.val, 16), (row.toNat, 15), (mk.val, 0)]
  | .vredNmin d a row mk => pack 0x70000180 [(loS d, 21), (a.val, 16), (row.toNat, 15), (mk.val, 0)]
  | .vredNmax d a row mk => pack 0x700001C0 [(loS d, 21), (a.val, 16), (row.toNat, 15), (mk.val, 0)]
  | .vmov d a mk => pack 0x74000000 [(d.val, 21), (a.val, 16), (mk.val, 0)]
  | .vbcast d a mk => pack 0x74000040 [(d.val, 21), (loS a, 16), (mk.val, 0)]
  | .vextr d a b => pack 0x74000080 [(loS d, 21), (a.val, 16), (loS b, 11)]
  | .mand d a b => pack 0x78000000 [(d.val, 21), (a.val, 16), (b.val, 11)]
  | .mor d a b => pack 0x78000040 [(d.val, 21), (a.val, 16), (b.val, 11)]
  | .mxor d a b => pack 0x78000080 [(d.val, 21), (a.val, 16), (b.val, 11)]
  | .mandn d a b => pack 0x780000C0 [(d.val, 21), (a.val, 16), (b.val, 11)]
  | .mnot d a => pack 0x78000100 [(d.val, 21), (a.val, 16)]
  | .vcmp d a b cc mk => pack 0x78000200 [(d.val, 21), (a.val, 16), (b.val, 11), (cc.val, 3), (mk.val, 0)]
  | .vfcmp d a b cc mk => pack 0x78000240 [(d.val, 21), (a.val, 16), (b.val, 11), (cc.val, 3), (mk.val, 0)]
  | .mpopc d a => pack 0x78000280 [(loS d, 21), (a.val, 16)]
  | .vxb d a b mk => pack 0x80000000 [(d.val, 21), (a.val, 16), (loS b, 11), (mk.val, 0)]
  | .tzero d => pack 0x90000000 [(d.val, 21)]
  | .ttrans d a => pack 0x90000040 [(d.val, 21), (a.val, 16)]
  | .tcvt d a rm => pack 0x90000080 [(d.val, 21), (a.val, 16), (rm.code, 3)]
  | .tscale d a b rm => pack 0x900000C0 [(d.val, 21), (a.val, 16), (loS b, 11), (rm.code, 3)]
  | .tmov d a => pack 0x90000100 [(d.val, 21), (a.val, 16)]
  | .tmovFromVector d a b => pack 0x90000101 [(d.val, 21), (a.val, 16), (loS b, 11)]
  | .tmovToVector d a b => pack 0x90000102 [(d.val, 21), (a.val, 16), (loS b, 11)]
  | .tfill d a => pack 0x90000140 [(d.val, 21), (loS a, 16)]
  | .tld d a b q sp => pack 0x94000000 [(d.val, 21), (loS a, 16), (loS b, 11), (q.val, 1), (sp.toNat, 0)]
  | .tst d a b q sp => pack 0x94000040 [(d.val, 21), (loS a, 16), (loS b, 11), (q.val, 1), (sp.toNat, 0)]
  | .mma k a b pos ta tb sat qt => pack 0x98000000 [(k.val, 21), (a.val, 16), (b.val, 11), (pos.val, 6), (ta.toNat, 5), (tb.toNat, 4), (sat.toNat, 3), (qt.val, 0)]
  | .mmaMx k a b pos qk => pack 0x9C000000 [(k.val, 21), (a.val, 16), (b.val, 11), (pos.val, 1), (qk.toNat, 0)]
  | .mmaSc k a b pos qk => pack 0x9C000040 [(k.val, 21), (a.val, 16), (b.val, 11), (pos.val, 1), (qk.toNat, 0)]
  | .chainBuild k a sp => pack 0xA0000000 [(k.val, 21), (loS a, 16), (sp.toNat, 0)]
  | .chainClose k a b rm dst => pack 0xA0000040 [(k.val, 21), (loS a, 16), (loS b, 11), (rm.code, 3), (dst.toNat, 2)]
  | .chainStat d a k sp => pack 0xA0000080 [(loS d, 21), (loS a, 16), (k.val, 11), (sp.toNat, 0)]
  | .chainSplice k a pos => pack 0xA00000C0 [(k.val, 21), (loS a, 16), (pos.val, 11)]
  | .chainResume k => pack 0xA0000100 [(k.val, 21)]
  | .chainFree k => pack 0xA0000140 [(k.val, 21)]
  | .ld d a imm sp sz => pack 0xB0000000 [(loS d, 21), (loS a, 16), (lowBits 12 imm, 4), (sp.toNat, 3), (sz.val, 0)]
  | .st d a imm sp sz => pack 0xB4000000 [(loS d, 21), (loS a, 16), (lowBits 12 imm, 4), (sp.toNat, 3), (sz.val, 0)]
  | .vld d a b sp scr mk => pack 0xB8000000 [(d.val, 21), (loS a, 16), (loS b, 11), (sp.toNat, 5), (scr.toNat, 4), (mk.val, 0)]
  | .vst d a b sp scr mk => pack 0xB8000040 [(d.val, 21), (loS a, 16), (loS b, 11), (sp.toNat, 5), (scr.toNat, 4), (mk.val, 0)]
  | .pref a b lvl => pack 0xBC000000 [(loS a, 16), (loS b, 11), (lvl.val, 3)]
  | .clean a b lvl => pack 0xBC000040 [(loS a, 16), (loS b, 11), (lvl.val, 3)]
  | .invl a b => pack 0xBC000080 [(loS a, 16), (loS b, 11)]
  | .amoSwap d a b ty => pack 0xC0000000 [(loS d, 21), (loS a, 16), (loS b, 11), (ty.val, 4)]
  | .amoCas d a b ty => pack 0xC0000080 [(loS d, 21), (loS a, 16), (loS b, 11), (ty.val, 4)]
  | .amoAdd d a b ty => pack 0xC0000100 [(loS d, 21), (loS a, 16), (loS b, 11), (ty.val, 4)]
  | .amoAnd d a b ty => pack 0xC0000180 [(loS d, 21), (loS a, 16), (loS b, 11), (ty.val, 4)]
  | .amoOr d a b ty => pack 0xC0000200 [(loS d, 21), (loS a, 16), (loS b, 11), (ty.val, 4)]
  | .amoXor d a b ty => pack 0xC0000280 [(loS d, 21), (loS a, 16), (loS b, 11), (ty.val, 4)]
  | .amoMin d a b ty => pack 0xC0000300 [(loS d, 21), (loS a, 16), (loS b, 11), (ty.val, 4)]
  | .amoMax d a b ty => pack 0xC0000380 [(loS d, 21), (loS a, 16), (loS b, 11), (ty.val, 4)]
  | .amoFadd d a b ty => pack 0xC0000400 [(loS d, 21), (loS a, 16), (loS b, 11), (ty.val, 4)]
  | .amoFmin d a b ty => pack 0xC0000480 [(loS d, 21), (loS a, 16), (loS b, 11), (ty.val, 4)]
  | .amoFmax d a b ty => pack 0xC0000500 [(loS d, 21), (loS a, 16), (loS b, 11), (ty.val, 4)]
  | .redAdd a b ty => pack 0xC4000100 [(loS a, 16), (loS b, 11), (ty.val, 4)]
  | .redAnd a b ty => pack 0xC4000180 [(loS a, 16), (loS b, 11), (ty.val, 4)]
  | .redOr a b ty => pack 0xC4000200 [(loS a, 16), (loS b, 11), (ty.val, 4)]
  | .redXor a b ty => pack 0xC4000280 [(loS a, 16), (loS b, 11), (ty.val, 4)]
  | .redMin a b ty => pack 0xC4000300 [(loS a, 16), (loS b, 11), (ty.val, 4)]
  | .redMax a b ty => pack 0xC4000380 [(loS a, 16), (loS b, 11), (ty.val, 4)]
  | .redFadd a b ty => pack 0xC4000400 [(loS a, 16), (loS b, 11), (ty.val, 4)]
  | .redFmin a b ty => pack 0xC4000480 [(loS a, 16), (loS b, 11), (ty.val, 4)]
  | .redFmax a b ty => pack 0xC4000500 [(loS a, 16), (loS b, 11), (ty.val, 4)]
  | .ldAcq d a scope sz => pack 0xC8000000 [(loS d, 21), (loS a, 16), (scope.val, 3), (sz.val, 0)]
  | .stRel d a scope sz => pack 0xC8000040 [(loS d, 21), (loS a, 16), (scope.val, 3), (sz.val, 0)]
  | .fence scope press => pack 0xD0000000 [(scope.val, 3), (press.toNat, 2)]
  | .barArrive bar => pack 0xD4000000 [(bar.val, 2)]
  | .barWait bar arr => pack 0xD4000040 [(bar.val, 2), (arr.toNat, 1)]
  | .barDrop bar => pack 0xD4000080 [(bar.val, 2)]
  | .barTwait d a bar arr => pack 0xD40000C0 [(loS d, 21), (loS a, 16), (bar.val, 2), (arr.toNat, 1)]
  | .flagSet a b scope => pack 0xD8000000 [(loS a, 16), (loS b, 11), (scope.val, 2)]
  | .flagWait d a b timed scope => pack 0xD8000040 [(loS d, 21), (loS a, 16), (loS b, 11), (timed.toNat, 5), (scope.val, 2)]
  | .flagWaitAny d a b timed scope => pack 0xD8000080 [(loS d, 21), (loS a, 16), (loS b, 11), (timed.toNat, 5), (scope.val, 2)]
  | .trig a b rst scope => pack 0xD80000C0 [(loS a, 16), (loS b, 11), (rst.toNat, 5), (scope.val, 2)]
  | .arm d a b q => pack 0xD8000100 [(loS d, 21), (loS a, 16), (loS b, 11), (q.val, 1)]
  | .cp q a c0 c1 _ => pack 0xE0000000 [(q.val, 21), (loS a, 16), (c0.val, 11), (c1.val, 1)]
  | .gather q a c0 c1 _ => pack 0xE0000040 [(q.val, 21), (loS a, 16), (c0.val, 11), (c1.val, 1)]
  | .scatter q a c0 c1 _ => pack 0xE0000080 [(q.val, 21), (loS a, 16), (c0.val, 11), (c1.val, 1)]
  | .collReshard q a c0 c1 _ => pack 0xE4000000 [(q.val, 21), (loS a, 16), (c0.val, 11), (c1.val, 1)]
  | .combine q a c0 c1 _ => pack 0xE4000040 [(q.val, 21), (loS a, 16), (c0.val, 11), (c1.val, 1)]
  | .tokwait a okOnly => pack 0xE8000000 [(a.val, 16), (okOnly.toNat, 0)]
  | .toktest d a => pack 0xE8000040 [(loS d, 21), (a.val, 16)]
  | .tokjoin d a b c => pack 0xE8000080 [(d.val, 21), (a.val, 16), (b.val, 11), (c.val, 1)]
  | .phaseBegin a => pack 0xEC000000 [(loS a, 16)]
  | .phaseCommit d => pack 0xEC000040 [(loS d, 21)]
  | .chk a b kk => pack 0xEC000080 [(loS a, 16), (loS b, 11), (kk.val, 0)]
  | .trap code => pack 0xF0000000 [(code.val, 11)]
  | .hrules d a => pack 0xF00000C0 [(loS d, 21), (loS a, 16)]
  | .invr d a b aa => pack 0xF0000100 [(loS d, 21), (loS a, 16), (loS b, 11), (aa.toNat, 0)]
  | .detset a b => pack 0xF0000140 [(loS a, 16), (loS b, 11)]
  | .nodeDone a => pack 0xF0000180 [(loS a, 16)]
  | .graphSignal a => pack 0xF00001C0 [(loS a, 16)]
  | .nop  => 0x00000000
  | .exit  => 0x00000040
  | .yield  => 0x00000080
  | .ret  => 0x28000080
  | .eret  => 0xF0000040
  | .hflush  => 0xF0000080
  | _ => 0

/-- What the header must add to the slot: bit 5 of the scalar fields, or the bits of imm above the narrow field
(03 R66, R87). -/
def encode (i : Instr) : Nat × Ext :=
  (encodeWord i,
    let (d, a, b) := Instr.highBits i
    if d || a || b then .regs d a b
    else match Instr.immByte i with
      | Option.none => .none
      | Option.some e => .imm e)

end Sys2Proof
end

