-- ==== Sys2Proof/Machine/Bits.lean ====
section
/-! DEFINITION. Bit fields, sign extension and byte order (02 R42). -/
namespace Sys2Proof.Machine

/-- The n bits of v from bit lo. -/
def bits (v lo n : Nat) : Nat := v / 2 ^ lo % 2 ^ n

/-- Bit i of v. -/
def testBit (v i : Nat) : Bool := v / 2 ^ i % 2 == 1

/-- The low n bits of v read as two's complement. -/
def toSigned (n v : Nat) : Int :=
  if v % 2 ^ n < 2 ^ (n - 1) then ((v % 2 ^ n : Nat) : Int) else ((v % 2 ^ n : Nat) : Int) - 2 ^ n

/-- The n-bit pattern of an integer. -/
def ofInt (n : Nat) (i : Int) : Nat := (i % 2 ^ n).toNat

/-- v with its n bits from lo replaced by x. -/
def setBits (v lo n x : Nat) : Nat := v / 2 ^ (lo + n) * 2 ^ (lo + n) + x % 2 ^ n * 2 ^ lo + v % 2 ^ lo

/-- The bytes of v, n of them, least significant first (02 R42). -/
def toBytes : Nat → Nat → List Byte
  | 0, _ => []
  | n + 1, v => BitVec.ofNat 8 v :: toBytes n (v / 256)

/-- The number that bytes hold, least significant first. -/
def ofBytes : List Byte → Nat
  | [] => 0
  | b :: l => b.toNat + 256 * ofBytes l

/-- The n bytes of a list from offset off; bytes beyond the list read 0. -/
def sliceBytes (l : List Byte) (off n : Nat) : List Byte :=
  let t := (l.drop off).take n
  t ++ List.replicate (n - t.length) 0

/-- The little-endian number in the n bytes of a list from offset off. -/
def leAt (l : List Byte) (off n : Nat) : Nat := ofBytes (sliceBytes l off n)

/-- The number of ones among the low n bits of v. -/
def popCount : Nat → Nat → Nat
  | 0, _ => 0
  | n + 1, v => v % 2 + popCount n (v / 2)

/-- The number of zeros above the highest one of the low n bits of v; n when v is 0. -/
def leadingZeros (n v : Nat) : Nat := if v % 2 ^ n = 0 then n else n - 1 - (v % 2 ^ n).log2

/-- The number of zeros below the lowest one of the low n bits of v; n when there is none. -/
def trailingZeros : Nat → Nat → Nat
  | 0, _ => 0
  | n + 1, v => if v % 2 = 1 then 0 else 1 + trailingZeros n (v / 2)

/-- The greater of two numbers. -/
def natMax (a b : Nat) : Nat := if a < b then b else a

/-- ceil(a / b). -/
def ceilDiv (a b : Nat) : Nat := (a + b - 1) / b

/-- The first element of a list that satisfies p, with the list in which f replaces it. -/
def updateFirst {α : Type} (p : α → Bool) (f : α → α) : List α → List α
  | [] => []
  | x :: l => if p x then f x :: l else x :: updateFirst p f l

/-- Every element of a list that satisfies p replaced through f. -/
def updateAll {α : Type} (p : α → Bool) (f : α → α) (l : List α) : List α :=
  l.map fun x => if p x then f x else x

/-- Whether a list has two equal elements. -/
def hasDup {α : Type} [DecidableEq α] : List α → Bool
  | [] => false
  | x :: l => l.contains x || hasDup l

/-- The largest r below 2^n with r * r at most v, bit by bit from the top. -/
def isqrtBits : Nat → Nat → Nat → Nat
  | 0, _, r => r
  | n + 1, v, r => isqrtBits n v (if (r + 2 ^ n) * (r + 2 ^ n) ≤ v then r + 2 ^ n else r)

/-- The integer square root. -/
def isqrt (v : Nat) : Nat := isqrtBits (v.log2 / 2 + 1) v 0

/-- A counter of 64 bits that saturates (20 R413). -/
def satAdd64 (x : Nat) : Nat := min (x + 1) (2 ^ 64 - 1)

end Sys2Proof.Machine
end

