-- ==== Sys2Proof/Machine/Num.lean ====
section
/-! DEFINITION. Floating-point formats, exact values and rounding (02 R34 to R61). An exact finite value is a
natural mantissa times a power of two; a value cut off below its mantissa carries a sticky bit. -/
namespace Sys2Proof.Machine

/-- The flags in FXF order (02 R46). -/
abbrev Flags := BitVec 6
/-- SAT. -/
def flagSAT : Flags := 0b100000
/-- NV. -/
def flagNV : Flags := 0b010000
/-- DZ. -/
def flagDZ : Flags := 0b001000
/-- OF. -/
def flagOF : Flags := 0b000100
/-- UF. -/
def flagUF : Flags := 0b000010
/-- NX. -/
def flagNX : Flags := 0b000001

/-- NV when the condition holds. -/
def nvIf (b : Bool) : Flags := if b then flagNV else 0

/-- The OR of flags. -/
def orFlags (l : List Flags) : Flags := l.foldl (fun a b => a ||| b) 0

/-- The rounding modes (02 R43). -/
inductive Rnd where
  | rne
  | rtz
  | rdn
  | rup
  | rmm
  deriving DecidableEq, Repr

/-- The mode of a rounding code; codes without a mode do not reach it. -/
def Rnd.ofCode : Nat → Rnd
  | 1 => .rtz
  | 2 => .rdn
  | 3 => .rup
  | 4 => .rmm
  | _ => .rne

/-- Which encodings of a format are NaN (02 R34, R35). -/
inductive NanKind where
  | ieee
  | single
  | none
  deriving DecidableEq, Repr

/-- A floating-point format (02 R34): fraction bits, bias, exponent bits, the largest finite magnitude as an encoding
without its sign, and the low bits of its container that hold nothing (02 R37). -/
structure Fmt where
  ebits : Nat
  fbits : Nat
  bias : Nat
  maxCode : Nat
  inf : Bool
  nan : NanKind
  low : Nat := 0
  narrow : Bool := false
  fp8 : Bool := false
  deriving DecidableEq, Repr

/-- FP64. -/
def Fmt.f64 : Fmt := { ebits := 11, fbits := 52, bias := 1023, maxCode := 0x7FEFFFFFFFFFFFFF, inf := true, nan := .ieee }
/-- FP32. -/
def Fmt.f32 : Fmt := { ebits := 8, fbits := 23, bias := 127, maxCode := 0x7F7FFFFF, inf := true, nan := .ieee }
/-- E8M10 in its 32-bit container. -/
def Fmt.e8m10 : Fmt :=
  { ebits := 8, fbits := 10, bias := 127, maxCode := 0x3FBFF, inf := true, nan := .ieee, low := 13 }
/-- BF16. -/
def Fmt.bf16 : Fmt := { ebits := 8, fbits := 7, bias := 127, maxCode := 0x7F7F, inf := true, nan := .ieee }
/-- FP16. -/
def Fmt.f16 : Fmt := { ebits := 5, fbits := 10, bias := 15, maxCode := 0x7BFF, inf := true, nan := .ieee }
/-- FP8 E5M2. -/
def Fmt.e5m2 : Fmt :=
  { ebits := 5, fbits := 2, bias := 15, maxCode := 0x7B, inf := true, nan := .ieee, narrow := true, fp8 := true }
/-- FP8 E4M3. -/
def Fmt.e4m3 : Fmt :=
  { ebits := 4, fbits := 3, bias := 7, maxCode := 0x7E, inf := false, nan := .single, narrow := true, fp8 := true }
/-- FP6 E3M2. -/
def Fmt.e3m2 : Fmt := { ebits := 3, fbits := 2, bias := 3, maxCode := 0x1F, inf := false, nan := .none, narrow := true }
/-- FP6 E2M3. -/
def Fmt.e2m3 : Fmt := { ebits := 2, fbits := 3, bias := 1, maxCode := 0x1F, inf := false, nan := .none, narrow := true }
/-- FP4 E2M1. -/
def Fmt.e2m1 : Fmt := { ebits := 2, fbits := 1, bias := 1, maxCode := 0x7, inf := false, nan := .none, narrow := true }

/-- The sign bit's place. -/
def Fmt.signPos (f : Fmt) : Nat := f.ebits + f.fbits
/-- The width of the format without its container's low bits. -/
def Fmt.width (f : Fmt) : Nat := f.ebits + f.fbits + 1
/-- The encoding of infinity without its sign, where the format has one. -/
def Fmt.infCode (f : Fmt) : Nat := (2 ^ f.ebits - 1) * 2 ^ f.fbits
/-- The canonical NaN (02 R36); 0 where the format has none (R53). -/
def Fmt.canonNan (f : Fmt) : Nat :=
  match f.nan with
  | .ieee => (f.infCode + 2 ^ (f.fbits - 1)) * 2 ^ f.low
  | .single => f.infCode + 2 ^ f.fbits - 1
  | .none => 0
/-- The exponent of the unit of the subnormals. -/
def Fmt.emin (f : Fmt) : Int := 1 - (f.bias : Int) - (f.fbits : Int)

/-- A value: a NaN, an infinity, or the finite (-1)^neg * m * 2^e. -/
inductive FVal where
  | nan (signalling : Bool)
  | inf (neg : Bool)
  | fin (neg : Bool) (m : Nat) (e : Int)
  deriving DecidableEq, Repr

/-- The bits of a result and the flags it raises. -/
structure FR where
  bits : Nat
  flags : Flags := 0
  deriving DecidableEq, Repr

/-- The value of an encoding (02 R35 to R37); bits above the width are ignored. -/
def Fmt.unpack (f : Fmt) (w : Nat) : FVal :=
  let x := w / 2 ^ f.low
  let neg := testBit x f.signPos
  let e := bits x f.fbits f.ebits
  let m := x % 2 ^ f.fbits
  let top := 2 ^ f.ebits - 1
  if f.nan = .ieee ∧ e = top then
    if m = 0 then .inf neg else .nan (!testBit m (f.fbits - 1))
  else if f.nan = .single ∧ e = top ∧ m = 2 ^ f.fbits - 1 then .nan false
  else if e = 0 then .fin neg m f.emin
  else .fin neg (2 ^ f.fbits + m) (f.emin + (e : Int) - 1)

/-- An encoding from its sign and magnitude. -/
def Fmt.pack (f : Fmt) (neg : Bool) (code : Nat) : Nat := (code + neg.toNat * 2 ^ f.signPos) * 2 ^ f.low

/-- Whether the mode adds one unit, given the sign, the last kept bit, and how the rest compares with half a unit. -/
def Rnd.up (rm : Rnd) (neg odd : Bool) (rest : Ordering) (inexact : Bool) : Bool :=
  match rm with
  | .rne => rest == .gt || (rest == .eq && odd)
  | .rmm => rest != .lt
  | .rtz => false
  | .rdn => neg && inexact
  | .rup => !neg && inexact

/-- m * 2^e (with a sticky bit for what lies below) cut at the unit 2^q: the rounded multiple of the unit and whether
it differs from the value. -/
def cutAt (rm : Rnd) (neg : Bool) (m : Nat) (e : Int) (sticky : Bool) (q : Int) : Nat × Bool :=
  if q ≤ e then (m * 2 ^ (e - q).toNat, sticky)
  else
    let k := (q - e).toNat
    let w := m / 2 ^ k
    let r := m % 2 ^ k
    let half := 2 ^ (k - 1)
    let rest : Ordering := if r < half then .lt else if half < r then .gt else if sticky then .gt else .eq
    let inexact := r != 0 || sticky
    (w + (rm.up neg (w % 2 == 1) rest inexact).toNat, inexact)

/-- round(v, fmt, rm) before the choice of an overflow result (02 R44): the encoding of the magnitude, whether it
overflows, and the flags otherwise. -/
def Fmt.roundMag (f : Fmt) (rm : Rnd) (neg : Bool) (m : Nat) (e : Int) (sticky : Bool) : Nat × Bool × Flags :=
  if m = 0 ∧ !sticky then (0, false, 0)
  else
    let q := max ((m.log2 : Int) + e - (f.fbits : Int)) f.emin
    let (w, inexact) := cutAt rm neg m e sticky q
    let code := (q - f.emin).toNat * 2 ^ f.fbits + w
    if f.maxCode < code then (code, true, 0)
    else (code, false, if inexact then (if code < 2 ^ f.fbits then flagUF ||| flagNX else flagNX) else 0)

/-- The overflow result of the formats with infinity (02 R45). -/
def Fmt.overflow (f : Fmt) (rm : Rnd) (neg : Bool) : Nat :=
  let toInf := match rm with
    | .rne | .rmm => true
    | .rtz => false
    | .rup => !neg
    | .rdn => neg
  f.pack neg (if toInf then f.infCode else f.maxCode)

/-- round(v, fmt, rm) of a finite value for the formats with infinity (02 R44, R45). -/
def Fmt.round (f : Fmt) (rm : Rnd) (neg : Bool) (m : Nat) (e : Int) (sticky : Bool := false) : FR :=
  match f.roundMag rm neg m e sticky with
  | (_, true, _) => { bits := f.overflow rm neg, flags := flagOF ||| flagNX }
  | (code, false, fl) => { bits := f.pack neg code, flags := fl }

/-- The canonical NaN as a result. -/
def Fmt.nanR (f : Fmt) (fl : Flags := 0) : FR := { bits := f.canonNan, flags := fl }
/-- An infinity as a result. -/
def Fmt.infR (f : Fmt) (neg : Bool) (fl : Flags := 0) : FR := { bits := f.pack neg f.infCode, flags := fl }

/-- A signed finite value as an integer times 2^e. -/
def signed (neg : Bool) (m : Nat) : Int := if neg then -(m : Int) else (m : Int)

/-- A contributor to a sum (02 R51): a value, or a product of an infinity and a zero. -/
inductive Contrib where
  | val (v : FVal)
  | invalid
  deriving DecidableEq, Repr

/-- Whether a contributor is a NaN. -/
def Contrib.isNan : Contrib → Bool
  | .val (.nan _) => true
  | _ => false
/-- Whether a contributor is a signalling NaN. -/
def Contrib.isSig : Contrib → Bool
  | .val (.nan s) => s
  | _ => false
/-- Whether a contributor is the infinity of the sign. -/
def Contrib.isInf (neg : Bool) : Contrib → Bool
  | .val (.inf n) => n == neg
  | _ => false

/-- The special cases of a sum over all its contributors (02 R51): none when the ordinary rules form the result. -/
def sumSpecial (f : Fmt) (l : List Contrib) : Option FR :=
  let both := l.any (Contrib.isInf false) && l.any (Contrib.isInf true)
  let inval := l.contains .invalid
  let nan := l.any Contrib.isNan
  if nan || both || inval then some (f.nanR (nvIf (both || inval || l.any Contrib.isSig)))
  else if l.any (Contrib.isInf false) then some (f.infR false)
  else if l.any (Contrib.isInf true) then some (f.infR true)
  else none

/-- The exact sum of finite contributors, as an integer times a power of two. -/
def exactSum : List Contrib → Int × Int
  | [] => (0, 0)
  | .val (.fin neg m e) :: l =>
    let (v, x) := exactSum l
    if m = 0 then (v, x)
    else if v = 0 then (signed neg m, e)
    else
      let q := min e x
      (signed neg m * 2 ^ (e - q).toNat + v * 2 ^ (x - q).toNat, q)
  | _ :: l => exactSum l

/-- Whether every contributor is a zero of the sign. -/
def allZero (neg : Bool) (l : List Contrib) : Bool :=
  l.all fun c => match c with
    | .val (.fin n m _) => n == neg && m == 0
    | _ => false

/-- The sign of a sum that is exactly zero (02 R44). -/
def zeroNeg (rm : Rnd) (l : List Contrib) : Bool :=
  allZero true l || (rm == .rdn && !allZero false l)

/-- round(exact(sum of the contributors), fmt, rm), with the special cases of 02 R51; half divides by two. -/
def fsum (f : Fmt) (rm : Rnd) (l : List Contrib) (half : Bool := false) : FR :=
  match sumSpecial f l with
  | some r => r
  | none =>
    let (v, e) := exactSum l
    if v = 0 then { bits := f.pack (zeroNeg rm l) 0 }
    else f.round rm (v < 0) v.natAbs (if half then e - 1 else e)

/-- The product of two values as one contributor (02 R51); flip inverts its sign. -/
def product (a b : FVal) (flip : Bool := false) : Contrib :=
  match a, b with
  | .nan s, .nan t => .val (.nan (s || t))
  | .nan s, _ => .val (.nan s)
  | _, .nan t => .val (.nan t)
  | .inf n, .inf k => .val (.inf (n ^^ k ^^ flip))
  | .inf n, .fin k m _ => if m = 0 then .invalid else .val (.inf (n ^^ k ^^ flip))
  | .fin n m _, .inf k => if m = 0 then .invalid else .val (.inf (n ^^ k ^^ flip))
  | .fin n m e, .fin k p x => .val (.fin (n ^^ k ^^ flip) (m * p) (e + x))

/-- A value with its sign inverted. -/
def FVal.flip : FVal → FVal
  | .nan s => .nan s
  | .inf n => .inf (!n)
  | .fin n m e => .fin (!n) m e

/-- FADD (05 R124). -/
def fadd (f : Fmt) (rm : Rnd) (a b : Nat) : FR := fsum f rm [.val (f.unpack a), .val (f.unpack b)]
/-- FSUB (05 R124). -/
def fsub (f : Fmt) (rm : Rnd) (a b : Nat) : FR := fsum f rm [.val (f.unpack a), .val (f.unpack b).flip]

/-- round(exact(product), fmt, rm), a product's zero keeping its sign (02 R44). -/
def roundProduct (f : Fmt) (rm : Rnd) (c : Contrib) : FR :=
  match c with
  | .invalid => f.nanR flagNV
  | .val (.nan s) => f.nanR (nvIf s)
  | .val (.inf n) => f.infR n
  | .val (.fin n m e) => if m = 0 then { bits := f.pack n 0 } else f.round rm n m e

/-- FMUL (05 R124). -/
def fmul (f : Fmt) (rm : Rnd) (a b : Nat) : FR := roundProduct f rm (product (f.unpack a) (f.unpack b))

/-- FMA (05 R124). -/
def fma (f : Fmt) (rm : Rnd) (a b d : Nat) : FR :=
  fsum f rm [product (f.unpack a) (f.unpack b), .val (f.unpack d)]
/-- FMS (05 R124). -/
def fms (f : Fmt) (rm : Rnd) (a b d : Nat) : FR :=
  fsum f rm [product (f.unpack a) (f.unpack b), .val (f.unpack d).flip]
/-- FNMA (05 R124). -/
def fnma (f : Fmt) (rm : Rnd) (a b d : Nat) : FR :=
  fsum f rm [.val (f.unpack d), product (f.unpack a) (f.unpack b) true]

/-- The quotient of two mantissas to k bits below the point, with its sticky bit. -/
def quotient (m p k : Nat) : Nat × Bool := (m * 2 ^ k / p, m * 2 ^ k % p != 0)

/-- FDIV (05 R124, R125). -/
def fdiv (f : Fmt) (rm : Rnd) (a b : Nat) : FR :=
  match f.unpack a, f.unpack b with
  | .nan s, .nan t => f.nanR (nvIf (s || t))
  | .nan s, _ => f.nanR (nvIf s)
  | _, .nan t => f.nanR (nvIf t)
  | .inf _, .inf _ => f.nanR flagNV
  | .inf n, .fin k _ _ => f.infR (n ^^ k)
  | .fin n _ _, .inf k => { bits := f.pack (n ^^ k) 0 }
  | .fin n m e, .fin k p x =>
    if p = 0 then (if m = 0 then f.nanR flagNV else f.infR (n ^^ k) flagDZ)
    else if m = 0 then { bits := f.pack (n ^^ k) 0 }
    else
      let sh := f.fbits + 4 + p.log2
      let (q, st) := quotient m p sh
      f.round rm (n ^^ k) q (e - x - (sh : Int)) st

/-- A mantissa moved to an even exponent with at least 2 * k bits, for square roots. -/
def evenScale (m : Nat) (e : Int) (k : Nat) : Nat × Int :=
  let s := 2 * k + (if e % 2 = 0 then 0 else 1)
  (m * 2 ^ s, e - (s : Int))

/-- FSQRT (05 R124). -/
def fsqrt (f : Fmt) (rm : Rnd) (a : Nat) : FR :=
  match f.unpack a with
  | .nan s => f.nanR (nvIf s)
  | .inf n => if n then f.nanR flagNV else f.infR false
  | .fin n m e =>
    if m = 0 then { bits := f.pack n 0 }
    else if n then f.nanR flagNV
    else
      let (x, q) := evenScale m e (f.fbits + 4)
      let r := isqrt x
      f.round rm false r (q / 2) (r * r != x)

/-- A value cut to p significant bits, ties to even, with an unbounded exponent (02 R59). -/
def roundSig (p m : Nat) (e : Int) (sticky : Bool) : Nat × Int :=
  let q := (m.log2 : Int) + e - ((p : Int) - 1)
  ((cutAt .rne false m e sticky q).1, q)

/-- FRCP (02 R59, R60). -/
def frcp (f : Fmt) (a : Nat) : FR :=
  match f.unpack a with
  | .nan s => f.nanR (nvIf s)
  | .inf n => { bits := f.pack n 0 }
  | .fin n m e =>
    if m = 0 then f.infR n flagDZ
    else
      let k := 20 + m.log2
      let (q, st) := quotient 1 m k
      let (w, x) := roundSig 13 q (-e - (k : Int)) st
      f.round .rne n w x

/-- FRSQ (02 R59, R60). -/
def frsq (f : Fmt) (a : Nat) : FR :=
  match f.unpack a with
  | .nan s => f.nanR (nvIf s)
  | .inf n => if n then f.nanR flagNV else { bits := f.pack false 0 }
  | .fin n m e =>
    if m = 0 then f.infR n flagDZ
    else if n then f.nanR flagNV
    else
      let (x, q) := evenScale m e 0
      let k := 20 + x.log2
      let t := 2 ^ (2 * k) / x
      let r := isqrt t
      let (w, y) := roundSig 13 r (-(q / 2) - (k : Int)) (r * r * x != 2 ^ (2 * k))
      f.round .rne false w y

/-- FRCPS and FRSQS (02 R61): c - a * b with c = 2, or half of it with c = 3. -/
def newton (f : Fmt) (rm : Rnd) (c : Nat) (half : Bool) (a b : Nat) : FR :=
  match product (f.unpack a) (f.unpack b) true with
  | .invalid => f.round .rne false c (if half then -1 else 0)
  | p => fsum f rm [.val (.fin false c 0), p] half

/-- The order key of an encoding that is no NaN, with -0 below +0 (02 R52). -/
def Fmt.key (f : Fmt) (w : Nat) : Int :=
  let x := w / 2 ^ f.low
  let mag := x % 2 ^ f.signPos
  if testBit x f.signPos then -(mag : Int) - 1 else (mag : Int)

/-- Whether an encoding is a NaN. -/
def Fmt.isNan (f : Fmt) (w : Nat) : Bool :=
  match f.unpack w with
  | .nan _ => true
  | _ => false
/-- Whether an encoding is a signalling NaN. -/
def Fmt.isSig (f : Fmt) (w : Nat) : Bool :=
  match f.unpack w with
  | .nan s => s
  | _ => false
/-- Whether an encoding is an infinity. -/
def Fmt.isInf (f : Fmt) (w : Nat) : Bool :=
  match f.unpack w with
  | .inf _ => true
  | _ => false

/-- FMIN and FMAX (02 R52). -/
def fminmax (f : Fmt) (maxi : Bool) (a b : Nat) : FR :=
  let fl := nvIf (f.isSig a || f.isSig b)
  if f.isNan a && f.isNan b then f.nanR fl
  else if f.isNan a then { bits := b, flags := fl }
  else if f.isNan b then { bits := a, flags := fl }
  else { bits := if (f.key a ≤ f.key b) != maxi then a else b, flags := fl }

/-- The comparison key with both zeros equal (05 R126). -/
def Fmt.cmpKey (f : Fmt) (w : Nat) : Int :=
  let x := w / 2 ^ f.low
  let mag := x % 2 ^ f.signPos
  if testBit x f.signPos then -(mag : Int) else (mag : Int)

/-- The four FP comparisons (05 R126): 0 EQ, 1 LT, 2 LE, 3 UN. -/
def fcompare (f : Fmt) (cc a b : Nat) : Bool × Flags :=
  let nan := f.isNan a || f.isNan b
  let sig := f.isSig a || f.isSig b
  match cc with
  | 0 => (!nan && f.cmpKey a == f.cmpKey b, nvIf sig)
  | 1 => (!nan && decide (f.cmpKey a < f.cmpKey b), nvIf nan)
  | 2 => (!nan && decide (f.cmpKey a ≤ f.cmpKey b), nvIf nan)
  | _ => (nan, nvIf sig)

/-- FCLASS (05 R127). -/
def fclassify (f : Fmt) (a : Nat) : Nat :=
  match f.unpack a with
  | .nan s => if s then 8 else 9
  | .inf n => if n then 0 else 7
  | .fin n m _ =>
    if m = 0 then (if n then 3 else 4)
    else if m < 2 ^ f.fbits then (if n then 2 else 5)
    else (if n then 1 else 6)

/-- A value converted to a floating-point format (02 R53, R54). -/
def Fmt.convert (f : Fmt) (rm : Rnd) (nbv : Nat) (v : FVal) (sticky : Bool := false) : FR :=
  match v with
  | .nan s => if f.nan = .none then { bits := 0, flags := flagNV } else f.nanR (nvIf s)
  | .inf n => if f.inf then f.infR n else { bits := f.pack n f.maxCode, flags := flagSAT }
  | .fin n m e =>
    match f.roundMag rm n m e sticky with
    | (code, false, fl) => { bits := f.pack n code, flags := fl }
    | (_, true, _) =>
      if !f.narrow then { bits := f.overflow rm n, flags := flagOF ||| flagNX }
      else if f.fp8 && nbv == 1 then f.nanR (flagOF ||| flagNX)
      else { bits := f.pack n f.maxCode, flags := flagOF ||| flagNX ||| flagSAT }

/-- An integer type: its width and whether it is signed. -/
structure IntTy where
  width : Nat
  signed : Bool
  deriving DecidableEq, Repr

/-- The least value of an integer type. -/
def IntTy.lo (t : IntTy) : Int := if t.signed then -(2 ^ (t.width - 1)) else 0
/-- The greatest value of an integer type. -/
def IntTy.hi (t : IntTy) : Int := if t.signed then 2 ^ (t.width - 1) - 1 else 2 ^ t.width - 1
/-- The value of a pattern of an integer type. -/
def IntTy.val (t : IntTy) (w : Nat) : Int := if t.signed then toSigned t.width w else ((w % 2 ^ t.width : Nat) : Int)

/-- An integer clamped to a type's range, and whether the clamp changed it. -/
def IntTy.clamp (t : IntTy) (v : Int) : Int × Bool :=
  if v < t.lo then (t.lo, true) else if t.hi < v then (t.hi, true) else (v, false)

/-- The integer next to m * 2^e under the mode, and whether it differs. -/
def roundToInt (rm : Rnd) (neg : Bool) (m : Nat) (e : Int) : Int × Bool :=
  let (w, inexact) := cutAt rm neg m e false 0
  (Sys2Proof.Machine.signed neg w, inexact)

/-- A value converted to an integer type (02 R55). -/
def toIntTy (t : IntTy) (rm : Rnd) (v : FVal) : Int × Flags :=
  match v with
  | .nan _ => (0, flagNV)
  | .inf n => (if n then t.lo else t.hi, flagNV)
  | .fin n m e =>
    let (w, inexact) := roundToInt rm n m e
    match t.clamp w with
    | (c, true) => (c, flagNV)
    | (c, false) => (c, if inexact then flagNX else 0)

/-- An integer converted to a floating-point format (02 R56); 0 gives +0. -/
def ofIntF (f : Fmt) (rm : Rnd) (nbv : Nat) (i : Int) : FR := f.convert rm nbv (.fin (i < 0) i.natAbs 0)

/-- FRINT (05 R130). -/
def frint (f : Fmt) (rm : Rnd) (a : Nat) : FR :=
  match f.unpack a with
  | .nan s => f.nanR (nvIf s)
  | .inf _ => { bits := a }
  | .fin n m e =>
    if m = 0 then { bits := a }
    else
      let (w, inexact) := roundToInt rm n m e
      { bits := (f.round .rne n w.natAbs 0).bits, flags := if inexact then flagNX else 0 }

end Sys2Proof.Machine
end

