-- ==== Sys2Proof/Machine/Slots.lean ====
section
/-! DEFINITION. What each slot instruction is to its bundle: its class (03 R91, R93), the registers it reads and
writes (R91, R92), and whether it is privileged (R93). -/
namespace Sys2Proof.Machine

/-- The slot classes (03 R91). -/
inductive SlotClass where
  | none
  | s
  | f
  | v
  | x
  | t
  | m
  | e
  | c
  deriving DecidableEq, Repr

/-- The merge mask as a register read; MK = 0 reads none (05 R134). -/
def maskRead (mk : MReg) : List Res := if mk.val = 0 then [] else [.m mk]
/-- What a merge under a mask reads beside its operands: the mask and the old destination. -/
def mergeRead (mk : MReg) (d : Res) : List Res := if mk.val = 0 then [] else [.m mk, d]
/-- PASS, ROTB and p8 to p15, which a loop instruction writes (04 R116, R117). -/
def loopRegs : List Res := [.csr 0x30, .csr 0x32, .p 8, .p 9, .p 10, .p 11, .p 12, .p 13, .p 14, .p 15]
/-- The token of MMA's field QT (07 R190). -/
def mmaToken (qt : Fin 8) : QReg := Fin.ofNat 32 (24 + qt.val)
/-- The tile that a five-bit field names. -/
def lowTile (a : SReg) : TReg := Fin.ofNat 8 a.val
/-- The vector register that a five-bit field names. -/
def lowV (a : SReg) : VIdx := Fin.ofNat 32 a.val
/-- The predicate that a field names. -/
def lowP (a : SReg) : PReg := Fin.ofNat 16 a.val
/-- The tokens that an engine instruction consumes: a field equal to QP names none (09 R233). -/
def tokenReads (q : QReg) (l : List (Option QReg)) : List Res :=
  l.filterMap fun x => x.bind fun c => if c = q then none else some (.q c)
/-- The class of an instruction (03 R93); a step without an encoding has none. -/
def slotClass : Instr → SlotClass
  | .nop  => .none
  | .exit  => .c
  | .yield  => .c
  | .add _ _ _ _ => .s
  | .sub _ _ _ _ => .s
  | .mul _ _ _ _ => .s
  | .mulh _ _ _ _ => .s
  | .mulhn _ _ _ _ => .s
  | .div _ _ _ _ => .s
  | .divn _ _ _ _ => .s
  | .rem _ _ _ _ => .s
  | .remn _ _ _ _ => .s
  | .and _ _ _ _ => .s
  | .or _ _ _ _ => .s
  | .xor _ _ _ _ => .s
  | .andn _ _ _ _ => .s
  | .shl _ _ _ _ => .s
  | .shr _ _ _ _ => .s
  | .sra _ _ _ _ => .s
  | .rotl _ _ _ _ => .s
  | .min _ _ _ _ => .s
  | .minn _ _ _ _ => .s
  | .max _ _ _ _ => .s
  | .maxn _ _ _ _ => .s
  | .clz _ _ _ => .s
  | .ctz _ _ _ => .s
  | .popc _ _ _ => .s
  | .addImm _ _ _ => .s
  | .mulImm _ _ _ => .s
  | .andImm _ _ _ => .s
  | .orImm _ _ _ => .s
  | .xorImm _ _ _ => .s
  | .andnImm _ _ _ => .s
  | .shlImm _ _ _ => .s
  | .shrImm _ _ _ => .s
  | .sraImm _ _ _ => .s
  | .rotlImm _ _ _ => .s
  | .minImm _ _ _ => .s
  | .minnImm _ _ _ => .s
  | .maxImm _ _ _ => .s
  | .maxnImm _ _ _ => .s
  | .movi _ _ => .s
  | .movhi _ _ _ => .s
  | .cmpEq _ _ _ _ => .s
  | .cmpNe _ _ _ _ => .s
  | .cmpLt _ _ _ _ => .s
  | .cmpGe _ _ _ _ => .s
  | .cmpLtn _ _ _ _ => .s
  | .cmpGen _ _ _ _ => .s
  | .sel _ _ _ _ => .s
  | .bfx _ _ _ _ _ => .s
  | .bfi _ _ _ _ => .s
  | .lea _ _ _ _ => .s
  | .csrr _ _ => .s
  | .csrw _ _ _ => .s
  | .csrs _ _ _ => .s
  | .csrc _ _ _ => .s
  | .br _ _ _ => .c
  | .jmp _ => .c
  | .call _ => .c
  | .jmpr _ => .c
  | .callr _ => .c
  | .ret  => .c
  | .loopSt _ _ _ => .c
  | .loopBr _ => .c
  | .pand _ _ _ => .s
  | .por _ _ _ => .s
  | .pxor _ _ _ => .s
  | .pandn _ _ _ => .s
  | .pnot _ _ => .s
  | .pmov _ _ => .s
  | .wait _ _ _ _ => .m
  | .fadd _ _ _ _ _ => .f
  | .fsub _ _ _ _ _ => .f
  | .fmul _ _ _ _ _ => .f
  | .fdiv _ _ _ _ _ => .f
  | .fsqrt _ _ _ _ => .f
  | .fma _ _ _ _ _ => .f
  | .fms _ _ _ _ _ => .f
  | .fnma _ _ _ _ _ => .f
  | .fmin _ _ _ _ => .f
  | .fmax _ _ _ _ => .f
  | .fneg _ _ _ => .f
  | .fabs _ _ _ => .f
  | .fcpsgn _ _ _ _ => .f
  | .fmov _ _ _ => .f
  | .fcmpEq _ _ _ _ => .f
  | .fcmpLt _ _ _ _ => .f
  | .fcmpLe _ _ _ _ => .f
  | .fcmpUn _ _ _ _ => .f
  | .fclass _ _ _ => .f
  | .fcvt _ _ _ _ _ _ => .f
  | .frint _ _ _ _ => .f
  | .fexp _ _ _ _ => .f
  | .fexp2 _ _ _ _ => .f
  | .flog _ _ _ _ => .f
  | .flog2 _ _ _ _ => .f
  | .ferf _ _ _ _ => .f
  | .ferfc _ _ _ _ => .f
  | .frcp _ _ _ _ => .f
  | .frsq _ _ _ _ => .f
  | .frcps _ _ _ _ _ => .f
  | .frsqs _ _ _ _ _ => .f
  | .vadd _ _ _ _ _ _ => .v
  | .vsub _ _ _ _ _ _ => .v
  | .vmul _ _ _ _ => .v
  | .vmulh _ _ _ _ => .v
  | .vmulhn _ _ _ _ => .v
  | .vdiv _ _ _ _ => .v
  | .vdivn _ _ _ _ => .v
  | .vrem _ _ _ _ => .v
  | .vremn _ _ _ _ => .v
  | .vand _ _ _ _ => .v
  | .vor _ _ _ _ => .v
  | .vxor _ _ _ _ => .v
  | .vandn _ _ _ _ => .v
  | .vshl _ _ _ _ => .v
  | .vshr _ _ _ _ => .v
  | .vsra _ _ _ _ => .v
  | .vrotl _ _ _ _ => .v
  | .vmin _ _ _ _ => .v
  | .vminn _ _ _ _ => .v
  | .vmax _ _ _ _ => .v
  | .vmaxn _ _ _ _ => .v
  | .vclz _ _ _ => .v
  | .vctz _ _ _ => .v
  | .vpopc _ _ _ => .v
  | .vfadd _ _ _ _ _ => .v
  | .vfsub _ _ _ _ _ => .v
  | .vfmul _ _ _ _ _ => .v
  | .vfdiv _ _ _ _ _ => .v
  | .vfsqrt _ _ _ _ => .v
  | .vfma _ _ _ _ _ => .v
  | .vfms _ _ _ _ _ => .v
  | .vfnma _ _ _ _ _ => .v
  | .vfmin _ _ _ _ => .v
  | .vfmax _ _ _ _ => .v
  | .vfneg _ _ _ => .v
  | .vfabs _ _ _ => .v
  | .vfcpsgn _ _ _ _ => .v
  | .vfmov _ _ _ => .v
  | .vcvt _ _ _ _ _ => .v
  | .vpack _ _ _ _ _ => .v
  | .vunpack _ _ _ _ => .v
  | .vmxnorm _ _ _ _ _ => .v
  | .vmxscale _ _ _ _ _ => .v
  | .vfexp _ _ _ _ => .v
  | .vfexp2 _ _ _ _ => .v
  | .vflog _ _ _ _ => .v
  | .vflog2 _ _ _ _ => .v
  | .vferf _ _ _ _ => .v
  | .vferfc _ _ _ _ => .v
  | .vfrcp _ _ _ _ => .v
  | .vfrsq _ _ _ _ => .v
  | .vfrcps _ _ _ _ _ => .v
  | .vfrsqs _ _ _ _ _ => .v
  | .vredFsum _ _ _ _ _ => .v
  | .vredFmin _ _ _ _ => .v
  | .vredFmax _ _ _ _ => .v
  | .vredIsum _ _ _ _ _ _ => .v
  | .vredImin _ _ _ _ => .v
  | .vredImax _ _ _ _ => .v
  | .vredNmin _ _ _ _ => .v
  | .vredNmax _ _ _ _ => .v
  | .vmov _ _ _ => .v
  | .vbcast _ _ _ => .v
  | .vextr _ _ _ => .v
  | .mand _ _ _ => .v
  | .mor _ _ _ => .v
  | .mxor _ _ _ => .v
  | .mandn _ _ _ => .v
  | .mnot _ _ => .v
  | .vcmp _ _ _ _ _ => .v
  | .vfcmp _ _ _ _ _ => .v
  | .mpopc _ _ => .v
  | .vxb _ _ _ _ => .x
  | .tzero _ => .t
  | .ttrans _ _ => .t
  | .tcvt _ _ _ => .t
  | .tscale _ _ _ _ => .t
  | .tmov _ _ => .t
  | .tmovFromVector _ _ _ => .t
  | .tmovToVector _ _ _ => .t
  | .tfill _ _ => .t
  | .tld _ _ _ _ _ => .t
  | .tst _ _ _ _ _ => .t
  | .mma _ _ _ _ _ _ _ _ => .t
  | .mmaMx _ _ _ _ _ => .t
  | .mmaSc _ _ _ _ _ => .t
  | .chainBuild _ _ _ => .t
  | .chainClose _ _ _ _ _ => .t
  | .chainStat _ _ _ _ => .t
  | .chainSplice _ _ _ => .t
  | .chainResume _ => .t
  | .chainFree _ => .t
  | .ld _ _ _ _ _ => .m
  | .st _ _ _ _ _ => .m
  | .vld _ _ _ _ _ _ => .m
  | .vst _ _ _ _ _ _ => .m
  | .pref _ _ _ => .m
  | .clean _ _ _ => .m
  | .invl _ _ => .m
  | .amoSwap _ _ _ _ => .m
  | .amoCas _ _ _ _ => .m
  | .amoAdd _ _ _ _ => .m
  | .amoAnd _ _ _ _ => .m
  | .amoOr _ _ _ _ => .m
  | .amoXor _ _ _ _ => .m
  | .amoMin _ _ _ _ => .m
  | .amoMax _ _ _ _ => .m
  | .amoFadd _ _ _ _ => .m
  | .amoFmin _ _ _ _ => .m
  | .amoFmax _ _ _ _ => .m
  | .redAdd _ _ _ => .m
  | .redAnd _ _ _ => .m
  | .redOr _ _ _ => .m
  | .redXor _ _ _ => .m
  | .redMin _ _ _ => .m
  | .redMax _ _ _ => .m
  | .redFadd _ _ _ => .m
  | .redFmin _ _ _ => .m
  | .redFmax _ _ _ => .m
  | .ldAcq _ _ _ _ => .m
  | .stRel _ _ _ _ => .m
  | .fence _ _ => .m
  | .barArrive _ => .m
  | .barWait _ _ => .m
  | .barDrop _ => .m
  | .barTwait _ _ _ _ => .m
  | .flagSet _ _ _ => .m
  | .flagWait _ _ _ _ _ => .m
  | .flagWaitAny _ _ _ _ _ => .m
  | .trig _ _ _ _ => .m
  | .arm _ _ _ _ => .m
  | .cp _ _ _ _ _ => .e
  | .gather _ _ _ _ _ => .e
  | .scatter _ _ _ _ _ => .e
  | .collReshard _ _ _ _ _ => .e
  | .combine _ _ _ _ _ => .e
  | .tokwait _ _ => .m
  | .toktest _ _ => .m
  | .tokjoin _ _ _ _ => .m
  | .phaseBegin _ => .c
  | .phaseCommit _ => .c
  | .chk _ _ _ => .s
  | .trap _ => .c
  | .eret  => .c
  | .hflush  => .c
  | .hrules _ _ => .c
  | .invr _ _ _ _ => .c
  | .detset _ _ => .c
  | .nodeDone _ => .c
  | .graphSignal _ => .c
  | _ => .none
/-- The registers that a slot reads, by architectural name (03 R92). -/
def slotReads : Instr → List Res
  | .add _ a b _ => [.s a, .s b]
  | .sub _ a b _ => [.s a, .s b]
  | .mul _ a b _ => [.s a, .s b]
  | .mulh _ a b _ => [.s a, .s b]
  | .mulhn _ a b _ => [.s a, .s b]
  | .div _ a b _ => [.s a, .s b]
  | .divn _ a b _ => [.s a, .s b]
  | .rem _ a b _ => [.s a, .s b]
  | .remn _ a b _ => [.s a, .s b]
  | .and _ a b _ => [.s a, .s b]
  | .or _ a b _ => [.s a, .s b]
  | .xor _ a b _ => [.s a, .s b]
  | .andn _ a b _ => [.s a, .s b]
  | .shl _ a b _ => [.s a, .s b]
  | .shr _ a b _ => [.s a, .s b]
  | .sra _ a b _ => [.s a, .s b]
  | .rotl _ a b _ => [.s a, .s b]
  | .min _ a b _ => [.s a, .s b]
  | .minn _ a b _ => [.s a, .s b]
  | .max _ a b _ => [.s a, .s b]
  | .maxn _ a b _ => [.s a, .s b]
  | .clz _ a _ => [.s a]
  | .ctz _ a _ => [.s a]
  | .popc _ a _ => [.s a]
  | .addImm _ a _ => [.s a]
  | .mulImm _ a _ => [.s a]
  | .andImm _ a _ => [.s a]
  | .orImm _ a _ => [.s a]
  | .xorImm _ a _ => [.s a]
  | .andnImm _ a _ => [.s a]
  | .shlImm _ a _ => [.s a]
  | .shrImm _ a _ => [.s a]
  | .sraImm _ a _ => [.s a]
  | .rotlImm _ a _ => [.s a]
  | .minImm _ a _ => [.s a]
  | .minnImm _ a _ => [.s a]
  | .maxImm _ a _ => [.s a]
  | .maxnImm _ a _ => [.s a]
  | .movhi d _ _ => [.s d]
  | .cmpEq _ a b _ => [.s a, .s b]
  | .cmpNe _ a b _ => [.s a, .s b]
  | .cmpLt _ a b _ => [.s a, .s b]
  | .cmpGe _ a b _ => [.s a, .s b]
  | .cmpLtn _ a b _ => [.s a, .s b]
  | .cmpGen _ a b _ => [.s a, .s b]
  | .sel _ a b p => [.s a, .s b, .p p]
  | .bfx _ a _ _ _ => [.s a]
  | .bfi d a _ _ => [.s d, .s a]
  | .lea _ a b _ => [.s a, .s b]
  | .csrr _ c => [.csr c.val]
  | .csrw _ a _ => [.s a]
  | .csrs _ a c => [.s a, .csr c.val]
  | .csrc _ a c => [.s a, .csr c.val]
  | .br p _ _ => [.p p]
  | .jmpr a => [.s a]
  | .callr a => [.s a]
  | .ret  => [.s 31]
  | .loopSt _ a _ => [.s a]
  | .loopBr _ => loopRegs ++ [.csr 0x31]
  | .pand _ a b => [.p a, .p b]
  | .por _ a b => [.p a, .p b]
  | .pxor _ a b => [.p a, .p b]
  | .pandn _ a b => [.p a, .p b]
  | .pnot _ a => [.p a]
  | .pmov _ a => [.p a]
  | .fadd _ _ a b _ => [.s a, .s b]
  | .fsub _ _ a b _ => [.s a, .s b]
  | .fmul _ _ a b _ => [.s a, .s b]
  | .fdiv _ _ a b _ => [.s a, .s b]
  | .fsqrt _ _ a _ => [.s a]
  | .fma _ d a b _ => [.s d, .s a, .s b]
  | .fms _ d a b _ => [.s d, .s a, .s b]
  | .fnma _ d a b _ => [.s d, .s a, .s b]
  | .fmin _ _ a b => [.s a, .s b]
  | .fmax _ _ a b => [.s a, .s b]
  | .fneg _ _ a => [.s a]
  | .fabs _ _ a => [.s a]
  | .fcpsgn _ _ a b => [.s a, .s b]
  | .fmov _ _ a => [.s a]
  | .fcmpEq _ a b _ => [.s a, .s b]
  | .fcmpLt _ a b _ => [.s a, .s b]
  | .fcmpLe _ a b _ => [.s a, .s b]
  | .fcmpUn _ a b _ => [.s a, .s b]
  | .fclass _ a _ => [.s a]
  | .fcvt _ a _ _ _ _ => [.s a]
  | .frint _ a _ _ => [.s a]
  | .fexp _ a _ _ => [.s a]
  | .fexp2 _ a _ _ => [.s a]
  | .flog _ a _ _ => [.s a]
  | .flog2 _ a _ _ => [.s a]
  | .ferf _ a _ _ => [.s a]
  | .ferfc _ a _ _ => [.s a]
  | .frcp _ a _ _ => [.s a]
  | .frsq _ a _ _ => [.s a]
  | .frcps _ a b _ _ => [.s a, .s b]
  | .frsqs _ a b _ _ => [.s a, .s b]
  | .vadd d a b _ _ mk => mergeRead mk (.v d) ++ [.v a, .v b]
  | .vsub d a b _ _ mk => mergeRead mk (.v d) ++ [.v a, .v b]
  | .vmul d a b mk => mergeRead mk (.v d) ++ [.v a, .v b]
  | .vmulh d a b mk => mergeRead mk (.v d) ++ [.v a, .v b]
  | .vmulhn d a b mk => mergeRead mk (.v d) ++ [.v a, .v b]
  | .vdiv d a b mk => mergeRead mk (.v d) ++ [.v a, .v b]
  | .vdivn d a b mk => mergeRead mk (.v d) ++ [.v a, .v b]
  | .vrem d a b mk => mergeRead mk (.v d) ++ [.v a, .v b]
  | .vremn d a b mk => mergeRead mk (.v d) ++ [.v a, .v b]
  | .vand d a b mk => mergeRead mk (.v d) ++ [.v a, .v b]
  | .vor d a b mk => mergeRead mk (.v d) ++ [.v a, .v b]
  | .vxor d a b mk => mergeRead mk (.v d) ++ [.v a, .v b]
  | .vandn d a b mk => mergeRead mk (.v d) ++ [.v a, .v b]
  | .vshl d a b mk => mergeRead mk (.v d) ++ [.v a, .v b]
  | .vshr d a b mk => mergeRead mk (.v d) ++ [.v a, .v b]
  | .vsra d a b mk => mergeRead mk (.v d) ++ [.v a, .v b]
  | .vrotl d a b mk => mergeRead mk (.v d) ++ [.v a, .v b]
  | .vmin d a b mk => mergeRead mk (.v d) ++ [.v a, .v b]
  | .vminn d a b mk => mergeRead mk (.v d) ++ [.v a, .v b]
  | .vmax d a b mk => mergeRead mk (.v d) ++ [.v a, .v b]
  | .vmaxn d a b mk => mergeRead mk (.v d) ++ [.v a, .v b]
  | .vclz d a mk => mergeRead mk (.v d) ++ [.v a]
  | .vctz d a mk => mergeRead mk (.v d) ++ [.v a]
  | .vpopc d a mk => mergeRead mk (.v d) ++ [.v a]
  | .vfadd d a b _ mk => mergeRead mk (.v d) ++ [.v a, .v b]
  | .vfsub d a b _ mk => mergeRead mk (.v d) ++ [.v a, .v b]
  | .vfmul d a b _ mk => mergeRead mk (.v d) ++ [.v a, .v b]
  | .vfdiv d a b _ mk => mergeRead mk (.v d) ++ [.v a, .v b]
  | .vfsqrt d a _ mk => mergeRead mk (.v d) ++ [.v a]
  | .vfma d a b _ mk => [.v d, .v a, .v b] ++ maskRead mk
  | .vfms d a b _ mk => [.v d, .v a, .v b] ++ maskRead mk
  | .vfnma d a b _ mk => [.v d, .v a, .v b] ++ maskRead mk
  | .vfmin d a b mk => mergeRead mk (.v d) ++ [.v a, .v b]
  | .vfmax d a b mk => mergeRead mk (.v d) ++ [.v a, .v b]
  | .vfneg d a mk => mergeRead mk (.v d) ++ [.v a]
  | .vfabs d a mk => mergeRead mk (.v d) ++ [.v a]
  | .vfcpsgn d a b mk => mergeRead mk (.v d) ++ [.v a, .v b]
  | .vfmov d a mk => mergeRead mk (.v d) ++ [.v a]
  | .vcvt d a _ _ mk => mergeRead mk (.v d) ++ [.v a]
  | .vpack d a _ _ _ => [.v d, .v a]
  | .vunpack _ a _ _ => [.v a]
  | .vmxnorm d a _ _ _ => [.v d, .v a]
  | .vmxscale _ a _ _ _ => [.v a]
  | .vfexp d a _ mk => mergeRead mk (.v d) ++ [.v a]
  | .vfexp2 d a _ mk => mergeRead mk (.v d) ++ [.v a]
  | .vflog d a _ mk => mergeRead mk (.v d) ++ [.v a]
  | .vflog2 d a _ mk => mergeRead mk (.v d) ++ [.v a]
  | .vferf d a _ mk => mergeRead mk (.v d) ++ [.v a]
  | .vferfc d a _ mk => mergeRead mk (.v d) ++ [.v a]
  | .vfrcp d a _ mk => mergeRead mk (.v d) ++ [.v a]
  | .vfrsq d a _ mk => mergeRead mk (.v d) ++ [.v a]
  | .vfrcps d a b _ mk => mergeRead mk (.v d) ++ [.v a, .v b]
  | .vfrsqs d a b _ mk => mergeRead mk (.v d) ++ [.v a, .v b]
  | .vredFsum d a row _ mk => [.v a] ++ maskRead mk ++ (if row then [.v (lowV d)] else [])
  | .vredFmin d a row mk => [.v a] ++ maskRead mk ++ (if row then [.v (lowV d)] else [])
  | .vredFmax d a row mk => [.v a] ++ maskRead mk ++ (if row then [.v (lowV d)] else [])
  | .vredIsum d a row _ _ mk => [.v a] ++ maskRead mk ++ (if row then [.v (lowV d)] else [])
  | .vredImin d a row mk => [.v a] ++ maskRead mk ++ (if row then [.v (lowV d)] else [])
  | .vredImax d a row mk => [.v a] ++ maskRead mk ++ (if row then [.v (lowV d)] else [])
  | .vredNmin d a row mk => [.v a] ++ maskRead mk ++ (if row then [.v (lowV d)] else [])
  | .vredNmax d a row mk => [.v a] ++ maskRead mk ++ (if row then [.v (lowV d)] else [])
  | .vmov d a mk => mergeRead mk (.v d) ++ [.v a]
  | .vbcast d a mk => mergeRead mk (.v d) ++ [.s a]
  | .vextr _ a b => [.v a, .s b]
  | .mand _ a b => [.m a, .m b]
  | .mor _ a b => [.m a, .m b]
  | .mxor _ a b => [.m a, .m b]
  | .mandn _ a b => [.m a, .m b]
  | .mnot _ a => [.m a]
  | .vcmp d a b _ mk => [.m d] ++ [.v a, .v b] ++ maskRead mk
  | .vfcmp d a b _ mk => [.m d] ++ [.v a, .v b] ++ maskRead mk
  | .mpopc _ a => [.m a]
  | .vxb d a b mk => mergeRead mk (.v d) ++ [.v a, .s b]
  | .ttrans _ a => [.t a]
  | .tcvt _ a _ => [.t a]
  | .tscale _ a b _ => [.t a, .s b]
  | .tmov _ a => [.t a]
  | .tmovFromVector _ a b => [.v a, .s b]
  | .tmovToVector _ a b => [.t a, .s b]
  | .tfill _ a => [.s a]
  | .tld _ a b _ _ => [.s a, .s b]
  | .tst d a b _ _ => [.t d, .s a, .s b]
  | .mma _ a b _ _ _ _ _ => [.t a, .t b]
  | .mmaMx _ a b _ _ => [.t a, .t b]
  | .mmaSc _ a b _ _ => [.t a, .t b]
  | .chainBuild _ a _ => [.s a]
  | .chainClose _ a b _ dst => if dst then [.s a, .s b] else [.s b]
  | .chainStat _ a k _ => [.s a, .k k]
  | .chainSplice _ a _ => [.s a]
  | .ld _ a _ _ _ => [.s a]
  | .st d a _ _ _ => [.s d, .s a]
  | .vld d a b _ _ mk => [.v d, .s a, .s b] ++ maskRead mk
  | .vst d a b _ _ mk => [.v d, .s a, .s b] ++ maskRead mk
  | .pref a b _ => [.s a, .s b]
  | .clean a b _ => [.s a, .s b]
  | .invl a b => [.s a, .s b]
  | .amoSwap _ a b _ => [.s a, .s b]
  | .amoCas d a b _ => [.s d, .s a, .s b]
  | .amoAdd _ a b _ => [.s a, .s b]
  | .amoAnd _ a b _ => [.s a, .s b]
  | .amoOr _ a b _ => [.s a, .s b]
  | .amoXor _ a b _ => [.s a, .s b]
  | .amoMin _ a b _ => [.s a, .s b]
  | .amoMax _ a b _ => [.s a, .s b]
  | .amoFadd _ a b _ => [.s a, .s b]
  | .amoFmin _ a b _ => [.s a, .s b]
  | .amoFmax _ a b _ => [.s a, .s b]
  | .redAdd a b _ => [.s a, .s b]
  | .redAnd a b _ => [.s a, .s b]
  | .redOr a b _ => [.s a, .s b]
  | .redXor a b _ => [.s a, .s b]
  | .redMin a b _ => [.s a, .s b]
  | .redMax a b _ => [.s a, .s b]
  | .redFadd a b _ => [.s a, .s b]
  | .redFmin a b _ => [.s a, .s b]
  | .redFmax a b _ => [.s a, .s b]
  | .ldAcq _ a _ _ => [.s a]
  | .stRel d a _ _ => [.s d, .s a]
  | .barTwait _ a _ _ => [.s a]
  | .flagSet a b _ => [.s a, .s b]
  | .flagWait d a b timed _ => [.s a, .s b] ++ (if timed then [.s d] else [])
  | .flagWaitAny d a b timed _ => [.s a, .s b] ++ (if timed then [.s d] else [])
  | .trig a b _ _ => [.s a, .s b]
  | .arm d a b _ => [.s d, .s a, .s b]
  | .cp q a c0 c1 c2 => [.s a] ++ tokenReads q [some c0, some c1, c2]
  | .gather q a c0 c1 c2 => [.s a] ++ tokenReads q [some c0, some c1, c2]
  | .scatter q a c0 c1 c2 => [.s a] ++ tokenReads q [some c0, some c1, c2]
  | .collReshard q a c0 c1 c2 => [.s a] ++ tokenReads q [some c0, some c1, c2]
  | .combine q a c0 c1 c2 => [.s a] ++ tokenReads q [some c0, some c1, c2]
  | .tokwait a _ => [.q a]
  | .toktest _ a => [.q a]
  | .tokjoin _ a b c => [.q a, .q b, .q c]
  | .phaseBegin a => [.s a]
  | .chk a b kk => match kk.val with | 0 => [.s a, .s b] | 1 => [.v (lowV a), .v (lowV b)] | _ => [.p (lowP a), .p (lowP b)]
  | .hrules _ a => [.s a]
  | .invr d a b _ => [.s d, .s a, .s b]
  | .detset a b => [.s a, .s b]
  | .nodeDone a => [.s a]
  | .graphSignal a => [.s a]
  | _ => []
/-- The registers that a slot writes, by architectural name (03 R91). -/
def slotWrites : Instr → List Res
  | .add d _ _ _ => [.s d]
  | .sub d _ _ _ => [.s d]
  | .mul d _ _ _ => [.s d]
  | .mulh d _ _ _ => [.s d]
  | .mulhn d _ _ _ => [.s d]
  | .div d _ _ _ => [.s d]
  | .divn d _ _ _ => [.s d]
  | .rem d _ _ _ => [.s d]
  | .remn d _ _ _ => [.s d]
  | .and d _ _ _ => [.s d]
  | .or d _ _ _ => [.s d]
  | .xor d _ _ _ => [.s d]
  | .andn d _ _ _ => [.s d]
  | .shl d _ _ _ => [.s d]
  | .shr d _ _ _ => [.s d]
  | .sra d _ _ _ => [.s d]
  | .rotl d _ _ _ => [.s d]
  | .min d _ _ _ => [.s d]
  | .minn d _ _ _ => [.s d]
  | .max d _ _ _ => [.s d]
  | .maxn d _ _ _ => [.s d]
  | .clz d _ _ => [.s d]
  | .ctz d _ _ => [.s d]
  | .popc d _ _ => [.s d]
  | .addImm d _ _ => [.s d]
  | .mulImm d _ _ => [.s d]
  | .andImm d _ _ => [.s d]
  | .orImm d _ _ => [.s d]
  | .xorImm d _ _ => [.s d]
  | .andnImm d _ _ => [.s d]
  | .shlImm d _ _ => [.s d]
  | .shrImm d _ _ => [.s d]
  | .sraImm d _ _ => [.s d]
  | .rotlImm d _ _ => [.s d]
  | .minImm d _ _ => [.s d]
  | .minnImm d _ _ => [.s d]
  | .maxImm d _ _ => [.s d]
  | .maxnImm d _ _ => [.s d]
  | .movi d _ => [.s d]
  | .movhi d _ _ => [.s d]
  | .cmpEq p _ _ _ => [.p p]
  | .cmpNe p _ _ _ => [.p p]
  | .cmpLt p _ _ _ => [.p p]
  | .cmpGe p _ _ _ => [.p p]
  | .cmpLtn p _ _ _ => [.p p]
  | .cmpGen p _ _ _ => [.p p]
  | .sel d _ _ _ => [.s d]
  | .bfx d _ _ _ _ => [.s d]
  | .bfi d _ _ _ => [.s d]
  | .lea d _ _ _ => [.s d]
  | .csrr d _ => [.s d]
  | .csrw d _ c => [.s d, .csr c.val]
  | .csrs d _ c => [.s d, .csr c.val]
  | .csrc d _ c => [.s d, .csr c.val]
  | .call _ => [.s 31]
  | .callr _ => [.s 31]
  | .loopSt _ _ _ => loopRegs ++ [.csr 0x31]
  | .loopBr _ => loopRegs
  | .pand d _ _ => [.p d]
  | .por d _ _ => [.p d]
  | .pxor d _ _ => [.p d]
  | .pandn d _ _ => [.p d]
  | .pnot d _ => [.p d]
  | .pmov d _ => [.p d]
  | .fadd _ d _ _ _ => [.s d]
  | .fsub _ d _ _ _ => [.s d]
  | .fmul _ d _ _ _ => [.s d]
  | .fdiv _ d _ _ _ => [.s d]
  | .fsqrt _ d _ _ => [.s d]
  | .fma _ d _ _ _ => [.s d]
  | .fms _ d _ _ _ => [.s d]
  | .fnma _ d _ _ _ => [.s d]
  | .fmin _ d _ _ => [.s d]
  | .fmax _ d _ _ => [.s d]
  | .fneg _ d _ => [.s d]
  | .fabs _ d _ => [.s d]
  | .fcpsgn _ d _ _ => [.s d]
  | .fmov _ d _ => [.s d]
  | .fcmpEq p _ _ _ => [.p p]
  | .fcmpLt p _ _ _ => [.p p]
  | .fcmpLe p _ _ _ => [.p p]
  | .fcmpUn p _ _ _ => [.p p]
  | .fclass d _ _ => [.s d]
  | .fcvt d _ _ _ _ _ => [.s d]
  | .frint d _ _ _ => [.s d]
  | .fexp d _ _ _ => [.s d]
  | .fexp2 d _ _ _ => [.s d]
  | .flog d _ _ _ => [.s d]
  | .flog2 d _ _ _ => [.s d]
  | .ferf d _ _ _ => [.s d]
  | .ferfc d _ _ _ => [.s d]
  | .frcp d _ _ _ => [.s d]
  | .frsq d _ _ _ => [.s d]
  | .frcps d _ _ _ _ => [.s d]
  | .frsqs d _ _ _ _ => [.s d]
  | .vadd d _ _ _ _ _ => [.v d]
  | .vsub d _ _ _ _ _ => [.v d]
  | .vmul d _ _ _ => [.v d]
  | .vmulh d _ _ _ => [.v d]
  | .vmulhn d _ _ _ => [.v d]
  | .vdiv d _ _ _ => [.v d]
  | .vdivn d _ _ _ => [.v d]
  | .vrem d _ _ _ => [.v d]
  | .vremn d _ _ _ => [.v d]
  | .vand d _ _ _ => [.v d]
  | .vor d _ _ _ => [.v d]
  | .vxor d _ _ _ => [.v d]
  | .vandn d _ _ _ => [.v d]
  | .vshl d _ _ _ => [.v d]
  | .vshr d _ _ _ => [.v d]
  | .vsra d _ _ _ => [.v d]
  | .vrotl d _ _ _ => [.v d]
  | .vmin d _ _ _ => [.v d]
  | .vminn d _ _ _ => [.v d]
  | .vmax d _ _ _ => [.v d]
  | .vmaxn d _ _ _ => [.v d]
  | .vclz d _ _ => [.v d]
  | .vctz d _ _ => [.v d]
  | .vpopc d _ _ => [.v d]
  | .vfadd d _ _ _ _ => [.v d]
  | .vfsub d _ _ _ _ => [.v d]
  | .vfmul d _ _ _ _ => [.v d]
  | .vfdiv d _ _ _ _ => [.v d]
  | .vfsqrt d _ _ _ => [.v d]
  | .vfma d _ _ _ _ => [.v d]
  | .vfms d _ _ _ _ => [.v d]
  | .vfnma d _ _ _ _ => [.v d]
  | .vfmin d _ _ _ => [.v d]
  | .vfmax d _ _ _ => [.v d]
  | .vfneg d _ _ => [.v d]
  | .vfabs d _ _ => [.v d]
  | .vfcpsgn d _ _ _ => [.v d]
  | .vfmov d _ _ => [.v d]
  | .vcvt d _ _ _ _ => [.v d]
  | .vpack d _ _ _ _ => [.v d]
  | .vunpack d _ _ _ => [.v d]
  | .vmxnorm d _ _ _ _ => [.v d]
  | .vmxscale d _ _ _ _ => [.v d]
  | .vfexp d _ _ _ => [.v d]
  | .vfexp2 d _ _ _ => [.v d]
  | .vflog d _ _ _ => [.v d]
  | .vflog2 d _ _ _ => [.v d]
  | .vferf d _ _ _ => [.v d]
  | .vferfc d _ _ _ => [.v d]
  | .vfrcp d _ _ _ => [.v d]
  | .vfrsq d _ _ _ => [.v d]
  | .vfrcps d _ _ _ _ => [.v d]
  | .vfrsqs d _ _ _ _ => [.v d]
  | .vredFsum d _ row _ _ => if row then [.v (lowV d)] else [.s d]
  | .vredFmin d _ row _ => if row then [.v (lowV d)] else [.s d]
  | .vredFmax d _ row _ => if row then [.v (lowV d)] else [.s d]
  | .vredIsum d _ row _ _ _ => if row then [.v (lowV d)] else [.s d]
  | .vredImin d _ row _ => if row then [.v (lowV d)] else [.s d]
  | .vredImax d _ row _ => if row then [.v (lowV d)] else [.s d]
  | .vredNmin d _ row _ => if row then [.v (lowV d)] else [.s d]
  | .vredNmax d _ row _ => if row then [.v (lowV d)] else [.s d]
  | .vmov d _ _ => [.v d]
  | .vbcast d _ _ => [.v d]
  | .vextr d _ _ => [.s d]
  | .mand d _ _ => [.m d]
  | .mor d _ _ => [.m d]
  | .mxor d _ _ => [.m d]
  | .mandn d _ _ => [.m d]
  | .mnot d _ => [.m d]
  | .vcmp d _ _ _ _ => [.m d]
  | .vfcmp d _ _ _ _ => [.m d]
  | .mpopc d _ => [.s d]
  | .vxb d _ _ _ => [.v d]
  | .tzero d => [.t d]
  | .ttrans d _ => [.t d]
  | .tcvt d _ _ => [.t d]
  | .tscale d _ _ _ => [.t d]
  | .tmov d _ => [.t d]
  | .tmovFromVector d _ _ => [.t d]
  | .tmovToVector d _ _ => [.v d]
  | .tfill d _ => [.t d]
  | .tld d _ _ q _ => [.t d, .q q]
  | .tst _ _ _ q _ => [.q q]
  | .mma k _ _ _ _ _ _ qt => [.k k] ++ (if qt.val = 0 then [] else [.q (mmaToken qt)])
  | .mmaMx k _ _ _ qk => [.k k] ++ (if qk then [.q 31] else [])
  | .mmaSc k _ _ _ qk => [.k k] ++ (if qk then [.q 31] else [])
  | .chainBuild k _ _ => [.k k]
  | .chainClose k a _ _ dst => if dst then [.k k] else [.k k, .t (lowTile a)]
  | .chainStat d _ _ _ => [.s d]
  | .chainSplice k _ _ => [.k k]
  | .chainResume k => [.k k]
  | .chainFree k => [.k k]
  | .ld d _ _ _ _ => [.s d]
  | .vld d _ _ _ _ _ => [.v d]
  | .amoSwap d _ _ _ => [.s d]
  | .amoCas d _ _ _ => [.s d]
  | .amoAdd d _ _ _ => [.s d]
  | .amoAnd d _ _ _ => [.s d]
  | .amoOr d _ _ _ => [.s d]
  | .amoXor d _ _ _ => [.s d]
  | .amoMin d _ _ _ => [.s d]
  | .amoMax d _ _ _ => [.s d]
  | .amoFadd d _ _ _ => [.s d]
  | .amoFmin d _ _ _ => [.s d]
  | .amoFmax d _ _ _ => [.s d]
  | .ldAcq d _ _ _ => [.s d]
  | .barTwait d _ _ _ => [.s d]
  | .flagWait d _ _ timed _ => if timed then [.s d] else []
  | .flagWaitAny d _ _ _ _ => [.s d]
  | .arm _ _ _ q => [.q q]
  | .cp q _ _ _ _ => [.q q]
  | .gather q _ _ _ _ => [.q q]
  | .scatter q _ _ _ _ => [.q q]
  | .collReshard q _ _ _ _ => [.q q]
  | .combine q _ _ _ _ => [.q q]
  | .toktest d _ => [.s d]
  | .tokjoin d _ _ _ => [.q d]
  | .phaseCommit d => [.s d]
  | .hrules d _ => [.s d]
  | _ => []
/-- The privileged forms (03 R93) and the writes of RWP CSRs (03 R67, 04 R109). -/
def slotPrivileged : Instr → Bool
  | .hrules _ _ => true
  | .invr _ _ _ _ => true
  | .detset _ _ => true
  | .csrw _ _ c | .csrs _ _ c | .csrc _ _ c =>
    [0x070, 0x071, 0x072, 0x073, 0x074, 0x080, 0x081].contains c.val
  | _ => false

end Sys2Proof.Machine
end

