-- ==== Sys2Proof/Config.lean ====
section
/-! DEFINITION. What the spec leaves to an implementation or leaves open: uninterpreted constants. None has a
body, so no proof can see a value of one. -/
namespace Sys2Proof.Config

/-- The free value with number i and w bits: nothing constrains it. The machine applies it to the counter
State.freeIx and advances the counter (DESIGN CHOICE, log 5). -/
opaque freeBits (i w : Nat) : BitVec w

/-- How many cycles beyond the first the step with number i takes (13 R289: timing is not architected; DESIGN CHOICE, log 7). -/
opaque extraCycles (i : Nat) : Nat

/-- The XMSS-SHAKE256_20_256 signature number n of msg by the device identity key, 2,820 bytes (20 R419; PRESUMED,
log 11). -/
opaque xmssSign (n : Nat) (msg : List Byte) : BitVec 22560

/-- The DETL DUAL digest of one run, given the logical issuer indices of its contexts and the operands' final bytes
(01 R22, R27); the spec does not say how it is formed (DESIGN CHOICE, log 12). -/
opaque dualDigest (issuers : List Nat) (bytes : List Byte) : BitVec 64

/-- The firmware with which the package is delivered (20 R418; DESIGN CHOICE, log 18): the management core's image for
0, the sowers' for 1. -/
opaque firmwareImage (i : Nat) : List Byte

/-- The signature of a delivered firmware image (20 R418; DESIGN CHOICE, log 18). -/
opaque firmwareSig (i : Nat) : List Byte

/-- The version number of firmware images, given as one string in boot order (16 R358, 20 R411;
DESIGN CHOICE, log 18). -/
opaque firmwareVersion (images : List Byte) : BitVec 64

/-- The power, temperature or voltage that PLDM sensor n shows in reading i (20 R411; DESIGN CHOICE, log 18). -/
opaque sensor (n i : Nat) : Nat

/-- Which end of a rational enclosure of an exact function is rounded, where no precision tried settles the rounding
(02 R57; DESIGN CHOICE, log 17): f is the function's number, x the operand's bits, w the format's width. -/
opaque exactSide (f : Nat) (x : Nat) (w : Nat) : Bool

end Sys2Proof.Config
end

