-- ==== Sys2Proof/Machine/State.lean ====
section
/-! DEFINITION. The state of one package (01 to 20): contexts, gangs, arrays, memory, engines, granary, fleet and
management core, as plain data, and the state right after reset. -/
namespace Sys2Proof.Machine

/-- Why the machine stops. -/
inductive Fault where
  /-- Raised by HOST_BAR2_ACCESS, HOST_CXL_MEM_ACCESS and BAR0_REGISTER_WRITE for an address outside the window
  (16 R342 gives the windows' sizes and nothing beyond them). Safe: the spec gives such an access no effect. -/
  | hostOutsideWindow
  deriving DecidableEq, Repr

/-- Why the model gives no meaning. -/
inductive Refusal where
  /-- Raised by the dispatch arm of an instruction that has no meaning yet. Safe: nothing is said of it. -/
  | notModelled (mnemonic : String)
  deriving DecidableEq, Repr

/-- Memory by physical address or scratchpad address, in canonical form: addresses strictly rising, no entry 0
(an unlisted byte reads 0, DESIGN CHOICE, log 3). -/
abbrev Memory := List Host.Cell

/-- The two modes of a context (03 before R67). -/
inductive Mode where
  | user
  | privileged
  deriving DecidableEq, Repr

/-- The name of a context: its gang and its gang index (01 R22, R23). -/
structure CtxId where
  gang : Nat := 0
  gix : Nat := 0
  deriving DecidableEq, Repr

/-- The status of a complete token (09 R248). -/
inductive TokStatus where
  | ok
  | cancelled
  | fault (cause addr : Nat)
  deriving DecidableEq, Repr

/-- A token register (09 R245): complete or not, its status, and a serial number that tells its producers apart. -/
structure Token where
  done : Bool := true
  status : TokStatus := .ok
  gen : Nat := 0
  deriving DecidableEq, Repr

/-- A consumed token as it stood before the bundle (09 R245): complete with a status, or still awaited. -/
inductive Dep where
  | known (field : Nat) (s : TokStatus)
  | waiting (field : Nat) (q gen : Nat)
  deriving DecidableEq, Repr

/-- A vector register: 2 KiB of elements and the 128-byte sidecar (03 R65). -/
structure VReg where
  elems : BitVec 16384 := 0
  side : BitVec 1024 := 0
  deriving DecidableEq, Repr

/-- A tile register: 64 KiB and the 4 KiB scale sidecar (07 R176, R177). -/
structure Tile where
  bytes : BitVec 524288 := 0
  scales : BitVec 32768 := 0
  deriving DecidableEq, Repr

/-- What a blocked bundle waits for (01 R18). -/
inductive Block where
  | counts (ld st cp tl : Nat)
  | token (q : Nat)
  | barrier (b : Nat) (timed : Bool)
  | flag (addr : Nat) (mask : Nat) (any timed : Bool)
  | engineQueue (kind unit : Nat)
  | fenceSys
  | pressFence (round : Nat)
  | commit (round : Nat)
  | invr (id : Nat)
  deriving DecidableEq, Repr

/-- Whether a context can run (01 R18, 04 R121, 17 R373). -/
inductive RunStatus where
  | ready
  | blocked (why : List Block)
  | exited
  | stopped (why : List Block)
  deriving DecidableEq, Repr

/-- What a blocked slot has already done (08 R226, R228, R224, 09 R251): the bundle's address, the slot, whether
its arrival or count is made, its expiry time, whether its condition held by then (met) or the expiry cycle passed
first, the round that it waits for, of a timed flag wait its object's address, its mask and whether any flag will do and the
object as it stood when the condition came to hold, and the barrier at which it has arrived. -/
structure Progress where
  pc : Word
  slot : Nat
  made : Bool := false
  expiry : Option Nat := none
  met : Bool := false
  expired : Bool := false
  round : Nat := 0
  flag : Option (Nat × Nat × Bool) := none
  obj : List Byte := []
  bar : Option Nat := none
  deriving DecidableEq, Repr

/-- A context's part of a barrier (08 R225): DROPPED, ARRPH, and the issuer sequence at its arrival. -/
structure CtxBar where
  dropped : Bool := false
  arrph : Option (BitVec 32) := none
  arrSeq : Nat := 0
  deriving DecidableEq, Repr

/-- One record of the deferred-trap queue (17 R370). -/
structure Deferred where
  trapc : Word
  trapx : Word
  deriving DecidableEq, Repr

/-- The checkpoint of a phase (09 R250). -/
structure Checkpoint where
  s : Vector Word 64
  p : BitVec 16
  pass : Word
  sc : Nat
  rbs : Nat
  rbv : Nat
  fpm : Word
  fxf : BitVec 6
  vshape : Word
  deriving DecidableEq, Repr

/-- An open phase (09 R250, 17 R377). -/
structure Phase where
  record : Nat
  src : Nat
  len : Nat
  bufa : Nat
  bufb : Nat
  restart : Word
  chk : Checkpoint
  aborts : Nat := 0
  deriving DecidableEq, Repr

/-- An origin of a harrow match: the place of one matched slot (14 R320). -/
structure Origin where
  pc : Word
  slot : Nat
  deriving DecidableEq, Repr

/-- A replacement that the harrow issues: its word, the bit-5 extensions of its fields D, A and B, and the scalar
register whose value it attaches to a link as a factor (14 R317, R318). -/
structure Issue where
  word : Nat
  ext : Bool × Bool × Bool
  fold : Option SReg
  deriving DecidableEq, Repr

/-- What the harrow has decided for the head in the bundle at pc (14 R308, R312): the entry applied, if any, its
origins in element order, its replacements, the address of BL, whether replacement 0 has been handed over, the token
registers as they stood before that, and the registers that replacement 1 reads or writes. -/
structure Decision where
  pc : Word
  rule : Option Nat := none
  origins : List Origin := []
  repls : List Issue := []
  last : Word := 0
  handed : Bool := false
  toks : List Token := []
  needs : List Res := []
  deriving DecidableEq, Repr

/-- The harrow's state of one context (14 R312, R313, R319, R321): the vacated slots and the last bundle of the span
under way, the run of a cancelled rewrite, the replay stretch, the decision for the present head, and the bundle whose
harrow delay has begun (13 R301). -/
structure Harrow where
  vacated : List Origin := []
  spanEnd : Option Word := none
  cancelled : Option (Nat × List Origin × Word) := none
  stretch : Option (Word × Word) := none
  inHandler : Bool := false
  decided : Option Decision := none
  delay : Option Word := none
  deriving DecidableEq, Repr

/-- One hardware context (01 R17, 03 R65 to R85). -/
structure Ctx where
  id : CtxId := {}
  live : Bool := false
  status : RunStatus := .ready
  running : Bool := false
  gcl : Nat := 0
  glast : Nat := 0
  ldie : Nat := 0
  lcl : Nat := 0
  lcore : Nat := 0
  slotNo : Nat := 0
  pdie : Nat := 0
  pcl : Nat := 0
  pcore : Nat := 0
  sliced : Bool := false
  pc : Word := 0
  mode : Mode := .user
  s : Vector Word 64 := Vector.replicate 64 0
  p : BitVec 16 := 1
  v : Vector VReg 32 := Vector.replicate 32 {}
  m : Vector (BitVec 2048) 8 := Vector.replicate 8 0
  t : Vector Tile 8 := Vector.replicate 8 {}
  q : Vector Token 32 := Vector.replicate 32 {}
  fpm : Word := 0
  fxf : BitVec 6 := 0
  nbv : Nat := 0
  detl : Nat := 0
  hperm : Word := 1
  vshape : Word := 2
  pass : Word := 0
  sc : Nat := 0
  rbs : Nat := 0
  rbv : Nat := 0
  tcfg : Vector Word 8 := Vector.replicate 8 0
  ntiles : Nat := 0
  ocl : Nat := 0
  ocs : Nat := 0
  occ : Nat := 0
  oct : Nat := 0
  trapc : Word := 0
  trappc : Word := 0
  trapx : Word := 0
  trapo : Word := 0
  tvec : Word := 0
  tscr : Word := 0
  asid : Word := 0
  ptbase : Word := 0
  bar : Vector CtxBar 16 := Vector.replicate 16 {}
  prog : List Progress := []
  deferred : List Deferred := []
  seq : Nat := 0
  rtag : Nat := 0
  fences : Nat := 0
  commits : Nat := 0
  commitVal : Nat := 0
  phase : Option Phase := none
  parity : Bool := false
  stopTok : Vector (Option Nat) 8 := Vector.replicate 8 none
  harrow : Harrow := {}
  rowStop : Option Nat := none
  recent : List (List Res) := []
  taint : List (Res × Nat) := []
  badRegs : List Res := []
  poisoned : Bool := false
  bundles : Nat := 0
  fenceNo : Nat := 0
  fenceSeen : Nat := 0
  fenceSeq : Nat := 0
  fenceScope : Nat := 0
  readStamp : List (BitVec 16) := []
  acqStamp : List (BitVec 16) := []
  deriving DecidableEq, Repr

/-- How the slot that is being executed ended; halted is a tile transfer that a pre-emption stops at a row boundary. -/
inductive SlotStatus where
  | done
  | trapped
  | blocked
  | stalled
  | halted
  deriving DecidableEq, Repr

/-- The record of the bundle and slot that are being executed (03 R91, R92): the slot's number and word, how it
ended, the FXF flags raised so far and those that FPM traps on, the scratchpad banks that it found held (10 R259), and,
of a duplicate, the field D of its original (03 R89).
The model's own (DESIGN CHOICE, log 6). -/
structure Bun where
  slot : Nat := 0
  word : Nat := 0
  ext : Ext := .none
  status : SlotStatus := .done
  raised : BitVec 6 := 0
  tainted : Bool := false
  fold : Option (BitVec 32) := none
  wants : BitVec 48 := 0
  dup : Option Nat := none
  deriving DecidableEq, Repr

/-- A barrier of a gang (08 R225); completedAt is the TIME at which its last phase completed. -/
structure Barrier where
  phase : BitVec 32 := 0
  e : Nat := 0
  arrivals : Nat := 0
  completedAt : Nat := 0
  stamp : List (BitVec 16) := []
  deriving DecidableEq, Repr

/-- The states of a chain (06 R163). -/
inductive ChainState where
  | idle
  | built
  | active
  | frozen
  | closed
  deriving DecidableEq, Repr

/-- Why a chain is frozen (06 R163). -/
inductive FreezeCause where
  | none
  | fault
  | preempt
  deriving DecidableEq, Repr

/-- The hop formats (07 R197). -/
inductive HopFmt where
  | fp32
  | fp64
  | int32
  | bf16
  deriving DecidableEq, Repr

/-- One hop of a chain (06 R156). -/
structure Hop where
  link : Nat
  count : Nat
  fmt : HopFmt
  wide : Bool
  scale : Option (BitVec 32)
  deriving DecidableEq, Repr

/-- The destination of a close (07 R199). -/
inductive CloseDst where
  | tile (n : TReg)
  | spad (cl off : Nat)
  deriving DecidableEq, Repr

/-- An armed close (06 R160, 07 R199): the closing context's gang index, destination, format, rounding and scale;
TCFG word of a destination tile as it stood at arming, the number of the arming bundle, and whether it acts. -/
structure CloseArm where
  gix : Nat
  dst : CloseDst
  ofmt : Nat
  rm : Nat
  oscale : BitVec 32
  cfg : Word := 0
  bundle : Nat := 0
  acting : Bool := false
  deriving DecidableEq, Repr

/-- A chain of a gang (06 R156 to R163). -/
structure Chain where
  state : ChainState := .idle
  cause : FreezeCause := .none
  left : ChainState := .idle
  m : Nat := 0
  n : Nat := 0
  isat : Bool := false
  hops : List Hop := []
  flags : BitVec 6 := 0
  close : Option CloseArm := none
  written : Bool := false
  tainted : Bool := false
  deriving DecidableEq, Repr

/-- The states of a link (06 R164). -/
inductive LinkState where
  | empty
  | accumulating
  | complete
  | sent
  | done
  | faulted
  deriving DecidableEq, Repr

/-- One image of a link: 64 bits and five class bits for each of the 128 by 256 cells (06 R148, R155). -/
structure Plane where
  acc : BitVec 2097152 := 0
  cls : BitVec 163840 := 0
  deriving DecidableEq, Repr

/-- The three kinds of contribution (07 R190, R193). -/
inductive MmaKind where
  | plain
  | mx
  | sc
  deriving DecidableEq, Repr

/-- A contribution that a link has accepted and not yet promoted (06 R157): the operand tiles and their TCFG words
as they stood, the token it completes, and the number of its bundle. -/
structure Contribution where
  who : CtxId
  kind : MmaKind
  sat : Bool
  ta : Bool
  tb : Bool
  nbv : Nat
  a : Tile
  b : Tile
  ca : Word
  cb : Word
  regs : TReg × TReg
  tok : Option (QReg × Nat)
  fold : Option (BitVec 32) := none
  bundle : Nat := 0
  deriving DecidableEq, Repr

/-- A link of a gang (06 R148 to R164, 14 R318). -/
structure Link where
  id : Nat
  gang : Nat
  spare : Bool := false
  state : LinkState := .empty
  chain : Option KReg := none
  accepted : Nat := 0
  promoted : Nat := 0
  own : Plane := {}
  inbound : Option Plane := none
  partialOut : Option Plane := none
  inTransit : Bool := false
  fold : Option (BitVec 32) := none
  waiting : List Contribution := []
  deriving DecidableEq, Repr

/-- What replacement 0 of a rewrite found before it was handed over, put back should the rewrite be cancelled (14 R319):
the context, the tile and the vector register that it writes, its chain, and the links that it may change. -/
structure Undo where
  who : CtxId
  tile : Option (TReg × Tile) := none
  vreg : Option (VIdx × VReg) := none
  chain : Option (KReg × Chain) := none
  links : List Link := []
  deriving DecidableEq, Repr

/-- A gang cluster as placed (16 R351, R354): gang cluster index, its place in the node record, logical cluster, banks
(15 R337), the ALTW bits. -/
structure GangCluster where
  gcl : Nat
  idx : Nat := 0
  lc : Nat
  banks : BitVec 48 := 0
  altw : BitVec 16 := 0
  deriving DecidableEq, Repr

/-- A tile operand of a node (16 R351). -/
structure Operand where
  va : Nat
  size : Nat
  mode : Nat
  deriving DecidableEq, Repr

/-- Where a gang stands (16 R358, 17 R373). -/
inductive GangRun where
  | running
  | preempting
  | preempted
  | killing (status : Nat)
  deriving DecidableEq, Repr

/-- A press window of a gang that has closed and is not yet applied (08 R218): for each context that took part, the
issuer sequence below which its press atomics belong to it; all is set for the final window of the node. -/
structure Window where
  cuts : List (Nat × Nat)
  all : Bool := false
  deriving DecidableEq, Repr

/-- A live gang (01 R21 to R26). -/
structure Gang where
  id : Nat
  node : Nat := 0
  n : Nat := 0
  detl : Nat := 0
  nbv : Nat := 0
  fuse : Bool := false
  run : GangRun := .running
  clusters : List GangCluster := []
  spill : Nat := 0
  spillsz : Nat := 0
  asid : Word := 0
  ptbase : Word := 0
  opers : List Operand := []
  rflags : BitVec 6 := 0
  doneVal : BitVec 32 := 0
  barriers : Vector Barrier 16 := Vector.replicate 16 {}
  chains : Vector Chain 32 := Vector.replicate 32 {}
  windows : List Window := []
  exited : List Nat := []
  fenceRounds : Nat := 0
  commitRounds : Nat := 0
  startTime : Nat := 0
  preemptSince : Nat := 0
  drained : Bool := false
  run2 : Bool := false
  digest1 : Option (BitVec 64) := none
  shadow : List (Nat × List Byte) := []
  aborting : Bool := false
  written : List (Nat × Nat) := []
  final : Bool := false
  seats : List (Nat × Nat × Nat) := []
  deriving DecidableEq, Repr

/-- An array's issue windows (06 R171, R172, 03 R77): the number and start of the present window, the setting in
force, the settings written for the next one by the even and the odd core, and the resident gangs that have issued a
bundle on one of its cores. -/
structure ArrayUnit where
  id : Nat
  on : Bool := false
  window : Nat := 0
  start : Nat := 0
  altw : BitVec 4 := 0
  nextEven : Option (BitVec 4) := none
  nextOdd : Option (BitVec 4) := none
  gangs : List Nat := []
  deriving DecidableEq, Repr

/-- The classes of an access (10 before R261): the class queues and, for scratchpad, none. -/
inductive QClass where
  | l
  | s
  | t
  deriving DecidableEq, Repr

/-- How LD extends its bytes and AMO its old value (08 R210, R215). -/
inductive Extend where
  | zero
  | sign
  deriving DecidableEq, Repr

/-- The atomic operations (08 R215). -/
inductive AtomOp where
  | swap
  | cas
  | add
  | and
  | or
  | xor
  | min
  | max
  | fadd
  | fmin
  | fmax
  deriving DecidableEq, Repr

/-- The types of an atomic (08 R214). -/
inductive AtomTy where
  | i32
  | i64
  | n32
  | n64
  | f32
  | f64
  deriving DecidableEq, Repr

/-- An atomic operation with its operand and, for CAS, the compared value (08 R215). -/
structure Atom where
  op : AtomOp
  ty : AtomTy
  val : Word
  cmp : Word := 0
  deriving DecidableEq, Repr

/-- What an access does where it is performed (08 R210 to R232). -/
inductive AccKind where
  | load
  | store (data : List Byte)
  | atom (a : Atom)
  | flagSet (i : Nat)
  | trig (reset : Bool) (v : BitVec 32)
  | clean (toMem : Bool)
  | invl
  deriving DecidableEq, Repr

/-- The register that a load writes when its data returns (08 R209), by physical number. -/
inductive LoadDest where
  | none
  | scalar (r : SReg) (bytes : Nat) (e : Extend)
  | vector (r : VIdx) (offs : List Nat)
  | sidecar (r : VIdx)
  deriving DecidableEq, Repr

/-- Where an atomic is performed (08 R216). -/
inductive AtomPlace where
  | home
  | press
  | switch
  deriving DecidableEq, Repr

/-- A page through which an access was translated (17 R359, R362): its first virtual address, its size in bytes, and the ASID
that its translation belongs to, none where the leaf is global. -/
structure Page where
  lo : Nat
  size : Nat
  asid : Option Nat
  deriving DecidableEq, Repr

/-- An access in flight (08 R208, R209, 10 R261 to R269). cells gives for each byte its physical or scratchpad
address, in ascending order of the access; todo the granules that are not yet performed; data what a load has read;
skip the bytes that another slot of the bundle writes instead (08 R213); fenceNo and stamp as R267 and R269 use them; left
numbers its leaving the port, relHeld says that a release of scope mod is held there (R269, items 5 and 6), and replay that a
quiesce has retained the access there (19 R403); hot
the words of memory with tainted values that it reads or writes (10 R274); l1 numbers a store that an L1
shows and its home has not performed, and names that L1 (R257). -/
structure Access where
  id : Nat
  who : CtxId
  cls : QClass
  spad : Bool
  bundle : Nat
  slot : Nat
  seq : Nat
  fenceNo : Nat
  va : Nat
  cells : List Nat
  kind : AccKind
  dest : LoadDest := .none
  place : AtomPlace := .home
  acq : Option (Fin 8) := none
  rel : Option (Fin 8) := none
  relHeld : Bool := false
  left : Nat := 0
  replay : Bool := false
  stamp : List (BitVec 16) := []
  todo : List Nat := []
  data : List Byte := []
  skip : List Nat := []
  tag : Option Nat := none
  die : Nat := 0
  detl : Nat := 0
  pages : List Page := []
  tainted : Bool := false
  hot : List Nat := []
  vas : List Nat := []
  lost : Bool := false
  l1 : Option (Nat × Bool × Nat) := none
  deriving DecidableEq, Repr

/-- The tile instructions of major 0x24 with their operands as they stood at issue (07 R180 to R184). -/
inductive TileOp where
  | zero (d : TReg)
  | fill (d : TReg) (v : Word)
  | mov (d a : TReg)
  | fromVector (d : TReg) (v : BitVec 16384) (row : Nat)
  | toVector (d : VIdx) (a : TReg) (row : Nat)
  | trans (d a : TReg)
  | cvt (d a : TReg) (rm : Nat)
  | scale (d a : TReg) (v : Word) (rm : Nat)
  | load (d : TReg) (rows : List (Nat × Nat × List Nat)) (spad : Bool)
  | store (a : TReg) (rows : List (Nat × Nat × List Nat)) (spad : Bool)
  deriving DecidableEq, Repr

/-- A tile instruction in flight (07 R178, R180, R187): cd and ca are the TCFG words of the tiles it writes and reads
as they stood at issue (03 R92), cont says that it continues a stopped transfer (06 R175), left numbers its leaving the port
(10 R269, item 5), replay says that a quiesce has retained it (19 R403), and tile is what a TST of a killed gang still writes
(17 R379). -/
structure TileFlight where
  id : Nat
  who : CtxId
  op : TileOp
  bundle : Nat
  slot : Nat := 0
  fenceNo : Nat := 0
  left : Nat := 0
  replay : Bool := false
  tile : Option Tile := none
  stamp : List (BitVec 16) := []
  tok : Option (QReg × Nat) := none
  banks : BitVec 48 := 0
  pages : List Page := []
  cd : Word := 0
  ca : Word := 0
  cont : Bool := false
  tainted : Bool := false
  deriving DecidableEq, Repr

/-- The copy block (09 R238). -/
structure CopyBlock where
  ssp : Bool
  dsp : Bool
  n0 : Nat
  n1 : Nat
  n2 : Nat
  src : Nat
  dst : Nat
  sstr1 : Int
  sstr2 : Int
  dstr1 : Int
  dstr2 : Int
  deriving DecidableEq, Repr

/-- The gather and scatter block (09 R239). -/
structure GatherBlock where
  scatter : Bool
  wide : Bool
  bsp : Bool
  dnsp : Bool
  isp : Bool
  count : Nat
  esz : Nat
  base : Nat
  dense : Nat
  index : Nat
  stride : Nat
  deriving DecidableEq, Repr

/-- The reshard block (09 R240) and the rank table it names. -/
structure ReshardBlock where
  bytes : List Byte
  ranks : List (Nat × Nat)
  deriving DecidableEq, Repr

/-- The combine block (09 R244). -/
structure CombineBlock where
  op : AtomOp
  ty : AtomTy
  count : Nat
  addr : Nat
  deriving DecidableEq, Repr

/-- The body of an engine command. -/
inductive CmdBody where
  | copy (b : CopyBlock)
  | gather (b : GatherBlock)
  | reshard (b : ReshardBlock)
  | combine (b : CombineBlock)
  deriving DecidableEq, Repr

/-- An engine command that is queued, running or armed (09 R234, R235, 08 R231), with the mode and translation of
the context that issued it (17 R362), and the clock that it carries (10 R264, R269). place is the logical cluster or, for a
thresher's command, the logical die that it acts for; unit is the physical cluster or die whose engine runs it. stage counts
what it has done: the bytes of a copy, the elements of a gather, scatter or combine, the parts of a reshard. poisoned says
that it has read poisoned data (17 R382). -/
structure Cmd where
  id : Nat
  who : CtxId
  body : CmdBody
  place : Nat
  unit : Nat := 0
  cl : Nat
  banks : BitVec 48
  held : BitVec 48 := 0
  deps : List Dep
  q : QReg
  gen : Nat
  priv : Bool
  asid : Word
  ptbase : Word
  detl : Nat
  bundle : Nat := 0
  stamp : List (BitVec 16) := []
  started : Bool := false
  stage : Nat := 0
  chunksRead : List Nat := []
  shard : List Byte := []
  poisoned : Bool := false
  cancel : Bool := false
  fault : Option (Nat × Nat) := none
  deriving DecidableEq, Repr

/-- A command armed on a trigger counter (08 R231). -/
structure Armed where
  counter : Nat
  threshold : BitVec 32
  cmd : Cmd
  deriving DecidableEq, Repr

/-- A TOKJOIN that has not completed (09 R248). -/
structure Join where
  id : Nat
  who : CtxId
  q : QReg
  gen : Nat
  deps : List Dep
  deriving DecidableEq, Repr

/-- An entry of a press: in a holding buffer or in a spill run (08 R217, R219, 17 R366); amo says that it returns a
value, page is what its address was translated through. -/
structure PressEntry where
  who : CtxId
  seq : Nat
  addr : Nat
  va : Nat
  atom : Atom
  dest : Option SReg
  amo : Bool := false
  die : Nat
  slice : Nat
  page : Option Page := none
  spilled : Bool := false
  tainted : Bool := false
  deriving DecidableEq, Repr

/-- A translation held in a TLB (17 R363): which TLB (0 a core's, 1 a cluster's, 2 an engine's) and where, the ASID,
the virtual page and its size in bytes, and the leaf. -/
structure TlbEntry where
  kind : Nat
  place : Nat
  asid : Option Nat
  page : Nat
  size : Nat
  leaf : Nat
  deriving DecidableEq, Repr

/-- A non-leaf entry that a walk cache holds (17 R363): the cache, the ASID, the level at which the entry stands, the part
of the virtual address that selects it, and the entry. -/
structure WalkCopy where
  cache : Nat
  asid : Nat
  level : Nat
  key : Nat
  entry : Nat
  deriving DecidableEq, Repr

/-- A table walk in flight (17 R364). -/
structure Walk where
  id : Nat
  cl : Nat
  asid : Nat
  root : Nat
  va : Nat
  stale : Bool := false
  core : Nat := 0
  deriving DecidableEq, Repr

/-- An L1 copy of a granule (10 R255, R257): the core, or the cluster when fused, that holds it, and the stamp of the
writes that it has (R269). -/
structure L1Copy where
  fused : Bool
  place : Nat
  granule : Nat
  data : List Byte
  stamp : List (BitVec 16) := []
  deriving DecidableEq, Repr

/-- The clocks of one die (10 R269): EP, VC. -/
structure DieClock where
  ep : BitVec 16 := 0
  vc : List (BitVec 16) := [0, 0, 0, 0, 0]
  deriving DecidableEq, Repr

/-- An END marker in flight from a die to a slice (10 R269, item 2). Its number orders it among what leaves the die, num among
the accesses of the context that released; stamp is the clock of what that context has read before the release (R266). -/
structure Marker where
  id : Nat
  die : Nat
  slice : Nat
  who : CtxId := {}
  num : Nat := 0
  stamp : List (BitVec 16) := []
  deriving DecidableEq, Repr

/-- The vector clocks of the package (10 R269): one for each of five dies; DONE of each slice (die times 8 plus slice),
and, at 32, of the link to host memory and other packages (DEDUCED, log 92); END markers in flight; and the stamp each
written granule carries. -/
structure Clocks where
  dies : List DieClock := [{}, {}, {}, {}, {}]
  done : List (List (BitVec 16)) := List.replicate 33 [0, 0, 0, 0, 0]
  markers : List Marker := []
  stamps : List (Nat × List (BitVec 16)) := []
  deriving DecidableEq, Repr

/-- A bundle that has found scratchpad banks held and waits for them (13 R299): its context and address, its cluster, and
the banks. -/
structure BankWait where
  who : CtxId
  pc : Word
  cl : Nat
  banks : BitVec 48
  deriving DecidableEq, Repr

/-- One INVR that has not been acknowledged (17 R365). -/
structure Invalidation where
  id : Nat
  who : CtxId
  lo : Nat
  len : Nat
  asid : Option Nat
  waits : List Nat := []
  points : Bool := false
  deriving DecidableEq, Repr

/-- A rule entry's binding or substitution (14 R316). -/
structure Binding where
  lsb : Nat
  width : Nat
  scl : Bool
  var : Nat
  deriving DecidableEq, Repr

/-- A pattern element (14 R316). -/
structure Element where
  value : Nat
  mask : Nat
  binds : List Binding
  deriving DecidableEq, Repr

/-- A replacement (14 R317). -/
structure Replacement where
  word : Nat
  subs : List Binding
  src : Nat
  fold : Option Nat
  deriving DecidableEq, Repr

/-- A guard (14 R315). -/
structure Guard where
  kind : Nat
  a : Nat
  b : Nat
  param : Nat
  deriving DecidableEq, Repr

/-- A rule entry (14 R314). -/
structure RuleEntry where
  cls : Nat
  minNbv : Nat
  span : Nat
  guards : List Guard
  elems : List Element
  repls : List Replacement
  deriving DecidableEq, Repr

/-- The rule table of one physical cluster (14 R314, R322); none is an empty entry. -/
structure RuleTable where
  cluster : Nat
  setid : List Byte
  entries : List (Option RuleEntry)
  deriving DecidableEq, Repr

/-- A work queue of the device (16 R345 to R348). -/
structure Queue where
  id : Nat
  tail : BitVec 32 := 0
  head : BitVec 32 := 0
  en : Bool := false
  err : Bool := false
  detl : Nat := 0
  insns : List (BitVec 32 × Nat) := []
  detWait : Option Nat := none
  events : List (List Byte) := []
  deriving DecidableEq, Repr

/-- Where a node stands (01 R26 to R28, 16 R353). -/
inductive NodeState where
  | waiting (preds : List Nat)
  | ready (since : Nat)
  | running (gang : Nat)
  | finished (status : Nat)
  deriving DecidableEq, Repr

/-- A gang cluster request of a node record (16 R351). -/
structure ClusterReq where
  cores : Nat
  counts : Nat
  altw : BitVec 16
  deriving DecidableEq, Repr

/-- A node record as read (16 R351). -/
structure NodeRec where
  prio : Nat
  detl : Nat
  nbv : Nat
  fuse : Bool
  text : Nat
  entry : Nat
  handler : Nat
  optab : Nat
  opers : List Operand
  spill : Nat
  spillsz : Nat
  crec : Nat
  stackva : Nat
  clusters : List ClusterReq
  links : List Nat
  spares : List Nat
  tiles : List (BitVec 32)
  deriving DecidableEq, Repr

/-- A node admitted to the granary (01 R26, 16 R347). -/
structure Node where
  id : Nat
  queue : Nat
  packet : Nat
  index : Nat
  tag : BitVec 64
  cmp : Bool
  rec? : Option NodeRec
  state : NodeState
  succs : List Nat := []
  cls : Nat := 0
  agedAt : Nat := 0
  readyAt : Nat := 0
  level : Nat := 0
  asid : Word := 0
  ptbase : Word := 0
  crec : Nat := 0
  firstRun : Option Nat := none
  reported : Bool := false
  waits : Nat := 0
  deriving DecidableEq, Repr

/-- What the granary keeps of a packet until its last node has finished (16 R357); packet numbers it. -/
structure PacketRec where
  queue : Nat
  packet : Nat
  tag : BitVec 64
  cmp : Bool
  deriving DecidableEq, Repr

/-- The meta, tiles, plan and data sections that the loader keeps of a loaded image (15 R335, R336, R340); a data section
is its address and its bytes. -/
structure ImageRec where
  asid : Nat
  text : Nat
  clusters : Nat
  detl : Nat
  nbv : Nat
  fuse : Bool
  handler : Nat
  stack : Nat
  links : List Nat
  spares : List Nat
  tiles : List (BitVec 32)
  plan : Option (BitVec 48)
  data : List (Nat × List Byte) := []
  deriving DecidableEq, Repr

/-- A REMAP entry that is written and has not taken effect (16 R350). -/
structure RemapWrite where
  lc : Nat
  value : BitVec 16
  deriving DecidableEq, Repr

/-- The granary and the host registers (16 R344 to R357). -/
structure Granary where
  qtbase : Nat := 0
  aging : Nat := 0x100000
  rsaddr : Nat := 0
  rslen : Nat := 0
  go : Bool := false
  remap : List (BitVec 16) := []
  remapPending : List RemapWrite := []
  doorbells : List (Nat × BitVec 32) := []
  queues : List Queue := []
  nodes : List Node := []
  packets : List PacketRec := []
  images : List ImageRec := []
  slices : List (Nat × Nat × Nat) := []
  msix : List (Nat × Nat) := []
  deriving DecidableEq, Repr

/-- A contribution staged at a plane switch, or merged there at DETL FREE (08 R221, 19 R409). -/
structure Staged where
  addr : Nat
  plane : Nat
  pkg : Nat
  gang : Nat
  gix : Nat
  seq : Nat
  atom : Atom
  spilled : Bool := false
  deriving DecidableEq, Repr

/-- An accumulator of a plane switch at DETL FREE (19 R409): the contributions merged and not yet written. -/
structure SwitchAcc where
  addr : Nat
  plane : Nat
  atoms : List Atom
  acks : List Nat
  since : Nat
  deriving DecidableEq, Repr

/-- A registered reduction window (19 R408). -/
structure RedWindow where
  wid : Nat
  home : Nat
  base : Nat
  len : Nat
  spill : Nat
  spilllen : Nat
  deriving DecidableEq, Repr

/-- The steps of a quiesce as this package sees it (19 R400). -/
inductive QStep where
  | idle
  | stopping
  | draining
  | drained
  | installed
  deriving DecidableEq, Repr

/-- The elements of a window whose staging a failed plane has lost (19 R410): those whose address hashes to one entry
of the furrow map, less the ranges (address and length) that have been repaired. -/
structure Damage where
  wid : Nat
  hash : Nat
  repaired : List (Nat × Nat) := []
  deriving DecidableEq, Repr

/-- The furrows and the load-store domain as this package sees them (19 R394 to R410); q2s lists the packages of the domain
that are Q2s (R397, R408). -/
structure Fleet where
  live : BitVec 8 := 0xFF
  target : BitVec 8 := 0xFF
  step : QStep := .idle
  since : Nat := 0
  master : Bool := true
  q2s : List Nat := []
  members : List Nat := [0]
  drainedFrom : List Nat := []
  installedFrom : List Nat := []
  dead : List Nat := []
  windows : List RedWindow := []
  staged : List Staged := []
  accs : List SwitchAcc := []
  damaged : List Damage := []
  sent : List (Nat × Nat × Nat) := []
  domainFail : Bool := false
  deriving DecidableEq, Repr

/-- One event of the management ring (20 R412). -/
structure MgmtEvent where
  code : Nat
  source : Nat
  arg : Nat
  wall : Nat
  deriving DecidableEq, Repr

/-- The counters of one array (20 R413, R415). -/
structure ArrayCount where
  arr : Nat
  out : Bool := false
  window : Nat := 0
  corrected : Nat := 0
  uncorrected : Nat := 0
  pft : Nat := 0
  strikes : Nat := 0
  deriving DecidableEq, Repr

/-- A firmware image with its signature (20 R418). -/
structure Signed where
  image : List Byte
  sig : List Byte
  deriving DecidableEq, Repr

/-- A block of the save region (20 R420): 0 a gang's save block, 1 its DETL DUAL shadow; the gang, and the units of 64 KiB
that the block takes. -/
structure SaveAlloc where
  kind : Nat
  gang : Nat
  units : List Nat
  deriving DecidableEq, Repr

/-- The management core (20 R411 to R422). Of the management core's and the sowers' firmware, fwCore and fwSower run, where
they are not as delivered, and coreStaged and sowerStaged wait for a reset (R418); moved lists what ARRAYOUTs and strikes have
moved, the last first: the physical cluster, the logical one and its entry before (R416). -/
structure Mgmt where
  boot : Nat := 5
  cap : Nat := 1800
  power : Nat := 0
  throttle : Bool := false
  saveg : Nat := 16
  savegNext : Nat := 16
  saveAllocs : List SaveAlloc := []
  events : List MgmtEvent := []
  overflow : Bool := false
  replies : List (List Byte) := []
  arrays : List ArrayCount := []
  uv : List Nat := [0, 0, 0, 0]
  windowStart : Nat := 0
  windowWall : Nat := 0
  parityRepaired : Nat := 0
  regUncorrectable : Nat := 0
  chkExecuted : Nat := 0
  chkMismatch : Nat := 0
  commitPoints : Nat := 0
  phaseAborts : Nat := 0
  crcRetries : List Nat := [0, 0, 0, 0, 0, 0, 0, 0]
  deadDecl : List Nat := [0, 0, 0, 0, 0, 0, 0, 0]
  hbm : List (Nat × Nat) := List.replicate 8 (0, 0)
  l2 : List (Nat × Nat) := List.replicate 4 (0, 0)
  lastWalk : Nat := 0
  lastCycle : List CtxId := []
  reported : List CtxId := []
  kills : List Nat := []
  unsolicited : List MgmtEvent := []
  moved : List (Nat × Nat × Nat) := []
  ruleKey : List Byte := []
  ruleKeyNext : Option (List Byte) := none
  fwKey : List Byte := []
  identityKey : List Byte := []
  fwCore : Option Signed := none
  fwSower : Option Signed := none
  coreStaged : Option Signed := none
  sowerStaged : Option Signed := none
  identityUsed : Nat := 0
  deriving DecidableEq, Repr

/-- What an event acts on (95): the identifiers and data that a step without an encoding takes. -/
structure Arg where
  id : Nat := 0
  gang : Nat := 0
  gix : Nat := 0
  val : Nat := 0
  val2 : Nat := 0
  delta : Int := 0
  reg : Res := .s 0
  data : List Byte := []
  sig : List Byte := []
  write : Option (List Byte) := none
  deriving DecidableEq, Repr

/-- One turn of the package (DESIGN CHOICE, log 1): an event, or the issue of one bundle of one context. -/
inductive Turn where
  | event (i : Instr) (a : Arg)
  | issue (who : CtxId)
  deriving DecidableEq, Repr

/-- The parts (00 R2). -/
inductive Part where
  | q4
  | q2
  deriving DecidableEq, Repr

/-- The state of the package. ctx is the context in focus, whose bundle issues; others holds the rest. pre is the
context as it stood before the bundle that is being executed (03 R92). -/
structure State where
  part : Part := .q4
  pkg : Nat := 0
  ctx : Ctx := {}
  others : List Ctx := []
  pre : Option Ctx := none
  bun : Bun := {}
  gangs : List Gang := []
  links : List Link := []
  arrays : List ArrayUnit := []
  rules : List RuleTable := []
  mem : Memory := []
  spad : Memory := []
  hbmDirty : List Nat := []
  hbmNew : List Nat := []
  hbmHost : Memory := []
  l1 : List L1Copy := []
  tlb : List TlbEntry := []
  walkCache : List WalkCopy := []
  walks : List Walk := []
  flights : List Access := []
  tileOps : List TileFlight := []
  cmds : List Cmd := []
  armed : List Armed := []
  joins : List Join := []
  bankWaits : List BankWait := []
  undos : List Undo := []
  press : List PressEntry := []
  clocks : Clocks := {}
  invals : List Invalidation := []
  taintMem : List Nat := []
  poison : List Nat := []
  time : Nat := 0
  wall : Nat := 0
  wallFrac : Nat := 0
  wallRate : Int := 0
  wallSet : Bool := false
  pmap : BitVec 24 := 0xFAC688
  granary : Granary := {}
  fleet : Fleet := {}
  mgmt : Mgmt := {}
  saved : List Ctx := []
  agenda : List Turn := []
  arg : Arg := {}
  freeIx : Nat := 0
  nextId : Nat := 0
  lastRun : List (Nat × Nat) := []
  deriving DecidableEq, Repr

/-- The REMAP entries at reset (16 R350). -/
def remapReset (cdie : Nat) : List (BitVec 16) :=
  (List.range 32).map fun lc => BitVec.ofNat 16 (0x8000 + (lc / 8 % cdie) * 8 + lc % 8)

/-- The size of the save region at manufacture, in GiB (20 R420). -/
def Part.saveg (p : Part) : Nat := if p = .q4 then 16 else 8

/-- A package of a part right after its first reset: no gang is resident, and every register holds its reset value (DESIGN
CHOICE, log 4, names those that the spec does not give). -/
def State.resetOf (p : Part) : State :=
  let live : BitVec 8 := if p = .q4 then 0xFF else 0x0F
  { part := p
    pmap := if p = .q4 then 0xFAC688 else 0x688688
    granary := { remap := remapReset (if p = .q4 then 4 else 2) }
    fleet := { live := live, target := live }
    mgmt := { cap := if p = .q4 then 1800 else 1000, saveg := p.saveg, savegNext := p.saveg } }

/-- The package right after reset: a Q4. -/
def State.reset : State := State.resetOf .q4

end Sys2Proof.Machine
end

