-- ==== Sys2Proof/Machine/Operands.lean ====
section
/-! DEFINITION. Operand forms: how a slot's architectural names reach physical registers (04 R115) and how they are
read, as they stood before the bundle, and written (03 R92). -/
namespace Sys2Proof.Machine

/-- The context as it stood before the bundle (03 R92). -/
def State.src (s : State) : Ctx := s.pre.getD s.ctx

/-- The context in focus, changed. -/
def State.withCtx (s : State) (f : Ctx → Ctx) : State := { s with ctx := f s.ctx }

/-- The physical scalar register of a name (04 R115). -/
def Ctx.physS (c : Ctx) (r : SReg) : SReg :=
  if r.val < 32 then r else Fin.ofNat 64 (32 + (r.val - 32 + c.rbs) % 32)

/-- The physical vector register of a name (04 R115). -/
def Ctx.physV (c : Ctx) (r : VIdx) : VIdx :=
  if r.val < 16 then r else Fin.ofNat 32 (16 + (r.val - 16 + c.rbv) % 16)

/-- A register with its physical number. -/
def Ctx.phys (c : Ctx) : Res → Res
  | .s r => .s (c.physS r)
  | .v r => .v (c.physV r)
  | r => r

/-- A scalar register of a context; s0 reads zero (03 R65). -/
def Ctx.rdS (c : Ctx) (r : SReg) : Word := if r = 0 then 0 else c.s.get (c.physS r)

/-- A predicate of a context; p0 reads 1 (03 R65). -/
def Ctx.rdP (c : Ctx) (r : PReg) : Bool := r = 0 || c.p.getLsbD r.val

/-- A scalar operand (03 R92). -/
def rdS (s : State) (r : SReg) : Word := s.src.rdS r
/-- A predicate operand. -/
def rdP (s : State) (r : PReg) : Bool := s.src.rdP r
/-- A vector operand. -/
def rdV (s : State) (r : VIdx) : VReg := s.src.v.get (s.src.physV r)
/-- The scalar register whose old value a slot of field D uses as an operand: its own, or its original's where it is a
duplicate, which reads the same operand values (03 R89; which of its reads of D this takes in is a DESIGN CHOICE, log 101). -/
def oldS (s : State) (d : SReg) : SReg := s.bun.dup.elim d fun o => Fin.ofNat 64 o
/-- The same of a vector register. -/
def oldV (s : State) (d : VIdx) : VIdx := s.bun.dup.elim d fun o => Fin.ofNat 32 o

/-- A mask operand. -/
def rdM (s : State) (r : MReg) : BitVec 2048 := s.src.m.get r
/-- A tile operand. -/
def rdT (s : State) (r : TReg) : Tile := s.src.t.get r
/-- A token operand. -/
def rdQ (s : State) (r : QReg) : Token := s.src.q.get r

/-- A scalar register of a context written by name through the bases of c0; a write to s0 is discarded. -/
def Ctx.wrS (c c0 : Ctx) (r : SReg) (v : Word) : Ctx :=
  if r = 0 then c else { c with s := c.s.set (c0.physS r).val v (c0.physS r).isLt }

/-- Writes a scalar register (03 R65, R92). -/
def wrS (s : State) (r : SReg) (v : Word) : State := { s with ctx := s.ctx.wrS s.src r v }

/-- A bit vector with bit i replaced. -/
def setBit {n : Nat} (x : BitVec n) (i : Nat) (b : Bool) : BitVec n :=
  if b then x ||| BitVec.ofNat n (2 ^ i) else x &&& ~~~(BitVec.ofNat n (2 ^ i))

/-- Writes a predicate; a write to p0 is discarded. -/
def wrP (s : State) (r : PReg) (b : Bool) : State :=
  if r = 0 then s else { s with ctx := { s.ctx with p := setBit s.ctx.p r.val b } }

/-- Writes a vector register, elements and sidecar. -/
def wrV (s : State) (r : VIdx) (v : VReg) : State :=
  { s with ctx := { s.ctx with v := s.ctx.v.set (s.src.physV r).val v (s.src.physV r).isLt } }

/-- Writes the elements of a vector register; its sidecar is unchanged (02 R40). -/
def wrVElems (s : State) (r : VIdx) (e : BitVec 16384) : State :=
  wrV s r { elems := e, side := (s.ctx.v.get (s.src.physV r)).side }

/-- Writes a mask register. -/
def wrM (s : State) (r : MReg) (v : BitVec 2048) : State :=
  { s with ctx := { s.ctx with m := s.ctx.m.set r.val v r.isLt } }

/-- Writes a token register. -/
def wrQ (s : State) (r : QReg) (v : Token) : State :=
  { s with ctx := { s.ctx with q := s.ctx.q.set r.val v r.isLt } }

/-- The rounding mode of a slot: FPM.RM as it stood before the bundle for .dyn (02 R43, 04 R109). -/
def rmCode (r : Rm) (c : Ctx) : Nat :=
  match r with
  | .rne => 0
  | .rtz => 1
  | .rdn => 2
  | .rup => 3
  | .rmm => 4
  | .dyn => c.fpm.toNat % 8

end Sys2Proof.Machine
end

