-- ==== Sys2Proof/Machine/Flags.lean ====
section
/-! DEFINITION. The FXF flags of a slot and the traps that FPM enables for them (02 R46 to R48). -/
namespace Sys2Proof.Machine

/-- The rounding mode of a slot. -/
def rmMode (r : Rm) (s : State) : Rnd := Rnd.ofCode (rmCode r s.src)

/-- The trap enables of FPM, in FXF order (02 R47). -/
def Ctx.enables (c : Ctx) : Flags := BitVec.ofNat 6 (c.fpm.toNat / 256)

/-- The flags among fl that FPM traps on; FPM as it stood before the bundle. -/
def enabledFlags (s : State) (fl : Flags) : Flags := fl &&& s.src.enables

/-- ORs flags into FXF and into the bundle's record of what its slots raised (02 R46, 03 R92). -/
def raise (s : State) (fl : Flags) : State :=
  { s with ctx := { s.ctx with fxf := s.ctx.fxf ||| fl }, bun := { s.bun with raised := s.bun.raised ||| fl } }

/-- The carry-free 64-bit or 32-bit result of a scalar integer operation, extended (04 R98). -/
def extendW (w32 signedKind : Bool) (v : Nat) : Word :=
  if w32 then BitVec.ofInt 64 (if signedKind then toSigned 32 v else ((v % 2 ^ 32 : Nat) : Int))
  else BitVec.ofNat 64 v

end Sys2Proof.Machine
end

