-- ==== Sys2Proof/Machine/Mem.lean ====
section
/-! DEFINITION. Memory as a list of cells in canonical form: addresses strictly rising, no cell that holds 0, which is
what an unlisted address reads (DESIGN CHOICE, log 3). -/
namespace Sys2Proof.Machine

/-- The byte at an address. -/
def Memory.get : Memory → Nat → Byte
  | [], _ => 0
  | (a, b) :: l, x => if a = x then b else if x < a then 0 else Memory.get l x

/-- The memory with the byte at an address replaced; writing 0 removes the entry. -/
def Memory.set : Memory → Nat → Byte → Memory
  | [], x, v => if v = 0 then [] else [(x, v)]
  | (a, b) :: l, x, v =>
    if a = x then (if v = 0 then l else (x, v) :: l)
    else if x < a then (if v = 0 then (a, b) :: l else (x, v) :: (a, b) :: l)
    else (a, b) :: Memory.set l x v

/-- Whether every address of a memory is above a bound, rising, and no cell holds 0. -/
def Memory.wfFrom : Option Nat → Memory → Bool
  | _, [] => true
  | lo, (a, b) :: l =>
    (match lo with
      | none => true
      | some x => decide (x < a)) && b != 0 && Memory.wfFrom (some a) l

/-- The canonical form. -/
def Memory.wf (m : Memory) : Bool := Memory.wfFrom none m

/-- The n bytes from an address. -/
def Memory.bytes (m : Memory) : Nat → Nat → List Byte
  | _, 0 => []
  | a, n + 1 => m.get a :: Memory.bytes m (a + 1) n

/-- The memory with a byte written at each of a list of addresses, in order. -/
def Memory.setAll : Memory → List (Nat × Byte) → Memory
  | m, [] => m
  | m, (a, b) :: l => Memory.setAll (m.set a b) l

/-- The memory with bytes written from an address upward. -/
def Memory.setBytes (m : Memory) : Nat → List Byte → Memory
  | _, [] => m
  | a, b :: l => Memory.setBytes (m.set a b) (a + 1) l

/-- The little-endian number in n bytes from an address (02 R42). -/
def Memory.le (m : Memory) (a n : Nat) : Nat := ofBytes (m.bytes a n)

/-- The memory without the cells of an address range: each of the n bytes from an address set to 0. -/
def Memory.clear (m : Memory) (a n : Nat) : Memory :=
  m.filter fun c => c.1 < a || a + n ≤ c.1

end Sys2Proof.Machine
end

