-- ==== Sys2Proof/Machine/Ops.lean ====
section
/-! DEFINITION. The shared operations of the machine: contexts and gangs by name, tokens, taking a trap (17 R368 to
R370) and returning from one, and the frame in which the meaning of a slot runs (03 R88 to R96, 17 R371). -/
namespace Sys2Proof.Machine

/-- The trap causes (03 R90). -/
inductive Cause where
  | illegalInstr
  | illegalBundle
  | illegalSchedule
  | unimplemented
  | privilegedInstr
  | fpException
  | checkMismatch
  | align
  | pageFault
  | accessFault
  | spadRange
  | linkFault
  | linkNotLocal
  | chainState
  | tileShape
  | tokenError
  | barrierError
  | atomicUnknown
  | phaseAbort
  | registerUncorrectable
  | deadlock
  | nondeterministic
  | software
  deriving DecidableEq, Repr

/-- The code of a cause (03 R90). -/
def Cause.code : Cause → Nat
  | .illegalInstr => 0x01
  | .illegalBundle => 0x02
  | .illegalSchedule => 0x03
  | .unimplemented => 0x04
  | .privilegedInstr => 0x05
  | .fpException => 0x08
  | .checkMismatch => 0x09
  | .align => 0x0A
  | .pageFault => 0x10
  | .accessFault => 0x11
  | .spadRange => 0x12
  | .linkFault => 0x18
  | .linkNotLocal => 0x19
  | .chainState => 0x1A
  | .tileShape => 0x1B
  | .tokenError => 0x20
  | .barrierError => 0x21
  | .atomicUnknown => 0x22
  | .phaseAbort => 0x28
  | .registerUncorrectable => 0x29
  | .deadlock => 0x30
  | .nondeterministic => 0x31
  | .software => 0x38

/-- The codes of 03 R90. -/
def causeCodes : List Nat :=
  [0x01, 0x02, 0x03, 0x04, 0x05, 0x08, 0x09, 0x0A, 0x10, 0x11, 0x12, 0x18, 0x19, 0x1A, 0x1B, 0x20, 0x21, 0x22,
    0x28, 0x29, 0x30, 0x31, 0x38]

/-- A trap as its cause's rule gives it: XINFO and the failing address (03 R79, R80). -/
structure TrapInfo where
  cause : Cause
  xinfo : Nat := 0
  faddr : Nat := 0
  deriving DecidableEq, Repr

/-- Whether a context is a V-core's (01 R12). -/
def Ctx.isV (c : Ctx) : Bool := decide (8 ≤ c.lcore)
/-- The logical cluster of a context, 0 to 31 (16 R350). -/
def Ctx.lc (c : Ctx) : Nat := c.ldie * 8 + c.lcl
/-- The physical cluster of a context, 0 to 31. -/
def Ctx.pc8 (c : Ctx) : Nat := c.pdie * 8 + c.pcl
/-- The array that an M-core feeds (01 R12), numbered over the logical grid. -/
def Ctx.array (c : Ctx) : Nat := c.lc * 4 + c.lcore / 2

/-- Flushes the harrow window of a context (14 R307): a decision for a head that has not issued is forgotten; a
rewrite whose bundle B0 has issued is carried to its end. -/
def Ctx.flushHarrow (c : Ctx) : Ctx :=
  { c with harrow := { c.harrow with decided := c.harrow.decided.filter Decision.handed, delay := none } }

/-- Whether a context stands inside the span of an applied rewrite, from the hand-over of replacement 0 until BL completes
(14 R313). -/
def Ctx.inSpan (c : Ctx) : Bool := c.harrow.spanEnd.isSome || c.harrow.decided.any Decision.handed

/-- Flushes the harrow window of the context in focus. -/
def flushHarrow (s : State) : State := s.withCtx Ctx.flushHarrow

/-- A context by name: in focus, or among the others. -/
def State.ctx? (s : State) (w : CtxId) : Option Ctx :=
  if s.ctx.live ∧ s.ctx.id = w then some s.ctx else s.others.find? fun c => c.live && c.id == w

/-- A context by name or among the saved ones of pre-empted gangs (17 R374). -/
def State.anyCtx? (s : State) (w : CtxId) : Option Ctx := (s.ctx? w).or (s.saved.find? fun c => c.id == w)

/-- Changes a context by name, wherever it stands; nothing when there is none. -/
def State.updCtx (s : State) (w : CtxId) (f : Ctx → Ctx) : State :=
  if s.ctx.live ∧ s.ctx.id = w then { s with ctx := f s.ctx }
  else { s with
    others := updateFirst (fun c => c.live && c.id == w) f s.others
    saved := updateFirst (fun c => c.id == w) f s.saved }

/-- Every context that is resident. -/
def State.allCtx (s : State) : List Ctx := (s.ctx :: s.others).filter Ctx.live

/-- The contexts of a gang that are resident. -/
def State.gangCtx (s : State) (g : Nat) : List Ctx := s.allCtx.filter fun c => c.id.gang == g

/-- Changes every resident context of a gang. -/
def State.updGangCtx (s : State) (g : Nat) (f : Ctx → Ctx) : State :=
  { s with
    ctx := if s.ctx.live ∧ s.ctx.id.gang = g then f s.ctx else s.ctx
    others := updateAll (fun c => c.live && c.id.gang == g) f s.others }

/-- A gang by its identifier. -/
def State.gang? (s : State) (g : Nat) : Option Gang := s.gangs.find? fun x => x.id == g

/-- Changes a gang by its identifier. -/
def State.updGang (s : State) (g : Nat) (f : Gang → Gang) : State :=
  { s with gangs := updateFirst (fun x => x.id == g) f s.gangs }

/-- A free value of w bits (DESIGN CHOICE, log 5): the counter selects it, and the step advances the counter. -/
def State.free (s : State) (w : Nat) : BitVec w × State :=
  (Config.freeBits s.freeIx w, { s with freeIx := s.freeIx + 1 })

/-- A new identifier. -/
def State.fresh (s : State) : Nat × State := (s.nextId, { s with nextId := s.nextId + 1 })

/-! ### Where a logical cluster stands (16 R350, 01 R16) -/

/-- The physical cluster of a valid REMAP entry (16 R350). -/
def physOf (s : State) (lc : Nat) : Option Nat :=
  match s.granary.remap[lc]? with
  | some e => if e.getLsbD 15 then some (e.toNat % 32) else none
  | none => none

/-- The logical clusters that valid REMAP entries place on a physical cluster, in ascending order. -/
def sharing (s : State) (phys : Nat) : List Nat := (List.range 32).filter fun lc => physOf s lc == some phys

/-- The logical cluster that a physical cluster runs, and since when. R16 does not say which of two logical clusters
that come to share a physical one runs first: it is the lowest of them, and its first slice counts from cycle 0
(DESIGN CHOICE, log 89). -/
def sliceOf (s : State) (phys : Nat) : Nat × Nat :=
  match s.granary.slices.find? fun x => x.1 == phys with
  | some x => x.2
  | none => ((sharing s phys).headD phys, 0)

/-- Whether a logical cluster is the one that its physical cluster runs (01 R16, R17). -/
def clusterIn (s : State) (lc : Nat) : Bool := (physOf s lc).all fun p => (sliceOf s p).1 == lc

/-! ### Tokens (09 R245 to R248) -/

/-- What a consumed token contributes once (q, gen) has completed with a status. -/
def Dep.resolve (q gen : Nat) (st : TokStatus) : Dep → Dep
  | .waiting f q' gen' => if q' = q ∧ gen' = gen then .known f st else .waiting f q' gen'
  | d => d

/-- Whether a consumed token has completed. -/
def Dep.isKnown : Dep → Bool
  | .known _ _ => true
  | .waiting _ _ _ => false

/-- Completes a token of a context and tells every command and TOKJOIN that consumes it. -/
def completeToken (s : State) (w : CtxId) (q : QReg) (gen : Nat) (st : TokStatus) : State :=
  let s := s.updCtx w fun c =>
    if (c.q.get q).gen = gen ∧ !(c.q.get q).done then
      { c with q := c.q.set q.val { done := true, status := st, gen := gen } q.isLt }
    else c
  { s with
    cmds := s.cmds.map fun k => if k.who = w then { k with deps := k.deps.map (Dep.resolve q.val gen st) } else k
    joins := s.joins.map fun k => if k.who = w then { k with deps := k.deps.map (Dep.resolve q.val gen st) } else k }

/-- Completes the token of a tile instruction or contribution, where it names one. -/
def completeTok? (s : State) (w : CtxId) (t : Option (QReg × Nat)) (st : TokStatus) : State :=
  match t with
  | some (q, gen) => completeToken s w q gen st
  | none => s

/-- Makes a token of the context in focus incomplete, with a new serial number (09 R245). -/
def produceToken (s : State) (q : QReg) : Nat × State :=
  let (g, s) := s.fresh
  (g, wrQ s q { done := false, status := .ok, gen := g })

/-- A consumed token as it stood before the bundle (09 R245). -/
def depOf (s : State) (field : Nat) (q : QReg) : Dep :=
  let t := rdQ s q
  if t.done then .known field t.status else .waiting field q.val t.gen

/-! ### Deferred traps (17 R370) -/

/-- The cause code of a deferred record. -/
def Deferred.code (d : Deferred) : Nat := d.trapc.toNat % 64

/-- The four causes of deferred traps (17 R370). -/
def deferredCauses : List Nat := [Cause.linkFault.code, Cause.fpException.code, Cause.accessFault.code,
  Cause.atomicUnknown.code]

/-- How many of the four causes have no record in the queue. -/
def absentCauses (q : List Deferred) : Nat :=
  (deferredCauses.filter fun c => !(q.any fun d => d.code == c)).length

/-- Merges a deferred trap into the newest record of its cause: XINFO of FP_EXCEPTION takes the OR, MORE is set. -/
def mergeDeferred (q : List Deferred) (d : Deferred) : List Deferred :=
  (updateFirst (fun x => x.code == d.code)
    (fun x => { x with
      trapx := (x.trapx ||| BitVec.ofNat 64 (2 ^ 18)) |||
        (if d.code = Cause.fpException.code then BitVec.ofNat 64 (d.trapx.toNat / 2 ^ 32 * 2 ^ 32) else 0) })
    q.reverse).reverse

/-- The queue with a deferred trap that becomes due: a free record when enough stay free, else a merge. -/
def enqueueDeferred (q : List Deferred) (d : Deferred) : List Deferred :=
  let q' := q ++ [d]
  if q'.length ≤ 8 ∧ absentCauses q' ≤ 8 - q'.length then q' else mergeDeferred q d

/-- A blocked context made ready. -/
def Ctx.wake (c : Ctx) : Ctx :=
  match c.status with
  | .blocked _ => { c with status := .ready }
  | _ => c

/-- A deferred trap of a context becomes due; a context blocked in user mode becomes ready (17 R370). -/
def deferTrap (s : State) (w : CtxId) (t : TrapInfo) : State :=
  s.updCtx w fun c =>
    let d : Deferred := { trapc := BitVec.ofNat 64 (t.cause.code + t.faddr % 2 ^ 56 * 256),
                          trapx := BitVec.ofNat 64 (t.xinfo * 2 ^ 32) }
    let c := { c with deferred := enqueueDeferred c.deferred d }
    if c.mode = .user then c.wake else c

/-! ### Taking a trap (17 R368, R369) -/

/-- A tile flight of a gang that is killed keeps the tile that a TST still writes (17 R379). -/
def keepTile (s : State) (g : Nat) (t : TileFlight) : TileFlight :=
  if t.who.gang = g then
    { t with tile := t.tile.or (match t.op with
        | .store n _ _ => (s.anyCtx? t.who).map fun c => c.t.get n
        | _ => none) }
  else t

/-- Stops a gang at once (17 R379, R380): its contexts leave their cores, its press entries and the press atomics on
their way are discarded, and its commands that have not started are cancelled. What remains follows when its engines have
stopped. -/
def endGang (s : State) (g : Nat) (status : Nat) : State :=
  let s : State := { s with tileOps := s.tileOps.map (keepTile s g) }
  let s := s.updGang g fun x => { x with
    windows := [], aborting := false,
    run := match x.run with
      | .killing k => .killing k
      | _ => .killing status }
  let s := s.updGangCtx g fun c => { c with status := .exited, running := false, live := false }
  { s with
    others := s.others.filter fun c => c.id.gang != g
    saved := s.saved.filter fun c => c.id.gang != g
    press := s.press.filter fun e => e.who.gang != g
    flights := s.flights.filter fun f => f.who.gang != g || f.place != .press
    cmds := s.cmds.filter fun k => k.who.gang != g || k.started
    armed := s.armed.filter fun a => a.cmd.who.gang != g
    joins := s.joins.filter fun j => j.who.gang != g
    invals := s.invals.filter fun v => v.who.gang != g
    undos := s.undos.filter fun u => u.who.gang != g }

/-- The status of a node whose gang a trap ends (17 R369); code is CODE of a privileged TRAP. -/
def endStatus (c : Ctx) (t : TrapInfo) (code : Option Nat) : Nat :=
  match code with
  | some k =>
    if c.mode = .privileged then (if causeCodes.contains k then 0x40 + k else 0x78) else 0x40 + t.cause.code
  | none => 0x40 + t.cause.code

/-- The origin record of a cancelled rewrite, when the trapping slot is one of its origins (14 R320): TRAPX's HRW
and HRULE, and TRAPO. Every origin that traps in the run has the record (log 43). -/
def hrwOf (c : Ctx) (pc : Word) (slot : Nat) : Nat × Nat :=
  match c.harrow.cancelled with
  | some (rule, origins, _) =>
    if origins.any fun o => o.pc == pc && o.slot == slot then
      (2 ^ 10 + rule * 2 ^ 11,
       (origins.mapIdx fun i o =>
          (2 ^ 15 + o.slot * 2 ^ 13 + ofInt 13 (((o.pc.toNat : Int) - (pc.toNat : Int)) / 16)) * 2 ^ (16 * i)).sum)
    else (0, 0)
  | none => (0, 0)

/-- The device takes a trap of the context in focus (17 R368), at the bundle address pc and slot: it writes TRAPC,
TRAPPC, TRAPX and TRAPO, sets privileged mode, flushes the harrow window and goes to TVEC. Without a handler, or in
privileged mode, the gang ends instead (R369). -/
def takeTrap (s : State) (pc : Word) (slot : Nat) (trapc trapx trapo : Word) (ended : Nat) : State :=
  if s.ctx.tvec = 0 ∨ s.ctx.mode = .privileged then endGang s s.ctx.id.gang ended
  else
    s.withCtx fun c =>
      { c with
        trapc := trapc
        trappc := BitVec.ofNat 64 (pc.toNat % 2 ^ 56 / 16 * 16)
        trapx := trapx ||| BitVec.ofNat 64 slot
        trapo := trapo
        mode := .privileged
        pc := c.tvec
        harrow := { c.flushHarrow.harrow with
          inHandler := c.harrow.inHandler || c.harrow.stretch.isSome } }

/-- A trap at the present bundle with an origin record (03 R79 to R81). -/
def trapWith (s : State) (t : TrapInfo) (code : Option Nat) (origin : Nat × Nat) : State :=
  let c := s.src
  let trapc := BitVec.ofNat 64 (t.cause.code + (if c.mode = .privileged then 128 else 0) + t.faddr % 2 ^ 56 * 256)
  let trapx := BitVec.ofNat 64 (t.xinfo % 2 ^ 32 * 2 ^ 32 + origin.1)
  takeTrap s c.pc s.bun.slot trapc trapx (BitVec.ofNat 64 origin.2) (endStatus c t code)

/-- A trap of a slot (03 R79 to R81), precise at its bundle. -/
def slotTrap (s : State) (t : TrapInfo) (code : Option Nat := none) : State :=
  trapWith s t code (hrwOf s.src s.src.pc s.bun.slot)

/-- ERET (09 R254, 14 R321): back to TRAPPC.BPC, in privileged mode to the mode of TRAPC.PM; with HRW set a replay
stretch opens. -/
def eret (s : State) : State :=
  let o := s.src
  let offs := (List.range 4).filterMap fun i =>
    let e := bits o.trapo.toNat (16 * i) 16
    if testBit e 15 then some (toSigned 13 e) else none
  let far := offs.foldl max 0
  s.withCtx fun c =>
    { c with
      pc := o.trappc
      mode := if o.mode = .privileged then (if testBit o.trapc.toNat 7 then .privileged else .user) else .user
      harrow := { c.harrow with
        inHandler := false
        stretch := if testBit o.trapx.toNat 10 then some (o.trappc, o.trappc + BitVec.ofInt 64 (far * 16))
                   else c.harrow.stretch } }

/-! ### The frame of a slot -/

/-- How the body of a slot ends: done; an execution trap, with a state to keep where the trap leaves an effect; a
block (01 R18); a stall in place (R19), with a state to keep where a pre-emption stops a tile transfer at a row boundary
(06 R174, R175), and with the scratchpad banks that it waits for (10 R259). -/
inductive SlotEnd where
  | done (s : State)
  | trap (t : TrapInfo)
  | trapKeep (s : State) (t : TrapInfo)
  | trapCode (t : TrapInfo) (code : Nat)
  | block (s : State) (why : Block)
  | halt (s : State)
  | waitBanks (b : BitVec 48)
  | stall

/-- What the frame of a slot needs to know of it: whether its fields keep to their limits (03 R95), whether it is
privileged, whether its unit is present (00 R4, 01 R11), whether its crossbar pattern is legal (05 R146), and the
registers it reads and writes. -/
structure Sig where
  legal : Bool := true
  priv : Bool := false
  unit : Bool := true
  schedule : Bool := true
  reads : List Res := []
  writes : List Res := []
  deriving DecidableEq, Repr

/-- Whether FP64 exact functions are present (00 R3: CAPS.EFX64). -/
def State.efx64 (s : State) : Bool := s.part == .q4

/-- VSHAPE.EW (03 R70). -/
def Ctx.ew (c : Ctx) : Nat := c.vshape.toNat % 4
/-- VSHAPE.ROWL2. -/
def Ctx.rowl2 (c : Ctx) : Nat := c.vshape.toNat / 16 % 8
/-- The element size in bytes. -/
def Ctx.ebytes (c : Ctx) : Nat := 2 ^ c.ew
/-- The number of elements of a vector register (05 R132). -/
def Ctx.elems (c : Ctx) : Nat := 2048 / c.ebytes

/-- Codes of major 0x1A whose wider type is 64 bits (05 R139 to R142). -/
def wideCode (minor code : Nat) : Bool :=
  if minor = 0 then 4 ≤ code && code ≤ 7
  else if minor ≤ 2 then [0x09, 0x0A, 0x0B, 0x10, 0x11].contains code
  else false

/-- Whether an instruction has the element size that it allows (05 R133). -/
def elemSizeOk (maj minor ew : Nat) : Bool :=
  if maj = 0x19 ∨ maj = 0x1B ∨ (maj = 0x1C ∧ minor < 3) ∨ (maj = 0x1E ∧ minor = 9) then 2 ≤ ew else true

/-- Whether the core kind and the part have the unit of an instruction (00 R4, 01 R11, 05 R133). -/
def unitPresent (s : State) (maj minor word : Nat) : Bool :=
  let c := s.src
  let wide := c.ew == 3
  if c.isV then
    if 0x24 ≤ maj ∧ maj ≤ 0x28 then false
    else if maj = 0x07 then
      let a := word % 2 ^ 12
      !((0x040 ≤ a && a ≤ 0x047) || a == 0x050)
    else if maj = 0x14 then word % 2 == 0 || s.efx64
    else if maj = 0x1B ∧ minor < 8 then !wide || s.efx64
    else true
  else
    if maj = 0x14 then false
    else if maj = 0x1B then 8 ≤ minor && !wide
    else if maj = 0x18 ∨ maj = 0x19 ∨ maj = 0x1C ∨ maj = 0x1D ∨ maj = 0x20 then !wide
    else if maj = 0x1E then !(wide && (minor == 8 || minor == 9))
    else if maj = 0x1A then !wideCode minor (word / 2 ^ 11 % 32)
    else true

/-- Whether a crossbar pattern sends no two lanes to one (05 R146). -/
def xbOk (v : Nat) : Bool := !hasDup ((List.range 16).map fun i => bits v (4 * i) 4)

/-- The decode-time trap of a slot, in the order of 03 R95. -/
def decodeTrap (s : State) (g : Sig) : Option Cause :=
  if !g.legal then some .illegalInstr
  else if g.priv ∧ s.src.mode = .user then some .privilegedInstr
  else if !g.unit then some .unimplemented
  else if !g.schedule then some .illegalSchedule
  else none

/-- Whether a load in flight owes a register its value (08 R209): registers by physical number. -/
def LoadDest.owes (d : LoadDest) (r : Res) : Bool :=
  match d, r with
  | .scalar x _ _, .s y => x == y
  | .vector x _, .v y => x == y
  | .sidecar x, .v y => x == y
  | _, _ => false

/-- A TLD or TST with other rows still to move. -/
def TileOp.withRows (o : TileOp) (rows : List (Nat × Nat × List Nat)) : TileOp :=
  match o with
  | .load d _ sp => .load d rows sp
  | .store a _ sp => .store a rows sp
  | o => o

/-- Whether a tile instruction is a TLD or TST. -/
def TileOp.moves : TileOp → Bool
  | .load _ _ _ | .store _ _ _ => true
  | _ => false

/-- The tile that a tile instruction writes. -/
def TileOp.tileOut : TileOp → Option TReg
  | .zero d | .fill d _ | .mov d _ | .fromVector d _ _ | .trans d _ | .cvt d _ _ | .scale d _ _ _ | .load d _ _ => some d
  | .toVector _ _ _ | .store _ _ _ => none

/-- The tile that a tile instruction reads. -/
def TileOp.tileIn : TileOp → Option TReg
  | .mov _ a | .trans _ a | .cvt _ a _ | .scale _ a _ _ | .toVector _ a _ | .store a _ _ => some a
  | .zero _ | .fill _ _ | .fromVector _ _ _ | .load _ _ _ => none

/-- The registers that a tile instruction reads and writes, vector registers by physical number. -/
def TileOp.touches (o : TileOp) : List Res :=
  (o.tileOut.toList ++ o.tileIn.toList).map Res.t ++ (match o with
    | .toVector d _ _ => [.v d]
    | _ => [])

/-- Whether an operation of a context was put in flight by the bundle that is being executed. The slots of one bundle
read registers, tiles and CSRs as they stood before it (03 R92), so only a later bundle waits for it (08 R209). -/
def ownBundle (s : State) (w : CtxId) (bundle : Nat) : Bool := w == s.src.id && bundle == s.src.bundles

/-- Whether an armed close of the gang owes the context's tile its bytes (07 busy bits). -/
def closeOwes (s : State) (w : CtxId) (n : TReg) : Bool :=
  match s.gang? w.gang with
  | none => false
  | some g => g.chains.toList.any fun k => match k.close with
    | some a => a.gix == w.gix && a.dst == .tile n && !ownBundle s w a.bundle
    | none => false

/-- WPEND of a tile (07 before R178). -/
def wpend (s : State) (w : CtxId) (n : TReg) : Bool :=
  (s.tileOps.any fun t => t.who == w && t.op.tileOut == some n && !ownBundle s w t.bundle) || closeOwes s w n

/-- RPEND of a tile. -/
def rpend (s : State) (w : CtxId) (n : TReg) : Bool :=
  (s.tileOps.any fun t => t.who == w && t.op.tileIn == some n && !ownBundle s w t.bundle) ||
    s.links.any fun l => l.waiting.any fun x =>
      x.who == w && (x.regs.1 == n || x.regs.2 == n) && !ownBundle s w x.bundle

/-- Whether a register is still owed a value by an operation that an earlier bundle put in flight (08 R209, 13 R289,
R290). -/
def pending (s : State) (w : CtxId) (r : Res) : Bool :=
  (s.flights.any fun f => f.who == w && f.dest.owes r && !ownBundle s w f.bundle) ||
    (s.press.any fun e => e.who == w && (match e.dest, r with
      | some x, .s y => x == y
      | _, _ => false)) ||
    (match r with
      | .v y => s.tileOps.any fun t => t.who == w && !ownBundle s w t.bundle && (match t.op with
        | .toVector d _ _ => d == y
        | _ => false)
      | _ => false)

/-- Whether an operation on some registers is replacement 0 of a rewrite whose replacement 1 has not been handed over: it
does not end before that, so that a cancelled rewrite has no effect (14 R319), unless replacement 1 waits for it. -/
def unsettled (s : State) (w : CtxId) (bundle : Nat) (regs : List Res) : Bool :=
  (s.ctx? w).any fun c => c.harrow.decided.any fun d =>
    d.handed && bundle + 1 == c.bundles && !(regs.any d.needs.contains)

/-- The tile whose TCFG a CSR write changes. -/
def tcfgTile (a : Nat) : Option TReg := if 0x040 ≤ a ∧ a ≤ 0x047 then some (Fin.ofNat 8 a) else none

/-- Whether a read must wait (07 R178, 08 R209). -/
def readStalls (s : State) (c : Ctx) (r : Res) : Bool :=
  match r with
  | .t n => wpend s c.id n
  | .s _ | .v _ => pending s c.id (c.phys r)
  | _ => false

/-- Whether a write must wait (07 R178, 03 R73, 08 R209). -/
def writeStalls (s : State) (c : Ctx) (r : Res) : Bool :=
  match r with
  | .t n => wpend s c.id n || rpend s c.id n
  | .s _ | .v _ => pending s c.id (c.phys r)
  | .csr a => match tcfgTile a with
    | some n => wpend s c.id n || rpend s c.id n
    | none => false
  | _ => false

/-- The frame's facts about an instruction of one slot. The pattern of a VXB is judged once its register holds it (03 R88,
R95, 05 R146). -/
def sigOf (s : State) (i : Instr) : Sig :=
  let w := encodeWord i
  let maj := w / 2 ^ 26
  let minor := w / 64 % 32
  { legal := i.limits && elemSizeOk maj minor s.src.ew
    priv := slotPrivileged i
    unit := unitPresent s maj minor w
    schedule := match i with
      | .vxb _ _ b _ => readStalls s s.src (.s b) || xbOk (rdS s b).toNat
      | _ => true
    reads := slotReads i
    writes := slotWrites i }

/-- Whether a register stall holds the slot (13 R290). -/
def regStall (s : State) (g : Sig) : Bool :=
  g.reads.any (readStalls s s.src) || g.writes.any (writeStalls s s.src)

/-- Records how a slot ended. -/
def State.ended (s : State) (e : SlotStatus) : State := { s with bun := { s.bun with status := e } }

/-- The context blocks (01 R18): it leaves the core and waits. -/
def blockOn (s : State) (why : Block) : State :=
  s.withCtx fun c =>
    { c with
      pc := s.src.pc
      running := false
      status := .blocked (match c.status with
        | .blocked l => l ++ [why]
        | _ => [why]) }

/-- The meaning of one slot inside its frame: decode-time traps (03 R95), register stalls (13 R290), the body with
the context as it stood before the bundle kept for its operands (R92), and its end. -/
def runSig (g : Sig) (s : State) (body : State → SlotEnd) : Host.Outcome State Fault Refusal :=
  match decodeTrap s g with
  | some c => .next ((slotTrap s { cause := c, xinfo := s.bun.word }).ended .trapped)
  | none =>
    if regStall s g then .next (s.ended .stalled)
    else
      let s0 : State := { s with pre := some s.src }
      match body { s0 with ctx := { s.ctx with pc := s.src.pc + 16 } } with
      | .done t => .next ({ t with pre := s.pre }.ended .done)
      | .trap t => .next ({ slotTrap s0 t with pre := s.pre }.ended .trapped)
      | .trapKeep k t => .next ({ slotTrap k t with pre := s.pre }.ended .trapped)
      | .trapCode t code => .next ({ slotTrap s0 t (some code) with pre := s.pre }.ended .trapped)
      | .block t why => .next ({ blockOn t why with pre := s.pre }.ended .blocked)
      | .halt t => .next ({ t with pre := s.pre, ctx := { t.ctx with pc := s.src.pc } }.ended .halted)
      | .waitBanks b => .next ({ s with bun := { s.bun with wants := b } }.ended .stalled)
      | .stall => .next (s.ended .stalled)

/-- The frame of an instruction. -/
def runSlot (i : Instr) (s : State) (body : State → SlotEnd) : Host.Outcome State Fault Refusal :=
  runSig (sigOf s i) s body

/-- The end of an F or V slot that raises flags (02 R48): FP_EXCEPTION when FPM enables one of them. The flags reach
FXF in either case. -/
def finishFlags (s : State) (before : State) (fl : Flags) : SlotEnd :=
  if enabledFlags before fl = 0 then .done (raise s fl)
  else .trapKeep (raise { before with ctx := { before.ctx with pc := before.src.pc } } fl)
    { cause := .fpException, xinfo := (enabledFlags before fl).toNat }

end Sys2Proof.Machine
end

