-- ==== Sys2Proof/Machine/Control.lean ====
section
/-! DEFINITION. NOP, branches, jumps, calls, loops, WAIT and YIELD (04 R111 to R122). -/
namespace Sys2Proof.Machine

/-- NOP (04 R120). -/
def execNop (s : State) : Host.Outcome State Fault Refusal :=
  runSlot .nop s fun s => .done s

/-- A transfer to a target, checked before it takes effect (04 R114): alignment, then bits [63:56]. -/
def jumpTo (s : State) (target : Word) : SlotEnd :=
  if target.toNat % 16 ≠ 0 then .trap { cause := .align, faddr := target.toNat % 2 ^ 56 }
  else if target.toNat / 2 ^ 56 ≠ 0 then .trap { cause := .accessFault, faddr := target.toNat % 2 ^ 56 }
  else .done (s.withCtx fun c => { c with pc := target })

/-- The target of a relative transfer: imm bundles from the bundle that holds it (04 before R111). -/
def relTarget (s : State) (imm : Int) : Word := s.src.pc + BitVec.ofInt 64 (imm * 16)

/-- BR (04 R111). -/
def execBr (p : PReg) (neg : Bool) (imm : Int) (s : State) : Host.Outcome State Fault Refusal :=
  runSlot (.br p neg imm) s fun s => if (rdP s p ^^ neg) then jumpTo s (relTarget s imm) else .done s

/-- JMP (04 R112). -/
def execJmp (imm : Int) (s : State) : Host.Outcome State Fault Refusal :=
  runSlot (.jmp imm) s fun s => jumpTo s (relTarget s imm)

/-- CALL (04 R112). -/
def execCall (imm : Int) (s : State) : Host.Outcome State Fault Refusal :=
  runSlot (.call imm) s fun s => jumpTo (wrS s 31 (s.src.pc + 16)) (relTarget s imm)

/-- JMPR (04 R113). -/
def execJmpr (a : SReg) (s : State) : Host.Outcome State Fault Refusal :=
  runSlot (.jmpr a) s fun s => jumpTo s (rdS s a)

/-- CALLR; A is read before s31 is written (04 R113). -/
def execCallr (a : SReg) (s : State) : Host.Outcome State Fault Refusal :=
  runSlot (.callr a) s fun s => jumpTo (wrS s 31 (s.src.pc + 16)) (rdS s a)

/-- RET (04 R113). -/
def execRet (s : State) : Host.Outcome State Fault Refusal :=
  runSlot .ret s fun s => jumpTo s (rdS s 31)

/-- The predicates p8 to p15 replaced by the low eight bits of v, p8 lowest. -/
def stagePreds (p : BitVec 16) (v : Nat) : BitVec 16 := BitVec.ofNat 16 (p.toNat % 256 + v % 256 * 256)

/-- LOOP.ST (04 R116). -/
def execLoopSt (sc : Fin 16) (a : SReg) (imm : Int) (s : State) : Host.Outcome State Fault Refusal :=
  runSlot (.loopSt sc a imm) s fun s =>
    let n := (rdS s a).toNat
    let start := s.withCtx fun c =>
      { c with rbs := 0, rbv := 0, sc := sc.val, p := stagePreds c.p (if n = 0 then 0 else 1),
               pass := if n = 0 then 0 else BitVec.ofNat 64 (min (n + sc.val - 1) (2 ^ 64 - 1)) }
    if n = 0 then jumpTo start (relTarget s imm) else .done start

/-- One advance of a loop (04 R115): the bases step down and the stage predicates shift; p8 is then written. -/
def advance (c : Ctx) (p8 : Bool) : Ctx :=
  { c with rbs := (c.rbs + 31) % 32, rbv := (c.rbv + 15) % 16,
           p := stagePreds c.p (c.p.toNat / 256 * 2 + p8.toNat) }

/-- LOOP.BR (04 R117). -/
def execLoopBr (imm : Int) (s : State) : Host.Outcome State Fault Refusal :=
  runSlot (.loopBr imm) s fun s =>
    let pass := s.src.pass
    if pass = 0 then .done s
    else
      let left := pass - 1
      let t := s.withCtx fun c =>
        advance { c with pass := left } (decide (max s.src.sc 1 ≤ left.toNat))
      if left ≠ 0 then jumpTo t (relTarget s imm) else .done t

/-- WAIT tests OCNT as it stood before the bundle (04 R118). -/
def execWait (ld st : Fin 128) (cp : Fin 64) (tl : Fin 32) (s : State) : Host.Outcome State Fault Refusal :=
  runSlot (.wait ld st cp tl) s fun s =>
    let c := s.src
    if c.ocl ≤ ld.val ∧ c.ocs ≤ st.val ∧ c.occ ≤ cp.val ∧ c.oct ≤ tl.val then .done s
    else .block s (.counts ld.val st.val cp.val tl.val)

end Sys2Proof.Machine
end

