-- ==== Sys2Proof/Machine/Csr.lean ====
section
/-! DEFINITION. Control and status registers and the instructions that reach them (03 R67 to R85, 04 R108, R109). -/
namespace Sys2Proof.Machine

/-- Whether the remap table places two logical clusters on one physical cluster (00 R3: CAPS.TSNOW). -/
def State.tsnow (s : State) : Bool :=
  hasDup ((s.granary.remap.filter fun e => e.getLsbD 15).map fun e => e.toNat % 32)

/-- CSR CAPS (00 R3). -/
def caps (s : State) : Word :=
  let q4 := s.part == .q4
  BitVec.ofNat 64
    (0x02 * 2 ^ 40 + 0x01 * 2 ^ 32
      + (if q4 then 8 * 2 ^ 20 + 8 * 2 ^ 16 + 4 * 2 ^ 12 else 4 * 2 ^ 20 + 4 * 2 ^ 16 + 2 * 2 ^ 12)
      + s.tsnow.toNat * 2 ^ 11 + (!q4).toNat * 2 ^ 10 + 0b11100 + q4.toNat * 2 + 1)

/-- CSR COREID (01 R14). -/
def Ctx.coreid (c : Ctx) : Word :=
  BitVec.ofNat 64 (c.pdie % 4 * 2 ^ 30 + c.pcl % 8 * 2 ^ 27 + c.pcore % 16 * 2 ^ 23 + c.sliced.toNat * 2 ^ 22
    + c.ldie % 4 * 2 ^ 14 + c.lcl % 8 * 2 ^ 11 + c.lcore % 16 * 2 ^ 7 + c.isV.toNat * 2 ^ 6 + c.slotNo % 4)

/-- CSR GANGIX (01 R23). -/
def Ctx.gangix (c : Ctx) : Word :=
  BitVec.ofNat 64 (c.gcl % 32 * 2 ^ 40 + c.id.gang % 2 ^ 16 * 2 ^ 24 + c.glast % 2 ^ 11 * 2 ^ 11 + c.id.gix % 2 ^ 11)

/-- CSR OCNT (03 R78). -/
def Ctx.ocnt (c : Ctx) : Word :=
  BitVec.ofNat 64 (c.oct % 32 * 2 ^ 24 + c.occ % 64 * 2 ^ 16 + c.ocs % 128 * 2 ^ 8 + c.ocl % 128)

/-- The setting of the array that an M-core feeds (03 R77); 0 where no gang has used the array. -/
def altwOf (s : State) (arr : Nat) : BitVec 4 :=
  match s.arrays.find? fun a => a.id == arr with
  | some a => a.altw
  | none => 0

/-- The value that a CSR read gives (03 R67); c is the context as it stood before the bundle. -/
def csrRead (s : State) (c : Ctx) (a : Nat) : Word :=
  match a with
  | 0x000 => caps s
  | 0x001 => c.coreid
  | 0x002 => c.gangix
  | 0x010 => c.fpm
  | 0x011 => c.fxf.zeroExtend 64
  | 0x012 => BitVec.ofNat 64 (c.nbv % 256)
  | 0x013 => BitVec.ofNat 64 (c.detl % 4)
  | 0x014 => c.hperm
  | 0x020 => c.vshape
  | 0x030 => c.pass
  | 0x031 => BitVec.ofNat 64 (c.sc % 16)
  | 0x032 => BitVec.ofNat 64 (c.rbs % 32 * 2 ^ 8 + c.rbv % 16)
  | 0x050 => (altwOf s c.array).zeroExtend 64
  | 0x060 => c.ocnt
  | 0x070 => c.trapc
  | 0x071 => c.trappc
  | 0x072 => c.trapx
  | 0x073 => c.trapo
  | 0x074 => c.tvec
  | 0x075 => c.tscr
  | 0x080 => c.asid
  | 0x081 => c.ptbase
  | 0x090 => s.pmap.zeroExtend 64
  | 0x0A0 => BitVec.ofNat 64 s.time
  | 0x0A1 => BitVec.ofNat 64 s.wall
  | _ =>
    match tcfgTile a with
    | some n => if n.val < c.ntiles then c.tcfg.get n else 0
    | none => 0

/-- The bits of v that a mask keeps (00 R6, 03 R76: reserved and read-only bits are ignored). -/
def keep (v : Word) (mask : Nat) : Word := v &&& BitVec.ofNat 64 mask

/-- The fields of TCFGn that a write stores: PACT, PROG, ROWS, COLS, FMT (03 R72). -/
def tcfgMask : Nat := 2 ^ 41 + 0x1FF * 2 ^ 32 + 0x1FF * 2 ^ 21 + 0x1FFF * 2 ^ 8 + 0x1F

/-- A write of TCFGn by software (03 R72, 06 R175): while PACT is 1 it stores PACT as 0, and the stopped
instruction's token completes as CANCELLED. -/
def writeTcfg (s : State) (n : TReg) (v : Word) : State :=
  let old := s.ctx.tcfg.get n
  let pact := testBit old.toNat 41
  let new := if pact then keep v (tcfgMask - 2 ^ 41) else keep v tcfgMask
  let t := s.withCtx fun c => { c with tcfg := c.tcfg.set n.val new n.isLt }
  match s.ctx.stopTok.get n with
  | some q =>
    if pact then
      let t := t.withCtx fun c => { c with stopTok := c.stopTok.set n.val none n.isLt }
      completeToken t t.ctx.id (Fin.ofNat 32 q) (t.ctx.q.get (Fin.ofNat 32 q)).gen .cancelled
    else t
  | none => t

/-- A write of ALTW (03 R77): it waits for the array's next window, and of two writes the odd core's is last. -/
def writeAltw (s : State) (v : Word) : State :=
  let win := v.toNat % 8
  let new : BitVec 4 := BitVec.ofNat 4 ((v.toNat / 8 % 2) * 8 + (if 5 ≤ win then 0 else win))
  let put (a : ArrayUnit) : ArrayUnit :=
    if s.src.lcore % 2 = 0 then { a with nextEven := some new } else { a with nextOdd := some new }
  let arr := s.src.array
  if s.arrays.any fun a => a.id == arr then { s with arrays := updateFirst (fun a => a.id == arr) put s.arrays }
  else { s with arrays := put { id := arr } :: s.arrays }

/-- The effect of a CSR write, field by field (03 R67 to R85, 04 R108). -/
def csrWrite (s : State) (a : Nat) (v : Word) : State :=
  match a with
  | 0x010 => s.withCtx fun c => { c with fpm := if 5 ≤ v.toNat % 8 then keep v 0x3F00 else keep v 0x3F07 }
  | 0x011 => s.withCtx fun c => { c with fxf := BitVec.ofNat 6 v.toNat ||| s.bun.raised }
  | 0x014 => s.withCtx fun c => { c with hperm := keep v 0b111 }
  | 0x020 => s.withCtx fun c => { c with vshape := keep v 0b1110011 }
  | 0x030 => s.withCtx fun c => { c with pass := v }
  | 0x031 => s.withCtx fun c => { c with sc := if 9 ≤ v.toNat % 16 then 0 else v.toNat % 16 }
  | 0x032 => s.withCtx fun c => { c with rbs := bits v.toNat 8 5, rbv := v.toNat % 16 }
  | 0x050 => writeAltw s v
  | 0x070 => s.withCtx fun c => { c with trapc := keep v (2 ^ 64 - 1 - 2 ^ 6) }
  | 0x071 => s.withCtx fun c => { c with trappc := keep v (2 ^ 56 - 16) }
  | 0x072 => s.withCtx fun c => { c with trapx := keep v (0xFFFFFFFF * 2 ^ 32 + 0x7FC00 + 3) }
  | 0x073 => s.withCtx fun c => { c with trapo := v }
  | 0x074 => s.withCtx fun c => { c with tvec := keep v (2 ^ 56 - 16) }
  | 0x075 => s.withCtx fun c => { c with tscr := v }
  | 0x080 => s.withCtx fun c => { c with asid := keep v 0xFFFF }
  | 0x081 => s.withCtx fun c => { c with ptbase := keep v (2 ^ 52 - 2 ^ 12) }
  | _ =>
    match tcfgTile a with
    | some n => writeTcfg s n v
    | none => s

/-- The CSRs whose writes flush the harrow window: TCFGn, HPERM, NBV and ALTW (03 R75). -/
def flushingCsr (a : Nat) : Bool := (tcfgTile a).isSome || a == 0x014 || a == 0x012 || a == 0x050

/-- A CSR write with the flush that precedes it. -/
def csrStore (s : State) (a : Nat) (v : Word) : State :=
  csrWrite (if flushingCsr a then flushHarrow s else s) a v

/-- One CSR instruction: D takes the value before the bundle, and the CSR the new one (04 R108). A write of an
undeclared tile's TCFG traps (03 R73). -/
def csrBody (d : SReg) (c : Fin 4096) (new : Word → Option Word) (s : State) : SlotEnd :=
  let old := csrRead s s.src c.val
  match new old with
  | none => .done (wrS s d old)
  | some v =>
    match tcfgTile c.val with
    | some n =>
      if n.val < s.src.ntiles then .done (csrStore (wrS s d old) c.val v)
      else .trap { cause := .tileShape, xinfo := n.val }
    | none => .done (csrStore (wrS s d old) c.val v)

/-- CSRR (04 R108). -/
def execCsrr (d : SReg) (c : Fin 4096) (s : State) : Host.Outcome State Fault Refusal :=
  runSlot (.csrr d c) s (csrBody d c fun _ => none)

/-- CSRW (04 R108). -/
def execCsrw (d a : SReg) (c : Fin 4096) (s : State) : Host.Outcome State Fault Refusal :=
  runSlot (.csrw d a c) s fun s => csrBody d c (fun _ => some (rdS s a)) s

/-- CSRS (04 R108). -/
def execCsrs (d a : SReg) (c : Fin 4096) (s : State) : Host.Outcome State Fault Refusal :=
  runSlot (.csrs d a c) s fun s => csrBody d c (fun old => some (old ||| rdS s a)) s

/-- CSRC (04 R108). -/
def execCsrc (d a : SReg) (c : Fin 4096) (s : State) : Host.Outcome State Fault Refusal :=
  runSlot (.csrc d a c) s fun s => csrBody d c (fun old => some (old &&& ~~~(rdS s a))) s

end Sys2Proof.Machine
end

