-- ==== Sys2Proof/Machine/Conv.lean ====
section
/-! DEFINITION. The element formats by code (03 R74), conversions among them (02 R53 to R56), MX blocks (02 R38 to R40,
05 R142) and reductions (02 R62, R63). -/
namespace Sys2Proof.Machine

/-- A type of elements: floating point, integer, or BIN1 (02 R33, R34). -/
inductive NumTy where
  | fp (f : Fmt)
  | int (t : IntTy)
  | bin
  deriving DecidableEq, Repr

/-- The bits that an element of the type occupies (03 R74, 02 R37). -/
def NumTy.width : NumTy → Nat
  | .fp f => f.width + f.low
  | .int t => t.width
  | .bin => 1

/-- A signed integer type. -/
def iTy (w : Nat) : NumTy := .int { width := w, signed := true }
/-- A natural type. -/
def nTy (w : Nat) : NumTy := .int { width := w, signed := false }

/-- The types of the format codes 0x00 to 0x0F, 0x18 and 0x19 (03 R74). -/
def numTyOf : Nat → Option NumTy
  | 0x00 => some (.fp .f64)
  | 0x01 => some (.fp .f32)
  | 0x02 => some (.fp .e8m10)
  | 0x03 => some (.fp .bf16)
  | 0x04 => some (.fp .f16)
  | 0x05 => some (.fp .e4m3)
  | 0x06 => some (.fp .e5m2)
  | 0x07 => some (.fp .e3m2)
  | 0x08 => some (.fp .e2m3)
  | 0x09 => some (.fp .e2m1)
  | 0x0A => some (iTy 16)
  | 0x0B => some (iTy 8)
  | 0x0C => some (nTy 8)
  | 0x0D => some (iTy 4)
  | 0x0E => some (nTy 4)
  | 0x0F => some .bin
  | 0x18 => some (iTy 32)
  | 0x19 => some (iTy 64)
  | _ => none

/-- The element type and EMAX of an MX format code (02 R39, 07 R183). -/
def mxElem : Nat → Option (NumTy × Int)
  | 0x10 => some (.fp .e4m3, 8)
  | 0x11 => some (.fp .e5m2, 15)
  | 0x12 => some (.fp .e3m2, 4)
  | 0x13 => some (.fp .e2m3, 2)
  | 0x14 => some (.fp .e2m1, 2)
  | 0x15 => some (iTy 8, 0)
  | _ => none

/-- The element type of an SC format code (02 R41). -/
def scElem : Nat → Option Fmt
  | 0x16 => some .e4m3
  | 0x17 => some .e5m2
  | _ => none

/-- Element bits of a format code (03 R74); 0 for a reserved code. -/
def fmtWidth (code : Nat) : Nat :=
  match numTyOf code, mxElem code, scElem code with
  | some t, _, _ => t.width
  | _, some (t, _), _ => t.width
  | _, _, some f => f.width
  | _, _, _ => 0

/-- An integer converted to a type (02 R56). A negative value has no encoding in a natural type, wider or narrower: it clamps
to 0 with SAT, where R56's exact widening cannot hold (DESIGN CHOICE, log 102). -/
def ofIntTo (t : NumTy) (rm : Rnd) (nbv : Nat) (v : Int) : FR :=
  match t with
  | .fp f => ofIntF f rm nbv v
  | .int d =>
    let (c, sat) := d.clamp v
    { bits := ofInt d.width c, flags := if sat then flagSAT else 0 }
  | .bin => { bits := if 0 ≤ v then 1 else 0 }

/-- A floating-point value converted to a type (02 R53 to R55). -/
def ofValTo (t : NumTy) (rm : Rnd) (nbv : Nat) (v : FVal) : FR :=
  match t with
  | .fp f => f.convert rm nbv v
  | .int d =>
    let (c, fl) := toIntTy d rm v
    { bits := ofInt d.width c, flags := fl }
  | .bin =>
    match v with
    | .nan _ => { bits := 1, flags := flagNV }
    | .inf n => { bits := (!n).toNat }
    | .fin n _ _ => { bits := (!n).toNat }

/-- An element converted from one type to another (02 R53 to R56). -/
def convertNum (src dst : NumTy) (rm : Rnd) (nbv w : Nat) : FR :=
  match src with
  | .fp f => ofValTo dst rm nbv (f.unpack w)
  | .int t => ofIntTo dst rm nbv (t.val w)
  | .bin => ofIntTo dst rm nbv (if w % 2 = 1 then 1 else -1)

/-- A value multiplied by a power of two. -/
def FVal.scale (v : FVal) (k : Int) : FVal :=
  match v with
  | .fin n m e => .fin n m (e + k)
  | v => v

/-- The value of an MX element without its block's scale (02 R39). -/
def mxValue (t : NumTy) (w : Nat) : FVal :=
  match t with
  | .fp f => f.unpack w
  | .int d => .fin (d.val w < 0) (d.val w).natAbs (-6)
  | .bin => .fin false 0 0

/-- The exponent of the greatest magnitude of a list of finite values, with none when all are zero. -/
def maxExp : List FVal → Option Int
  | [] => none
  | .fin _ m e :: l =>
    if m = 0 then maxExp l
    else some (match maxExp l with
      | some x => max x ((m.log2 : Int) + e)
      | none => (m.log2 : Int) + e)
  | _ :: l => maxExp l

/-- One MX block of 32 values: its scale, its elements and the flags (05 R142). R55 gives NV to a value outside an integer
format; of MX-INT8 R142 says "saturating with SAT": SAT alone is raised (DESIGN CHOICE, log 100). -/
def mxNorm (t : NumTy) (emax : Int) (rm : Rnd) (nbv : Nat) (blk : List FVal) : Nat × List Nat × Flags :=
  let special (v : FVal) : Bool := match v with
    | .fin _ _ _ => false
    | _ => true
  let sig (v : FVal) : Bool := match v with
    | .nan b => b
    | _ => false
  if blk.any special then (0xFF, blk.map fun _ => 0, nvIf (blk.any sig))
  else
    let x : Int := match maxExp blk with
      | none => 127
      | some k => max 0 (min 254 (k - emax + 127))
    let conv (v : FVal) : FR :=
      match t with
      | .fp f => f.convert rm nbv (v.scale (127 - x))
      | .int d =>
        match v.scale (127 - x + 6) with
        | .fin n m e =>
          let (w, inexact) := roundToInt rm n m e
          let (c, sat) := d.clamp w
          { bits := ofInt d.width c,
            flags := (if sat then flagSAT else 0) ||| (if inexact && !sat then flagNX else 0) }
        | _ => { bits := 0 }
      | .bin => { bits := 0 }
    let rs := blk.map conv
    (x.toNat, rs.map FR.bits, rs.foldl (fun a r => a ||| r.flags) 0)

/-- An MX element with its scale, rounded to FP32 (05 R142 VMXSCALE). -/
def mxScale (t : NumTy) (rm : Rnd) (x w : Nat) : FR :=
  if x = 0xFF then Fmt.f32.nanR
  else
    match mxValue t w with
    | .fin n m e => if m = 0 then { bits := Fmt.f32.pack n 0 } else Fmt.f32.round rm n m (e + (x : Int) - 127)
    | v => Fmt.f32.convert rm 2 v

/-! ### Reductions (02 R62, R63) -/

/-- One level of the tree: neighbours combined, an absent one giving way. -/
def treeLevel {α : Type} (f : α → α → α) : List (Option α) → List (Option α)
  | a :: b :: l => (match a, b with
      | none, y => y
      | x, none => x
      | some x, some y => some (f x y)) :: treeLevel f l
  | l => l

/-- The tree over a list whose length is a power of two: as many levels as fuel allows. -/
def treeFold {α : Type} (f : α → α → α) : Nat → List (Option α) → Option α
  | _, [] => none
  | _, [x] => x
  | 0, x :: _ => x
  | n + 1, l => treeFold f n (treeLevel f l)

/-- The least power of two not below n. -/
def pow2Ceil (n : Nat) : Nat := if n ≤ 1 then 1 else 2 ^ ((n - 1).log2 + 1)

/-- A list with absent positions up to a length. -/
def padTo {α : Type} (n : Nat) (l : List (Option α)) : List (Option α) := l ++ List.replicate (n - l.length) none

/-- The reduction of 02 R62. -/
def treeReduce {α : Type} (f : α → α → α) (l : List (Option α)) : Option α :=
  treeFold f 32 (padTo (pow2Ceil l.length) l)

/-- A group folded from its lowest present element upward (02 R63). -/
def foldGroup {α : Type} (f : α → α → α) (l : List (Option α)) : Option α :=
  l.foldl (fun a x => match a, x with
    | none, y => y
    | a, none => a
    | some a, some y => some (f a y)) none

/-- A list cut into groups of four. -/
def groups4 {α : Type} : List α → List (List α)
  | a :: b :: c :: d :: l => [a, b, c, d] :: groups4 l
  | [] => []
  | l => [l]

/-- The reduction of 02 R63. -/
def groupReduce {α : Type} (f : α → α → α) (l : List (Option α)) : Option α :=
  treeFold f 32 ((groups4 (padTo (pow2Ceil (max l.length 4)) l)).map (foldGroup f))

/-- The FP sum over the elements present, with the special cases over all of them (02 R51, R62, R63). -/
def fpSum (f : Fmt) (rm : Rnd) (nbv : Nat) (l : List (Option Nat)) : FR :=
  match sumSpecial f ((l.filterMap id).map fun w => .val (f.unpack w)) with
  | some r => r
  | none =>
    let step (a b : FR) : FR :=
      let r := fadd f rm a.bits b.bits
      { bits := r.bits, flags := a.flags ||| b.flags ||| r.flags }
    let items := l.map fun x => x.map fun w => ({ bits := w } : FR)
    let r := if nbv = 1 then groupReduce step items else treeReduce step items
    r.getD { bits := 0 }

/-- The FP minimum or maximum over the elements present (02 R52, R62); a NaN is canonical also where it is the only
element (R50). -/
def fpMinMax (f : Fmt) (maxi : Bool) (l : List (Option Nat)) : FR :=
  let step (a b : FR) : FR :=
    let r := fminmax f maxi a.bits b.bits
    { bits := r.bits, flags := a.flags ||| b.flags ||| r.flags }
  match treeReduce step (l.map fun x => x.map fun w => ({ bits := w } : FR)) with
  | none => f.infR maxi
  | some r => if f.isNan r.bits then f.nanR (r.flags ||| nvIf (f.isSig r.bits)) else r

end Sys2Proof.Machine
end

