-- ==== Sys2Proof/Machine/Translate.lean ====
section
/-! DEFINITION. Physical addresses, furrows and homes (16 R343, 10 R256, 19 R395, R396), the page-table walk and the
translation of an access (17 R359 to R364). -/
namespace Sys2Proof.Machine

/-- The bytes of local HBM fitted (16 R343). -/
def State.hbmSize (s : State) : Nat := if s.part = .q4 then 2 ^ 39 else 2 ^ 38
/-- The base of the save region, at the top of local HBM (20 R420). -/
def State.saveBase (s : State) : Nat := s.hbmSize - s.mgmt.saveg * 2 ^ 30
/-- The number of compute dies of the part. -/
def State.dies (s : State) : Nat := if s.part = .q4 then 4 else 2
/-- The number of furrows fitted. -/
def State.fpln (s : State) : Nat := if s.part = .q4 then 8 else 4

/-- The target of a physical address (16 R343). -/
inductive PaKind where
  | hbm
  | peer (p : Nat)
  | host
  | reserved
  deriving DecidableEq, Repr

/-- Decodes a physical address (16 R343); the package's own index in the peer range aliases local HBM. -/
def paKind (s : State) (pa : Nat) : PaKind :=
  match pa / 2 ^ 50 % 4 with
  | 0 => if pa < s.hbmSize then .hbm else .reserved
  | 1 =>
    if testBit pa 49 || testBit pa 48 || testBit pa 39 then .reserved
    else if pa / 2 ^ 40 % 256 = s.pkg then (if pa % 2 ^ 39 < s.hbmSize then .hbm else .reserved)
    else .peer (pa / 2 ^ 40 % 256)
  | 2 => .host
  | _ => .reserved

/-- The one name of an address: the package's own second name becomes the local address. -/
def paNorm (s : State) (pa : Nat) : Nat :=
  if pa / 2 ^ 50 % 4 = 1 ∧ pa / 2 ^ 40 % 256 = s.pkg then pa % 2 ^ 39 else pa

/-- The hash H of an address (19 R396): the exclusive OR of the 3-bit groups of x. -/
def hashOf (x : Nat) : Nat := (List.range 15).foldl (fun h k => h ^^^ (x / 2 ^ (3 * k) % 8)) 0 % 8

/-- The bits [51:8] that are hashed (19 R395). -/
def hashX (pa : Nat) : Nat := (if pa / 2 ^ 50 % 4 = 1 then pa % 2 ^ 39 else pa % 2 ^ 52) / 256

/-- An entry of PMAP (03 R84). -/
def pmapEntry (p : BitVec 24) (h : Nat) : Nat := p.toNat / 2 ^ (3 * h) % 8

/-- The furrow of an access (19 R395). -/
def furrowOf (s : State) (pa : Nat) : Nat := pmapEntry s.pmap (hashOf (hashX pa))

/-- The home die of local HBM (16 R343). -/
def homeDie (s : State) (pa : Nat) : Nat := if s.part = .q4 then pa / 2 ^ 12 % 4 else pa / 2 ^ 12 % 2

/-- The home slice of a local address (10 R256), die times 8 plus furrow; on a Q2 the pair of slices is one home. -/
def homeSlice (s : State) (pa : Nat) : Nat := homeDie s pa * 8 + furrowOf s pa

/-- The slice at whose press, or among whose armed commands, an address stands: its home's; a number of no local slice where
another package is its home. -/
def pressSlice (s : State) (pa : Nat) : Nat :=
  match paKind s pa with
  | .peer p => 64 + 64 * p + homeSlice s pa
  | _ => homeSlice s pa

/-- The 64-byte granule of an address. -/
def granule (a : Nat) : Nat := a / 64

/-! ### What memory holds at the home (10 R255, R260) -/

/-- The bytes of a granule as its home holds them. -/
def granuleBytes (s : State) (g : Nat) : List Byte := s.mem.bytes (g * 64) 64

/-- HBM and L2 of a granule brought together: what the home holds is what HBM holds. -/
def settleHbm (s : State) (g : Nat) : State :=
  { s with
    hbmDirty := s.hbmDirty.filter (· != g)
    hbmNew := s.hbmNew.filter (· != g)
    hbmHost := s.hbmHost.clear (g * 64) 64 }

/-- What the host has written to a granule through BAR2 becomes what its home holds (10 R260). -/
def takeHostBytes (s : State) (g : Nat) : State :=
  settleHbm { s with mem := s.mem.setBytes (g * 64) (s.hbmHost.bytes (g * 64) 64) } g

/-- Before the home serves a granule that the host has written through BAR2, whether L2 still holds its own copy is
not architected (R260): a free choice. -/
def serve (s : State) (g : Nat) : State :=
  if s.hbmNew.contains g then
    let (b, s) := s.free 1
    if b = 1 then takeHostBytes s g else s
  else s

/-! ### Walks (17 R359 to R364) -/

/-- A leaf as a walk finds it. -/
structure Leaf where
  entry : Nat
  size : Nat
  deriving DecidableEq, Repr

/-- Whether a table may stand at an address (17 R361). -/
def tableOk (s : State) (a : Nat) : Bool := decide (a < s.saveBase)

/-- The size of the page that a leaf of a level maps; g64 is that of the level-1 entry (17 R359). -/
def leafSize (level : Nat) (g64 : Bool) : Nat :=
  if level = 2 then 2 ^ 30 else if level = 1 then 2 ^ 21 else if g64 then 2 ^ 16 else 2 ^ 12

/-- The index into a table of a level (17 R359). -/
def walkIndex (level : Nat) (g64 : Bool) (va : Nat) : Nat :=
  match level with
  | 4 => bits va 48 8
  | 3 => bits va 39 9
  | 2 => bits va 30 9
  | 1 => bits va 21 9
  | _ => if g64 then bits va 16 5 else bits va 12 9

/-- Whether an entry keeps to R360 and R361 at its level. -/
def entryOk (level : Nat) (g64 : Bool) (e : Nat) : Bool :=
  testBit e 0 && bits e 52 12 == 0 && bits e 10 2 == 0 && !testBit e 2 &&
    (if testBit e 1 then
      decide (level ≤ 2) && !testBit e 3 && decide (bits e 12 40 * 2 ^ 12 % leafSize level g64 = 0)
    else
      level != 0 && bits e 4 6 == 0 && (!testBit e 3 || level == 1))

/-- The walk of a virtual address from a table, level by level downward (17 R359, R361); none is PAGE_FAULT. -/
def walkFrom (s : State) (va : Nat) : Nat → Bool → Nat → Option Leaf
  | level, g64, table =>
    if !tableOk s table then none
    else
      let e := s.mem.le (table + 8 * walkIndex level g64 va) 8
      if !entryOk level g64 e then none
      else if testBit e 1 then some { entry := e, size := leafSize level g64 }
      else match level with
        | 0 => none
        | l + 1 => walkFrom s va l (testBit e 3) (bits e 12 40 * 2 ^ 12)

/-- The walk from the root that PTBASE names (17 R359, 03 R83). -/
def walkRoot (s : State) (root va : Nat) : Option Leaf := walkFrom s va 4 false (bits root 12 40 * 2 ^ 12)

/-- What an access needs of its leaf (17 R362). A COMBINE reads and writes elements whose pages have RWN = 1 (19 R408), so it
needs R and W alone (DEDUCED, log 98). The writing of an image's data
sections, which is the runtime's work (15 R340), needs neither (DESIGN CHOICE, log 48). -/
inductive Need where
  | fetch
  | read
  | write
  | amo
  | red
  | combine
  | fill
  deriving DecidableEq, Repr

/-- Who translates: its mode, ASID and root, the TLBs that it looks in and the walk cache that its walks use (17 R362,
R363). -/
structure Xl where
  priv : Bool
  asid : Nat
  root : Nat
  tlbs : List (Nat × Nat)
  cache : Nat := 0
  deriving DecidableEq, Repr

/-- The TLBs of a context, its core's and its cluster's, and its cluster's walk cache. -/
def Ctx.xl (c : Ctx) : Xl :=
  { priv := c.mode == .privileged, asid := c.asid.toNat % 2 ^ 16, root := c.ptbase.toNat,
    tlbs := [(0, c.pc8 * 12 + c.pcore), (1, c.pc8)], cache := c.pc8 }

/-- The number of the engine that runs a command, among the engines of the package. -/
def Cmd.engineNo (k : Cmd) : Nat :=
  k.unit + (match k.body with
    | .copy _ => 0
    | .gather _ => 100
    | .reshard _ => 200
    | .combine _ => 200)

/-- A command's translation: in the mode and address space of its issuer (17 R362), through its engine's TLB. R363 does
not say which walk cache an engine's walks use: they use one of their own (DESIGN CHOICE, log 93). -/
def Cmd.xl (k : Cmd) : Xl :=
  { priv := k.priv, asid := k.asid.toNat % 2 ^ 16, root := k.ptbase.toNat,
    tlbs := [(2, k.engineNo)], cache := 100 + k.engineNo }

/-- A permission of a leaf (17 R362); g is the mode and the access. -/
def leafPermits (priv : Bool) (n : Need) (e : Nat) : Bool :=
  (priv || testBit e 7) &&
    (match n with
      | .fetch => testBit e 6
      | .read => testBit e 4
      | .write => testBit e 5 && !testBit e 9
      | .amo => testBit e 4 && testBit e 5 && !testBit e 9
      | .red => testBit e 5
      | .combine => testBit e 4 && testBit e 5
      | .fill => true)

/-- The physical address that a leaf gives. -/
def leafPa (l : Leaf) (va : Nat) : Nat := bits l.entry 12 40 * 2 ^ 12 / l.size * l.size + va % l.size

/-- The leaf that a TLB entry holds. -/
def TlbEntry.asLeaf (e : TlbEntry) : Leaf := { entry := e.leaf, size := e.size }

/-- Whether a TLB entry translates an address for x (17 R363). -/
def TlbEntry.hits (e : TlbEntry) (x : Xl) (va : Nat) : Bool :=
  x.tlbs.contains (e.kind, e.place) && (e.asid.all fun a => a == x.asid) && va / e.size == e.page

/-- A list without its nth element that satisfies p. -/
def dropNth {α : Type} (p : α → Bool) : Nat → List α → List α
  | _, [] => []
  | n, x :: l =>
    if !p x then x :: dropNth p n l
    else match n with
      | 0 => l
      | n + 1 => x :: dropNth p n l

/-- Keeps the elements that satisfy p within a capacity: one of them goes where there are more, which one is free. -/
def boundBy {α : Type} (p : α → Bool) (cap : Nat) (l : List α) (s : State) : List α × State :=
  let n := (l.filter p).length
  if n ≤ cap then (l, s)
  else
    let (v, s) := s.free 32
    (dropNth p (v.toNat % n) l, s)

/-- The entries that a TLB holds (17 R363), by its kind: a core's, a cluster's, an engine's. -/
def tlbSize (kind : Nat) : Nat := if kind = 0 then 64 else if kind = 1 then 2048 else 128

/-- The entries that a successful walk fills, with those that it replaces removed, within what each TLB holds. -/
def fillTlb (s : State) (x : Xl) (va : Nat) (l : Leaf) : State :=
  let fresh := x.tlbs.map fun t =>
    ({ kind := t.1, place := t.2, asid := if testBit l.entry 8 then none else some x.asid, page := va / l.size,
       size := l.size, leaf := l.entry } : TlbEntry)
  let s := x.tlbs.foldl (fun s t =>
    let (l, s) := boundBy (fun e : TlbEntry => e.kind == t.1 && e.place == t.2) (tlbSize t.1 - 1) s.tlb s
    { s with tlb := l }) { s with tlb := s.tlb.filter fun e => !(e.hits x va) }
  { s with tlb := fresh ++ s.tlb }

/-- The low end of the address bits that select an entry of a level (17 R359). -/
def levelBase (level : Nat) : Nat := 2 ^ (12 + 9 * level)

/-- The non-leaf entry of a level through which a walk goes: the table's, or one that the walk cache still holds after the
table has changed (17 R363; which one is free, DESIGN CHOICE, log 8). -/
def walkEntry (s : State) (x : Xl) (level va e : Nat) : Nat × State :=
  match s.walkCache.find? fun k => k.cache == x.cache && k.asid == x.asid && k.level == level &&
      k.key == va / levelBase level && k.entry != e with
  | none => (e, s)
  | some k =>
    let (b, s) := s.free 1
    (if b = 1 then k.entry else e, s)

/-- A walk as the device makes it (17 R363, R364): each entry is served by its home, or a non-leaf one by the walk cache.
It answers the leaf, and the non-leaf entries on its way. -/
def walkVia (x : Xl) (va : Nat) : Nat → Bool → Nat → State → Option (Leaf × List WalkCopy) × State
  | level, g64, table, s =>
    if !tableOk s table then (none, s)
    else
      let a := table + 8 * walkIndex level g64 va
      let s := serve s (granule a)
      let (e, s) := walkEntry s x level va (s.mem.le a 8)
      if !entryOk level g64 e then (none, s)
      else if testBit e 1 then (some ({ entry := e, size := leafSize level g64 }, []), s)
      else match level with
        | 0 => (none, s)
        | l + 1 =>
          let (r, s) := walkVia x va l (testBit e 3) (bits e 12 40 * 2 ^ 12) s
          (r.map fun p => (p.1, { cache := x.cache, asid := x.asid, level := l + 1,
                                  key := va / levelBase (l + 1), entry := e } :: p.2), s)

/-- The non-leaf entries that a walk cache keeps (17 R363). -/
def walkCacheSize : Nat := 256

/-- The non-leaf entries of a successful walk put into the walk cache, within what it holds. -/
def fillWalkCache (s : State) (x : Xl) (l : List WalkCopy) : State :=
  l.foldl (fun s k =>
    let rest := s.walkCache.filter fun y =>
      !(y.cache == k.cache && y.asid == k.asid && y.level == k.level && y.key == k.key)
    let (l, s) := boundBy (fun y : WalkCopy => y.cache == x.cache) (walkCacheSize - 1) rest s
    { s with walkCache := k :: l }) s

/-- The whole of a walk from the root: its leaf, with the TLBs and the walk cache filled; none is PAGE_FAULT, and a walk
that faults fills nothing (17 R363). -/
def walkNow (s : State) (x : Xl) (va : Nat) : Option Leaf × State :=
  match walkVia x va 4 false (bits x.root 12 40 * 2 ^ 12) s with
  | (none, s) => (none, s)
  | (some (l, path), s) => (some l, fillWalkCache (fillTlb s x va l) x path)

/-- The leaf through which an access is translated: one that a TLB holds, or the walk's; where the table has changed under
an entry of a TLB, which one is free (17 R363, DESIGN CHOICE, log 8). none is PAGE_FAULT. -/
def lookup (s : State) (x : Xl) (va : Nat) : Option Leaf × State :=
  let w := walkRoot s x.root va
  match s.tlb.find? fun e => e.hits x va && some e.asLeaf != w with
  | none => if s.tlb.any fun e => e.hits x va then (w, s) else walkNow s x va
  | some e =>
    let (b, s) := s.free 1
    if b = 1 then (some e.asLeaf, s) else walkNow s x va

/-- A translated byte: its physical address, whether its page lies in a reduction window (RWN), the virtual address that it
was translated from, and the page that translated it. -/
structure Pa where
  pa : Nat
  rwn : Bool
  va : Nat := 0
  page : Option Page := none
  deriving DecidableEq, Repr

/-- The page of a virtual address that a leaf translates for x. -/
def Xl.page (x : Xl) (l : Leaf) (va : Nat) : Page :=
  { lo := va / l.size * l.size, size := l.size, asid := if testBit l.entry 8 then none else some x.asid }

/-- The translation of one byte, with the trap that it takes (08 R207, 17 R361, R362, 20 R420). -/
def xlate (s : State) (x : Xl) (n : Need) (va : Nat) : Except Cause Pa × State :=
  if 2 ^ 56 ≤ va then (.error .accessFault, s)
  else match lookup s x va with
    | (none, s) => (.error .pageFault, s)
    | (some l, s) =>
      let base := leafPa l (va / l.size * l.size)
      let pa := leafPa l va
      if !leafPermits x.priv n l.entry then (.error .accessFault, s)
      else if paKind s pa = .reserved then (.error .accessFault, s)
      else if paKind s pa = .hbm ∧ s.saveBase < paNorm s base + l.size then (.error .accessFault, s)
      else (.ok { pa := paNorm s pa, rwn := testBit l.entry 9, va := va, page := some (x.page l va) }, s)

/-- The translation of the bytes of a list of virtual addresses, in order; within a 4 KiB page the translation of
the page's first byte serves all of them. The first failure is reported with its address. -/
def xlateAll (x : Xl) (n : Need) : List Nat → Option (Nat × Pa) → State → Except TrapInfo (List Pa) × State
  | [], _, s => (.ok [], s)
  | va :: l, last, s =>
    match last with
    | some (v0, p0) =>
      if v0 / 4096 = va / 4096 then
        match xlateAll x n l last s with
        | (.ok r, s) => (.ok ({ p0 with pa := p0.pa / 4096 * 4096 + va % 4096, va := va } :: r), s)
        | (.error t, s) => (.error t, s)
      else match xlate s x n va with
        | (.error c, s) => (.error { cause := c, faddr := va % 2 ^ 56 }, s)
        | (.ok p, s) =>
          match xlateAll x n l (some (va, p)) s with
          | (.ok r, s) => (.ok (p :: r), s)
          | (.error t, s) => (.error t, s)
    | none => match xlate s x n va with
        | (.error c, s) => (.error { cause := c, faddr := va % 2 ^ 56 }, s)
        | (.ok p, s) =>
          match xlateAll x n l (some (va, p)) s with
          | (.ok r, s) => (.ok (p :: r), s)
          | (.error t, s) => (.error t, s)

/-- The scratchpad addresses of bytes at natural offsets of a cluster (08 R207), or SPAD_RANGE with the first byte
that lies outside the scratchpad or in a bank that the gang does not hold. -/
def spadAll (cl : Nat) (held : BitVec 48) : List Nat → Except TrapInfo (List Nat)
  | [] => .ok []
  | o :: l =>
    if 0xC00000 ≤ o ∨ !held.getLsbD (o / 262144) then
      .error { cause := .spadRange, faddr := o % 2 ^ 56 }
    else match spadAll cl held l with
      | .ok r => .ok ((cl * 0xC00000 + o) :: r)
      | .error t => .error t

/-- The banks that a gang holds in a logical cluster. -/
def gangBanks (s : State) (g lc : Nat) : BitVec 48 :=
  match s.gang? g with
  | none => 0
  | some x => match x.clusters.find? fun k => k.lc == lc with
    | some k => k.banks
    | none => 0

/-- The banks that scratchpad addresses touch. -/
def banksOf (cells : List Nat) : BitVec 48 :=
  cells.foldl (fun m a => m ||| BitVec.ofNat 48 (2 ^ (a % 0xC00000 / 262144))) 0

end Sys2Proof.Machine
end

