-- ==== Sys2Proof/Machine/Access.lean ====
section
/-! DEFINITION. Accesses in flight: how a slot issues one (08 R207 to R216), what orders them (10 R261 to R269), L1
copies (10 R257, R268), and the write of one granule at its home. -/
namespace Sys2Proof.Machine

/-! ### Vector clocks (10 R269) -/

/-- Whether a ≥ b, modularly, in every entry. -/
def vcGe : List (BitVec 16) → List (BitVec 16) → Bool
  | a :: l, b :: m => decide ((a - b).toNat < 2 ^ 15) && vcGe l m
  | _, _ => true

/-- The greater entry of two clocks, modularly, entry by entry. -/
def vcMax : List (BitVec 16) → List (BitVec 16) → List (BitVec 16)
  | a :: l, b :: m => (if (a - b).toNat < 2 ^ 15 then a else b) :: vcMax l m
  | l, [] => l
  | [], m => m

/-- The element of a list at a place replaced through f. -/
def updateAt {α : Type} (n : Nat) (f : α → α) (l : List α) : List α := l.mapIdx fun i x => if i = n then f x else x

/-- The vector clock of a die. -/
def Clocks.vcOf (k : Clocks) (d : Nat) : List (BitVec 16) :=
  match k.dies[d]? with
  | some c => c.vc
  | none => []

/-- Raises the vector clock of a die by a stamp that one of its acquires reads (R269, item 5). -/
def raiseVc (s : State) (d : Nat) (v : List (BitVec 16)) : State :=
  { s with clocks := { s.clocks with dies := updateAt d (fun c => { c with vc := vcMax c.vc v }) s.clocks.dies } }

/-- The place of the link to host memory and to other packages, beside the slices (DEDUCED, log 92). -/
def linkPlace : Nat := 32

/-- The place at which a global address is ordered (R269): its home slice, or the link. -/
def orderPlace (s : State) (pa : Nat) : Nat :=
  match paKind s pa with
  | .hbm => homeSlice s pa
  | _ => linkPlace

/-- The places that an END marker of a release reaches: every live furrow of every die, and the link. -/
def liveSlices (s : State) : List Nat :=
  ((List.range s.dies).flatMap fun d =>
    ((List.range s.fpln).filter fun f => s.fleet.live.getLsbD f).map fun f => d * 8 + f) ++ [linkPlace]

/-- A mod-scope release of a context (R269, item 2): an END marker to every slice, and the next epoch of its die. It comes
behind the context's accesses below number num, where one is given, else behind all of them. -/
def modRelease (s : State) (c : Ctx) (num : Option Nat := none) : State :=
  let (i, s) := s.fresh
  let d := c.pdie
  { s with clocks := { s.clocks with
      markers := s.clocks.markers ++ (liveSlices s).map fun x =>
        { id := i, die := d, slice := x, who := c.id, num := num.getD i, stamp := vcMax c.acqStamp c.readStamp }
      dies := updateAt d (fun c => { ep := c.ep + 1, vc := updateAt d (fun e => e + 1) c.vc }) s.clocks.dies } }

/-- The stamp that an access of a context takes at its issue: the die's clock (R269, item 1), and what its acquires of a
narrower scope have read (R266). -/
def stampAt (s : State) (c : Ctx) : List (BitVec 16) := vcMax (s.clocks.vcOf c.pdie) c.acqStamp

/-- DONE of a slice. -/
def Clocks.doneOf (k : Clocks) (slice : Nat) : List (BitVec 16) :=
  match k.done[slice]? with
  | some v => v
  | none => []

/-- Whether a stamp's epochs have reached the places of addresses (R269, item 4). -/
def clockReached (s : State) (stamp : List (BitVec 16)) (cells : List Nat) : Bool :=
  cells.all fun x => vcGe (s.clocks.doneOf (orderPlace s x)) stamp

/-- Whether a stamp's epochs have reached every place. -/
def clockReachedAll (s : State) (stamp : List (BitVec 16)) : Bool :=
  (liveSlices s).all fun x => vcGe (s.clocks.doneOf x) stamp

/-- Whether a release of a die is held because its epoch runs too far ahead of a slice (R269, item 6). -/
def epochHeld (s : State) (d : Nat) : Bool :=
  match s.clocks.dies[d]? with
  | none => false
  | some c => (liveSlices s).any fun x =>
      decide (2 ^ 14 ≤ (c.ep - (s.clocks.doneOf x)[d]?.getD c.ep).toNat)

/-! ### L1 copies (10 R257, R268) -/

/-- Whether the L1s of a context's cluster are fused. -/
def l1Fused (s : State) (c : Ctx) : Bool := (s.gang? c.id.gang).any fun g => g.fuse
/-- The L1 that a context uses: its cluster's when fused, else its core's. -/
def l1Place (s : State) (c : Ctx) : Bool × Nat :=
  if l1Fused s c then (true, c.lc) else (false, c.lc * 12 + c.lcore)

/-- Whether a copy stands in an L1. -/
def L1Copy.at (x : L1Copy) (p : Bool × Nat) : Bool := x.fused == p.1 && x.place == p.2

/-- Drops the copies that an acquire of a scope drops (R268). -/
def dropL1 (s : State) (c : Ctx) (scope : Nat) : State :=
  let p := l1Place s c
  if scope = 0 ∨ (scope = 1 ∧ p.1) then s else { s with l1 := s.l1.filter fun x => !x.at p }

/-- An acquire of a context at a scope, of a value with a stamp (R268, R269). One of scope cl or die orders its own context
alone behind what the value carries (R266). -/
def acquire (s : State) (c : Ctx) (scope : Nat) (stamp : List (BitVec 16)) : State :=
  let s := dropL1 s c scope
  if 3 ≤ scope then raiseVc s c.pdie stamp
  else if 1 ≤ scope then s.updCtx c.id fun c => { c with acqStamp := vcMax c.acqStamp stamp }
  else s

/-- A byte list with the bytes at the given addresses replaced; base is the address of its first byte. -/
def patch (base : Nat) (l : List Byte) (w : List (Nat × Byte)) : List Byte :=
  l.mapIdx fun i b => match w.find? fun p => p.1 == base + i with
    | some p => p.2
    | none => b

/-- The copies of an L1 take a store's bytes (R257). -/
def patchL1 (s : State) (p : Bool × Nat) (stamp : List (BitVec 16)) (w : List (Nat × Byte)) : State :=
  { s with l1 := s.l1.map fun x =>
      if x.at p ∧ (w.any fun y => granule y.1 == x.granule) then
        { x with data := patch (x.granule * 64) x.data w, stamp := vcMax x.stamp stamp }
      else x }

/-- The granules that an L1 holds (10 R255): 512 KiB, or 6 MiB fused. -/
def l1Size (p : Bool × Nat) : Nat := if p.1 then 98304 else 8192

/-- An L1 takes a copy of a granule, in place of one that it holds, or else within what it holds (10 R255). -/
def fillL1 (s : State) (p : Bool × Nat) (g : Nat) (d : List Byte) (stamp : List (BitVec 16)) : State :=
  let new : L1Copy := { fused := p.1, place := p.2, granule := g, data := d, stamp := stamp }
  let rest := s.l1.filter fun x => !(x.at p && x.granule == g)
  let (l, s) := boundBy (fun x : L1Copy => x.at p) (l1Size p - 1) rest s
  { s with l1 := new :: l }

/-! ### Writes at the home (10 R255, R260) -/

/-- The granules that the L2 of a die holds: 64 MiB (10 R255). -/
def l2Size : Nat := 2 ^ 20

/-- L2 of the die of a granule holds it dirty. What L2 has no room for it writes back, and which granule that is is
free (10 R255; DESIGN CHOICE, log 8). -/
def holdDirty (s : State) (g : Nat) : State :=
  let mine := s.hbmDirty.filter fun x => homeDie s (x * 64) == homeDie s (g * 64)
  let s : State := if mine.length < l2Size then s
    else
      let (v, s) := s.free 32
      settleHbm s (mine.getD (v.toNat % mine.length) g)
  { s with hbmDirty := g :: s.hbmDirty }

/-- Whether an armed command of the counter word at an address may fire (08 R231). -/
def armedFires (s : State) (a : Armed) : Bool :=
  decide ((BitVec.ofNat 32 (s.mem.le a.counter 4) - a.threshold).toNat < 2 ^ 31)

/-- The stamp of the last writes of a granule. -/
def stampOf (s : State) (g : Nat) : List (BitVec 16) :=
  ((s.clocks.stamps.find? fun p => p.1 == g).map fun p => p.2).getD []

/-- A command that carries a stamp also (10 R264, R269). -/
def Cmd.stamped (k : Cmd) (v : List (BitVec 16)) : Cmd := { k with stamp := vcMax k.stamp v }

/-- ARMED_COMMAND_FIRE (08 R231): after a change of the counters in a granule, each armed command whose condition
holds is queued with its engine. Its firing is an acquire of what the counter's last writer released (10 R264, R271). -/
def fireArmed (s : State) (g : Nat) : State :=
  let hit := fun a : Armed => granule a.counter == g && armedFires s a
  { s with
    armed := s.armed.filter fun a => !hit a
    cmds := s.cmds ++ (s.armed.filter hit).map fun a => a.cmd.stamped (stampOf s g) }

/-- Whether a word of memory is tainted, or a granule poisoned, is kept by its number; the scratchpad's are numbered apart. -/
def taintKey (spad : Bool) (w : Nat) : Nat := 2 * w + spad.toNat

/-- A write of n bytes of a granule: one of the whole granule leaves no poison there (17 R382; DESIGN CHOICE, log 61). -/
def clearPoison (s : State) (spad : Bool) (g n : Nat) : State :=
  if s.poison = [] ∨ n ≠ 64 then s else { s with poison := s.poison.filter (· != taintKey spad g) }

/-- Writes bytes of one granule of global memory at its home, with the stamp that the write carries. L2 then holds
the granule dirty, and HBM keeps what it held (R260). -/
def writeHome (s : State) (g : Nat) (stamp : List (BitVec 16)) (w : List (Nat × Byte)) : State :=
  let s := serve s g
  let s : State := if paKind s (g * 64) = .hbm ∧ !s.hbmDirty.contains g ∧ !s.hbmNew.contains g then
      holdDirty { s with hbmHost := s.hbmHost.setBytes (g * 64) (granuleBytes s g) } g
    else if s.hbmNew.contains g ∧ !s.hbmDirty.contains g then holdDirty s g
    else s
  let s : State := { s with
    mem := s.mem.setAll w
    clocks := { s.clocks with
      stamps := (g, vcMax (((s.clocks.stamps.find? fun p => p.1 == g).map fun p => p.2).getD []) stamp) ::
        s.clocks.stamps.filter fun p => p.1 != g } }
  fireArmed (clearPoison s false g w.length) g

/-- Writes bytes at global addresses, granule by granule. -/
def writeGlobal (s : State) (stamp : List (BitVec 16)) (w : List (Nat × Byte)) : State :=
  (w.map fun p => granule p.1).dedup.foldl
    (fun s g => writeHome s g stamp (w.filter fun p => granule p.1 == g)) s

/-! ### Order among the accesses of one context (10 R261 to R268, 08 R213) -/

/-- The granules that cells lie in. -/
def granulesOf (cells : List Nat) : List Nat := (cells.map granule).dedup

/-- Whether an access writes. -/
def AccKind.writes : AccKind → Bool
  | .load => false
  | _ => true

/-- Whether an access is an atomic. -/
def AccKind.isAtom : AccKind → Bool
  | .atom _ => true
  | _ => false

/-- Whether an access has been performed. -/
def Access.performed (a : Access) : Bool := a.todo.isEmpty

/-- Whether two lists of addresses of one space meet. -/
def meets (spadA spadB : Bool) (a b : List Nat) : Bool := spadA == spadB && a.any fun x => b.contains x

/-- Whether a scope field names a scope wider than ctx. -/
def wide (f : Option (Fin 8)) : Bool := f.any fun x => decide (1 ≤ x.val)

/-- Whether a release of the scope waits at the port (R268): cl, die and sys. -/
def portRelease (f : Option (Fin 8)) : Bool := f.any fun x => x.val == 1 || x.val == 2 || x.val == 4

/-- Whether access a, of the same context and still in flight, holds back access b (R261, R264 to R268, 08 R213). -/
def holdsBack (s : State) (a b : Access) : Bool :=
  if a.bundle = b.bundle then
    !a.performed && meets a.spad b.spad a.cells b.cells &&
      (if !a.kind.writes then b.kind.writes && (!b.kind.isAtom || a.detl ≠ 0)
       else a.detl ≠ 0 && b.kind.isAtom && (!a.kind.isAtom || decide (a.slot < b.slot)))
  else if a.bundle < b.bundle then
    decide (a.fenceNo < b.fenceNo) ||
    (portRelease b.rel && a.kind.writes) ||
    (!a.performed &&
      (meets a.spad b.spad a.cells b.cells || (a.spad && b.spad) || wide a.acq || portRelease b.rel ||
        (!a.spad && !b.spad && a.cls == b.cls &&
          a.cells.any fun x => b.cells.any fun y => furrowOf s x == furrowOf s y)))
  else false

/-- The addresses that a TLD or TST in flight moves, and whether they are the scratchpad's. -/
def TileFlight.cells (t : TileFlight) : List Nat :=
  match t.op with
  | .load _ rows _ | .store _ rows _ => rows.flatMap fun r => r.2.2
  | _ => []

/-- Whether a tile instruction moves scratchpad rows. -/
def TileFlight.spad (t : TileFlight) : Bool :=
  match t.op with
  | .load _ _ sp | .store _ _ sp => sp
  | _ => false

/-- Whether a tile instruction is a TST. -/
def TileFlight.stores (t : TileFlight) : Bool :=
  match t.op with
  | .store _ _ _ => true
  | _ => false

/-- Whether the rows of a TLD or TST hold back an access of the same context (R261, R264, R267). -/
def rowsHoldBack (t : TileFlight) (b : Access) : Bool :=
  decide (t.bundle < b.bundle) && !t.cells.isEmpty &&
    (decide (t.fenceNo < b.fenceNo) || meets t.spad b.spad t.cells b.cells || (t.spad && b.spad) || portRelease b.rel)

/-- Whether an access holds back the rows of a TLD or TST of the same context. -/
def heldBackRows (a : Access) (t : TileFlight) : Bool :=
  decide (a.bundle < t.bundle) &&
    (decide (a.fenceNo < t.fenceNo) ||
      (!a.performed && (meets a.spad t.spad a.cells t.cells || (a.spad && t.spad) || wide a.acq)))

/-- What the loads before a fence have read, for an access behind it while the fence has not taken effect (R265, R269). -/
def fenceStamp (s : State) (w : CtxId) (fenceNo : Nat) : List (BitVec 16) :=
  match s.anyCtx? w with
  | some c => if c.fenceSeen < fenceNo ∧ 1 ≤ c.fenceScope then c.readStamp else []
  | none => []

/-- The stamp that holds an access at its slice (R269). -/
def stampNow (s : State) (b : Access) : List (BitVec 16) := vcMax b.stamp (fenceStamp s b.who b.fenceNo)

/-! ### Stores that an L1 shows before their home has performed them (R257) -/

/-- Whether a store in flight is one that an L1 shows and its home has not performed. -/
def Access.shownAt (f : Access) (p : Bool × Nat) : Bool :=
  !f.performed && f.l1.any fun x => x.2 == p

/-- Whether stores of other contexts that the L1 of a context shows are still to be performed: its releases and the accesses
behind its fences wait for them, since it may have read them (R266, item 2). -/
def othersShown (s : State) (w : CtxId) : Bool :=
  (s.ctx? w).any fun c => s.flights.any fun f => f.who != w && f.shownAt (l1Place s c)

/-- Whether an access waits for a store of another context that its L1 shows and that it overlaps: such stores are
performed in the order in which the L1 took them, and a read or write at the home comes behind them (R263). -/
def behindShown (s : State) (b : Access) : Bool :=
  !b.spad && (b.kind.writes || b.acq.isSome) &&
    ((s.ctx? b.who).any fun c => s.flights.any fun f =>
      f.id != b.id && f.who != b.who && f.shownAt (l1Place s c) && meets f.spad b.spad f.cells b.cells &&
        (match f.l1, b.l1 with
          | some n, some m => decide (n.1 < m.1)
          | _, _ => true))

/-- Whether what precedes an access in its own context has been performed (R261 to R268, 08 R213). -/
def ownClear (s : State) (b : Access) : Bool :=
  (s.flights.all fun a => a.id == b.id || a.who != b.who || !holdsBack s a b) &&
  (s.tileOps.all fun t => t.who != b.who || !rowsHoldBack t b) &&
  (b.l1.isSome || !((portRelease b.rel || ((s.ctx? b.who).any fun c => decide (c.fenceSeen < b.fenceNo))) &&
    othersShown s b.who))

/-- The granules in which an access is still to be performed and whose furrow has not been declared dead (19 R399). -/
def Access.openTodo (s : State) (b : Access) : List Nat :=
  b.todo.filter fun g => b.spad || !s.fleet.dead.contains (furrowOf s (g * 64))

/-- Whether the ports send what is outstanding: not between the end of a drain and RESUME (19 R400, R403). -/
def portsRun (s : State) : Bool := s.fleet.step == .idle || s.fleet.step == .stopping

/-- Whether a request waits for one that a quiesce has retained (19 R403): a retained one for the earlier ones of its context,
any other for those to its granules. -/
def behindReplay (s : State) (w : CtxId) (replay : Bool) (id : Nat) (gs : List Nat) : Bool :=
  let first (x : CtxId) (i : Nat) (l : List Nat) : Bool :=
    if replay then x == w && decide (i < id) else l.any gs.contains
  (s.flights.any fun f => f.replay && !f.performed && f.l1.isNone && f.id != id && first f.who f.id f.todo) ||
    s.tileOps.any fun t => t.replay && t.id != id && first t.who t.id (t.cells.map granule)

/-- Whether an access may be performed at its home now: what precedes it has been, its vector clock allows it (R269),
and a furrow still carries it (19 R399, R400); a request lost on a dead furrow is settled at resume (R403). -/
def mayPerform (s : State) (b : Access) : Bool :=
  !b.performed && !b.relHeld && ownClear s b && !behindShown s b &&
  (b.spad || clockReached s (stampNow s b) b.cells) &&
  (b.spad || (!b.lost && portsRun s && !(b.openTodo s).isEmpty && !behindReplay s b.who b.replay b.id b.todo))

/-! ### Issue -/

/-- The range of n byte addresses from a 64-bit address, modulo 2^64. -/
def byteRange (a n : Nat) : List Nat := (List.range n).map fun i => (a + i) % 2 ^ 64

/-- The bytes of an access, translated or found in the scratchpad (08 R207). -/
def resolve (s : State) (spad : Bool) (n : Need) (vas : List Nat) : Except TrapInfo (List Pa) × State :=
  if spad then
    match spadAll s.src.lc (gangBanks s s.src.id.gang s.src.lc) vas with
    | .error t => (.error t, s)
    | .ok l => (.ok (l.map fun a => { pa := a, rwn := false }), s)
  else xlateAll s.src.xl n vas none s

/-- Whether a wait for banks still stands (13 R299): its context is about to issue that bundle. -/
def BankWait.stands (s : State) (w : BankWait) : Bool :=
  (s.ctx? w.who).any fun c => c.pc == w.pc && c.status == .ready && clusterIn s c.lc

/-- Whether another bundle that waits for one of the banks has failed to get it before the bundle in execution first did
(13 R299). -/
def waitsBefore (s : State) (cl : Nat) (b : BitVec 48) : Bool :=
  (s.bankWaits.takeWhile fun w => !(w.who == s.src.id && w.pc == s.src.pc)).any fun w =>
    w.who != s.src.id && w.cl == cl && w.banks &&& b != 0 && w.stands s

/-- Whether a command that an earlier bundle issued or armed holds banks of a cluster. -/
def cmdHolds (s : State) (cl : Nat) (b : BitVec 48) (k : Cmd) : Bool :=
  k.cl == cl && (k.held ||| k.banks) &&& b != 0 && !ownBundle s k.who k.bundle

/-- The banks that the destination rows of an armed close touch (10 R259). -/
def closeBanks (k : Chain) (a : CloseArm) (off : Nat) : BitVec 48 :=
  banksOf ((List.range (k.m * (ceilDiv (ceilDiv (fmtWidth a.ofmt * k.n) 8) 4 * 4))).map fun i => off + i)

/-- Whether the banks of scratchpad addresses are held by another holder (10 R259), a command armed by ARM among them
(DEDUCED, log 94), or kept for a bundle that has waited longer (13 R299). -/
def banksBusy (s : State) (cl : Nat) (b : BitVec 48) : Bool :=
  s.cmds.any (cmdHolds s cl b) || (s.armed.any fun a => cmdHolds s cl b a.cmd) ||
  (s.tileOps.any fun t => t.banks &&& b != 0 && (t.cells.head?.map fun a => a / 0xC00000) == some cl &&
    !ownBundle s t.who t.bundle) ||
  (s.flights.any fun f => f.spad && !f.performed && f.who != s.src.id &&
    banksOf (f.cells.filter fun a => a / 0xC00000 == cl) &&& b != 0) ||
  (s.gangs.any fun g => g.chains.toList.any fun k => match k.close with
    | some a => match a.dst with
      | .spad c off => c == cl && closeBanks k a off &&& b != 0 && !ownBundle s { gang := g.id, gix := a.gix } a.bundle
      | .tile _ => false
    | none => false) ||
  waitsBefore s cl b

/-- Whether the port holds new requests: a quiesce is under way, or the furrow has been declared dead (19 R399, R400,
R406). -/
def portHeld (s : State) (cells : List Nat) : Bool :=
  (s.fleet.step != .idle) || cells.any fun a => s.fleet.dead.contains (furrowOf s a)

/-- The home of an address is another package. -/
def isPeer (s : State) (pa : Nat) : Bool :=
  match paKind s pa with
  | .peer _ => true
  | _ => false

/-- The element of two slots of one bundle that store overlapping bytes: for each byte one of the two writes (08
R213). At DETL FREE which one is free; above it the higher-numbered slot's. -/
def splitBytes (a : Access) : List Nat → Access → State → Access × State
  | [], b, s => (b, s)
  | x :: l, b, s =>
    if a.detl ≠ 0 then
      if a.slot < b.slot then
        splitBytes a l b { s with flights := updateFirst (fun f => f.id == a.id) (fun f => { f with skip := x :: f.skip }) s.flights }
      else splitBytes a l { b with skip := x :: b.skip } s
    else
      let (v, s) := s.free 1
      if v = 1 then
        splitBytes a l b { s with flights := updateFirst (fun f => f.id == a.id) (fun f => { f with skip := x :: f.skip }) s.flights }
      else splitBytes a l { b with skip := x :: b.skip } s

/-- Whether an access is a plain store. -/
def AccKind.isStore : AccKind → Bool
  | .store _ => true
  | _ => false

/-- Settles which slot of the bundle writes each byte that both store. -/
def shareBytes (s : State) (b : Access) : Access × State :=
  if b.kind.isStore then
    match s.flights.find? fun a => a.who == b.who && a.bundle == b.bundle && a.kind.isStore && a.spad == b.spad &&
        meets a.spad b.spad a.cells b.cells with
    | some a => splitBytes a (b.cells.filter fun x => a.cells.contains x && !a.skip.contains x) b s
    | none => (b, s)
  else (b, s)

/-- Puts an access of the context in focus in flight: its counter rises, it takes the next issuer sequence (08 R213)
and its stamp (10 R269); the first remote atomic of a context has tag 0 (08 R220; DESIGN CHOICE, log 107). A release of scope
mod sends its END markers first, or is held at the port while its die's epoch runs too far ahead (R269, items 2 and 6). One
of another scope, which waits at the port, carries what its context has read (R266). -/
def launch (s : State) (a : Access) : State :=
  let c := s.src
  let held := a.rel == some 3 && epochHeld s c.pdie
  let s := if a.rel = some 3 ∧ held = false then modRelease s c else s
  let (i, s) := s.fresh
  let (tag, s) : Option Nat × State :=
    match a.kind, a.cells.head? with
    | .atom _, some x =>
      if isPeer s x then (some (s.ctx.rtag % 2 ^ 16), s.withCtx fun c => { c with rtag := c.rtag + 1 })
      else (none, s)
    | _, _ => (none, s)
  let a := { a with
    id := i, who := c.id, bundle := c.bundles, slot := s.bun.slot, seq := s.ctx.seq, fenceNo := s.ctx.fenceNo,
    todo := granulesOf a.cells, data := List.replicate a.cells.length 0, tag := tag, die := c.pdie, detl := c.detl,
    relHeld := held, left := i,
    stamp := if a.spad then [] else if portRelease a.rel then vcMax (stampAt s c) c.readStamp else stampAt s c }
  let (a, s) := shareBytes s a
  let s := s.withCtx fun c =>
    let c := { c with seq := c.seq + 1 }
    match a.cls with
    | .l => { c with ocl := c.ocl + 1 }
    | _ => { c with ocs := c.ocs + 1 }
  { s with flights := s.flights ++ [a] }

/-- Whether a counter is at its limit (04 R119). -/
def countFull (s : State) (q : QClass) : Bool :=
  match q with
  | .l => decide (64 ≤ s.ctx.ocl)
  | .s => decide (64 ≤ s.ctx.ocs)
  | .t => decide (16 ≤ s.ctx.oct)

/-- The issue of one access by a slot: its address traps (08 R207), its stalls (04 R119, 10 R259, 19 R406), and its
launch. mk builds the access from the translated bytes. -/
def issue (s : State) (spad : Bool) (n : Need) (q : QClass) (vas : List Nat) (mk : List Pa → Except TrapInfo Access) :
    SlotEnd :=
  match resolve s spad n vas with
  | (.error t, _) => .trap t
  | (.ok l, s1) =>
    match mk l with
    | .error t => .trap t
    | .ok a =>
      let cells := l.map fun p => p.pa
      if countFull s q then .stall
      else if spad then (if banksBusy s s.src.lc (banksOf cells) then .waitBanks (banksOf cells) else .done (launch s1 a))
      else if portHeld s cells then .stall
      else .done (launch s1 a)

/-- An access with the fields that launch does not set. -/
def mkAccess (spad : Bool) (q : QClass) (va : Nat) (l : List Pa) (k : AccKind) (d : LoadDest := .none) : Access :=
  { id := 0, who := {}, cls := q, spad := spad, bundle := 0, slot := 0, seq := 0, fenceNo := 0, va := va,
    cells := l.map fun p => p.pa, kind := k, dest := d, vas := l.map fun p => p.va,
    pages := (l.filterMap Pa.page).dedup }

end Sys2Proof.Machine
end

