-- ==== Sys2Proof/Machine/Fetch.lean ====
section
/-! DEFINITION. Fetching a bundle and reading its form: headers, extension bytes, duplicates, class limits and double
writes (03 R86 to R91, R95). -/
namespace Sys2Proof.Machine

/-- One slot of a bundle: its number, word and header additions, its predicate, its instruction, none where the word is no
instruction (03 R95), and, of a duplicate, the field D of its original (R89). -/
structure Slot where
  no : Nat
  word : Nat
  ext : Ext := .none
  pred : PReg := 0
  neg : Bool := false
  ins : Option Instr := none
  dup : Option Nat := none

/-- Whether a word is a header (03 R86). -/
def isHeader (w : Nat) : Bool := w / 2 ^ 26 % 64 == 63

/-- What a header adds to a slot whose extension byte is e (03 R87). -/
def slotExt (kind e : Nat) : Ext :=
  match kind with
  | 0 => .regs (testBit e 7) (testBit e 6) (testBit e 5)
  | 1 => .imm e
  | _ => .none

/-- A slot, or none where the header's bits for it make the bundle illegal. -/
def readSlot (dec : Nat → Ext → Except DecodeError Instr) (kind : Option Nat) (e i w : Nat) : Option Slot :=
  let x := match kind with
    | some k => slotExt k e
    | none => .none
  let preds := kind == some 0
  let pred : PReg := if preds then Fin.ofNat 16 (e / 2) else 0
  let neg := preds && testBit e 0
  match dec w x with
  | .ok ins => some { no := i, word := w, ext := x, pred := pred, neg := neg, ins := some ins }
  | .error .illegalInstr => some { no := i, word := w, ext := x, pred := pred, neg := neg }
  | .error .illegalBundle => none

/-- The class that the opcode map gives a word of an assigned major and minor that is no instruction (03 R93). -/
def mapClass (w : Nat) : SlotClass :=
  let maj := w / 2 ^ 26 % 64
  let minor := w / 64 % 32
  let upTo (n : Nat) (k : SlotClass) : SlotClass := if minor < n then k else .none
  match maj with
  | 0x00 => if minor = 1 ∨ minor = 2 then .c else .none
  | 0x01 => upTo 0x18 .s
  | 0x02 => if w / 2 ^ 12 % 16 < 14 then .s else .none
  | 0x03 | 0x04 | 0x07 => .s
  | 0x05 => if minor < 6 ∨ minor = 8 then .s else .none
  | 0x06 => if w % 4 < 3 then .s else .none
  | 0x08 | 0x09 | 0x0B => .c
  | 0x0A => upTo 3 .c
  | 0x0C => upTo 6 .s
  | 0x0D | 0x2C | 0x2D | 0x30 | 0x31 | 0x34 => .m
  | 0x10 | 0x11 => upTo 0xE .f
  | 0x12 => if minor < 4 ∨ minor = 8 then .f else .none
  | 0x13 => upTo 2 .f
  | 0x14 => upTo 6 .f
  | 0x15 => upTo 4 .f
  | 0x18 => upTo 0x18 .v
  | 0x19 => upTo 0xE .v
  | 0x1A => upTo 5 .v
  | 0x1B => if minor < 6 ∨ (8 ≤ minor ∧ minor < 12) then .v else .none
  | 0x1C => upTo 8 .v
  | 0x1D => upTo 3 .v
  | 0x1E => if minor < 5 ∨ (8 ≤ minor ∧ minor < 11) then .v else .none
  | 0x20 => .x
  | 0x24 | 0x28 => upTo 6 .t
  | 0x25 | 0x27 => upTo 2 .t
  | 0x26 => .t
  | 0x2E | 0x32 => upTo 2 .m
  | 0x2F | 0x3A => upTo 3 .m
  | 0x35 => upTo 4 .m
  | 0x36 => upTo 5 .m
  | 0x38 => upTo 3 .e
  | 0x39 => upTo 2 .e
  | 0x3B => if minor < 2 then .c else upTo 3 .s
  | 0x3C => upTo 8 .c
  | _ => .none

/-- The class of a slot (03 R91). -/
def Slot.cls (x : Slot) : SlotClass :=
  match x.ins with
  | some i => slotClass i
  | none => mapClass x.word

/-- The most slots of a class that one bundle holds (03 R91). -/
def SlotClass.limit : SlotClass → Nat
  | .none | .s => 4
  | .f | .v | .m => 2
  | .x | .t | .e | .c => 1

/-- The registers that a slot counts as writing (03 R91): s0 and p0 never count. -/
def Slot.writes (x : Slot) : List Res :=
  match x.ins with
  | some i => (slotWrites i).filter fun r => r != .s 0 && r != .p 0
  | none => []

/-- Whether the class limits hold and no register is written twice (03 R91). -/
def limitsOk (l : List Slot) : Bool :=
  (l.all fun x => (x.cls != .c || x.no == 3) &&
    decide ((l.filter fun y => y.cls == x.cls).length ≤ x.cls.limit)) &&
  !hasDup (l.flatMap Slot.writes)

/-- Whether the slots keep to a kind-10 header (03 R87, R89): exts are the extension bytes of slots 1 to 3. -/
def dupsOk (h : Nat) (l : List Slot) : Bool :=
  let ext (i : Nat) : Nat := bits h (8 * (i - 1)) 8
  l.all fun x =>
    let e := ext x.no
    e % 32 == 0 &&
      (if e < 128 then e == 0
       else
        let o := e / 32 % 4
        o != 0 && o != x.no && decide (ext o < 128) &&
          (match l.find? fun y => y.no == o with
            | none => false
            | some y =>
              (x.cls == .s || x.cls == .f || x.cls == .v) && y.cls == x.cls &&
                setBits x.word 21 5 0 == setBits y.word 21 5 0 && bits x.word 21 5 != bits y.word 21 5))

/-- The slots with each duplicate told the field D of its original (03 R89). -/
def markDups (h : Nat) (l : List Slot) : List Slot :=
  l.map fun x =>
    let e := bits h (8 * (x.no - 1)) 8
    if e < 128 then x
    else { x with dup := (l.find? fun y => y.no == e / 32 % 4).map fun y => bits y.word 21 5 }

/-- Every slot of a list, or none where one makes the bundle illegal. -/
def allSlots : List (Option Slot) → Option (List Slot)
  | [] => some []
  | some x :: l => (allSlots l).map fun r => x :: r
  | none :: _ => none

/-- The slots of a bundle of four words, in ascending number, or none for ILLEGAL_BUNDLE (03 R86 to R91). -/
def parseBundle (dec : Nat → Ext → Except DecodeError Instr) (ws : List Nat) : Option (List Slot) :=
  let w (i : Nat) : Nat := ws.getD i 0
  let h := w 0
  if isHeader (w 1) ∨ isHeader (w 2) ∨ isHeader (w 3) then none
  else if isHeader h then
    let kind := bits h 24 2
    if kind = 3 then none
    else match allSlots ([1, 2, 3].map fun i => readSlot dec (some kind) (bits h (8 * (i - 1)) 8) i (w i)) with
      | none => none
      | some l => if (kind ≠ 2 ∨ dupsOk h l) ∧ limitsOk l then some (if kind = 2 then markDups h l else l) else none
  else match allSlots ([0, 1, 2, 3].map fun i => readSlot dec none 0 i (w i)) with
    | none => none
    | some l => if limitsOk l then some l else none

/-- The four words of a bundle's sixteen bytes (03 R86). -/
def bundleWords (d : List Byte) : List Nat := [leAt d 0 4, leAt d 4 4, leAt d 8 4, leAt d 12 4]

/-- Fetches the bundle at an address for a context (17 R362), with the trap of R114 where it cannot be fetched. -/
def fetchBundle (s : State) (c : Ctx) (pc : Word) : Except TrapInfo (List Nat) × State :=
  match xlate s c.xl .fetch pc.toNat with
  | (.error e, s) => (.error { cause := e, faddr := pc.toNat % 2 ^ 56 }, s)
  | (.ok p, s) =>
    let s := serve s (granule p.pa)
    (.ok (bundleWords (s.mem.bytes p.pa 16)), s)

end Sys2Proof.Machine
end

