-- ==== Sys2Proof/Machine/Perform.lean ====
section
/-! DEFINITION. What an access does where it is performed (10 R263, 08 R210 to R232), and its return or
acknowledgement (08 R208, R209). -/
namespace Sys2Proof.Machine

/-! ### Atomics (08 R215, R216) -/

/-- The bytes of an atomic type. -/
def AtomTy.bytes : AtomTy → Nat
  | .i32 | .n32 | .f32 => 4
  | .i64 | .n64 | .f64 => 8

/-- The format of a floating-point atomic. -/
def AtomTy.fmt : AtomTy → Fmt
  | .f64 => .f64
  | _ => .f32

/-- Whether a type compares as signed. -/
def AtomTy.signed : AtomTy → Bool
  | .i32 | .i64 => true
  | _ => false

/-- The new value of an atomic that finds x, with the flags it raises. -/
def Atom.apply (a : Atom) (x : Nat) : Nat × Flags :=
  let w := 8 * a.ty.bytes
  let v := a.val.toNat % 2 ^ w
  let less (p q : Nat) : Bool := if a.ty.signed then decide (toSigned w p < toSigned w q) else decide (p < q)
  match a.op with
  | .swap => (v, 0)
  | .cas => (if x = a.cmp.toNat % 2 ^ w then v else x, 0)
  | .add => ((x + v) % 2 ^ w, 0)
  | .and => (x &&& v, 0)
  | .or => (x ||| v, 0)
  | .xor => (x ^^^ v, 0)
  | .min => (if less v x then v else x, 0)
  | .max => (if less x v then v else x, 0)
  | .fadd => let r := fadd a.ty.fmt .rne x v; (r.bits, r.flags)
  | .fmin => let r := fminmax a.ty.fmt false x v; (r.bits, r.flags)
  | .fmax => let r := fminmax a.ty.fmt true x v; (r.bits, r.flags)

/-- Whether an atomic is a floating-point operation. -/
def AtomOp.isFp : AtomOp → Bool
  | .fadd | .fmin | .fmax => true
  | _ => false

/-- The stamps of what a context has in flight raised, for the accesses that an acquire comes before (10 R264, R269): the
accesses and tile transfers that later picks out, which leave the port only now (item 5), and the commands of later
bundles. -/
def raiseStamps (s : State) (w : CtxId) (later : Nat → Nat → Bool) (v : List (BitVec 16)) : State :=
  let hit (x : CtxId) (bundle fence : Nat) : Bool := x == w && later bundle fence
  let (i, s) := s.fresh
  { s with
    flights := s.flights.map fun f =>
      if hit f.who f.bundle f.fenceNo ∧ !f.spad then { f with stamp := vcMax f.stamp v, left := i } else f
    tileOps := s.tileOps.map fun t =>
      if hit t.who t.bundle t.fenceNo then { t with stamp := vcMax t.stamp v, left := i } else t
    cmds := s.cmds.map fun k => if hit k.who k.bundle 0 then k.stamped v else k
    armed := s.armed.map fun a => if hit a.cmd.who a.cmd.bundle 0 then { a with cmd := a.cmd.stamped v } else a }

/-- What a context has read carries a stamp (10 R265, R269). -/
def noteRead (s : State) (w : CtxId) (v : List (BitVec 16)) : State :=
  s.updCtx w fun c => { c with readStamp := vcMax c.readStamp v }

/-- What an access of a context, from a bundle and with a number, has read carries a stamp: the releases behind it that are
in flight carry it too, a release of scope mod in its END markers, one that waits at the port itself, and an engine
instruction in its command (10 R264, R266, item 2). -/
def noteReadBy (s : State) (w : CtxId) (bundle id : Nat) (v : List (BitVec 16)) : State :=
  let (i, s) := (noteRead s w v).fresh
  { s with
    flights := s.flights.map fun f =>
      if f.who == w && decide (bundle < f.bundle) && portRelease f.rel then { f with stamp := vcMax f.stamp v, left := i } else f
    cmds := s.cmds.map fun k => if k.who == w && decide (bundle < k.bundle) then k.stamped v else k
    armed := s.armed.map fun a => if a.cmd.who == w && decide (bundle < a.cmd.bundle) then { a with cmd := a.cmd.stamped v } else a
    clocks := { s.clocks with
      markers := s.clocks.markers.map fun m =>
        if m.who == w && decide (id < m.num) then { m with stamp := vcMax m.stamp v } else m } }

/-- After a context has read or written a granule at its home, the copy in its L1 is what the home holds (10 R257, R263). -/
def refreshL1 (s : State) (w : CtxId) (g : Nat) : State :=
  match s.ctx? w with
  | none => s
  | some c =>
    let p := l1Place s c
    { s with l1 := s.l1.map fun x =>
        if x.at p ∧ x.granule = g then { x with data := granuleBytes s g, stamp := stampOf s g } else x }

/-- A FENCE takes effect at the port when the first access behind it is performed (10 R267, R268): the L1 copies
that an acquire of its scope drops go, and the die's clock, and what the context has in flight behind it, rise by what the
context has read. -/
def fenceEffect (s : State) (w : CtxId) (fenceNo : Nat) : State :=
  match s.ctx? w with
  | none => s
  | some c =>
    if c.fenceSeen < fenceNo then
      let v := fenceStamp s w fenceNo
      let s := (acquire s c c.fenceScope c.readStamp).updCtx w fun c => { c with fenceSeen := fenceNo, fenceScope := 0 }
      raiseStamps s w (fun _ n => decide (c.fenceSeen < n)) v
    else s

/-- ORs flags into a gang's remote flag set (08 R216). -/
def raiseRemote (s : State) (g : Nat) (fl : Flags) : State :=
  if fl = 0 then s else s.updGang g fun x => { x with rflags := x.rflags ||| fl }

/-- Applies an atomic to the word at a global address; answers the old value and the flags. -/
def atomAt (s : State) (stamp : List (BitVec 16)) (pa : Nat) (a : Atom) : Nat × Flags × State :=
  let s := serve s (granule pa)
  let n := a.ty.bytes
  let x := s.mem.le pa n
  let (v, fl) := a.apply x
  (x, fl, writeHome s (granule pa) stamp ((byteRange pa n).zip (toBytes n v)))

/-- Applies an atomic of a context of this package; answers the old value. -/
def applyAtom (s : State) (who : CtxId) (stamp : List (BitVec 16)) (pa : Nat) (a : Atom) : Nat × State :=
  let v := stampOf s (granule pa)
  let (x, fl, s) := atomAt s stamp pa a
  (x, raiseRemote (refreshL1 (noteRead s who v) who (granule pa)) who.gang fl)

/-! ### Reads (10 R257) -/

/-- A store's bytes in one granule, without those that another slot of its bundle writes. -/
def Access.bytesIn (a : Access) (g : Nat) : List (Nat × Byte) :=
  match a.kind with
  | .store d => (a.cells.zip d).filter fun p => granule p.1 == g && !a.skip.contains p.1
  | _ => []

/-- A list of stores in the order in which their L1 took them. -/
def insertShown (f : Access) : List Access → List Access
  | [] => [f]
  | x :: l => if x.l1.elim 0 Prod.fst < f.l1.elim 0 Prod.fst then x :: insertShown f l else f :: x :: l

/-- The stores to a granule that an L1 shows and its home has not performed, in the order in which the L1 took them. -/
def shownIn (s : State) (p : Bool × Nat) (g : Nat) : List Access :=
  (s.flights.filter fun f => f.shownAt p && f.todo.contains g).foldr insertShown []

/-- A granule's bytes and stamp with what the stores that an L1 shows write there (10 R257). -/
def showStores (s : State) (g : Nat) (l : List Access) (d : List Byte × List (BitVec 16)) : List Byte × List (BitVec 16) :=
  l.foldl (fun d f => (patch (g * 64) d.1 (f.bytesIn g), vcMax d.2 (stampNow s f))) d

/-- What a load of a context finds in a granule, with its stamp: its L1's copy, which may be stale, or the home's bytes,
which then fill L1, and in either case what the stores that its L1 shows write (10 R257). Where copy and home differ, which
one is free (DESIGN CHOICE, log 8). -/
def loadGranule (s : State) (c : Ctx) (g : Nat) : (List Byte × List (BitVec 16)) × State :=
  let s := serve s g
  let p := l1Place s c
  let home := granuleBytes s g
  let stamp := stampOf s g
  let shown := shownIn s p g
  match s.l1.find? fun x => x.at p && x.granule == g with
  | none => (showStores s g shown (home, stamp), fillL1 s p g home stamp)
  | some x =>
    if x.data = home then (showStores s g shown (home, x.stamp), s)
    else
      let (b, s) := s.free 1
      if b = 1 then (showStores s g shown (x.data, x.stamp), s)
      else (showStores s g shown (home, stamp), fillL1 s p g home stamp)

/-- A store reaches the L1 of its core, which has a copy of what it writes, before its home performs it (10 R257): every
later load of that L1 finds its bytes. Nothing of its own context may hold it back, and a release waits at the port
instead. -/
def showStore (s : State) (a : Access) : State :=
  match s.ctx? a.who with
  | none => s
  | some c =>
    let p := l1Place s c
    if a.kind.isStore ∧ !a.spad ∧ a.l1 = none ∧ !a.performed ∧ a.rel = none ∧ ownClear s a ∧
        !behindReplay s a.who a.replay a.id a.todo ∧
        (s.l1.any fun x => x.at p && a.todo.contains x.granule) then
      let v := stampNow s a
      let (i, s) := s.fresh
      { s with flights := updateFirst (fun f => f.id == a.id) (fun f => { f with l1 := some (i, p), stamp := v }) s.flights }
    else s

/-- The bytes of an access's cells in one granule, given the granule's 64 bytes, put into its data. -/
def takeBytes (a : Access) (g : Nat) (d : List Byte) : List Byte :=
  List.zipWith (fun x old => if granule x = g then (d[x % 64]?).getD 0 else old) a.cells a.data

/-- FLAG.SET at the home (08 R230): the new 64 bytes of a flag object. -/
def setFlag (obj : List Byte) (i : Nat) : List Byte :=
  let arrived := leAt obj 0 8
  let order := leAt obj 16 48
  if testBit arrived i then obj
  else
    let j := popCount 64 arrived
    toBytes 8 (arrived + 2 ^ i) ++ sliceBytes obj 8 8 ++ toBytes 48 (if j < 64 then setBits order (6 * j) 6 i else order)

/-- At DETL FREE a load meets a store of its own bundle (08 R213): for each byte it may return the stored value. -/
def mixBundle (s : State) (a : Access) (d : List Byte) : List Byte × State :=
  if a.detl ≠ 0 then (d, s)
  else match s.flights.find? fun f => f.who == a.who && f.bundle == a.bundle && f.kind.isStore && f.spad == a.spad &&
      meets f.spad a.spad f.cells a.cells with
    | none => (d, s)
    | some f => match f.kind with
      | .store w =>
        (a.cells.zip d).foldr (fun p acc =>
          match (f.cells.zip w).find? fun q => q.1 == p.1 with
          | some q =>
            let (b, t) := acc.2.free 1
            ((if b = 1 then q.2 else p.2) :: acc.1, t)
          | none => (p.2 :: acc.1, acc.2)) ([], s)
      | _ => (d, s)

/-- Whether a read at a DETL takes part in a race (10 R274), which taints it at DETL TAINT. A race may be with an access
that another agent, the host or another package makes later, so it is a free choice (DEDUCED, log 13). -/
def raceBit (s : State) (detl : Nat) : Bool × State :=
  if detl = 2 then
    let (b, s) := s.free 1
    (b = 1, s)
  else (false, s)

/-- The 4-byte words of addresses. -/
def wordsOf (cells : List Nat) : List Nat := (cells.map (· / 4)).dedup

/-- Poisoned data that a context reads reaches a register or a tile, and is consumed (17 R382). -/
def notePoison (s : State) (w : CtxId) (spad : Bool) (gs : List Nat) : State :=
  if gs.any fun g => s.poison.contains (taintKey spad g) then s.updCtx w fun c => { c with poisoned := true } else s

/-- Notes the words that a gang writes with tainted values, with their virtual addresses (16 R355). -/
def noteWritten (s : State) (g : Nat) (l : List (Nat × Nat)) : State :=
  if l = [] then s
  else s.updGang g fun x => { x with written := l ++ x.written.filter fun p => !(l.any fun q => q.1 == p.1) }

/-- The tainted words of cells with their virtual addresses, as noteWritten takes them. -/
def wordPlaces (cells vas : List Nat) : List (Nat × Nat) :=
  ((cells.zip vas).map fun p => (taintKey false (p.1 / 4), p.2 / 4 * 4)).dedup

/-- The taint of the words that an access writes in a granule (10 R274): a store gives each word that of the register
part it comes from, an atomic adds its own. -/
def writeTaint (s : State) (a : Access) (g : Nat) (words : List Nat) : State :=
  let clear : Bool := match a.kind with
    | .store _ => true
    | _ => false
  let s : State := if clear then { s with taintMem := s.taintMem.filter fun w => !words.contains w } else s
  let bad := if a.tainted then words else words.filter a.hot.contains
  if bad = [] then s
  else
    let s : State := { s with taintMem := bad ++ s.taintMem.filter fun w => !bad.contains w }
    if a.spad then s
    else noteWritten s a.who.gang
      ((wordPlaces ((a.cells.zip a.vas).filterMap fun p => if granule p.1 = g then some p.1 else none)
        ((a.cells.zip a.vas).filterMap fun p => if granule p.1 = g then some p.2 else none)).filter fun p => bad.contains p.1)

/-- TRIG at the home (08 R231, R232): the counter at an address is raised or set, and a reset cancels what is armed on
it. -/
def trigAt (s : State) (stamp : List (BitVec 16)) (pa : Nat) (reset : Bool) (v : BitVec 32) : State :=
  let s := serve s (granule pa)
  let new := if reset then v else BitVec.ofNat 32 (s.mem.le pa 4) + v
  let s := if reset then
      let gone := s.armed.filter fun k => k.counter == pa
      gone.foldl (fun s k => (completeToken s k.cmd.who k.cmd.q k.cmd.gen .cancelled).updCtx k.cmd.who fun c =>
        { c with occ := c.occ - 1 }) { s with armed := s.armed.filter fun k => k.counter != pa }
    else s
  writeHome s (granule pa) stamp ((byteRange pa 4).zip (toBytes 4 new.toNat))

/-- INVL of a granule at the home (08 R212, 10 R260): what L2 holds dirty is written back, and what the host has written
through BAR2 is seen. Where both have written it, which bytes stand then is not architected: a free choice. -/
def settleInvl (s : State) (g : Nat) : State :=
  if s.hbmNew.contains g then
    if s.hbmDirty.contains g then
      let (b, s) := s.free 1
      if b = 1 then takeHostBytes s g else settleHbm s g
    else takeHostBytes s g
  else if s.hbmDirty.contains g then settleHbm s g
  else s

/-- Performs an access in one of its granules (10 R263, R257, R260): it reads, writes or maintains that granule. -/
def performGranule (s : State) (a : Access) (g : Nat) : Access × State :=
  let a := { a with todo := a.todo.filter (· != g) }
  match a.kind with
  | .load =>
    if a.spad then ({ a with data := takeBytes a g (s.spad.bytes (g * 64) 64) }, s)
    else match s.anyCtx? a.who with
      | none => ({ a with data := takeBytes a g (granuleBytes s g) }, s)
      | some c =>
        match a.acq with
        | some sc =>
          let s := serve s g
          let st := stampOf s g
          let d := granuleBytes s g
          let s := acquire (refreshL1 (noteReadBy s a.who a.bundle a.id st) a.who g) c sc.val st
          let s := if 1 ≤ sc.val then raiseStamps s a.who (fun n _ => decide (a.bundle < n)) st else s
          ({ a with data := takeBytes a g d }, s)
        | none =>
          let ((d, st), s) := loadGranule s c g
          ({ a with data := takeBytes a g d }, noteReadBy s a.who a.bundle a.id st)
  | .store _ =>
    if a.spad then (a, clearPoison { s with spad := s.spad.setAll (a.bytesIn g) } true g (a.bytesIn g).length)
    else
      let v := stampNow s a
      let s := writeHome s g v (a.bytesIn g)
      (a, match s.ctx? a.who with
        | some c => patchL1 s (l1Place s c) v (a.bytesIn g)
        | none => s)
  | .atom op =>
    match a.cells.head? with
    | none => (a, s)
    | some pa =>
      let st := stampOf s (granule pa)
      let (x, s) := applyAtom (noteReadBy s a.who a.bundle a.id st) a.who (stampNow s a) pa op
      ({ a with data := toBytes op.ty.bytes x }, s)
  | .flagSet i =>
    let s := serve s g
    (a, refreshL1 (writeHome s g (stampNow s a) ((byteRange (g * 64) 64).zip (setFlag (granuleBytes s g) i))) a.who g)
  | .trig reset v =>
    match a.cells.head? with
    | none => (a, s)
    | some pa =>
      (a, refreshL1 (trigAt s (stampNow s a) pa reset v) a.who g)
  | .clean toMem =>
    (a, if toMem ∧ s.hbmDirty.contains g then settleHbm s g else s)
  | .invl =>
    let s := settleInvl s g
    match s.ctx? a.who with
    | some c => (a, { s with l1 := s.l1.filter fun x => !(x.at (l1Place s c) && x.granule == g) })
    | none => (a, s)

/-- The flights with one access replaced. -/
def putFlight (s : State) (a : Access) : State :=
  { s with flights := updateFirst (fun f => f.id == a.id) (fun _ => a) s.flights }

/-- The flights without one access. -/
def dropFlight (s : State) (i : Nat) : State := { s with flights := s.flights.filter fun f => f.id != i }

/-- Performs an access in the granule that pick names, or its next one, and notes taint (10 R274). -/
def performAccess (s : State) (a : Access) (pick : Nat) : State :=
  match if (a.openTodo s).contains pick then some pick else (a.openTodo s).head? with
  | none => s
  | some g =>
    let s := fenceEffect s a.who a.fenceNo
    let a := (s.flights.find? fun f => f.id == a.id).getD a
    let (a, s) := performGranule s a g
    let (a, s) := if a.kind = .load then
        let (d, s) := mixBundle s a a.data
        ({ a with data := d }, s)
      else (a, s)
    let s := if a.dest = .none then s else notePoison s a.who a.spad [g]
    let (r, s) := if a.kind = .load then raceBit s a.detl else (false, s)
    let words := (wordsOf (a.cells.filter fun x => granule x == g)).map (taintKey a.spad)
    let dirty := words.filter s.taintMem.contains
    let a := { a with
      tainted := a.tainted || r || (a.kind.isAtom && !dirty.isEmpty)
      hot := if a.kind = .load then a.hot ++ dirty else a.hot }
    putFlight (if a.kind.isStore || a.kind.isAtom then writeTaint s a g words else s) a

/-! ### Return and acknowledgement -/

/-- The value of a loaded scalar (08 R210). -/
def extendBytes (e : Extend) (n : Nat) (v : Nat) : Word :=
  match e with
  | .zero => BitVec.ofNat 64 v
  | .sign => BitVec.ofInt 64 (toSigned (8 * n) v)

/-- How many 4-byte parts a register has (10 R274); a vector register's sidecar and a tile's scales stand behind its
bytes. -/
def taintParts : Res → Nat
  | .s _ => 2
  | .v _ => 544
  | .m _ => 64
  | .t _ => 17408
  | _ => 1

/-- The taint of every part of a register of a context set or cleared. -/
def Ctx.setTaint (c : Ctx) (r : Res) (b : Bool) : Ctx :=
  { c with taint := (if b then (List.range (taintParts r)).map fun k => (r, k) else []) ++ c.taint.filter fun p => p.1 != r }

/-- The taint of the parts of a register of which the bytes at places are written, the hot ones of them with tainted
values: a part written only in part keeps its taint. -/
def Ctx.noteParts (c : Ctx) (r : Res) (places hot : List Nat) : Ctx :=
  if c.taint = [] ∧ hot = [] then c
  else
    let touched := (places.map (· / 4)).dedup
    let bad := touched.filter fun k => hot.any (fun x => x / 4 == k) ||
      (c.taint.contains (r, k) && decide ((places.filter fun x => x / 4 == k).length < 4))
    { c with taint := bad.map (fun k => (r, k)) ++ c.taint.filter fun p => !(p.1 == r && touched.contains p.2) }

/-- The bytes of an access's data that are tainted, counted from its first. -/
def Access.hotBytes (a : Access) (all : Bool) : List Nat :=
  if all then List.range a.cells.length
  else if a.hot = [] then []
  else (a.cells.mapIdx fun i x => (i, x)).filterMap fun p => if a.hot.contains (taintKey a.spad (p.2 / 4)) then some p.1 else none

/-- Writes what a load or AMO returns into its register, named by its physical number (08 R209); hot are its tainted
bytes. A value shorter than the register is extended, and the whole result is tainted if the value is. -/
def writeReturn (c : Ctx) (d : LoadDest) (data : List Byte) (hot : List Nat) : Ctx :=
  match d with
  | .none => c
  | .scalar r n e =>
    ({ c with s := c.s.set r.val (extendBytes e n (ofBytes data)) r.isLt }).noteParts (.s r) (List.range 8)
      (if n = 8 ∨ hot = [] then hot else List.range 8)
  | .vector r offs =>
    let old := c.v.get r
    let e := (offs.zip data).foldl (fun (e : Nat) p => setBits e (8 * p.1) 8 p.2.toNat) old.elems.toNat
    ({ c with v := c.v.set r.val { old with elems := BitVec.ofNat 16384 e } r.isLt }).noteParts (.v r) offs
      (hot.filterMap fun i => offs[i]?)
  | .sidecar r =>
    let old := c.v.get r
    ({ c with v := c.v.set r.val { old with side := BitVec.ofNat 1024 (ofBytes data) } r.isLt }).noteParts (.v r)
      (byteRange 2048 128) (hot.map (2048 + ·))

/-- Whether a context has executed EXIT. -/
def Ctx.exited (c : Ctx) : Bool := c.status == .exited

/-- The data of a load or AMO returns (08 R209): its register is written, unless the context has exited (04 R121),
and its count is released; hot are the tainted bytes. -/
def returnLoad (s : State) (who : CtxId) (d : LoadDest) (data : List Byte) (hot : List Nat) : State :=
  s.updCtx who fun c =>
    let c := { c with ocl := c.ocl - 1 }
    if c.exited then c
    else
      let gone : Res → Bool := fun r => match d, r with
        | .scalar x _ _, .s y => x == y
        | .vector x _, .v y => x == y
        | _, _ => false
      writeReturn { c with badRegs := c.badRegs.filter fun r => !gone r } d data hot

end Sys2Proof.Machine
end

