-- ==== Sys2Proof/Machine/Exact.lean ====
section
/-! DEFINITION. The exact functions (02 R57, R58): the exact value is enclosed between two rationals, of rising
precision, until both round alike. No result of these functions outside the listed exact cases is representable or a
midpoint, so a common rounding of the enclosure is the rounding of the value. -/
namespace Sys2Proof.Machine

/-- An enclosure: a value between lo and hi, in units of 2^-p for a p kept beside it. -/
structure IV where
  lo : Int
  hi : Int
  deriving DecidableEq, Repr

/-- floor and ceiling of a quotient of an integer and a positive number. -/
def ceilZ (a b : Int) : Int := -((-a) / b)

/-- The enclosure of m * 2^e in units of 2^-p. -/
def ivOf (p : Nat) (m : Int) (e : Int) : IV :=
  let q := e + (p : Int)
  if 0 ≤ q then { lo := m * 2 ^ q.toNat, hi := m * 2 ^ q.toNat }
  else { lo := m / 2 ^ (-q).toNat, hi := ceilZ m (2 ^ (-q).toNat) }

/-- The product of two enclosures of values that are not negative. -/
def IV.mulPos (p : Nat) (a b : IV) : IV := { lo := a.lo * b.lo / 2 ^ p, hi := ceilZ (a.hi * b.hi) (2 ^ p) }

/-- The quotient of two enclosures of positive values. -/
def IV.divPos (p : Nat) (a b : IV) : IV := { lo := a.lo * 2 ^ p / b.hi, hi := ceilZ (a.hi * 2 ^ p) b.lo }

/-- Terms 1/(n 2^n), the series of ln 2: n runs down from its first argument. -/
def ln2Sum (p : Nat) : Nat → Int
  | 0 => 0
  | n + 1 => (2 ^ p : Int) / (((n + 1 : Nat) : Int) * 2 ^ (n + 1)) + ln2Sum p n

/-- ln 2. -/
def ln2IV (p : Nat) : IV := { lo := ln2Sum p p, hi := ln2Sum p p + (p : Int) + 2 }

/-- The exponential series of an enclosure of a value in [0, 1]: fuel, index, the present term and the sum. -/
def expSeries (p : Nat) (x : IV) : Nat → Nat → IV → IV → IV
  | 0, _, t, acc => { lo := acc.lo, hi := acc.hi + t.hi + 1 }
  | k + 1, n, t, acc =>
    let u := IV.mulPos p t x
    let u : IV := { lo := u.lo / ((n : Int) + 1), hi := ceilZ u.hi ((n : Int) + 1) }
    expSeries p x k (n + 1) u { lo := acc.lo + u.lo, hi := acc.hi + u.hi }

/-- e^x for x enclosed in v: an enclosure and the power of two that multiplies it. -/
def expIV (p : Nat) (v : IV) : IV × Int :=
  let l := ln2IV p
  let k := if 0 ≤ v.lo then v.lo / l.hi else v.lo / l.lo
  let lo := v.lo - (if 0 ≤ k then k * l.hi else k * l.lo)
  let hi := v.hi - (if 0 ≤ k then k * l.lo else k * l.hi)
  let one : IV := { lo := 2 ^ p, hi := 2 ^ p }
  (expSeries p { lo := max lo 0, hi := max hi 0 } (p / 2) 0 one one, k)

/-- The odd series z + z^3/3 + z^5/5 + … of an enclosure of a value in [0, 1/2]. -/
def atanhSeries (p : Nat) (z2 : IV) : Nat → Nat → IV → IV → IV
  | 0, _, t, acc => { lo := acc.lo, hi := acc.hi + t.hi + 1 }
  | k + 1, n, t, acc =>
    let u := IV.mulPos p t z2
    let d : Int := 2 * (n : Int) + 3
    atanhSeries p z2 k (n + 1) u { lo := acc.lo + u.lo / d, hi := acc.hi + ceilZ u.hi d }

/-- ln of m * 2^e, m positive. -/
def lnIV (p : Nat) (m : Nat) (e : Int) : IV :=
  let l := m.log2
  let big := decide (4 * 2 ^ l < 3 * m)
  let den := if big then 2 ^ (l + 1) else 2 ^ l
  let k := e + (l : Int) + (if big then 1 else 0)
  let num : Nat := if den ≤ m then m - den else den - m
  let z : IV := { lo := ((num * 2 ^ p / (m + den) : Nat) : Int), hi := ceilZ (num * 2 ^ p : Nat) (m + den : Nat) }
  let a := atanhSeries p (IV.mulPos p z z) (p / 4 + 2) 0 z z
  let ln2 := ln2IV p
  let base : IV := if 0 ≤ k then { lo := k * ln2.lo, hi := k * ln2.hi } else { lo := k * ln2.hi, hi := k * ln2.lo }
  if den ≤ m then { lo := base.lo + 2 * a.lo, hi := base.hi + 2 * a.hi }
  else { lo := base.lo - 2 * a.hi, hi := base.hi - 2 * a.lo }

/-- The alternating series of arctan(1/n): fuel, index, the present power and the sum, with its error in units. -/
def atanInvSum (p n2 : Nat) : Nat → Nat → Int → Int → Int
  | 0, _, _, acc => acc
  | k + 1, i, t, acc =>
    let u := t / (n2 : Int)
    let term := u / (2 * (i : Int) + 3)
    atanInvSum p n2 k (i + 1) u (if i % 2 = 0 then acc - term else acc + term)

/-- arctan(1/n). -/
def atanInvIV (p n : Nat) : IV :=
  let t : Int := 2 ^ p / (n : Int)
  let v := atanInvSum p (n * n) (p / 4 + 2) 0 t t
  { lo := v - (p : Int) - 4, hi := v + (p : Int) + 4 }

/-- pi, by Machin's formula. -/
def piIV (p : Nat) : IV :=
  let a := atanInvIV p 5
  let b := atanInvIV p 239
  { lo := 16 * a.lo - 4 * b.hi, hi := 16 * a.hi - 4 * b.lo }

/-- The square root of an enclosure of a positive value. -/
def IV.sqrt (p : Nat) (a : IV) : IV :=
  { lo := (isqrt (a.lo * 2 ^ p).toNat : Int), hi := (isqrt (a.hi * 2 ^ p).toNat : Int) + 1 }

/-- The series 1 + 2y/3 + (2y)^2/(3*5) + …, with y the square of the argument. -/
def erfSeries (p : Nat) (y : IV) : Nat → Nat → IV → IV → IV
  | 0, _, t, acc => { lo := acc.lo, hi := acc.hi + t.hi + 1 }
  | k + 1, n, t, acc =>
    let u := IV.mulPos p t y
    let d : Int := 2 * (n : Int) + 3
    let u : IV := { lo := 2 * u.lo / d, hi := ceilZ (2 * u.hi) d }
    erfSeries p y k (n + 1) u { lo := acc.lo + u.lo, hi := acc.hi + u.hi }

/-- erf(x) / x for x = m * 2^e positive and below 2^5. -/
def erfOverX (p m : Nat) (e : Int) : IV :=
  let y := ivOf p ((m * m : Nat) : Int) (2 * e)
  let one : IV := { lo := 2 ^ p, hi := 2 ^ p }
  let n := 4 * (y.hi / 2 ^ p).toNat + p
  let sum := erfSeries p y n 0 one one
  let (ex, k) := expIV p y
  let scaled := IV.divPos p sum ex
  let s : IV := if 0 ≤ k then { lo := scaled.lo / 2 ^ k.toNat, hi := ceilZ scaled.hi (2 ^ k.toNat) }
    else { lo := scaled.lo * 2 ^ (-k).toNat, hi := scaled.hi * 2 ^ (-k).toNat }
  IV.divPos p { lo := 2 * s.lo, hi := 2 * s.hi } (IV.sqrt p (piIV p))

/-- The roundings of the two ends of an enclosure lo to hi, in units of 2^e, of a positive magnitude: all that it encloses
rounds between them. -/
def Fmt.ends (f : Fmt) (rm : Rnd) (neg : Bool) (lo hi : Int) (e : Int) : FR × FR :=
  if hi ≤ lo then let r := f.round rm neg lo.toNat e; (r, r)
  else
    (if lo ≤ 0 then f.round rm neg 1 (-5000) true else f.round rm neg lo.toNat e true,
      f.round rm neg (max (hi - 1) 1).toNat e true)

/-- The same for a signed enclosure. -/
def Fmt.endsSigned (f : Fmt) (rm : Rnd) (v : IV) (p : Nat) : FR × FR :=
  if 0 ≤ v.lo then f.ends rm false v.lo v.hi (-(p : Int))
  else if v.hi ≤ 0 then f.ends rm true (-v.hi) (-v.lo) (-(p : Int))
  else ((f.ends rm true 0 (-v.lo) (-(p : Int))).2, (f.ends rm false 0 v.hi (-(p : Int))).2)

/-- The first rounding that the two ends of an enclosure share, over the precisions of a list. -/
def firstSettled (g : Nat → FR × FR) : List Nat → Option FR
  | [] => none
  | p :: l => if (g p).1 = (g p).2 then some (g p).1 else firstSettled g l

/-- The precisions tried: three that settle every rounding known, then 64 more, each twice as wide as the one before. -/
def precisions : List Nat := [160, 400, 1700] ++ (List.range 64).map fun i => 4096 * 2 ^ i

/-- A result just above 1, or just below. -/
def nearOne (f : Fmt) (rm : Rnd) (above : Bool) : FR :=
  f.round rm false (if above then 2 ^ 64 else 2 ^ 64 - 1) (-64) true

/-- A positive result below every subnormal of the format. -/
def vanishing (f : Fmt) (rm : Rnd) : FR := f.round rm false 1 (-5000) true

/-- The six functions of 02 R57, by minor code. -/
inductive ExactFn where
  | exp
  | exp2
  | log
  | log2
  | erf
  | erfc
  deriving DecidableEq, Repr

/-- The number of a function. -/
def ExactFn.code : ExactFn → Nat
  | .exp => 0
  | .exp2 => 1
  | .log => 2
  | .log2 => 3
  | .erf => 4
  | .erfc => 5

/-- The rounding of a function from its enclosures: the first that settles; where none of them settles it, the rounding of one
end of an enclosure, and nothing says which (log 17). -/
def settle (fn : ExactFn) (f : Fmt) (a : Nat) (g : Nat → FR × FR) : FR :=
  match firstSettled g precisions with
  | some r => r
  | none => if Config.exactSide fn.code a f.width then (g 1700).1 else (g 1700).2

/-- The function at a finite non-zero argument m * 2^e outside the exact cases. -/
def exactFinite (fn : ExactFn) (f : Fmt) (rm : Rnd) (a : Nat) (neg : Bool) (m : Nat) (e : Int) : FR :=
  let mag := (m.log2 : Int) + e
  match fn with
  | .exp =>
    if 12 ≤ mag then (if neg then vanishing f rm else f.round rm false 1 5000)
    else if mag < -((f.fbits : Int) + 8) then nearOne f rm (!neg)
    else settle fn f a (fun p =>
      let (v, k) := expIV p (ivOf p (signed neg m) e)
      f.ends rm false v.lo v.hi (k - (p : Int)))
  | .exp2 =>
    if 12 ≤ mag then (if neg then vanishing f rm else f.round rm false 1 5000)
    else if mag < -((f.fbits : Int) + 8) then nearOne f rm (!neg)
    else
      let x := ivOf 1200 (signed neg m) e
      let k := x.lo / 2 ^ 1200
      if x.lo = k * 2 ^ 1200 ∧ x.lo = x.hi then f.round rm false 1 k
      else settle fn f a (fun p =>
        let y := ivOf p (signed neg m) e
        let r : IV := { lo := max (y.lo - k * 2 ^ p) 0, hi := y.hi - k * 2 ^ p }
        let (v, j) := expIV p (IV.mulPos p r (ln2IV p))
        f.ends rm false v.lo v.hi (k + j - (p : Int)))
  | .log => settle fn f a (fun p => f.endsSigned rm (lnIV p m e) p)
  | .log2 =>
    if m = 2 ^ m.log2 then ofIntF f rm 2 mag
    else settle fn f a (fun p =>
      let v := lnIV p m e
      let l := ln2IV p
      if 0 ≤ v.lo then f.endsSigned rm (IV.divPos p v l) p
      else
        let w := IV.divPos p { lo := max (-v.hi) 0, hi := -v.lo } l
        f.endsSigned rm { lo := -w.hi, hi := -w.lo } p)
  | .erf =>
    if 4 ≤ mag then f.round rm neg (2 ^ 64 - 1) (-64) true
    else settle fn f a (fun p =>
      let v := erfOverX p m e
      f.ends rm neg (v.lo * (m : Int)) (v.hi * (m : Int)) (e - (p : Int)))
  | .erfc =>
    if mag < -((f.fbits : Int) + 8) then nearOne f rm neg
    else if neg then
      if 4 ≤ mag then f.round rm false (2 ^ 65 - 1) (-64) true
      else settle fn f a (fun p =>
        let v := IV.mulPos p (erfOverX p m e) (ivOf p (m : Int) e)
        f.ends rm false (2 ^ p + v.lo) (2 ^ p + v.hi) (-(p : Int)))
    else if 28 ≤ (ivOf 0 (m : Int) e).lo then vanishing f rm
    else settle fn f a (fun p =>
      let v := IV.mulPos p (erfOverX p m e) (ivOf p (m : Int) e)
      f.ends rm false (2 ^ p - v.hi) (2 ^ p - v.lo) (-(p : Int)))

/-- An exact function of an encoding (02 R57, R58). -/
def exactFn (fn : ExactFn) (f : Fmt) (rm : Rnd) (a : Nat) : FR :=
  let one : FR := { bits := (f.round .rne false 1 0).bits }
  match f.unpack a with
  | .nan s => f.nanR (nvIf s)
  | .inf neg =>
    match fn with
    | .exp | .exp2 => if neg then { bits := 0 } else f.infR false
    | .log | .log2 => if neg then f.nanR flagNV else f.infR false
    | .erf => { bits := (f.round .rne neg 1 0).bits }
    | .erfc => if neg then { bits := (f.round .rne false 2 0).bits } else { bits := 0 }
  | .fin neg m e =>
    if m = 0 then
      match fn with
      | .exp | .exp2 | .erfc => one
      | .log | .log2 => f.infR true flagDZ
      | .erf => { bits := f.pack neg 0 }
    else if (fn = .log ∨ fn = .log2) ∧ neg then f.nanR flagNV
    else if (fn = .log ∨ fn = .log2) ∧ f.unpack a = f.unpack one.bits then { bits := 0 }
    else exactFinite fn f rm a neg m e

end Sys2Proof.Machine
end

