-- ==== Sys2Proof/Machine/Float.lean ====
section
/-! DEFINITION. Scalar floating-point instructions (05 R123 to R131). -/
namespace Sys2Proof.Machine

/-- The format of field W, or of majors 0x10 and 0x11. -/
def fpFmt (f64 : Bool) : Fmt := if f64 then .f64 else .f32

/-- An FP operand: the whole register, or its bits [31:0] (05 R123). -/
def rdF (s : State) (f64 : Bool) (r : SReg) : Nat := (rdS s r).toNat % 2 ^ (if f64 then 64 else 32)

/-- The end of an FP slot: D takes the result, zero above it, and the flags are raised (05 R123, 02 R48). -/
def fpDone (s : State) (d : SReg) (r : FR) : SlotEnd := finishFlags (wrS s d (BitVec.ofNat 64 r.bits)) s r.flags

/-- The sign bit of an FP operand. -/
def fpSign (f64 : Bool) (a : Nat) : Bool := testBit a (fpFmt f64).signPos
/-- A magnitude under a sign. -/
def withSign (f : Fmt) (a : Nat) (neg : Bool) : Nat := a % 2 ^ f.signPos + neg.toNat * 2 ^ f.signPos

/-- FADD (05 R124). -/
def execFadd (f64 : Bool) (d a b : SReg) (rm : Rm) (s : State) : Host.Outcome State Fault Refusal :=
  runSlot (.fadd f64 d a b rm) s fun s => fpDone s d (fadd (fpFmt f64) (rmMode rm s) (rdF s f64 a) (rdF s f64 b))

/-- FSUB (05 R124). -/
def execFsub (f64 : Bool) (d a b : SReg) (rm : Rm) (s : State) : Host.Outcome State Fault Refusal :=
  runSlot (.fsub f64 d a b rm) s fun s => fpDone s d (fsub (fpFmt f64) (rmMode rm s) (rdF s f64 a) (rdF s f64 b))

/-- FMUL (05 R124). -/
def execFmul (f64 : Bool) (d a b : SReg) (rm : Rm) (s : State) : Host.Outcome State Fault Refusal :=
  runSlot (.fmul f64 d a b rm) s fun s => fpDone s d (fmul (fpFmt f64) (rmMode rm s) (rdF s f64 a) (rdF s f64 b))

/-- FDIV (05 R124, R125). -/
def execFdiv (f64 : Bool) (d a b : SReg) (rm : Rm) (s : State) : Host.Outcome State Fault Refusal :=
  runSlot (.fdiv f64 d a b rm) s fun s => fpDone s d (fdiv (fpFmt f64) (rmMode rm s) (rdF s f64 a) (rdF s f64 b))

/-- FMA reads D (05 R124). -/
def execFma (f64 : Bool) (d a b : SReg) (rm : Rm) (s : State) : Host.Outcome State Fault Refusal :=
  runSlot (.fma f64 d a b rm) s fun s =>
    fpDone s d (fma (fpFmt f64) (rmMode rm s) (rdF s f64 a) (rdF s f64 b) (rdF s f64 (oldS s d)))

/-- FMS reads D (05 R124). -/
def execFms (f64 : Bool) (d a b : SReg) (rm : Rm) (s : State) : Host.Outcome State Fault Refusal :=
  runSlot (.fms f64 d a b rm) s fun s =>
    fpDone s d (fms (fpFmt f64) (rmMode rm s) (rdF s f64 a) (rdF s f64 b) (rdF s f64 (oldS s d)))

/-- FNMA reads D (05 R124). -/
def execFnma (f64 : Bool) (d a b : SReg) (rm : Rm) (s : State) : Host.Outcome State Fault Refusal :=
  runSlot (.fnma f64 d a b rm) s fun s =>
    fpDone s d (fnma (fpFmt f64) (rmMode rm s) (rdF s f64 a) (rdF s f64 b) (rdF s f64 (oldS s d)))

/-- FSQRT (05 R124). -/
def execFsqrt (f64 : Bool) (d a : SReg) (rm : Rm) (s : State) : Host.Outcome State Fault Refusal :=
  runSlot (.fsqrt f64 d a rm) s fun s => fpDone s d (fsqrt (fpFmt f64) (rmMode rm s) (rdF s f64 a))

/-- FMIN (02 R52). -/
def execFmin (f64 : Bool) (d a b : SReg) (s : State) : Host.Outcome State Fault Refusal :=
  runSlot (.fmin f64 d a b) s fun s => fpDone s d (fminmax (fpFmt f64) false (rdF s f64 a) (rdF s f64 b))

/-- FMAX (02 R52). -/
def execFmax (f64 : Bool) (d a b : SReg) (s : State) : Host.Outcome State Fault Refusal :=
  runSlot (.fmax f64 d a b) s fun s => fpDone s d (fminmax (fpFmt f64) true (rdF s f64 a) (rdF s f64 b))

/-- FNEG copies bits (05 R124). -/
def execFneg (f64 : Bool) (d a : SReg) (s : State) : Host.Outcome State Fault Refusal :=
  runSlot (.fneg f64 d a) s fun s => fpDone s d { bits := withSign (fpFmt f64) (rdF s f64 a) (!fpSign f64 (rdF s f64 a)) }

/-- FABS copies bits (05 R124). -/
def execFabs (f64 : Bool) (d a : SReg) (s : State) : Host.Outcome State Fault Refusal :=
  runSlot (.fabs f64 d a) s fun s => fpDone s d { bits := withSign (fpFmt f64) (rdF s f64 a) false }

/-- FMOV copies bits (05 R124). -/
def execFmov (f64 : Bool) (d a : SReg) (s : State) : Host.Outcome State Fault Refusal :=
  runSlot (.fmov f64 d a) s fun s => fpDone s d { bits := rdF s f64 a }

/-- FCPSGN copies bits (05 R124). -/
def execFcpsgn (f64 : Bool) (d a b : SReg) (s : State) : Host.Outcome State Fault Refusal :=
  runSlot (.fcpsgn f64 d a b) s fun s => fpDone s d { bits := withSign (fpFmt f64) (rdF s f64 a) (fpSign f64 (rdF s f64 b)) }

/-- A comparison writes its predicate and raises its flag (05 R126). -/
def fcmpBody (cc : Nat) (p : PReg) (a b : SReg) (f64 : Bool) (s : State) : SlotEnd :=
  let (r, fl) := fcompare (fpFmt f64) cc (rdF s f64 a) (rdF s f64 b)
  finishFlags (wrP s p r) s fl

/-- FCMP.EQ (05 R126). -/
def execFcmpEq (p : PReg) (a b : SReg) (f64 : Bool) (s : State) : Host.Outcome State Fault Refusal :=
  runSlot (.fcmpEq p a b f64) s fun s => fcmpBody 0 p a b f64 s

/-- FCMP.LT (05 R126). -/
def execFcmpLt (p : PReg) (a b : SReg) (f64 : Bool) (s : State) : Host.Outcome State Fault Refusal :=
  runSlot (.fcmpLt p a b f64) s fun s => fcmpBody 1 p a b f64 s

/-- FCMP.LE (05 R126). -/
def execFcmpLe (p : PReg) (a b : SReg) (f64 : Bool) (s : State) : Host.Outcome State Fault Refusal :=
  runSlot (.fcmpLe p a b f64) s fun s => fcmpBody 2 p a b f64 s

/-- FCMP.UN (05 R126). -/
def execFcmpUn (p : PReg) (a b : SReg) (f64 : Bool) (s : State) : Host.Outcome State Fault Refusal :=
  runSlot (.fcmpUn p a b f64) s fun s => fcmpBody 3 p a b f64 s

/-- FCLASS (05 R127). -/
def execFclass (d a : SReg) (f64 : Bool) (s : State) : Host.Outcome State Fault Refusal :=
  runSlot (.fclass d a f64) s fun s => .done (wrS s d (BitVec.ofNat 64 (2 ^ fclassify (fpFmt f64) (rdF s f64 a))))

/-- The types of field OT (05 R128). -/
def otType : Nat → NumTy
  | 0x0 => .fp .f64
  | 0x1 => .fp .f32
  | 0x2 => .fp .e8m10
  | 0x3 => .fp .bf16
  | 0x4 => .fp .f16
  | 0x5 => .fp .e4m3
  | 0x6 => .fp .e5m2
  | 0x7 => iTy 64
  | 0x8 => iTy 32
  | 0x9 => iTy 16
  | 0xA => iTy 8
  | 0xB => nTy 64
  | 0xC => nTy 32
  | 0xD => nTy 16
  | _ => nTy 8

/-- A converted value as a scalar register holds it: i8 to i32 sign-extended, every other type zero-extended
(05 R129). -/
def holdNum (t : NumTy) (w : Nat) : Word :=
  match t with
  | .int k => if k.signed then BitVec.ofInt 64 (toSigned k.width w) else BitVec.ofNat 64 w
  | _ => BitVec.ofNat 64 w

/-- FCVT (05 R128, R129). -/
def execFcvt (d a : SReg) (ot : Fin 16) (dir : Bool) (rm : Rm) (f64 : Bool) (s : State) :
    Host.Outcome State Fault Refusal :=
  runSlot (.fcvt d a ot dir rm f64) s fun s =>
    let side : NumTy := .fp (fpFmt f64)
    let other := otType ot.val
    let (src, dst) := if dir then (other, side) else (side, other)
    let r := convertNum src dst (rmMode rm s) s.src.nbv ((rdS s a).toNat % 2 ^ src.width)
    finishFlags (wrS s d (holdNum dst r.bits)) s r.flags

/-- FRINT (05 R130). -/
def execFrint (d a : SReg) (rm : Rm) (f64 : Bool) (s : State) : Host.Outcome State Fault Refusal :=
  runSlot (.frint d a rm f64) s fun s => fpDone s d (frint (fpFmt f64) (rmMode rm s) (rdF s f64 a))

/-- FEXP (02 R57, R58). -/
def execFexp (d a : SReg) (rm : Rm) (f64 : Bool) (s : State) : Host.Outcome State Fault Refusal :=
  runSlot (.fexp d a rm f64) s fun s => fpDone s d (exactFn .exp (fpFmt f64) (rmMode rm s) (rdF s f64 a))

/-- FEXP2 (02 R57, R58). -/
def execFexp2 (d a : SReg) (rm : Rm) (f64 : Bool) (s : State) : Host.Outcome State Fault Refusal :=
  runSlot (.fexp2 d a rm f64) s fun s => fpDone s d (exactFn .exp2 (fpFmt f64) (rmMode rm s) (rdF s f64 a))

/-- FLOG (02 R57, R58). -/
def execFlog (d a : SReg) (rm : Rm) (f64 : Bool) (s : State) : Host.Outcome State Fault Refusal :=
  runSlot (.flog d a rm f64) s fun s => fpDone s d (exactFn .log (fpFmt f64) (rmMode rm s) (rdF s f64 a))

/-- FLOG2 (02 R57, R58). -/
def execFlog2 (d a : SReg) (rm : Rm) (f64 : Bool) (s : State) : Host.Outcome State Fault Refusal :=
  runSlot (.flog2 d a rm f64) s fun s => fpDone s d (exactFn .log2 (fpFmt f64) (rmMode rm s) (rdF s f64 a))

/-- FERF (02 R57, R58). -/
def execFerf (d a : SReg) (rm : Rm) (f64 : Bool) (s : State) : Host.Outcome State Fault Refusal :=
  runSlot (.ferf d a rm f64) s fun s => fpDone s d (exactFn .erf (fpFmt f64) (rmMode rm s) (rdF s f64 a))

/-- FERFC (02 R57, R58). -/
def execFerfc (d a : SReg) (rm : Rm) (f64 : Bool) (s : State) : Host.Outcome State Fault Refusal :=
  runSlot (.ferfc d a rm f64) s fun s => fpDone s d (exactFn .erfc (fpFmt f64) (rmMode rm s) (rdF s f64 a))

/-- FRCP (02 R59, R60). -/
def execFrcp (d a : SReg) (rm : Rm) (f64 : Bool) (s : State) : Host.Outcome State Fault Refusal :=
  runSlot (.frcp d a rm f64) s fun s => fpDone s d (frcp (fpFmt f64) (rdF s f64 a))

/-- FRSQ (02 R59, R60). -/
def execFrsq (d a : SReg) (rm : Rm) (f64 : Bool) (s : State) : Host.Outcome State Fault Refusal :=
  runSlot (.frsq d a rm f64) s fun s => fpDone s d (frsq (fpFmt f64) (rdF s f64 a))

/-- FRCPS (02 R61). -/
def execFrcps (d a b : SReg) (rm : Rm) (f64 : Bool) (s : State) : Host.Outcome State Fault Refusal :=
  runSlot (.frcps d a b rm f64) s fun s => fpDone s d (newton (fpFmt f64) (rmMode rm s) 2 false (rdF s f64 a) (rdF s f64 b))

/-- FRSQS (02 R61). -/
def execFrsqs (d a b : SReg) (rm : Rm) (f64 : Bool) (s : State) : Host.Outcome State Fault Refusal :=
  runSlot (.frsqs d a b rm f64) s fun s => fpDone s d (newton (fpFmt f64) (rmMode rm s) 3 true (rdF s f64 a) (rdF s f64 b))

end Sys2Proof.Machine
end

