-- ==== Sys2Proof/Machine/Scalar.lean ====
section
/-! DEFINITION. Scalar integer, predicate and bit-field instructions (04 R97 to R107, R110). -/
namespace Sys2Proof.Machine

/-- The integer operations of 04 R99, shared with the vector forms (05 R136). -/
inductive IntOp where
  | add | sub | mul | mulh | mulhn | div | divn | rem | remn | and | or | xor | andn
  | shl | shr | sra | rotl | min | minn | max | maxn | clz | ctz | popc
  deriving DecidableEq, Repr

/-- Whether the 32-bit form sign-extends its result (04 R99, column Signed-kind). -/
def IntOp.signedKind : IntOp → Bool
  | .add | .sub | .mul | .mulh | .div | .rem | .shl | .sra | .min | .max => true
  | _ => false

/-- The operation on w-bit patterns (04 R99, R100); shift amounts are b mod w. -/
def IntOp.eval (op : IntOp) (w a b : Nat) : Nat :=
  let a := a % 2 ^ w
  let b := b % 2 ^ w
  let sa := toSigned w a
  let sb := toSigned w b
  let n := b % w
  match op with
  | .add => (a + b) % 2 ^ w
  | .sub => (a + (2 ^ w - b)) % 2 ^ w
  | .mul => a * b % 2 ^ w
  | .mulh => ofInt w (sa * sb / 2 ^ w)
  | .mulhn => a * b / 2 ^ w
  | .div => if b = 0 then 2 ^ w - 1 else ofInt w (Int.tdiv sa sb)
  | .divn => if b = 0 then 2 ^ w - 1 else a / b
  | .rem => if b = 0 then a else ofInt w (Int.tmod sa sb)
  | .remn => if b = 0 then a else a % b
  | .and => a &&& b
  | .or => a ||| b
  | .xor => a ^^^ b
  | .andn => a &&& (2 ^ w - 1 - b)
  | .shl => a * 2 ^ n % 2 ^ w
  | .shr => a / 2 ^ n
  | .sra => ofInt w (sa / 2 ^ n)
  | .rotl => (a * 2 ^ n + a / 2 ^ (w - n)) % 2 ^ w
  | .min => if sa ≤ sb then a else b
  | .minn => if a ≤ b then a else b
  | .max => if sa ≤ sb then b else a
  | .maxn => if a ≤ b then b else a
  | .clz => leadingZeros w a
  | .ctz => trailingZeros w a
  | .popc => popCount w a

/-- The operand width of field W (04 R98). -/
def widthOf (w32 : Bool) : Nat := if w32 then 32 else 64

/-- A register-register integer instruction of major 0x01 (04 R98, R99). -/
def aluBody (op : IntOp) (w32 : Bool) (d : SReg) (a b : Word) (s : State) : SlotEnd :=
  .done (wrS s d (extendW w32 op.signedKind (op.eval (widthOf w32) a.toNat b.toNat)))

/-- An immediate form of major 0x02: the 64-bit operation (04 R101). -/
def aluImmBody (op : IntOp) (d a : SReg) (imm : Int) (s : State) : SlotEnd :=
  .done (wrS s d (BitVec.ofNat 64 (op.eval 64 (rdS s a).toNat (ofInt 64 imm))))

/-- The comparisons of 04 R104. -/
inductive Rel where
  | eq | ne | lt | ge | ltn | gen
  deriving DecidableEq, Repr

/-- A comparison of w-bit patterns. -/
def Rel.eval (r : Rel) (w a b : Nat) : Bool :=
  let a := a % 2 ^ w
  let b := b % 2 ^ w
  match r with
  | .eq => a == b
  | .ne => a != b
  | .lt => decide (toSigned w a < toSigned w b)
  | .ge => decide (toSigned w b ≤ toSigned w a)
  | .ltn => decide (a < b)
  | .gen => decide (b ≤ a)

/-- A comparison writes its predicate (04 R104). -/
def cmpBody (r : Rel) (w32 : Bool) (p : PReg) (a b : SReg) (s : State) : SlotEnd :=
  .done (wrP s p (r.eval (widthOf w32) (rdS s a).toNat (rdS s b).toNat))

/-- ADD (04 R99). -/
def execAdd (d a b : SReg) (w : Bool) (s : State) : Host.Outcome State Fault Refusal :=
  runSlot (.add d a b w) s fun s => aluBody .add w d (rdS s a) (rdS s b) s

/-- SUB (04 R99). -/
def execSub (d a b : SReg) (w : Bool) (s : State) : Host.Outcome State Fault Refusal :=
  runSlot (.sub d a b w) s fun s => aluBody .sub w d (rdS s a) (rdS s b) s

/-- MUL (04 R99). -/
def execMul (d a b : SReg) (w : Bool) (s : State) : Host.Outcome State Fault Refusal :=
  runSlot (.mul d a b w) s fun s => aluBody .mul w d (rdS s a) (rdS s b) s

/-- MULH (04 R99). -/
def execMulh (d a b : SReg) (w : Bool) (s : State) : Host.Outcome State Fault Refusal :=
  runSlot (.mulh d a b w) s fun s => aluBody .mulh w d (rdS s a) (rdS s b) s

/-- MULHN (04 R99). -/
def execMulhn (d a b : SReg) (w : Bool) (s : State) : Host.Outcome State Fault Refusal :=
  runSlot (.mulhn d a b w) s fun s => aluBody .mulhn w d (rdS s a) (rdS s b) s

/-- DIV (04 R99). -/
def execDiv (d a b : SReg) (w : Bool) (s : State) : Host.Outcome State Fault Refusal :=
  runSlot (.div d a b w) s fun s => aluBody .div w d (rdS s a) (rdS s b) s

/-- DIVN (04 R99). -/
def execDivn (d a b : SReg) (w : Bool) (s : State) : Host.Outcome State Fault Refusal :=
  runSlot (.divn d a b w) s fun s => aluBody .divn w d (rdS s a) (rdS s b) s

/-- REM (04 R99). -/
def execRem (d a b : SReg) (w : Bool) (s : State) : Host.Outcome State Fault Refusal :=
  runSlot (.rem d a b w) s fun s => aluBody .rem w d (rdS s a) (rdS s b) s

/-- REMN (04 R99). -/
def execRemn (d a b : SReg) (w : Bool) (s : State) : Host.Outcome State Fault Refusal :=
  runSlot (.remn d a b w) s fun s => aluBody .remn w d (rdS s a) (rdS s b) s

/-- AND (04 R99). -/
def execAnd (d a b : SReg) (w : Bool) (s : State) : Host.Outcome State Fault Refusal :=
  runSlot (.and d a b w) s fun s => aluBody .and w d (rdS s a) (rdS s b) s

/-- OR (04 R99). -/
def execOr (d a b : SReg) (w : Bool) (s : State) : Host.Outcome State Fault Refusal :=
  runSlot (.or d a b w) s fun s => aluBody .or w d (rdS s a) (rdS s b) s

/-- XOR (04 R99). -/
def execXor (d a b : SReg) (w : Bool) (s : State) : Host.Outcome State Fault Refusal :=
  runSlot (.xor d a b w) s fun s => aluBody .xor w d (rdS s a) (rdS s b) s

/-- ANDN (04 R99). -/
def execAndn (d a b : SReg) (w : Bool) (s : State) : Host.Outcome State Fault Refusal :=
  runSlot (.andn d a b w) s fun s => aluBody .andn w d (rdS s a) (rdS s b) s

/-- SHL (04 R99). -/
def execShl (d a b : SReg) (w : Bool) (s : State) : Host.Outcome State Fault Refusal :=
  runSlot (.shl d a b w) s fun s => aluBody .shl w d (rdS s a) (rdS s b) s

/-- SHR (04 R99). -/
def execShr (d a b : SReg) (w : Bool) (s : State) : Host.Outcome State Fault Refusal :=
  runSlot (.shr d a b w) s fun s => aluBody .shr w d (rdS s a) (rdS s b) s

/-- SRA (04 R99). -/
def execSra (d a b : SReg) (w : Bool) (s : State) : Host.Outcome State Fault Refusal :=
  runSlot (.sra d a b w) s fun s => aluBody .sra w d (rdS s a) (rdS s b) s

/-- ROTL (04 R99). -/
def execRotl (d a b : SReg) (w : Bool) (s : State) : Host.Outcome State Fault Refusal :=
  runSlot (.rotl d a b w) s fun s => aluBody .rotl w d (rdS s a) (rdS s b) s

/-- MIN (04 R99). -/
def execMin (d a b : SReg) (w : Bool) (s : State) : Host.Outcome State Fault Refusal :=
  runSlot (.min d a b w) s fun s => aluBody .min w d (rdS s a) (rdS s b) s

/-- MINN (04 R99). -/
def execMinn (d a b : SReg) (w : Bool) (s : State) : Host.Outcome State Fault Refusal :=
  runSlot (.minn d a b w) s fun s => aluBody .minn w d (rdS s a) (rdS s b) s

/-- MAX (04 R99). -/
def execMax (d a b : SReg) (w : Bool) (s : State) : Host.Outcome State Fault Refusal :=
  runSlot (.max d a b w) s fun s => aluBody .max w d (rdS s a) (rdS s b) s

/-- MAXN (04 R99). -/
def execMaxn (d a b : SReg) (w : Bool) (s : State) : Host.Outcome State Fault Refusal :=
  runSlot (.maxn d a b w) s fun s => aluBody .maxn w d (rdS s a) (rdS s b) s

/-- CLZ (04 R99). -/
def execClz (d a : SReg) (w : Bool) (s : State) : Host.Outcome State Fault Refusal :=
  runSlot (.clz d a w) s fun s => aluBody .clz w d (rdS s a) 0 s

/-- CTZ (04 R99). -/
def execCtz (d a : SReg) (w : Bool) (s : State) : Host.Outcome State Fault Refusal :=
  runSlot (.ctz d a w) s fun s => aluBody .ctz w d (rdS s a) 0 s

/-- POPC (04 R99). -/
def execPopc (d a : SReg) (w : Bool) (s : State) : Host.Outcome State Fault Refusal :=
  runSlot (.popc d a w) s fun s => aluBody .popc w d (rdS s a) 0 s

/-- ADD with an immediate (04 R101). -/
def execAddImm (d a : SReg) (imm : Int) (s : State) : Host.Outcome State Fault Refusal :=
  runSlot (.addImm d a imm) s fun s => aluImmBody .add d a imm s

/-- MUL with an immediate (04 R101). -/
def execMulImm (d a : SReg) (imm : Int) (s : State) : Host.Outcome State Fault Refusal :=
  runSlot (.mulImm d a imm) s fun s => aluImmBody .mul d a imm s

/-- AND with an immediate (04 R101). -/
def execAndImm (d a : SReg) (imm : Int) (s : State) : Host.Outcome State Fault Refusal :=
  runSlot (.andImm d a imm) s fun s => aluImmBody .and d a imm s

/-- OR with an immediate (04 R101). -/
def execOrImm (d a : SReg) (imm : Int) (s : State) : Host.Outcome State Fault Refusal :=
  runSlot (.orImm d a imm) s fun s => aluImmBody .or d a imm s

/-- XOR with an immediate (04 R101). -/
def execXorImm (d a : SReg) (imm : Int) (s : State) : Host.Outcome State Fault Refusal :=
  runSlot (.xorImm d a imm) s fun s => aluImmBody .xor d a imm s

/-- ANDN with an immediate (04 R101). -/
def execAndnImm (d a : SReg) (imm : Int) (s : State) : Host.Outcome State Fault Refusal :=
  runSlot (.andnImm d a imm) s fun s => aluImmBody .andn d a imm s

/-- MIN with an immediate (04 R101). -/
def execMinImm (d a : SReg) (imm : Int) (s : State) : Host.Outcome State Fault Refusal :=
  runSlot (.minImm d a imm) s fun s => aluImmBody .min d a imm s

/-- MAX with an immediate (04 R101). -/
def execMaxImm (d a : SReg) (imm : Int) (s : State) : Host.Outcome State Fault Refusal :=
  runSlot (.maxImm d a imm) s fun s => aluImmBody .max d a imm s

/-- MINN with a natural immediate (04 R101). -/
def execMinnImm (d a : SReg) (imm : Nat) (s : State) : Host.Outcome State Fault Refusal :=
  runSlot (.minnImm d a imm) s fun s => aluImmBody .minn d a imm s

/-- MAXN with a natural immediate (04 R101). -/
def execMaxnImm (d a : SReg) (imm : Nat) (s : State) : Host.Outcome State Fault Refusal :=
  runSlot (.maxnImm d a imm) s fun s => aluImmBody .maxn d a imm s

/-- SHL by an immediate (04 R101). -/
def execShlImm (d a : SReg) (sh : Fin 64) (s : State) : Host.Outcome State Fault Refusal :=
  runSlot (.shlImm d a sh) s fun s => aluImmBody .shl d a sh.val s

/-- SHR by an immediate (04 R101). -/
def execShrImm (d a : SReg) (sh : Fin 64) (s : State) : Host.Outcome State Fault Refusal :=
  runSlot (.shrImm d a sh) s fun s => aluImmBody .shr d a sh.val s

/-- SRA by an immediate (04 R101). -/
def execSraImm (d a : SReg) (sh : Fin 64) (s : State) : Host.Outcome State Fault Refusal :=
  runSlot (.sraImm d a sh) s fun s => aluImmBody .sra d a sh.val s

/-- ROTL by an immediate (04 R101). -/
def execRotlImm (d a : SReg) (sh : Fin 64) (s : State) : Host.Outcome State Fault Refusal :=
  runSlot (.rotlImm d a sh) s fun s => aluImmBody .rotl d a sh.val s

/-- MOVI (04 R102). -/
def execMovi (d : SReg) (imm : Int) (s : State) : Host.Outcome State Fault Refusal :=
  runSlot (.movi d imm) s fun s => .done (wrS s d (BitVec.ofInt 64 imm))

/-- MOVHI writes one 16-bit lane of D and keeps the rest (04 R103). -/
def execMovhi (d : SReg) (h : Fin 4) (lit : Fin 65536) (s : State) : Host.Outcome State Fault Refusal :=
  runSlot (.movhi d h lit) s fun s =>
    .done (wrS s d (BitVec.ofNat 64 (setBits (rdS s (oldS s d)).toNat (16 * h.val) 16 lit.val)))

/-- CMP.EQ (04 R104). -/
def execCmpEq (p : PReg) (a b : SReg) (w : Bool) (s : State) : Host.Outcome State Fault Refusal :=
  runSlot (.cmpEq p a b w) s fun s => cmpBody .eq w p a b s

/-- CMP.NE (04 R104). -/
def execCmpNe (p : PReg) (a b : SReg) (w : Bool) (s : State) : Host.Outcome State Fault Refusal :=
  runSlot (.cmpNe p a b w) s fun s => cmpBody .ne w p a b s

/-- CMP.LT (04 R104). -/
def execCmpLt (p : PReg) (a b : SReg) (w : Bool) (s : State) : Host.Outcome State Fault Refusal :=
  runSlot (.cmpLt p a b w) s fun s => cmpBody .lt w p a b s

/-- CMP.GE (04 R104). -/
def execCmpGe (p : PReg) (a b : SReg) (w : Bool) (s : State) : Host.Outcome State Fault Refusal :=
  runSlot (.cmpGe p a b w) s fun s => cmpBody .ge w p a b s

/-- CMP.LTN (04 R104). -/
def execCmpLtn (p : PReg) (a b : SReg) (w : Bool) (s : State) : Host.Outcome State Fault Refusal :=
  runSlot (.cmpLtn p a b w) s fun s => cmpBody .ltn w p a b s

/-- CMP.GEN (04 R104). -/
def execCmpGen (p : PReg) (a b : SReg) (w : Bool) (s : State) : Host.Outcome State Fault Refusal :=
  runSlot (.cmpGen p a b w) s fun s => cmpBody .gen w p a b s

/-- SEL (04 R105). -/
def execSel (d a b : SReg) (p : PReg) (s : State) : Host.Outcome State Fault Refusal :=
  runSlot (.sel d a b p) s fun s => .done (wrS s d (if rdP s p then rdS s a else rdS s b))

/-- BFX (04 R106). -/
def execBfx (d a : SReg) (pos lm1 : Fin 64) (sx : Bool) (s : State) : Host.Outcome State Fault Refusal :=
  runSlot (.bfx d a pos lm1 sx) s fun s =>
    let f := bits (rdS s a).toNat pos.val (lm1.val + 1)
    .done (wrS s d (if sx then BitVec.ofInt 64 (toSigned (lm1.val + 1) f) else BitVec.ofNat 64 f))

/-- BFI (04 R106). -/
def execBfi (d a : SReg) (pos lm1 : Fin 64) (s : State) : Host.Outcome State Fault Refusal :=
  runSlot (.bfi d a pos lm1) s fun s =>
    .done (wrS s d (BitVec.ofNat 64 (setBits (rdS s (oldS s d)).toNat pos.val (lm1.val + 1) (rdS s a).toNat)))

/-- LEA (04 R107). -/
def execLea (d a b : SReg) (sh : Fin 8) (s : State) : Host.Outcome State Fault Refusal :=
  runSlot (.lea d a b sh) s fun s => .done (wrS s d (rdS s a + rdS s b <<< sh.val))

/-- PAND (04 R110). -/
def execPand (d a b : PReg) (s : State) : Host.Outcome State Fault Refusal :=
  runSlot (.pand d a b) s fun s => .done (wrP s d (rdP s a && rdP s b))

/-- POR (04 R110). -/
def execPor (d a b : PReg) (s : State) : Host.Outcome State Fault Refusal :=
  runSlot (.por d a b) s fun s => .done (wrP s d (rdP s a || rdP s b))

/-- PXOR (04 R110). -/
def execPxor (d a b : PReg) (s : State) : Host.Outcome State Fault Refusal :=
  runSlot (.pxor d a b) s fun s => .done (wrP s d (rdP s a ^^ rdP s b))

/-- PANDN (04 R110). -/
def execPandn (d a b : PReg) (s : State) : Host.Outcome State Fault Refusal :=
  runSlot (.pandn d a b) s fun s => .done (wrP s d (rdP s a && !rdP s b))

/-- PNOT (04 R110). -/
def execPnot (d a : PReg) (s : State) : Host.Outcome State Fault Refusal :=
  runSlot (.pnot d a) s fun s => .done (wrP s d (!rdP s a))

/-- PMOV (04 R110). -/
def execPmov (d a : PReg) (s : State) : Host.Outcome State Fault Refusal :=
  runSlot (.pmov d a) s fun s => .done (wrP s d (rdP s a))

end Sys2Proof.Machine
end

