-- ==== Sys2Proof/Machine/Vector.lean ====
section
/-! DEFINITION. Vector, mask and crossbar instructions (05 R132 to R146). -/
namespace Sys2Proof.Machine

/-- Element i of a register seen as elements of w bits (05 R132). -/
def elemAt (v : BitVec 16384) (w i : Nat) : Nat := bits v.toNat (w * i) w

/-- Elements of w bits, in order, as a number. -/
def joinElems (w : Nat) : List Nat → Nat
  | [] => 0
  | x :: l => x % 2 ^ w + 2 ^ w * joinElems w l

/-- The elements of a register: n of w bits from a number. -/
def splitElems (w : Nat) : Nat → Nat → List Nat
  | 0, _ => []
  | n + 1, v => v % 2 ^ w :: splitElems w n (v / 2 ^ w)

/-- Whether element i is active under a merge mask; MK = 0 makes every element active (05 R134). -/
def active (s : State) (mk : MReg) (i : Nat) : Bool := mk.val == 0 || (rdM s mk).getLsbD i

/-- The element-wise result of an operation over n elements of w bits (05 R134): inactive elements keep the old
value and raise no flag. -/
def mapElems (s : State) (mk : MReg) (w n : Nat) (old : BitVec 16384) (f : Nat → FR) : Nat × Flags :=
  let rs := (List.range n).map fun i => if active s mk i then f i else { bits := elemAt old w i }
  (joinElems w (rs.map FR.bits), rs.foldl (fun a r => a ||| r.flags) 0)

/-- The end of an element-wise slot: D's elements, its sidecar unchanged (02 R40), and the flags. -/
def vecDone (s : State) (d : VIdx) (r : Nat × Flags) : SlotEnd :=
  finishFlags (wrVElems s d (BitVec.ofNat 16384 r.1)) s r.2

/-- An element-wise slot in the present VSHAPE, of two vector operands and the old element of D (of the original's D where
the slot is a duplicate, 03 R89). An inactive element keeps the value of the slot's own D (05 R134). -/
def vecBody (d a b : VIdx) (mk : MReg) (f : Nat → Nat → Nat → FR) (s : State) : SlotEnd :=
  let w := 8 * s.src.ebytes
  let va := (rdV s a).elems
  let vb := (rdV s b).elems
  let vo := (rdV s (oldV s d)).elems
  vecDone s d (mapElems s mk w s.src.elems (rdV s d).elems fun i => f (elemAt va w i) (elemAt vb w i) (elemAt vo w i))

/-- The element width in bits. -/
def ewBits (s : State) : Nat := 8 * s.src.ebytes
/-- The FP format of the present element size (05 R137). -/
def ewFmt (s : State) : Fmt := if s.src.ew = 3 then .f64 else .f32

/-- VADD and VSUB with saturation (05 R136). -/
def satAdd (w : Nat) (sub nat : Bool) (a b : Nat) : FR :=
  let t : IntTy := { width := w, signed := !nat }
  let v := if sub then t.val a - t.val b else t.val a + t.val b
  let (c, sat) := t.clamp v
  { bits := ofInt w c, flags := if sat then flagSAT else 0 }

/-- VADD (05 R136). -/
def execVadd (d a b : VIdx) (sat nat : Bool) (mk : MReg) (s : State) : Host.Outcome State Fault Refusal :=
  runSlot (.vadd d a b sat nat mk) s fun s =>
    vecBody d a b mk (fun x y _ => if sat then satAdd (ewBits s) false nat x y else { bits := IntOp.add.eval (ewBits s) x y }) s

/-- VSUB (05 R136). -/
def execVsub (d a b : VIdx) (sat nat : Bool) (mk : MReg) (s : State) : Host.Outcome State Fault Refusal :=
  runSlot (.vsub d a b sat nat mk) s fun s =>
    vecBody d a b mk (fun x y _ => if sat then satAdd (ewBits s) true nat x y else { bits := IntOp.sub.eval (ewBits s) x y }) s

/-- VMUL (05 R136). -/
def execVmul (d a b : VIdx) (mk : MReg) (s : State) : Host.Outcome State Fault Refusal :=
  runSlot (.vmul d a b mk) s fun s => vecBody d a b mk (fun x y _ => { bits := IntOp.mul.eval (ewBits s) x y }) s

/-- VMULH (05 R136). -/
def execVmulh (d a b : VIdx) (mk : MReg) (s : State) : Host.Outcome State Fault Refusal :=
  runSlot (.vmulh d a b mk) s fun s => vecBody d a b mk (fun x y _ => { bits := IntOp.mulh.eval (ewBits s) x y }) s

/-- VMULHN (05 R136). -/
def execVmulhn (d a b : VIdx) (mk : MReg) (s : State) : Host.Outcome State Fault Refusal :=
  runSlot (.vmulhn d a b mk) s fun s => vecBody d a b mk (fun x y _ => { bits := IntOp.mulhn.eval (ewBits s) x y }) s

/-- VDIV (05 R136). -/
def execVdiv (d a b : VIdx) (mk : MReg) (s : State) : Host.Outcome State Fault Refusal :=
  runSlot (.vdiv d a b mk) s fun s => vecBody d a b mk (fun x y _ => { bits := IntOp.div.eval (ewBits s) x y }) s

/-- VDIVN (05 R136). -/
def execVdivn (d a b : VIdx) (mk : MReg) (s : State) : Host.Outcome State Fault Refusal :=
  runSlot (.vdivn d a b mk) s fun s => vecBody d a b mk (fun x y _ => { bits := IntOp.divn.eval (ewBits s) x y }) s

/-- VREM (05 R136). -/
def execVrem (d a b : VIdx) (mk : MReg) (s : State) : Host.Outcome State Fault Refusal :=
  runSlot (.vrem d a b mk) s fun s => vecBody d a b mk (fun x y _ => { bits := IntOp.rem.eval (ewBits s) x y }) s

/-- VREMN (05 R136). -/
def execVremn (d a b : VIdx) (mk : MReg) (s : State) : Host.Outcome State Fault Refusal :=
  runSlot (.vremn d a b mk) s fun s => vecBody d a b mk (fun x y _ => { bits := IntOp.remn.eval (ewBits s) x y }) s

/-- VAND (05 R136). -/
def execVand (d a b : VIdx) (mk : MReg) (s : State) : Host.Outcome State Fault Refusal :=
  runSlot (.vand d a b mk) s fun s => vecBody d a b mk (fun x y _ => { bits := IntOp.and.eval (ewBits s) x y }) s

/-- VOR (05 R136). -/
def execVor (d a b : VIdx) (mk : MReg) (s : State) : Host.Outcome State Fault Refusal :=
  runSlot (.vor d a b mk) s fun s => vecBody d a b mk (fun x y _ => { bits := IntOp.or.eval (ewBits s) x y }) s

/-- VXOR (05 R136). -/
def execVxor (d a b : VIdx) (mk : MReg) (s : State) : Host.Outcome State Fault Refusal :=
  runSlot (.vxor d a b mk) s fun s => vecBody d a b mk (fun x y _ => { bits := IntOp.xor.eval (ewBits s) x y }) s

/-- VANDN (05 R136). -/
def execVandn (d a b : VIdx) (mk : MReg) (s : State) : Host.Outcome State Fault Refusal :=
  runSlot (.vandn d a b mk) s fun s => vecBody d a b mk (fun x y _ => { bits := IntOp.andn.eval (ewBits s) x y }) s

/-- VSHL (05 R136). -/
def execVshl (d a b : VIdx) (mk : MReg) (s : State) : Host.Outcome State Fault Refusal :=
  runSlot (.vshl d a b mk) s fun s => vecBody d a b mk (fun x y _ => { bits := IntOp.shl.eval (ewBits s) x y }) s

/-- VSHR (05 R136). -/
def execVshr (d a b : VIdx) (mk : MReg) (s : State) : Host.Outcome State Fault Refusal :=
  runSlot (.vshr d a b mk) s fun s => vecBody d a b mk (fun x y _ => { bits := IntOp.shr.eval (ewBits s) x y }) s

/-- VSRA (05 R136). -/
def execVsra (d a b : VIdx) (mk : MReg) (s : State) : Host.Outcome State Fault Refusal :=
  runSlot (.vsra d a b mk) s fun s => vecBody d a b mk (fun x y _ => { bits := IntOp.sra.eval (ewBits s) x y }) s

/-- VROTL (05 R136). -/
def execVrotl (d a b : VIdx) (mk : MReg) (s : State) : Host.Outcome State Fault Refusal :=
  runSlot (.vrotl d a b mk) s fun s => vecBody d a b mk (fun x y _ => { bits := IntOp.rotl.eval (ewBits s) x y }) s

/-- VMIN (05 R136). -/
def execVmin (d a b : VIdx) (mk : MReg) (s : State) : Host.Outcome State Fault Refusal :=
  runSlot (.vmin d a b mk) s fun s => vecBody d a b mk (fun x y _ => { bits := IntOp.min.eval (ewBits s) x y }) s

/-- VMINN (05 R136). -/
def execVminn (d a b : VIdx) (mk : MReg) (s : State) : Host.Outcome State Fault Refusal :=
  runSlot (.vminn d a b mk) s fun s => vecBody d a b mk (fun x y _ => { bits := IntOp.minn.eval (ewBits s) x y }) s

/-- VMAX (05 R136). -/
def execVmax (d a b : VIdx) (mk : MReg) (s : State) : Host.Outcome State Fault Refusal :=
  runSlot (.vmax d a b mk) s fun s => vecBody d a b mk (fun x y _ => { bits := IntOp.max.eval (ewBits s) x y }) s

/-- VMAXN (05 R136). -/
def execVmaxn (d a b : VIdx) (mk : MReg) (s : State) : Host.Outcome State Fault Refusal :=
  runSlot (.vmaxn d a b mk) s fun s => vecBody d a b mk (fun x y _ => { bits := IntOp.maxn.eval (ewBits s) x y }) s

/-- VCLZ (05 R136). -/
def execVclz (d a : VIdx) (mk : MReg) (s : State) : Host.Outcome State Fault Refusal :=
  runSlot (.vclz d a mk) s fun s => vecBody d a a mk (fun x _ _ => { bits := IntOp.clz.eval (ewBits s) x 0 }) s

/-- VCTZ (05 R136). -/
def execVctz (d a : VIdx) (mk : MReg) (s : State) : Host.Outcome State Fault Refusal :=
  runSlot (.vctz d a mk) s fun s => vecBody d a a mk (fun x _ _ => { bits := IntOp.ctz.eval (ewBits s) x 0 }) s

/-- VPOPC (05 R136). -/
def execVpopc (d a : VIdx) (mk : MReg) (s : State) : Host.Outcome State Fault Refusal :=
  runSlot (.vpopc d a mk) s fun s => vecBody d a a mk (fun x _ _ => { bits := IntOp.popc.eval (ewBits s) x 0 }) s

/-- VFADD (05 R137). -/
def execVfadd (d a b : VIdx) (rm : Rm) (mk : MReg) (s : State) : Host.Outcome State Fault Refusal :=
  runSlot (.vfadd d a b rm mk) s fun s => vecBody d a b mk (fun x y _ => fadd (ewFmt s) (rmMode rm s) x y) s

/-- VFSUB (05 R137). -/
def execVfsub (d a b : VIdx) (rm : Rm) (mk : MReg) (s : State) : Host.Outcome State Fault Refusal :=
  runSlot (.vfsub d a b rm mk) s fun s => vecBody d a b mk (fun x y _ => fsub (ewFmt s) (rmMode rm s) x y) s

/-- VFMUL (05 R137). -/
def execVfmul (d a b : VIdx) (rm : Rm) (mk : MReg) (s : State) : Host.Outcome State Fault Refusal :=
  runSlot (.vfmul d a b rm mk) s fun s => vecBody d a b mk (fun x y _ => fmul (ewFmt s) (rmMode rm s) x y) s

/-- VFDIV (05 R137). -/
def execVfdiv (d a b : VIdx) (rm : Rm) (mk : MReg) (s : State) : Host.Outcome State Fault Refusal :=
  runSlot (.vfdiv d a b rm mk) s fun s => vecBody d a b mk (fun x y _ => fdiv (ewFmt s) (rmMode rm s) x y) s

/-- VFMA reads the old element of D (05 R137). -/
def execVfma (d a b : VIdx) (rm : Rm) (mk : MReg) (s : State) : Host.Outcome State Fault Refusal :=
  runSlot (.vfma d a b rm mk) s fun s => vecBody d a b mk (fun x y z => fma (ewFmt s) (rmMode rm s) x y z) s

/-- VFMS reads the old element of D (05 R137). -/
def execVfms (d a b : VIdx) (rm : Rm) (mk : MReg) (s : State) : Host.Outcome State Fault Refusal :=
  runSlot (.vfms d a b rm mk) s fun s => vecBody d a b mk (fun x y z => fms (ewFmt s) (rmMode rm s) x y z) s

/-- VFNMA reads the old element of D (05 R137). -/
def execVfnma (d a b : VIdx) (rm : Rm) (mk : MReg) (s : State) : Host.Outcome State Fault Refusal :=
  runSlot (.vfnma d a b rm mk) s fun s => vecBody d a b mk (fun x y z => fnma (ewFmt s) (rmMode rm s) x y z) s

/-- VFSQRT (05 R137). -/
def execVfsqrt (d a : VIdx) (rm : Rm) (mk : MReg) (s : State) : Host.Outcome State Fault Refusal :=
  runSlot (.vfsqrt d a rm mk) s fun s => vecBody d a a mk (fun x _ _ => fsqrt (ewFmt s) (rmMode rm s) x) s

/-- VFMIN (05 R137, 02 R52). -/
def execVfmin (d a b : VIdx) (mk : MReg) (s : State) : Host.Outcome State Fault Refusal :=
  runSlot (.vfmin d a b mk) s fun s => vecBody d a b mk (fun x y _ => fminmax (ewFmt s) false x y) s

/-- VFMAX (05 R137, 02 R52). -/
def execVfmax (d a b : VIdx) (mk : MReg) (s : State) : Host.Outcome State Fault Refusal :=
  runSlot (.vfmax d a b mk) s fun s => vecBody d a b mk (fun x y _ => fminmax (ewFmt s) true x y) s

/-- VFNEG copies bits (05 R137). -/
def execVfneg (d a : VIdx) (mk : MReg) (s : State) : Host.Outcome State Fault Refusal :=
  runSlot (.vfneg d a mk) s fun s => vecBody d a a mk (fun x _ _ => { bits := withSign (ewFmt s) x (!testBit x (ewFmt s).signPos) }) s

/-- VFABS copies bits (05 R137). -/
def execVfabs (d a : VIdx) (mk : MReg) (s : State) : Host.Outcome State Fault Refusal :=
  runSlot (.vfabs d a mk) s fun s => vecBody d a a mk (fun x _ _ => { bits := withSign (ewFmt s) x false }) s

/-- VFMOV copies bits (05 R137). -/
def execVfmov (d a : VIdx) (mk : MReg) (s : State) : Host.Outcome State Fault Refusal :=
  runSlot (.vfmov d a mk) s fun s => vecBody d a a mk (fun x _ _ => { bits := x }) s

/-- VFCPSGN copies bits (05 R137). -/
def execVfcpsgn (d a b : VIdx) (mk : MReg) (s : State) : Host.Outcome State Fault Refusal :=
  runSlot (.vfcpsgn d a b mk) s fun s =>
    vecBody d a b mk (fun x y _ => { bits := withSign (ewFmt s) x (testBit y (ewFmt s).signPos) }) s

/-- VFEXP (05 R138). -/
def execVfexp (d a : VIdx) (rm : Rm) (mk : MReg) (s : State) : Host.Outcome State Fault Refusal :=
  runSlot (.vfexp d a rm mk) s fun s => vecBody d a a mk (fun x _ _ => exactFn .exp (ewFmt s) (rmMode rm s) x) s

/-- VFEXP2 (05 R138). -/
def execVfexp2 (d a : VIdx) (rm : Rm) (mk : MReg) (s : State) : Host.Outcome State Fault Refusal :=
  runSlot (.vfexp2 d a rm mk) s fun s => vecBody d a a mk (fun x _ _ => exactFn .exp2 (ewFmt s) (rmMode rm s) x) s

/-- VFLOG (05 R138). -/
def execVflog (d a : VIdx) (rm : Rm) (mk : MReg) (s : State) : Host.Outcome State Fault Refusal :=
  runSlot (.vflog d a rm mk) s fun s => vecBody d a a mk (fun x _ _ => exactFn .log (ewFmt s) (rmMode rm s) x) s

/-- VFLOG2 (05 R138). -/
def execVflog2 (d a : VIdx) (rm : Rm) (mk : MReg) (s : State) : Host.Outcome State Fault Refusal :=
  runSlot (.vflog2 d a rm mk) s fun s => vecBody d a a mk (fun x _ _ => exactFn .log2 (ewFmt s) (rmMode rm s) x) s

/-- VFERF (05 R138). -/
def execVferf (d a : VIdx) (rm : Rm) (mk : MReg) (s : State) : Host.Outcome State Fault Refusal :=
  runSlot (.vferf d a rm mk) s fun s => vecBody d a a mk (fun x _ _ => exactFn .erf (ewFmt s) (rmMode rm s) x) s

/-- VFERFC (05 R138). -/
def execVferfc (d a : VIdx) (rm : Rm) (mk : MReg) (s : State) : Host.Outcome State Fault Refusal :=
  runSlot (.vferfc d a rm mk) s fun s => vecBody d a a mk (fun x _ _ => exactFn .erfc (ewFmt s) (rmMode rm s) x) s

/-- VFRCP (05 R138). -/
def execVfrcp (d a : VIdx) (rm : Rm) (mk : MReg) (s : State) : Host.Outcome State Fault Refusal :=
  runSlot (.vfrcp d a rm mk) s fun s => vecBody d a a mk (fun x _ _ => frcp (ewFmt s) x) s

/-- VFRSQ (05 R138). -/
def execVfrsq (d a : VIdx) (rm : Rm) (mk : MReg) (s : State) : Host.Outcome State Fault Refusal :=
  runSlot (.vfrsq d a rm mk) s fun s => vecBody d a a mk (fun x _ _ => frsq (ewFmt s) x) s

/-- VFRCPS (05 R138, 02 R61). -/
def execVfrcps (d a b : VIdx) (rm : Rm) (mk : MReg) (s : State) : Host.Outcome State Fault Refusal :=
  runSlot (.vfrcps d a b rm mk) s fun s => vecBody d a b mk (fun x y _ => newton (ewFmt s) (rmMode rm s) 2 false x y) s

/-- VFRSQS (05 R138, 02 R61). -/
def execVfrsqs (d a b : VIdx) (rm : Rm) (mk : MReg) (s : State) : Host.Outcome State Fault Refusal :=
  runSlot (.vfrsqs d a b rm mk) s fun s => vecBody d a b mk (fun x y _ => newton (ewFmt s) (rmMode rm s) 3 true x y) s

/-- The types of a VCVT code, destination first (05 R140). -/
def cvTypes : Nat → NumTy × NumTy
  | 0x00 => (.fp .f32, iTy 32)
  | 0x01 => (.fp .f32, nTy 32)
  | 0x02 => (iTy 32, .fp .f32)
  | 0x03 => (nTy 32, .fp .f32)
  | 0x04 => (.fp .f64, iTy 64)
  | 0x05 => (.fp .f64, nTy 64)
  | 0x06 => (iTy 64, .fp .f64)
  | 0x07 => (nTy 64, .fp .f64)
  | 0x08 => (.fp .bf16, .fp .f16)
  | 0x09 => (.fp .f16, .fp .bf16)
  | 0x0A => (.fp .f16, iTy 16)
  | 0x0B => (iTy 16, .fp .f16)
  | 0x0C => (.fp .e4m3, .fp .e5m2)
  | 0x0D => (.fp .e5m2, .fp .e4m3)
  | 0x0E => (iTy 32, nTy 32)
  | _ => (nTy 32, iTy 32)

/-- The wide and narrow types of a pack code (05 R141). -/
def pcTypes : Nat → NumTy × NumTy
  | 0x00 => (.fp .f32, .fp .bf16)
  | 0x01 => (.fp .f32, .fp .f16)
  | 0x02 => (.fp .f32, .fp .e4m3)
  | 0x03 => (.fp .f32, .fp .e5m2)
  | 0x04 => (.fp .f32, .fp .e2m1)
  | 0x05 => (.fp .f32, iTy 16)
  | 0x06 => (.fp .f32, iTy 8)
  | 0x07 => (.fp .f32, nTy 8)
  | 0x09 => (.fp .f64, .fp .f32)
  | 0x0A => (.fp .f64, .fp .bf16)
  | 0x0B => (.fp .f64, .fp .f16)
  | 0x0C => (iTy 32, iTy 16)
  | 0x0D => (iTy 32, iTy 8)
  | 0x0E => (nTy 32, nTy 16)
  | 0x0F => (nTy 32, nTy 8)
  | 0x10 => (iTy 64, iTy 32)
  | 0x11 => (nTy 64, nTy 32)
  | 0x12 => (iTy 16, iTy 8)
  | _ => (nTy 16, nTy 8)

/-- The format code of an MX conversion code (05 R142). -/
def xcFormat : Nat → Nat
  | 0 => 0x10
  | 1 => 0x11
  | 2 => 0x14
  | _ => 0x15

/-- VCVT (05 R140). -/
def execVcvt (d a : VIdx) (cc : Fin 32) (rm : Rm) (mk : MReg) (s : State) : Host.Outcome State Fault Refusal :=
  runSlot (.vcvt d a cc rm mk) s fun s =>
    let (dst, src) := cvTypes cc.val
    let w := dst.width
    let va := (rdV s a).elems
    vecDone s d (mapElems s mk w (16384 / w) (rdV s d).elems fun i =>
      convertNum src dst (rmMode rm s) s.src.nbv (elemAt va w i))

/-- VPACK (05 R141): narrow elements PART * n upward of D; the others keep their value. -/
def execVpack (d a : VIdx) (cc : Fin 32) (rm : Rm) (part : Fin 8) (s : State) : Host.Outcome State Fault Refusal :=
  runSlot (.vpack d a cc rm part) s fun s =>
    let (wide, narrow) := pcTypes cc.val
    let n := 16384 / wide.width
    let va := (rdV s a).elems
    let rs := (List.range n).map fun i => convertNum wide narrow (rmMode rm s) s.src.nbv (elemAt va wide.width i)
    let old := (rdV s (oldV s d)).elems.toNat
    vecDone s d (setBits old (narrow.width * part.val * n) (narrow.width * n)
      (joinElems narrow.width (rs.map FR.bits)), rs.foldl (fun x r => x ||| r.flags) 0)

/-- VUNPACK (05 R141). -/
def execVunpack (d a : VIdx) (cc : Fin 32) (part : Fin 8) (s : State) : Host.Outcome State Fault Refusal :=
  runSlot (.vunpack d a cc part) s fun s =>
    let (wide, narrow) := pcTypes cc.val
    let n := 16384 / wide.width
    let va := (rdV s a).elems
    let rs := (List.range n).map fun i =>
      convertNum narrow wide .rne s.src.nbv (elemAt va narrow.width (part.val * n + i))
    vecDone s d (joinElems wide.width (rs.map FR.bits), rs.foldl (fun x r => x ||| r.flags) 0)

/-- VMXNORM (05 R142): the elements and sidecar bytes of part PART of D. -/
def execVmxnorm (d a : VIdx) (cc : Fin 32) (rm : Rm) (part : Fin 8) (s : State) : Host.Outcome State Fault Refusal :=
  runSlot (.vmxnorm d a cc rm part) s fun s =>
    match mxElem (xcFormat cc.val) with
    | none => .done s
    | some (t, emax) =>
      let va := (rdV s a).elems
      let blocks := (List.range 16).map fun j =>
        mxNorm t emax (rmMode rm s) s.src.nbv ((List.range 32).map fun i => Fmt.f32.unpack (elemAt va 32 (32 * j + i)))
      let old := rdV s (oldV s d)
      let els := joinElems t.width (blocks.flatMap fun b => b.2.1)
      let sc := joinElems 8 (blocks.map fun b => b.1)
      finishFlags
        (wrV s d { elems := BitVec.ofNat 16384 (setBits old.elems.toNat (t.width * 512 * part.val) (t.width * 512) els),
                   side := BitVec.ofNat 1024 (setBits old.side.toNat (128 * part.val) 128 sc) })
        s (blocks.foldl (fun x b => x ||| b.2.2) 0)

/-- VMXSCALE (05 R142). -/
def execVmxscale (d a : VIdx) (cc : Fin 32) (rm : Rm) (part : Fin 8) (s : State) : Host.Outcome State Fault Refusal :=
  runSlot (.vmxscale d a cc rm part) s fun s =>
    match mxElem (xcFormat cc.val) with
    | none => .done s
    | some (t, _) =>
      let va := rdV s a
      let rs := (List.range 512).map fun i =>
        mxScale t (rmMode rm s) (bits va.side.toNat (8 * ((part.val * 512 + i) / 32)) 8)
          (elemAt va.elems t.width (part.val * 512 + i))
      vecDone s d (joinElems 32 (rs.map FR.bits), rs.foldl (fun x r => x ||| r.flags) 0)

/-- The present elements among cols elements from one position, absent where the mask leaves them (05 R143). -/
def redItems (s : State) (a : VIdx) (mk : MReg) (lo cols : Nat) : List (Option Nat) :=
  let w := ewBits s
  let va := (rdV s a).elems
  (List.range cols).map fun i => if active s mk (lo + i) then some (elemAt va w (lo + i)) else none

/-- A reduction (05 R143): of all elements into a scalar, held as the type says, or of each row into an element of a
vector whose other elements keep their value. red takes the items and the width of the result. -/
def redBody (d : SReg) (a : VIdx) (row : Bool) (mk : MReg) (sx : Bool) (red : List (Option Nat) → Nat → FR)
    (s : State) : SlotEnd :=
  let w := ewBits s
  if row then
    let rows := 2 ^ s.src.rowl2
    let cols := s.src.elems / rows
    let rs := (List.range rows).map fun j => red (redItems s a mk (j * cols) cols) w
    let dv := lowV d
    let old := (rdV s (oldV s dv)).elems.toNat
    vecDone s dv (setBits old 0 (w * rows) (joinElems w (rs.map FR.bits)), rs.foldl (fun x r => x ||| r.flags) 0)
  else
    let r := red (redItems s a mk 0 s.src.elems) 64
    finishFlags (wrS s d (if sx then BitVec.ofInt 64 (toSigned w r.bits) else BitVec.ofNat 64 r.bits)) s r.flags

/-- VRED.FSUM (05 R143, 02 R62, R63). -/
def execVredFsum (d : SReg) (a : VIdx) (row : Bool) (rm : Rm) (mk : MReg) (s : State) :
    Host.Outcome State Fault Refusal :=
  runSlot (.vredFsum d a row rm mk) s fun s =>
    redBody d a row mk false (fun l _ => fpSum (ewFmt s) (rmMode rm s) s.src.nbv l) s

/-- VRED.FMIN (05 R143). -/
def execVredFmin (d : SReg) (a : VIdx) (row : Bool) (mk : MReg) (s : State) : Host.Outcome State Fault Refusal :=
  runSlot (.vredFmin d a row mk) s fun s => redBody d a row mk false (fun l _ => fpMinMax (ewFmt s) false l) s

/-- VRED.FMAX (05 R143). -/
def execVredFmax (d : SReg) (a : VIdx) (row : Bool) (mk : MReg) (s : State) : Host.Outcome State Fault Refusal :=
  runSlot (.vredFmax d a row mk) s fun s => redBody d a row mk false (fun l _ => fpMinMax (ewFmt s) true l) s

/-- An integer sum formed exactly, then wrapped or saturated once to wr bits (05 R143). -/
def isum (w wr : Nat) (sat nat : Bool) (l : List (Option Nat)) : FR :=
  let src : IntTy := { width := w, signed := !nat }
  let dst : IntTy := { width := wr, signed := !nat }
  let v := ((l.filterMap id).map src.val).sum
  if sat then
    let (c, clamped) := dst.clamp v
    { bits := ofInt wr c, flags := if clamped then flagSAT else 0 }
  else { bits := ofInt wr v }

/-- VRED.ISUM (05 R143). -/
def execVredIsum (d : SReg) (a : VIdx) (row sat nat : Bool) (mk : MReg) (s : State) :
    Host.Outcome State Fault Refusal :=
  runSlot (.vredIsum d a row sat nat mk) s fun s =>
    redBody d a row mk false (fun l wr => isum (ewBits s) wr sat nat l) s

/-- The integer extreme over the elements present, with its empty value (05 R143). -/
def iextreme (op : IntOp) (w empty : Nat) (l : List (Option Nat)) : FR :=
  { bits := (treeReduce (fun a b => op.eval w a b) l).getD empty }

/-- VRED.IMIN (05 R143). -/
def execVredImin (d : SReg) (a : VIdx) (row : Bool) (mk : MReg) (s : State) : Host.Outcome State Fault Refusal :=
  runSlot (.vredImin d a row mk) s fun s =>
    redBody d a row mk true (fun l _ => iextreme .min (ewBits s) (2 ^ (ewBits s - 1) - 1) l) s

/-- VRED.IMAX (05 R143). -/
def execVredImax (d : SReg) (a : VIdx) (row : Bool) (mk : MReg) (s : State) : Host.Outcome State Fault Refusal :=
  runSlot (.vredImax d a row mk) s fun s =>
    redBody d a row mk true (fun l _ => iextreme .max (ewBits s) (2 ^ (ewBits s - 1)) l) s

/-- VRED.NMIN (05 R143). -/
def execVredNmin (d : SReg) (a : VIdx) (row : Bool) (mk : MReg) (s : State) : Host.Outcome State Fault Refusal :=
  runSlot (.vredNmin d a row mk) s fun s =>
    redBody d a row mk false (fun l _ => iextreme .minn (ewBits s) (2 ^ ewBits s - 1) l) s

/-- VRED.NMAX (05 R143). -/
def execVredNmax (d : SReg) (a : VIdx) (row : Bool) (mk : MReg) (s : State) : Host.Outcome State Fault Refusal :=
  runSlot (.vredNmax d a row mk) s fun s =>
    redBody d a row mk false (fun l _ => iextreme .maxn (ewBits s) (0) l) s

/-- VMOV copies bits; without a mask it copies the sidecar too (05 R144). -/
def execVmov (d a : VIdx) (mk : MReg) (s : State) : Host.Outcome State Fault Refusal :=
  runSlot (.vmov d a mk) s fun s =>
    if mk.val = 0 then .done (wrV s d (rdV s a)) else vecBody d a a mk (fun x _ _ => { bits := x }) s

/-- VBCAST (05 R144). -/
def execVbcast (d : VIdx) (a : SReg) (mk : MReg) (s : State) : Host.Outcome State Fault Refusal :=
  runSlot (.vbcast d a mk) s fun s => vecBody d d d mk (fun _ _ _ => { bits := (rdS s a).toNat % 2 ^ ewBits s }) s

/-- VEXTR (05 R144). -/
def execVextr (d : SReg) (a : VIdx) (b : SReg) (s : State) : Host.Outcome State Fault Refusal :=
  runSlot (.vextr d a b) s fun s =>
    let k := (rdS s b).toNat
    .done (wrS s d (if k < s.src.elems then BitVec.ofNat 64 (elemAt (rdV s a).elems (ewBits s) k) else 0))

/-- MAND (05 R145). -/
def execMand (d a b : MReg) (s : State) : Host.Outcome State Fault Refusal :=
  runSlot (.mand d a b) s fun s => .done (wrM s d (rdM s a &&& rdM s b))

/-- MOR (05 R145). -/
def execMor (d a b : MReg) (s : State) : Host.Outcome State Fault Refusal :=
  runSlot (.mor d a b) s fun s => .done (wrM s d (rdM s a ||| rdM s b))

/-- MXOR (05 R145). -/
def execMxor (d a b : MReg) (s : State) : Host.Outcome State Fault Refusal :=
  runSlot (.mxor d a b) s fun s => .done (wrM s d (rdM s a ^^^ rdM s b))

/-- MANDN (05 R145). -/
def execMandn (d a b : MReg) (s : State) : Host.Outcome State Fault Refusal :=
  runSlot (.mandn d a b) s fun s => .done (wrM s d (rdM s a &&& ~~~(rdM s b)))

/-- MNOT (05 R145). -/
def execMnot (d a : MReg) (s : State) : Host.Outcome State Fault Refusal :=
  runSlot (.mnot d a) s fun s => .done (wrM s d (~~~(rdM s a)))

/-- A comparison into a mask: active elements' bits are written, the others keep theirs (05 R145). -/
def maskCmp (d : MReg) (a b : VIdx) (mk : MReg) (f : Nat → Nat → Bool × Flags) (s : State) : SlotEnd :=
  let w := ewBits s
  let n := s.src.elems
  let va := (rdV s a).elems
  let vb := (rdV s b).elems
  let old := rdM s d
  let rs := (List.range n).map fun i =>
    if active s mk i then f (elemAt va w i) (elemAt vb w i) else (old.getLsbD i, 0)
  let v := setBits old.toNat 0 n (joinElems 1 (rs.map fun r => r.1.toNat))
  finishFlags (wrM s d (BitVec.ofNat 2048 v)) s (rs.foldl (fun x r => x ||| r.2) 0)

/-- The relation of VCMP's field CC (05 R145). -/
def ccRel : Nat → Rel
  | 0 => .eq
  | 1 => .ne
  | 2 => .lt
  | 3 => .ge
  | 4 => .ltn
  | _ => .gen

/-- VCMP (05 R145). -/
def execVcmp (d : MReg) (a b : VIdx) (cc : Fin 8) (mk : MReg) (s : State) : Host.Outcome State Fault Refusal :=
  runSlot (.vcmp d a b cc mk) s fun s => maskCmp d a b mk (fun x y => ((ccRel cc.val).eval (ewBits s) x y, 0)) s

/-- VFCMP (05 R145, R126). -/
def execVfcmp (d : MReg) (a b : VIdx) (cc : Fin 8) (mk : MReg) (s : State) : Host.Outcome State Fault Refusal :=
  runSlot (.vfcmp d a b cc mk) s fun s => maskCmp d a b mk (fun x y => fcompare (ewFmt s) cc.val x y) s

/-- MPOPC (05 R145). -/
def execMpopc (d : SReg) (a : MReg) (s : State) : Host.Outcome State Fault Refusal :=
  runSlot (.mpopc d a) s fun s => .done (wrS s d (BitVec.ofNat 64 (popCount s.src.elems (rdM s a).toNat)))

/-- The source lane that a crossbar pattern sends to a destination lane (05 R146). -/
def xbSource (pat lane : Nat) : Nat := ((List.range 16).find? fun i => bits pat (4 * i) 4 == lane).getD 0

/-- VXB (05 R146). -/
def execVxb (d a : VIdx) (b : SReg) (mk : MReg) (s : State) : Host.Outcome State Fault Refusal :=
  runSlot (.vxb d a b mk) s fun s =>
    let w := ewBits s
    let va := (rdV s a).elems
    let pat := (rdS s b).toNat
    vecDone s d (mapElems s mk w s.src.elems (rdV s d).elems fun j =>
      { bits := elemAt va w (16 * (j / 16) + xbSource pat (j % 16)) })

end Sys2Proof.Machine
end

