-- ==== Sys2Proof/Machine/Memory.lean ====
section
/-! DEFINITION. Loads, stores, cache maintenance, atomics, LD.ACQ and ST.REL (08 R210 to R223). -/
namespace Sys2Proof.Machine

/-- The bytes that a size field names (08 R210). -/
def szBytes (sz : Fin 8) : Nat := 2 ^ (sz.val % 4)
/-- How a size field extends a load. -/
def szExtend (sz : Fin 8) : Extend := if 4 ≤ sz.val then .sign else .zero

/-- The effective address of LD and ST (08 R210). -/
def effAddr (s : State) (a : SReg) (imm : Int) : Nat := (rdS s a + BitVec.ofInt 64 imm).toNat

/-- The physical number of a scalar destination. -/
def physDest (s : State) (d : SReg) (n : Nat) (e : Extend) : LoadDest :=
  if d = 0 then .none else .scalar (s.src.physS d) n e

/-- An access of n bytes must be aligned to n (08 R207). -/
def aligned (addr n : Nat) (k : SlotEnd) : SlotEnd :=
  if addr % n ≠ 0 then .trap { cause := .align, faddr := addr % 2 ^ 56 } else k

/-- A scalar load (08 R210, R223). -/
def loadBody (d : SReg) (addr : Nat) (sp : Bool) (sz : Fin 8) (acq : Option (Fin 8)) (s : State) : SlotEnd :=
  aligned addr (szBytes sz) <|
    issue s sp .read .l (byteRange addr (szBytes sz)) fun l =>
      .ok { mkAccess sp .l addr l .load (physDest s d (szBytes sz) (szExtend sz)) with acq := acq }

/-- Whether a part of a register is tainted (10 R274). -/
def srcTaint (s : State) (r : Res) : Bool := s.src.taint.any fun p => p.1 == s.src.phys r

/-- The words of memory that take tainted parts of a register (10 R274): places gives for each byte of the access the
register's byte that it comes from. -/
def hotWords (s : State) (spad : Bool) (r : Res) (l : List Pa) (places : List Nat) : List Nat :=
  if s.src.taint = [] then []
  else ((l.zip places).filterMap fun p =>
    if s.src.taint.contains (s.src.phys r, p.2 / 4) then some (taintKey spad (p.1.pa / 4)) else none).dedup

/-- A scalar store (08 R210, R223). -/
def storeBody (d : SReg) (addr : Nat) (sp : Bool) (sz : Fin 8) (rel : Option (Fin 8)) (s : State) : SlotEnd :=
  aligned addr (szBytes sz) <|
    issue s sp .write .s (byteRange addr (szBytes sz)) fun l =>
      .ok { mkAccess sp .s addr l (.store (toBytes (szBytes sz) (rdS s d).toNat)) with
              rel := rel, hot := hotWords s sp (.s d) l (List.range (szBytes sz)) }

/-- LD (08 R210). -/
def execLd (d a : SReg) (imm : Int) (sp : Bool) (sz : Fin 8) (s : State) : Host.Outcome State Fault Refusal :=
  runSlot (.ld d a imm sp sz) s fun s => loadBody d (effAddr s a imm) sp sz none s

/-- ST (08 R210). -/
def execSt (d a : SReg) (imm : Int) (sp : Bool) (sz : Fin 8) (s : State) : Host.Outcome State Fault Refusal :=
  runSlot (.st d a imm sp sz) s fun s => storeBody d (effAddr s a imm) sp sz none s

/-- LD.ACQ (08 R223). -/
def execLdAcq (d a : SReg) (scope sz : Fin 8) (s : State) : Host.Outcome State Fault Refusal :=
  runSlot (.ldAcq d a scope sz) s fun s => loadBody d (rdS s a).toNat false sz (some scope) s

/-- ST.REL (08 R223). -/
def execStRel (d a : SReg) (scope sz : Fin 8) (s : State) : Host.Outcome State Fault Refusal :=
  runSlot (.stRel d a scope sz) s fun s => storeBody d (rdS s a).toNat false sz (some scope) s

/-- A list of keyed items put in ascending order of their keys, equal keys in their order. -/
def insertKey {α : Type} (x : Nat × α) : List (Nat × α) → List (Nat × α)
  | [] => [x]
  | y :: l => if x.1 ≤ y.1 then x :: y :: l else y :: insertKey x l

/-- A stable insertion sort by key. -/
def sortKeys {α : Type} (l : List (Nat × α)) : List (Nat × α) := l.foldr insertKey []

/-- The bytes of the active elements of a vector access, by address, with their places in the register (08 R211); where the
rows of a store overlap, a byte is that of the element with the higher number (DESIGN CHOICE, log 106). -/
def vecCells (s : State) (base stride : Nat) (mk : MReg) : List (Nat × Nat) :=
  let b := s.src.ebytes
  let rows := 2 ^ s.src.rowl2
  let cols := s.src.elems / rows
  sortKeys <| (List.range rows).flatMap fun r =>
    (List.range cols).flatMap fun c =>
      if active s mk (r * cols + c) then
        (List.range b).map fun i => ((base + r * stride + c * b + i) % 2 ^ 64, (r * cols + c) * b + i)
      else []

/-- VLD and VST of elements or of the sidecar (08 R211); data gives the bytes that a store moves. -/
def vecMem (a b : SReg) (sp scr : Bool) (mk : MReg) (n : Need) (q : QClass)
    (mkElems : List (Nat × Nat) → List Pa → Access) (mkSide : List Pa → Access) (s : State) : SlotEnd :=
  let base := (rdS s a).toNat
  if scr then
    aligned base 128 <| issue s sp n q (byteRange base 128) fun l => .ok (mkSide l)
  else
    let cols := s.src.elems / 2 ^ s.src.rowl2
    let stride := if b = 0 then cols * s.src.ebytes else (rdS s b).toNat
    if base % s.src.ebytes ≠ 0 ∨ stride % s.src.ebytes ≠ 0 then .trap { cause := .align, faddr := base % 2 ^ 56 }
    else
      let cells := vecCells s base stride mk
      issue s sp n q (cells.map fun p => p.1) fun l => .ok (mkElems cells l)

/-- Byte i of a vector register's elements. -/
def elemByte (v : BitVec 16384) (i : Nat) : Byte := BitVec.ofNat 8 (bits v.toNat (8 * i) 8)

/-- VLD (08 R211). -/
def execVld (d : VIdx) (a b : SReg) (sp scr : Bool) (mk : MReg) (s : State) : Host.Outcome State Fault Refusal :=
  runSlot (.vld d a b sp scr mk) s fun s =>
    vecMem a b sp scr mk .read .l
      (fun cells l => mkAccess sp .l (rdS s a).toNat l .load (.vector (s.src.physV d) (cells.map fun p => p.2)))
      (fun l => mkAccess sp .l (rdS s a).toNat l .load (.sidecar (s.src.physV d))) s

/-- VST (08 R211). -/
def execVst (d : VIdx) (a b : SReg) (sp scr : Bool) (mk : MReg) (s : State) : Host.Outcome State Fault Refusal :=
  runSlot (.vst d a b sp scr mk) s fun s =>
    vecMem a b sp scr mk .write .s
      (fun cells l =>
        { mkAccess sp .s (rdS s a).toNat l (.store (cells.map fun p => elemByte (rdV s d).elems p.2)) with
            hot := hotWords s sp (.v d) l (cells.map fun p => p.2) })
      (fun l =>
        { mkAccess sp .s (rdS s a).toNat l (.store (toBytes 128 (rdV s d).side.toNat)) with
            hot := hotWords s sp (.v d) l (byteRange 2048 128) }) s

/-- The first addresses of the granules that meet n bytes from an address, in ascending order (08 R212). -/
def granuleBases (a n : Nat) : List Nat :=
  if n = 0 then []
  else
    let first := a / 64
    let last := (a + n - 1) / 64
    (sortKeys ((List.range (last + 1 - first)).map fun i => ((first + i) * 64 % 2 ^ 64, ()))).map fun p => p.1

/-- The bytes of a granule whose first byte is translated. -/
def granulePas (p : Pa) : List Pa := (List.range 64).map fun i => { p with pa := p.pa + i, va := p.va + i }

/-- CLEAN and INVL (08 R212): every granule of the range, translated by its first byte. -/
def maintain (a b : SReg) (k : AccKind) (s : State) : SlotEnd :=
  if 2 ^ 21 < (rdS s b).toNat then .trap { cause := .illegalInstr, xinfo := s.bun.word }
  else
    match granuleBases (rdS s a).toNat (rdS s b).toNat with
    | [] => .done s
    | l => issue s false .write .s l fun p => .ok (mkAccess false .s (rdS s a).toNat (p.flatMap granulePas) k)

/-- PREF (08 R212) is a hint that may start a table walk (17 R364) and changes no visible value. -/
def execPref (a b : SReg) (lvl : Fin 8) (s : State) : Host.Outcome State Fault Refusal :=
  runSlot (.pref a b lvl) s fun s =>
    if 2 ^ 21 < (rdS s b).toNat then .trap { cause := .illegalInstr, xinfo := s.bun.word }
    else
      let c := s.src
      let va := (rdS s a).toNat
      let here := s.walks.filter fun w => w.cl == c.pc8
      if (rdS s b).toNat = 0 ∨ 2 ^ 56 ≤ va ∨ 16 ≤ here.length ∨
          (here.any fun w => w.va / 4096 == va / 4096 && w.asid == c.xl.asid) ∨ (s.tlb.any fun e => e.hits c.xl va) then
        .done s
      else
        let (i, s) := s.fresh
        .done { s with walks := s.walks ++
          [{ id := i, cl := c.pc8, core := c.pc8 * 12 + c.pcore, asid := c.xl.asid, root := c.ptbase.toNat, va := va }] }

/-- CLEAN (08 R212). -/
def execClean (a b : SReg) (lvl : Fin 8) (s : State) : Host.Outcome State Fault Refusal :=
  runSlot (.clean a b lvl) s fun s => maintain a b (.clean (lvl = 1)) s

/-- INVL (08 R212). -/
def execInvl (a b : SReg) (s : State) : Host.Outcome State Fault Refusal :=
  runSlot (.invl a b) s fun s => maintain a b .invl s

/-- The type that a TYPE field names (08 R214). -/
def atomTy (ty : Fin 8) : AtomTy :=
  match ty.val with
  | 0 => .i32
  | 1 => .i64
  | 2 => .n32
  | 3 => .n64
  | 4 => .f32
  | _ => .f64

/-- Whether an address lies in a registered reduction window (08 R221, 19 R408). -/
def inWindow (s : State) (pa : Nat) : Bool :=
  s.fleet.windows.any fun w =>
    let x := if w.home = s.pkg then w.base else 2 ^ 50 + w.home * 2 ^ 40 + w.base
    decide (x ≤ pa ∧ pa < x + w.len)

/-- Where an atomic is performed (08 R216). -/
def atomPlace (s : State) (op : AtomOp) (pa : Nat) : AtomPlace :=
  if inWindow s pa then .switch else if op.isFp ∧ 1 ≤ s.src.detl then .press else .home

/-- AMO and RED (08 R214 to R216). An AMO to a registered window takes ACCESS_FAULT (R221). -/
def atomBody (d : Option SReg) (a b : SReg) (op : AtomOp) (ty : Fin 8) (s : State) : SlotEnd :=
  let t := atomTy ty
  let addr := (rdS s a).toNat
  let k : Atom := { op := op, ty := t, val := rdS s b, cmp := match d with
    | some r => rdS s r
    | none => 0 }
  let ext : Extend := if t = .i32 then .sign else .zero
  aligned addr t.bytes <|
    issue s false (if d.isSome then .amo else .red) (if d.isSome then .l else .s) (byteRange addr t.bytes) fun l =>
      match l.head? with
      | none => .error { cause := .accessFault, faddr := addr % 2 ^ 56 }
      | some p =>
        if d.isSome ∧ inWindow s p.pa then .error { cause := .accessFault, faddr := addr % 2 ^ 56 }
        else .ok { mkAccess false (if d.isSome then .l else .s) addr l (.atom k) (match d with
            | some r => physDest s r t.bytes ext
            | none => .none) with
            place := atomPlace s op p.pa
            tainted := srcTaint s (.s b) || (op == .cas && d.any fun r => srcTaint s (.s r)) }

/-- AMO.SWAP (08 R215). -/
def execAmoSwap (d a b : SReg) (ty : Fin 8) (s : State) : Host.Outcome State Fault Refusal :=
  runSlot (.amoSwap d a b ty) s (atomBody (some d) a b .swap ty)

/-- AMO.CAS (08 R215). -/
def execAmoCas (d a b : SReg) (ty : Fin 8) (s : State) : Host.Outcome State Fault Refusal :=
  runSlot (.amoCas d a b ty) s (atomBody (some d) a b .cas ty)

/-- AMO.ADD (08 R215). -/
def execAmoAdd (d a b : SReg) (ty : Fin 8) (s : State) : Host.Outcome State Fault Refusal :=
  runSlot (.amoAdd d a b ty) s (atomBody (some d) a b .add ty)

/-- AMO.AND (08 R215). -/
def execAmoAnd (d a b : SReg) (ty : Fin 8) (s : State) : Host.Outcome State Fault Refusal :=
  runSlot (.amoAnd d a b ty) s (atomBody (some d) a b .and ty)

/-- AMO.OR (08 R215). -/
def execAmoOr (d a b : SReg) (ty : Fin 8) (s : State) : Host.Outcome State Fault Refusal :=
  runSlot (.amoOr d a b ty) s (atomBody (some d) a b .or ty)

/-- AMO.XOR (08 R215). -/
def execAmoXor (d a b : SReg) (ty : Fin 8) (s : State) : Host.Outcome State Fault Refusal :=
  runSlot (.amoXor d a b ty) s (atomBody (some d) a b .xor ty)

/-- AMO.MIN (08 R215). -/
def execAmoMin (d a b : SReg) (ty : Fin 8) (s : State) : Host.Outcome State Fault Refusal :=
  runSlot (.amoMin d a b ty) s (atomBody (some d) a b .min ty)

/-- AMO.MAX (08 R215). -/
def execAmoMax (d a b : SReg) (ty : Fin 8) (s : State) : Host.Outcome State Fault Refusal :=
  runSlot (.amoMax d a b ty) s (atomBody (some d) a b .max ty)

/-- AMO.FADD (08 R215). -/
def execAmoFadd (d a b : SReg) (ty : Fin 8) (s : State) : Host.Outcome State Fault Refusal :=
  runSlot (.amoFadd d a b ty) s (atomBody (some d) a b .fadd ty)

/-- AMO.FMIN (08 R215). -/
def execAmoFmin (d a b : SReg) (ty : Fin 8) (s : State) : Host.Outcome State Fault Refusal :=
  runSlot (.amoFmin d a b ty) s (atomBody (some d) a b .fmin ty)

/-- AMO.FMAX (08 R215). -/
def execAmoFmax (d a b : SReg) (ty : Fin 8) (s : State) : Host.Outcome State Fault Refusal :=
  runSlot (.amoFmax d a b ty) s (atomBody (some d) a b .fmax ty)

/-- RED.ADD (08 R215). -/
def execRedAdd (a b : SReg) (ty : Fin 8) (s : State) : Host.Outcome State Fault Refusal :=
  runSlot (.redAdd a b ty) s (atomBody none a b .add ty)

/-- RED.AND (08 R215). -/
def execRedAnd (a b : SReg) (ty : Fin 8) (s : State) : Host.Outcome State Fault Refusal :=
  runSlot (.redAnd a b ty) s (atomBody none a b .and ty)

/-- RED.OR (08 R215). -/
def execRedOr (a b : SReg) (ty : Fin 8) (s : State) : Host.Outcome State Fault Refusal :=
  runSlot (.redOr a b ty) s (atomBody none a b .or ty)

/-- RED.XOR (08 R215). -/
def execRedXor (a b : SReg) (ty : Fin 8) (s : State) : Host.Outcome State Fault Refusal :=
  runSlot (.redXor a b ty) s (atomBody none a b .xor ty)

/-- RED.MIN (08 R215). -/
def execRedMin (a b : SReg) (ty : Fin 8) (s : State) : Host.Outcome State Fault Refusal :=
  runSlot (.redMin a b ty) s (atomBody none a b .min ty)

/-- RED.MAX (08 R215). -/
def execRedMax (a b : SReg) (ty : Fin 8) (s : State) : Host.Outcome State Fault Refusal :=
  runSlot (.redMax a b ty) s (atomBody none a b .max ty)

/-- RED.FADD (08 R215). -/
def execRedFadd (a b : SReg) (ty : Fin 8) (s : State) : Host.Outcome State Fault Refusal :=
  runSlot (.redFadd a b ty) s (atomBody none a b .fadd ty)

/-- RED.FMIN (08 R215). -/
def execRedFmin (a b : SReg) (ty : Fin 8) (s : State) : Host.Outcome State Fault Refusal :=
  runSlot (.redFmin a b ty) s (atomBody none a b .fmin ty)

/-- RED.FMAX (08 R215). -/
def execRedFmax (a b : SReg) (ty : Fin 8) (s : State) : Host.Outcome State Fault Refusal :=
  runSlot (.redFmax a b ty) s (atomBody none a b .fmax ty)

end Sys2Proof.Machine
end

