-- ==== Sys2Proof/Machine/Sync.lean ====
section
/-! DEFINITION. Fences, barriers, press windows, flags, trigger counters, EXIT and YIELD (08 R224 to R232, 04 R121,
R122). -/
namespace Sys2Proof.Machine

/-! ### Progress of a blocked bundle -/

/-- What the slot in execution has already done at its bundle (08 R226). -/
def findProg (s : State) : Option Progress :=
  s.src.prog.find? fun p => p.pc == s.src.pc && p.slot == s.bun.slot

/-- A record of a blocked bundle that its context has left for another bundle is spent (08 R226): a later execution of that
bundle is a new one. -/
def Ctx.dropProg (c : Ctx) : Ctx :=
  if c.mode = .user then { c with prog := c.prog.filter fun p => p.pc == c.pc } else c

/-- Records what the slot in execution has done. -/
def putProg (s : State) (p : Progress) : State :=
  s.withCtx fun c => { c with prog := p :: c.prog.filter fun x => !(x.pc == p.pc && x.slot == p.slot) }

/-- A fresh record for the slot in execution. -/
def newProg (s : State) : Progress := { pc := s.src.pc, slot := s.bun.slot }

/-! ### Press windows (08 R218) -/

/-- Whether a gang has press atomics that are not applied. -/
def pressBusy (s : State) (g : Nat) : Bool :=
  (s.press.any fun e => e.who.gang == g) || s.flights.any fun f => f.who.gang == g && f.place == .press && !f.performed

/-- A closing point of a gang: the press atomics that each context issued before its cut belong to the window. -/
def closeWindow (s : State) (g : Nat) (w : Window) : State :=
  if pressBusy s g then s.updGang g fun x => { x with windows := x.windows ++ [w] } else s

/-- PRESS_FENCE_ROUND (08 R224): every context of the gang that has not exited has executed the same number of press
fences. -/
def checkFenceRound (s : State) (g : Nat) : State :=
  match s.gang? g with
  | none => s
  | some x =>
    let cs := (s.gangCtx g).filter fun c => !c.exited
    if cs.any (fun c => decide (x.fenceRounds < c.fences)) ∧ cs.all (fun c => decide (x.fenceRounds < c.fences)) then
      (closeWindow s g { cuts := cs.map fun c => (c.id.gix, c.fenceSeq) }).updGang g fun x =>
        { x with fenceRounds := x.fenceRounds + 1 }
    else s

/-- COMMIT_POINT (09 R251): every context that has not exited has committed as often; each context with an open
phase discards its checkpoint and inverts its parity, and learns the offset of its new input buffer. -/
def checkCommit (s : State) (g : Nat) : State :=
  match s.gang? g with
  | none => s
  | some x =>
    let cs := (s.gangCtx g).filter fun c => !c.exited
    if cs.any (fun c => decide (x.commitRounds < c.commits)) ∧ cs.all (fun c => decide (x.commitRounds < c.commits)) then
      let s := s.updGangCtx g fun c =>
        match c.phase with
        | none => { c with commitVal := 0 }
        | some f => { c with phase := none, parity := !c.parity, commitVal := if c.parity then f.bufa else f.bufb }
      let s := s.updGang g fun x => { x with commitRounds := x.commitRounds + 1 }
      { s with mgmt := { s.mgmt with commitPoints := satAdd64 s.mgmt.commitPoints } }
    else s

/-! ### FENCE (08 R224, 10 R267) -/

/-- The order that a FENCE of a scope wider than ctx sets at the port: the slots of its own bundle are behind it. One of
scope mod takes an epoch of its own, but not while its die's epoch runs too far ahead (R269, item 6): the port then holds what
is behind it until everything before it has been performed (R267), which orders as much (DESIGN CHOICE, log 95). -/
def fenceOrder (s : State) (scope : Nat) : State :=
  let c := s.src
  let s := if scope = 3 ∧ epochHeld s c.pdie = false then modRelease s c else s
  let n := s.ctx.fenceNo + 1
  let s := s.withCtx fun c => { c with fenceNo := n, fenceScope := max c.fenceScope scope }
  let here (who : CtxId) (b : Nat) : Bool := who == c.id && b == c.bundles
  let s := { s with
    flights := s.flights.map fun f => if here f.who f.bundle then { f with fenceNo := n } else f
    tileOps := s.tileOps.map fun t => if here t.who t.bundle then { t with fenceNo := n } else t }
  dropL1 s c scope

/-- Whether a round that a slot waits for has been reached, and the gang has no press window left to apply. -/
def roundDone (s : State) (round : Nat) : Bool :=
  (s.gang? s.src.id.gang).all fun g => decide (round ≤ g.fenceRounds) && g.windows.isEmpty

/-- FENCE (08 R224). A FENCE of scope sys, and one with P = 1, blocks its bundle until its condition holds. -/
def execFence (scope : Fin 8) (press : Bool) (s : State) : Host.Outcome State Fault Refusal :=
  runSlot (.fence scope press) s fun s =>
    let old := findProg s
    let s := if old.isNone then
        let s := flushHarrow (if scope.val = 0 then s else fenceOrder s scope.val)
        if press then
          checkFenceRound (s.withCtx fun c => { c with fences := c.fences + 1, fenceSeq := s.src.seq }) s.src.id.gang
        else s
      else s
    let p := old.getD { newProg s with made := true, round := s.ctx.fences }
    let s := putProg s p
    if press ∧ !roundDone s p.round then .block s (.pressFence p.round)
    else if scope.val = 4 ∧ !p.met then .block s .fenceSys
    else .done s

/-! ### Barriers (08 R225 to R228) -/

/-- BARRIER_ERROR on a barrier (03 R80). -/
def barrierError (b : Fin 16) : SlotEnd := .trap { cause := .barrierError, xinfo := b.val }

/-- A barrier of the gang of the context in focus. -/
def barrierOf (s : State) (b : Fin 16) : Barrier :=
  match s.gang? s.src.id.gang with
  | some g => g.barriers.get b
  | none => {}

/-- Changes a barrier of a gang. -/
def updBarrier (s : State) (g : Nat) (b : Fin 16) (f : Barrier → Barrier) : State :=
  s.updGang g fun x => { x with barriers := x.barriers.set b.val (f (x.barriers.get b)) b.isLt }

/-- Changes a context's part of a barrier. -/
def Ctx.setBar (c : Ctx) (b : Fin 16) (f : CtxBar → CtxBar) : Ctx :=
  { c with bar := c.bar.set b.val (f (c.bar.get b)) b.isLt }

/-- BARRIER_PHASE_COMPLETE (08 R226): when E arrivals have been counted and E > 0, the phase completes, in a given cycle:
the press window of those that arrived closes, and the next phase begins. -/
def tryComplete (s : State) (g : Nat) (b : Fin 16) (cycle : Nat) : State :=
  match s.gang? g with
  | none => s
  | some x =>
    let k := x.barriers.get b
    if 0 < k.e ∧ k.arrivals = k.e then
      let cuts := ((s.gangCtx g).filter fun c => (c.bar.get b).arrph == some k.phase).map fun c =>
        (c.id.gix, (c.bar.get b).arrSeq)
      updBarrier (closeWindow s g { cuts := cuts }) g b fun k =>
        { k with phase := k.phase + 1, arrivals := 0, completedAt := cycle }
    else s

/-- arrive (08 R226); none is BARRIER_ERROR. An arrival is a release at scope mod. -/
def arrive (s : State) (b : Fin 16) : Option State :=
  let g := s.ctx.id.gang
  let k := s.ctx.bar.get b
  match s.gang? g with
  | none => none
  | some x =>
    let ph := (x.barriers.get b).phase
    if k.dropped ∨ k.arrph = some ph then none
    else
      let s := modRelease s s.ctx
      let s := s.withCtx fun c => c.setBar b fun k => { k with arrph := some ph, arrSeq := c.seq }
      let st := stampAt s s.ctx
      let s := updBarrier s g b fun k => { k with arrivals := k.arrivals + 1, stamp := vcMax k.stamp st }
      some (tryComplete s g b s.time)

/-- drop (08 R226) of a context that has not dropped, in a given cycle: E falls, and its arrival in the present phase is
withdrawn. -/
def dropFrom (s : State) (w : CtxId) (b : Fin 16) (cycle : Nat) : State :=
  match s.ctx? w with
  | none => s
  | some c =>
    let k := c.bar.get b
    if k.dropped then s
    else
      let s := s.updCtx w fun c => c.setBar b fun k => { k with dropped := true }
      let s := updBarrier s w.gang b fun x =>
        { x with e := x.e - 1, arrivals := if k.arrph = some x.phase then x.arrivals - 1 else x.arrivals }
      tryComplete s w.gang b cycle

/-- BAR.ARRIVE (08 R226). -/
def execBarArrive (bar : Fin 16) (s : State) : Host.Outcome State Fault Refusal :=
  runSlot (.barArrive bar) s fun s =>
    if epochHeld s s.src.pdie then .stall
    else match arrive s bar with
    | none => barrierError bar
    | some s => .done (flushHarrow s)

/-- BAR.DROP (08 R226). -/
def execBarDrop (bar : Fin 16) (s : State) : Host.Outcome State Fault Refusal :=
  runSlot (.barDrop bar) s fun s =>
    if (s.ctx.bar.get bar).dropped then barrierError bar else .done (flushHarrow (dropFrom s s.ctx.id bar s.time))

/-- The arrival of a BAR.WAIT or BAR.TWAIT with ARR = 1, made once, and the record of what the slot has done. -/
def waitArrive (s : State) (b : Fin 16) (arr : Bool) (limit : Option Nat) : Option (Progress × State) :=
  match findProg s with
  | some p => some (p, s)
  | none =>
    let p : Progress := { newProg s with made := arr, bar := if arr then some b.val else none, expiry := limit.map fun l => s.time + l }
    if arr then (arrive s b).map fun s => (p, putProg s p) else some (p, putProg s p)

/-- Whether the arrival of a barrier wait, a release, stalls because its die's epoch runs too far ahead (DESIGN CHOICE,
log 95). -/
def arrivalHeld (s : State) (arr : Bool) : Bool := arr && (findProg s).isNone && epochHeld s s.src.pdie

/-- Whether the phase in which a context last arrived has completed. -/
def phaseOver (s : State) (b : Fin 16) : Bool := (s.ctx.bar.get b).arrph != some (barrierOf s b).phase

/-- BARRIER_WAITER_RELEASE (08 R226): the closed press windows of the gang have been applied. -/
def windowsDone (s : State) : Bool := (s.gang? s.src.id.gang).all fun g => g.windows.isEmpty

/-- The return of a barrier wait, an acquire at scope mod (08 R226). -/
def barReturn (s : State) (b : Fin 16) : State :=
  flushHarrow (acquire s s.src 3 (barrierOf s b).stamp)

/-- BAR.WAIT (08 R226). -/
def execBarWait (bar : Fin 16) (arr : Bool) (s : State) : Host.Outcome State Fault Refusal :=
  runSlot (.barWait bar arr) s fun s =>
    if arrivalHeld s arr then .stall
    else match waitArrive s bar arr none with
    | none => barrierError bar
    | some (_, s) =>
      if (s.ctx.bar.get bar).dropped ∨ (s.ctx.bar.get bar).arrph = none then barrierError bar
      else if phaseOver s bar ∧ windowsDone s then .done (barReturn s bar)
      else .block (flushHarrow s) (.barrier bar.val false)

/-- Marks the result of the slot as tainted at DETL TAINT (08 R228, R230, 09 R248). -/
def taintResult (s : State) : State := { s with bun := { s.bun with tainted := true } }

/-- BAR.TWAIT (08 R228): COMPLETED when the phase completed no later than the expiry cycle, else TIMEOUT. -/
def execBarTwait (d a : SReg) (bar : Fin 16) (arr : Bool) (s : State) : Host.Outcome State Fault Refusal :=
  runSlot (.barTwait d a bar arr) s fun s =>
    let limit := (rdS s a).toNat
    if arrivalHeld s arr then .stall
    else match waitArrive s bar arr (some limit) with
    | none => barrierError bar
    | some (p, s) =>
      let expiry := p.expiry.getD s.time
      if (s.ctx.bar.get bar).dropped ∨ (s.ctx.bar.get bar).arrph = none then barrierError bar
      else if phaseOver s bar ∧ (barrierOf s bar).completedAt ≤ expiry then
        if windowsDone s then .done (taintResult (wrS (barReturn s bar) d 0))
        else .block (flushHarrow s) (.barrier bar.val true)
      else if phaseOver s bar ∨ limit = 0 ∨ expiry < s.time then .done (taintResult (flushHarrow (wrS s d 1)))
      else .block (flushHarrow s) (.barrier bar.val true)

/-! ### Flags (08 R229, R230) -/

/-- FLAG.SET (08 R230). -/
def execFlagSet (a b : SReg) (scope : Fin 8) (s : State) : Host.Outcome State Fault Refusal :=
  runSlot (.flagSet a b scope) s fun s =>
    let addr := (rdS s a).toNat
    aligned addr 64 <|
      issue s false .write .s (byteRange addr 64) fun l =>
        .ok { mkAccess false .s addr l (.flagSet ((rdS s b).toNat % 64)) with rel := some scope }

/-- The ORDER entry j of a flag object. -/
def orderEntry (order j : Nat) : Nat := bits order (6 * j) 6

/-- Whether a flag object is consistent (08 R230). -/
def flagConsistent (arrived order : Nat) : Bool :=
  let k := popCount 64 arrived
  let l := (List.range k).map (orderEntry order)
  l.all (testBit arrived) && !hasDup l

/-- The flag that FLAG.WAIT.ANY chooses (08 R230); on an inconsistent object any of those it may choose (DESIGN CHOICE, log 10). -/
def chooseFlag (s : State) (obj : List Byte) (mask : Nat) : Nat × State :=
  let arrived := leAt obj 0 8
  let order := leAt obj 16 48
  let here := arrived &&& mask
  let near := here &&& leAt obj 8 8
  let among := if near = 0 then here else near
  if flagConsistent arrived order then
    ((((List.range (popCount 64 arrived)).map (orderEntry order)).find? (testBit among)).getD 0, s)
  else
    let l := (List.range 64).filter (testBit among)
    let (r, s) := s.free 6
    ((l[r.toNat % l.length]?).getD 0, s)

/-- Whether the condition of a flag wait holds (08 R230); a mask of 0 returns at once. -/
def flagCond (obj : List Byte) (mask : Nat) (any : Bool) : Bool :=
  let here := leAt obj 0 8 &&& mask
  mask == 0 || (if any then here != 0 else here == mask)

/-- Whether an access of the context that touches the same bytes, or holds everything behind it, is still in flight:
a synchronous read at issue waits for it in place (10 R261, R267); home says that it reads at the home. -/
def readHeld (s : State) (sp : Bool) (cells : List Nat) (home : Bool := false) : Bool :=
  let probe : Access := { mkAccess sp .l 0 (cells.map fun p => { pa := p, rwn := false }) .load with
    who := s.src.id, bundle := s.src.bundles, fenceNo := s.ctx.fenceNo, todo := granulesOf cells, id := s.nextId
    acq := if home then some 0 else none
    stamp := if sp then [] else stampAt s s.src }
  (!sp && portHeld s cells) || !mayPerform s probe

/-- FLAG.WAIT and FLAG.WAIT.ANY (08 R230); the timing of a timed wait is that of R228: one whose condition has held by its
expiry cycle returns with the object as it then stood, whatever the object holds later. -/
def flagWaitBody (d a b : SReg) (timed any : Bool) (scope : Fin 8) (s : State) : SlotEnd :=
  let addr := (rdS s a).toNat
  let mask := (rdS s b).toNat
  let limit := (rdS s d).toNat
  aligned addr 64 <|
    match resolve s false .read (byteRange addr 64) with
    | (.error t, _) => .trap t
    | (.ok l, s1) =>
      let cells := l.map fun p => p.pa
      match cells.head? with
      | none => .done s
      | some pa =>
        if readHeld s false (cells.take 16) true then .stall
        else
          let s := serve (fenceEffect s1 s.src.id s.ctx.fenceNo) (granule pa)
          let p := (findProg s).getD
            { newProg s with
              expiry := if timed then some (s.time + limit) else none
              flag := if timed then some (pa, mask, any) else none }
          let obj := if timed ∧ p.met then p.obj else granuleBytes s (granule pa)
          let expiry := p.expiry.getD s.time
          let out := fun s => if timed ∨ any then taintResult s else s
          if flagCond obj mask any ∧ (!timed ∨ p.met ∨ s.time ≤ expiry) then
            let v := stampOf s (granule pa)
            let t := acquire (refreshL1 (noteRead s s.src.id v) s.src.id (granule pa)) s.src scope.val v
            if any then
              if mask = 0 then .done (out (wrS t d (BitVec.allOnes 64)))
              else
                let (i, t) := chooseFlag t obj mask
                .done (out (wrS t d (BitVec.ofNat 64 i)))
            else .done (out (if timed then wrS t d 0 else t))
          else if timed ∧ (limit = 0 ∨ expiry < s.time) then
            .done (out (wrS s d (if any then BitVec.allOnes 64 else 1)))
          else .block (putProg s p) (.flag pa mask any timed)

/-- Whether the condition of a timed flag wait holds in a cycle no later than its expiry cycle (08 R228, R230). -/
def Progress.holdsNow (s : State) (p : Progress) : Bool :=
  (p.expiry.any fun e => decide (s.time ≤ e)) &&
    p.flag.any fun f => flagCond (granuleBytes s (granule f.1)) f.2.1 f.2.2

/-- The outcome of a timed flag wait depends on the cycle in which its condition comes to hold, not on when its context
next runs (08 R228): before time advances, the waits whose condition holds take note of it. -/
def noteFlags (s : State) : State :=
  let one (p : Progress) : Progress :=
    if !p.met ∧ p.holdsNow s then { p with met := true, obj := p.flag.elim [] fun f => granuleBytes s (granule f.1) } else p
  let note (c : Ctx) : Ctx := { c with prog := c.prog.map one }
  { s with ctx := note s.ctx, others := s.others.map note }

/-- FLAG.WAIT (08 R230). -/
def execFlagWait (d a b : SReg) (timed : Bool) (scope : Fin 8) (s : State) : Host.Outcome State Fault Refusal :=
  runSlot (.flagWait d a b timed scope) s (flagWaitBody d a b timed false scope)

/-- FLAG.WAIT.ANY (08 R230). -/
def execFlagWaitAny (d a b : SReg) (timed : Bool) (scope : Fin 8) (s : State) : Host.Outcome State Fault Refusal :=
  runSlot (.flagWaitAny d a b timed scope) s (flagWaitBody d a b timed true scope)

/-- TRIG (08 R231, R232). -/
def execTrig (a b : SReg) (rst : Bool) (scope : Fin 8) (s : State) : Host.Outcome State Fault Refusal :=
  runSlot (.trig a b rst scope) s fun s =>
    let addr := (rdS s a).toNat
    aligned addr 4 <|
      issue s false .write .s (byteRange addr 4) fun l =>
        .ok { mkAccess false .s addr l (.trig rst (BitVec.ofNat 32 (rdS s b).toNat)) with rel := some scope }

/-! ### EXIT and YIELD (04 R121, R122) -/

/-- Drops a context from every barrier that it has not dropped from: drops that belong to the next cycle (04 R121, 08
R227). -/
def dropAll (s : State) (w : CtxId) : State := (List.finRange 16).foldl (fun s b => dropFrom s w b (s.time + 1)) s

/-- The context in focus has executed EXIT. A stopped transfer's token never completes after it, and the node then
never does (01 R27). -/
def exitCtx (s : State) : State :=
  let w := s.ctx.id
  let s := dropAll s w
  let s := s.withCtx fun c => { c with status := .exited, running := false }
  let s := if s.ctx.stopTok.toList.all Option.isNone then s.updGang w.gang fun g => { g with exited := w.gix :: g.exited }
    else s
  checkCommit (checkFenceRound s w.gang) w.gang

/-- EXIT (04 R121). -/
def execExit (s : State) : Host.Outcome State Fault Refusal :=
  runSlot .exit s fun s => .done (exitCtx s)

/-- The contexts on the same physical core that are ready. -/
def readyBeside (s : State) : Bool :=
  s.others.any fun c => c.live && c.status == .ready && c.lc == s.ctx.lc && c.lcore == s.ctx.lcore

/-- YIELD (04 R122): the core switches only if another of its contexts is ready. -/
def execYield (s : State) : Host.Outcome State Fault Refusal :=
  runSlot .yield s fun s => .done (if readyBeside s then s.withCtx fun c => { c with running := false } else s)

end Sys2Proof.Machine
end

