-- ==== Sys2Proof/Machine/Engine.lean ====
section
/-! DEFINITION. Engine instructions, their command blocks, ARM and the token instructions (09 R233 to R248, 08 R231). -/
namespace Sys2Proof.Machine

/-! ### Reading records in memory -/

/-- The bytes of global cells as an access of a context, from a bundle and with a number, finds them (10 R257). -/
def loadCells (s : State) (c : Ctx) (bundle id : Nat) (cells : List Nat) : List Byte × State :=
  let (l, s) := (granulesOf cells).foldl (fun (acc : List (Nat × List Byte) × State) g =>
    let ((d, v), t) := loadGranule acc.2 c g
    ((g, d) :: acc.1, noteReadBy t c.id bundle id v)) (([] : List (Nat × List Byte)), s)
  (cells.map fun a => match l.find? fun p => p.1 == granule a with
    | some p => (p.2[a % 64]?).getD 0
    | none => 0, s)

/-- What reading a record at issue gives: its bytes, a trap, or a stall while an earlier access holds it, or another holder
scratchpad banks. -/
inductive RecordRead where
  | ok (data : List Byte) (s : State)
  | trap (t : TrapInfo)
  | stall (banks : BitVec 48)

/-- Reads a record of n bytes that must be aligned to al, as a load of the context ordered after its earlier accesses
(08 R207, 09 R234). -/
def readRecord (s : State) (sp : Bool) (addr al n : Nat) : RecordRead :=
  if addr % al ≠ 0 then .trap { cause := .align, faddr := addr % 2 ^ 56 }
  else match resolve s sp .read (byteRange addr n) with
    | (.error t, _) => .trap t
    | (.ok l, s1) =>
      let cells := l.map fun p => p.pa
      if readHeld s sp cells then .stall 0
      else if sp then
        (if banksBusy s s.src.lc (banksOf cells) then .stall (banksOf cells) else .ok (cells.map s.spad.get) s1)
      else
        let (d, t) := loadCells (fenceEffect s1 s.src.id s.ctx.fenceNo) s.src s.src.bundles s.nextId cells
        .ok d t

/-! ### Command blocks (09 R234) -/

/-- The kinds of engine command. -/
inductive CmdKind where
  | copy
  | gather
  | scatter
  | reshard
  | combine
  deriving DecidableEq, Repr

/-- The KIND byte of a command (09 R234). -/
def CmdKind.code : CmdKind → Nat
  | .copy => 1
  | .gather => 2
  | .scatter => 3
  | .reshard => 4
  | .combine => 5

/-- The size of a command block. -/
def CmdKind.size : CmdKind → Nat
  | .copy => 80
  | .gather => 64
  | .scatter => 64
  | .reshard => 96
  | .combine => 32

/-- A signed 64-bit field. -/
def i64At (b : List Byte) (off : Nat) : Int := toSigned 64 (leAt b off 8)

/-- Whether the n bytes from an offset are 0. -/
def zeroAt (b : List Byte) (off n : Nat) : Bool := leAt b off n == 0

/-- Whether a bank field keeps to its rule: only the gang's banks, and none where no side is scratchpad (09 R238). -/
def banksOk (b : List Byte) (off : Nat) (sp : Bool) (held : BitVec 48) : Bool :=
  let v := leAt b off 8
  decide (v < 2 ^ 48) && (sp || v == 0) && (BitVec.ofNat 48 v &&& ~~~held == 0)

/-- The copy block (09 R238). -/
def parseCopy (b : List Byte) (held : BitVec 48) : Option CmdBody :=
  let dims := leAt b 1 1
  let fl := leAt b 2 1
  let n0 := leAt b 4 4
  let n1 := leAt b 8 4
  let n2 := leAt b 0xC 4
  if 1 ≤ dims ∧ dims ≤ 3 ∧ fl < 8 ∧ zeroAt b 3 1 ∧ 1 ≤ n0 ∧ n0 ≤ 2 ^ 24 ∧ 1 ≤ n1 ∧ n1 ≤ 65536 ∧ 1 ≤ n2 ∧ n2 ≤ 65536 ∧
      (dims = 1 → n1 = 1 ∧ zeroAt b 0x20 8 ∧ zeroAt b 0x30 8) ∧ (dims < 3 → n2 = 1 ∧ zeroAt b 0x28 8 ∧ zeroAt b 0x38 8) ∧
      banksOk b 0x40 (testBit fl 0 || testBit fl 1) held ∧ zeroAt b 0x48 8 ∧ n0 * n1 * n2 ≤ 2 ^ 32 then
    some (.copy { ssp := testBit fl 0, dsp := testBit fl 1, n0 := n0, n1 := n1, n2 := n2, src := leAt b 0x10 8,
                  dst := leAt b 0x18 8, sstr1 := i64At b 0x20, sstr2 := i64At b 0x28, dstr1 := i64At b 0x30,
                  dstr2 := i64At b 0x38 })
  else none

/-- The gather and scatter block (09 R239). -/
def parseGather (b : List Byte) (scatter : Bool) (held : BitVec 48) : Option CmdBody :=
  let isz := leAt b 1 1
  let fl := leAt b 2 1
  let count := leAt b 4 4
  let esz := leAt b 8 4
  if isz < 2 ∧ fl < 16 ∧ zeroAt b 3 1 ∧ 1 ≤ count ∧ count ≤ 2 ^ 20 ∧ 1 ≤ esz ∧ esz ≤ 4096 ∧ zeroAt b 0xC 4 ∧
      leAt b 0x20 8 % (4 + 4 * isz) = 0 ∧ banksOk b 0x30 (fl % 8 != 0) held ∧ zeroAt b 0x38 8 then
    some (.gather { scatter := scatter, wide := isz == 1, bsp := testBit fl 0, dnsp := testBit fl 1,
                    isp := testBit fl 2, count := count, esz := esz, base := leAt b 0x10 8, dense := leAt b 0x18 8,
                    index := leAt b 0x20 8, stride := leAt b 0x28 8 })
  else none

/-- A field of the reshard block: mesh axis sizes, dimension sizes, and the masks of a layout (09 R240). -/
def rsAxis (b : List Byte) (a : Nat) : Nat := leAt b (8 + 2 * a) 2
/-- The size of a dimension. -/
def rsDim (b : List Byte) (d : Nat) : Nat := leAt b (0x10 + 4 * d) 4
/-- The mask of axes that shard dimension d; off is 0x20 for the source and 0x28 for the destination. -/
def rsMask (b : List Byte) (off d : Nat) : Nat := leAt b (off + d) 1
/-- The mask of partial axes of a layout. -/
def rsPart (b : List Byte) (off : Nat) : Nat := leAt b (off + 4) 1
/-- The number of ranks. -/
def rsRanks (b : List Byte) : Nat := rsAxis b 0 * rsAxis b 1 * rsAxis b 2 * rsAxis b 3
/-- The axes of a mask, in ascending order. -/
def axesOf (mask : Nat) : List Nat := (List.range 4).filter (testBit mask)
/-- The product of the sizes of the axes of a mask. -/
def rsProd (b : List Byte) (mask : Nat) : Nat := ((axesOf mask).map (rsAxis b)).prod
/-- The reduced axes RX (09 R241). -/
def rsReduced (b : List Byte) : Nat := rsPart b 0x20 &&& (15 - rsPart b 0x28)

/-- Whether a layout keeps to R240 and R241. A set bit of [7:4] of SPART or DPART, of which R240 says nothing, breaks it
(DESIGN CHOICE, log 109). -/
def layoutOk (b : List Byte) (off : Nat) : Bool :=
  let masks := (List.range 4).map (rsMask b off)
  let part := rsPart b off
  masks.all (fun m => decide (m < 16)) && decide (part < 16) && zeroAt b (off + 5) 3 &&
  ((List.range 4).all fun a => decide ((masks.filter fun m => testBit m a).length + (testBit part a).toNat ≤ 1)) &&
  ((List.range 4).all fun d => decide (rsDim b d % rsProd b (rsMask b off d) = 0))

/-- Whether a reshard block keeps to its own rules (09 R240, R241), the rank table apart. -/
def reshardOk (b : List Byte) : Bool :=
  let trank := leAt b 1 1
  let maxes := leAt b 2 1
  let ety := leAt b 3 1
  let rop := leAt b 4 1
  let chunks := leAt b 0x50 4
  decide (1 ≤ trank ∧ trank ≤ 4 ∧ 1 ≤ maxes ∧ maxes ≤ 4 ∧ ety ≤ 5 ∧ rop ≤ 2) && zeroAt b 5 1 &&
  ((List.range 4).all fun a => decide (1 ≤ rsAxis b a ∧ rsAxis b a ≤ 1024 ∧ (maxes ≤ a → rsAxis b a = 1))) &&
  decide (rsRanks b ≤ 1024) && decide (leAt b 6 2 < rsRanks b) &&
  ((List.range 4).all fun d => decide (1 ≤ rsDim b d ∧ rsDim b d ≤ 2 ^ 31 ∧ (trank ≤ d → rsDim b d = 1))) &&
  layoutOk b 0x20 && layoutOk b 0x28 && (rsPart b 0x28 &&& (15 - rsPart b 0x20) == 0) &&
  (rsReduced b == 0 || (ety != 3 && ety != 5)) &&
  decide (1 ≤ chunks ∧ chunks ≤ 65536) && zeroAt b 0x58 8 &&
  (zeroAt b 0x48 8 || decide (rsDim b 0 / rsProd b (rsMask b 0x20 0) % chunks = 0))

/-- The rank table (09 R240), or none where an entry breaks its layout or two are equal. -/
def parseRanks (t : List Byte) (nr : Nat) : Option (List (Nat × Nat)) :=
  let l := (List.range nr).map fun i => leAt t (8 * i) 8
  if l.all (fun v => decide (v < 2 ^ 10)) ∧ !hasDup l then some (l.map fun v => (v % 256, v / 256)) else none

/-- The combine block (09 R244): OP and TYPE as R215 and R214 code them. -/
def parseCombine (b : List Byte) : Option CmdBody :=
  let ops : List AtomOp := [.swap, .cas, .add, .and, .or, .xor, .min, .max, .fadd, .fmin, .fmax]
  let op := leAt b 1 1
  let tc := leAt b 2 1
  let ty := atomTy (Fin.ofNat 8 tc)
  let count := leAt b 4 4
  match ops[op]? with
  | none => none
  | some o =>
    if 2 ≤ op ∧ tc ≤ 5 ∧ (o.isFp ↔ 4 ≤ tc) ∧ zeroAt b 3 1 ∧ 1 ≤ count ∧ count ≤ 2 ^ 18 ∧
        leAt b 8 8 % ty.bytes = 0 ∧ zeroAt b 0x10 8 ∧ zeroAt b 0x18 8 then
      some (.combine { op := o, ty := ty, count := count, addr := leAt b 8 8 })
    else none

/-- The registered window that holds an address (19 R408). -/
def windowOf (s : State) (pa : Nat) : Option RedWindow :=
  s.fleet.windows.find? fun w =>
    let x := if w.home = s.pkg then w.base else 2 ^ 50 + w.home * 2 ^ 40 + w.base
    decide (x ≤ pa ∧ pa < x + w.len)

/-- Whether the elements of a COMBINE lie in one registered window (09 R244), by the first byte of each page that
translates; a page that does not translate gives the command a FAULT when it is folded. -/
def combineInWindow (s : State) (x : Xl) (c : CombineBlock) : Bool :=
  let first := c.addr / 4096
  let last := (c.addr + c.count * c.ty.bytes - 1) / 4096
  let pages := c.addr :: ((List.range (last - first)).map fun i => (first + 1 + i) * 4096)
  let ws := pages.filterMap fun va => match (xlate s x .combine va).1 with
    | .ok p => some ((windowOf s p.pa).map fun w => w.wid)
    | .error _ => none
  match ws with
  | [] => true
  | w :: l => w.isSome && l.all fun v => v == w

/-- What parsing a command block gives. -/
inductive BlockRead where
  | ok (body : CmdBody) (banks : BitVec 48) (s : State)
  | trap (t : TrapInfo)
  | stall (banks : BitVec 48)

/-- The execution trap of a block or record that breaks a rule (09 R234). -/
def recordTrap (s : State) : TrapInfo := { cause := .illegalInstr, xinfo := s.bun.word }

/-- Reads and checks a command block (09 R234, steps 1 and 2). The rank table of a reshard is read with it, as a load of the
context of any alignment, with the address traps of R207 (DESIGN CHOICE, log 110). -/
def readBlock (s : State) (k : CmdKind) (addr : Nat) : BlockRead :=
  match readRecord s false addr 16 k.size with
  | .trap t => .trap t
  | .stall b => .stall b
  | .ok b s =>
    let held := gangBanks s s.src.id.gang s.src.lc
    if leAt b 0 1 ≠ k.code then .trap (recordTrap s)
    else match k with
      | .copy => match parseCopy b held with
        | some c => .ok c (BitVec.ofNat 48 (leAt b 0x40 8)) s
        | none => .trap (recordTrap s)
      | .gather => match parseGather b false held with
        | some c => .ok c (BitVec.ofNat 48 (leAt b 0x30 8)) s
        | none => .trap (recordTrap s)
      | .scatter => match parseGather b true held with
        | some c => .ok c (BitVec.ofNat 48 (leAt b 0x30 8)) s
        | none => .trap (recordTrap s)
      | .reshard =>
        if !reshardOk b then .trap (recordTrap s)
        else match readRecord s false (leAt b 0x40 8) 1 (8 * rsRanks b) with
          | .trap t => .trap t
          | .stall b => .stall b
          | .ok t s =>
            match parseRanks t (rsRanks b) with
            | none => .trap (recordTrap s)
            | some l =>
              if l[leAt b 6 2]? = some (s.pkg, s.src.ldie) then .ok (.reshard { bytes := b, ranks := l }) 0 s
              else .trap (recordTrap s)
      | .combine => match parseCombine b with
        | some (.combine c) =>
          if combineInWindow s s.src.xl c then .ok (.combine c) 0 s else .trap (recordTrap s)
        | _ => .trap (recordTrap s)

/-- Which engine a command goes to: copy, gather and scatter, or thresher (09 R234). -/
def CmdBody.engine : CmdBody → Nat
  | .copy _ => 0
  | .gather _ => 1
  | .reshard _ | .combine _ => 2

/-- The depth of an engine's queue (09 R234). -/
def queueDepth (e : Nat) : Nat := if e = 2 then 64 else 128

/-- Whether an engine's queue is full; unit is its physical cluster or die (00 R2). -/
def queueFull (s : State) (e unit : Nat) : Bool :=
  decide (queueDepth e ≤ (s.cmds.filter fun k => k.body.engine == e && k.unit == unit).length)

/-- The engine that a context's command goes to, by physical cluster or, for a thresher, physical die: logical clusters that
share a physical one (16 R350) share its engines and their queues (00 R2, DEDUCED, log 97). -/
def Ctx.engineUnit (c : Ctx) (e : Nat) : Nat := if e = 2 then c.pdie else c.pc8

/-- A command of the context in focus, with the die's clock as it stood at issue (10 R264, R269). Its engine is that of the
physical cluster or die on which the context stands (DEDUCED, log 97). -/
def mkCmd (s : State) (id : Nat) (body : CmdBody) (banks : BitVec 48) (deps : List Dep) (q : QReg) (gen : Nat) : Cmd :=
  let c := s.src
  { id := id, who := c.id, body := body, place := if body.engine = 2 then c.ldie else c.lc,
    unit := c.engineUnit body.engine, cl := c.lc, banks := banks,
    deps := deps, q := q, gen := gen, priv := c.mode == .privileged, asid := c.asid, ptbase := c.ptbase, detl := c.detl,
    bundle := c.bundles, stamp := vcMax (stampAt s c) c.readStamp }

/-- TOKEN_ERROR on a token (03 R80). -/
def tokenError (q : QReg) : SlotEnd := .trap { cause := .tokenError, xinfo := q.val }

/-- Whether OCC is at its limit (04 R119). -/
def occFull (s : State) : Bool := decide (32 ≤ s.ctx.occ)

/-- The tokens that an instruction consumes (09 R233, R247): the fields of l that name the token produced name none, and
c2, the third of an engine instruction, names the one that it holds. -/
def consumed (s : State) (q : QReg) (l : List QReg) (c2 : Option QReg := none) : List Dep :=
  ((l.mapIdx fun i c => if c = q then none else some (depOf s i c)).filterMap id) ++ (c2.map (depOf s 2)).toList

/-- The issue of an engine instruction (09 R234, R235, R245). -/
def engineBody (k : CmdKind) (q : QReg) (a : SReg) (c0 c1 : QReg) (c2 : Option QReg) (s : State) : SlotEnd :=
  if !(rdQ s q).done then tokenError q
  else match readBlock s k (rdS s a).toNat with
    | .trap t => .trap t
    | .stall b => .waitBanks b
    | .ok body banks s =>
      let unit := s.src.engineUnit body.engine
      if occFull s then .stall
      else if banksBusy s s.src.lc banks then .waitBanks banks
      else if queueFull s body.engine unit then .block s (.engineQueue body.engine unit)
      else
        let deps := consumed s q [c0, c1] c2
        let (g, s) := produceToken s q
        let (i, s) := s.fresh
        let s := s.withCtx fun c => { c with occ := c.occ + 1 }
        .done { s with cmds := s.cmds ++ [mkCmd s i body banks deps q g] }

/-- CP (09 R238). -/
def execCp (q : QReg) (a : SReg) (c0 c1 : QReg) (c2 : Option QReg) (s : State) : Host.Outcome State Fault Refusal :=
  runSlot (.cp q a c0 c1 c2) s (engineBody .copy q a c0 c1 c2)

/-- GATHER (09 R239). -/
def execGather (q : QReg) (a : SReg) (c0 c1 : QReg) (c2 : Option QReg) (s : State) : Host.Outcome State Fault Refusal :=
  runSlot (.gather q a c0 c1 c2) s (engineBody .gather q a c0 c1 c2)

/-- SCATTER (09 R239). -/
def execScatter (q : QReg) (a : SReg) (c0 c1 : QReg) (c2 : Option QReg) (s : State) : Host.Outcome State Fault Refusal :=
  runSlot (.scatter q a c0 c1 c2) s (engineBody .scatter q a c0 c1 c2)

/-- COLL.RESHARD (09 R240 to R243). -/
def execCollReshard (q : QReg) (a : SReg) (c0 c1 : QReg) (c2 : Option QReg) (s : State) :
    Host.Outcome State Fault Refusal :=
  runSlot (.collReshard q a c0 c1 c2) s (engineBody .reshard q a c0 c1 c2)

/-- COMBINE (09 R244). -/
def execCombine (q : QReg) (a : SReg) (c0 c1 : QReg) (c2 : Option QReg) (s : State) : Host.Outcome State Fault Refusal :=
  runSlot (.combine q a c0 c1 c2) s (engineBody .combine q a c0 c1 c2)

/-- The command kinds that ARM accepts (08 R231), by KIND byte. -/
def armKind : Nat → Option CmdKind
  | 1 => some .copy
  | 2 => some .gather
  | 3 => some .scatter
  | 4 => some .reshard
  | _ => none

/-- The translation of the counter that ARM names, whose block has n bytes. The bytes of the counter and of the block are
checked in ascending address order (08 R207). -/
def armFaults (s : State) (ctr blk n : Nat) : Except TrapInfo (List Pa) × State :=
  if ctr ≤ blk then resolve s false .read (byteRange ctr 4)
  else match resolve s false .read (byteRange blk n) with
    | (.error t, s) => (.error t, s)
    | (.ok _, s) => resolve s false .read (byteRange ctr 4)

/-- The size of the block that ARM names: what its KIND gives (09 R234); the header's, 16 bytes, where no KIND can be read or
ARM takes none such. -/
def armSize (s : State) (blk : Nat) : Nat :=
  match readRecord s false blk 16 16 with
  | .ok hdr _ => match armKind (leAt hdr 0 1) with
    | some k => k.size
    | none => 16
  | _ => 16

/-- ARM (08 R231): it registers the command at the counter's home slice, which holds 64. The command fires at once
when the counter's value allows it. -/
def execArm (d a b : SReg) (q : QReg) (s : State) : Host.Outcome State Fault Refusal :=
  runSlot (.arm d a b q) s fun s =>
    let ctr := (rdS s a).toNat
    let blk := (rdS s d).toNat
    if !(rdQ s q).done then tokenError q
    else aligned blk 16 <| aligned ctr 4 <|
      match armFaults s ctr blk (armSize s blk) with
      | (.error t, _) => .trap t
      | (.ok l, s) =>
        match l.head?, readRecord s false blk 16 16 with
        | none, _ => .done s
        | some _, .trap t => .trap t
        | some _, .stall b => .waitBanks b
        | some p, .ok hdr _ =>
          match armKind (leAt hdr 0 1) with
          | none => .trap (recordTrap s)
          | some k =>
            match readBlock s k blk with
            | .trap t => .trap t
            | .stall b => .waitBanks b
            | .ok body banks s =>
              let slice := pressSlice s p.pa
              if occFull s ∨ 64 ≤ (s.armed.filter fun x => pressSlice s x.counter == slice).length ∨
                  readHeld s false [p.pa] true then .stall
              else if banksBusy s s.src.lc banks then .waitBanks banks
              else
                let (g, s) := produceToken s q
                let (i, s) := s.fresh
                let s := s.withCtx fun c => { c with occ := c.occ + 1 }
                let x : Armed := { counter := p.pa, threshold := BitVec.ofNat 32 (rdS s b).toNat,
                                   cmd := mkCmd s i body banks [] q g }
                .done (fireArmed { s with armed := s.armed ++ [x] } (granule p.pa))

/-- TOKWAIT (09 R248): its return is an acquire at scope sys. -/
def execTokwait (a : QReg) (okOnly : Bool) (s : State) : Host.Outcome State Fault Refusal :=
  runSlot (.tokwait a okOnly) s fun s =>
    let t := rdQ s a
    if !t.done then .block (flushHarrow s) (.token a.val)
    else if okOnly ∧ t.status ≠ .ok then tokenError a
    else .done (flushHarrow (acquire s s.src 4 []))

/-- The state of a token in the layout of TOKTEST (09 R248). -/
def Token.word (t : Token) : Word :=
  if !t.done then 0
  else match t.status with
    | .ok => 1
    | .cancelled => 2
    | .fault cause addr => BitVec.ofNat 64 (3 + cause % 64 * 4 + addr % 2 ^ 56 * 256)

/-- TOKTEST (09 R248). -/
def execToktest (d : SReg) (a : QReg) (s : State) : Host.Outcome State Fault Refusal :=
  runSlot (.toktest d a) s fun s => .done (taintResult (wrS s d (rdQ s a).word))

/-- TOKJOIN (09 R247, R248). -/
def execTokjoin (d a b c : QReg) (s : State) : Host.Outcome State Fault Refusal :=
  runSlot (.tokjoin d a b c) s fun s =>
    if !(rdQ s d).done then tokenError d
    else
      let deps := consumed s d [a, b, c]
      let (g, s) := produceToken s d
      let (i, s) := s.fresh
      .done { s with joins := s.joins ++ [{ id := i, who := s.src.id, q := d, gen := g, deps := deps }] }

end Sys2Proof.Machine
end

