-- ==== Sys2Proof/Machine/EngineEvent.lean ====
section
/-! DEFINITION. The steps of engines: the start and the completion of commands, reshards, COMBINE folds and TOKJOINs
(09 R235 to R248). What an event acts on stands in State.arg; an event whose conditions do not hold leaves the state
as it is. -/
namespace Sys2Proof.Machine

/-- A command by number. -/
def State.cmd? (s : State) (i : Nat) : Option Cmd := s.cmds.find? fun k => k.id == i

/-- Changes a command by number. -/
def State.updCmd (s : State) (i : Nat) (f : Cmd → Cmd) : State :=
  { s with cmds := updateFirst (fun k => k.id == i) f s.cmds }

/-- A command ends with a status (09 R235): its token completes, its OCC count is released, and its banks are free. -/
def finishCmd (s : State) (k : Cmd) (st : TokStatus) : State :=
  let s := { s with cmds := s.cmds.filter fun x => x.id != k.id }
  (completeToken s k.who k.q k.gen st).updCtx k.who fun c => { c with occ := c.occ - 1 }

/-- Whether every token that a command consumes has completed. -/
def Cmd.ready (k : Cmd) : Bool := k.deps.all Dep.isKnown

/-- Whether a consumed token completed with status OK. -/
def Dep.isOk : Dep → Bool
  | .known _ .ok => true
  | _ => false

/-- Whether the accesses that a command's engine instruction releases to it have been performed (09 R236, 10 R264, R266):
those of earlier bundles of its context, what its L1 has shown it, and, at every slice, the epochs that the command carries. -/
def Cmd.released (s : State) (k : Cmd) : Bool :=
  (s.flights.all fun f => f.who != k.who || f.performed || decide (k.bundle ≤ f.bundle)) &&
  (s.tileOps.all fun t => t.who != k.who || !t.op.moves || decide (k.bundle ≤ t.bundle)) &&
  !othersShown s k.who &&
  clockReachedAll s (vcMax k.stamp ((s.anyCtx? k.who).elim [] fun c => fenceStamp s k.who c.fenceNo))

/-- ENGINE_COMMAND_START (09 R235): a queued command whose consumed tokens have all completed starts, or is cancelled
when one of them is not OK. It starts behind the earlier accesses of its context (R236). -/
def execEngineCommandStart (s : State) : Host.Outcome State Fault Refusal :=
  match s.cmd? s.arg.id with
  | none => .next s
  | some k =>
    if k.started ∨ !k.ready then .next s
    else if k.cancel ∨ !(k.deps.all Dep.isOk) then .next (finishCmd s k .cancelled)
    else if !k.released s then .next s
    else .next (s.updCmd k.id fun k => { k with started := true })

/-! ### Copy, gather and scatter (09 R238, R239) -/

/-- One move of a command: the places read and the places written. -/
structure Move where
  src : List Pa
  dst : List Pa
  deriving DecidableEq, Repr

/-- The bytes of one side of a row, in the scratchpad within BANKS or translated. -/
def sideCells (s : State) (k : Cmd) (sp : Bool) (n : Need) (addr len : Nat) : Except TrapInfo (List Pa) × State :=
  if sp then
    match spadAll k.cl k.banks (byteRange addr len) with
    | .ok l => (.ok (l.map fun a => { pa := a, rwn := false }), s)
    | .error t => (.error t, s)
  else xlateAll k.xl n (byteRange addr len) none s

/-- The byte moves of a row each of whose two bytes an access may reach. -/
def rowBytes (k : Cmd) (ssp dsp : Bool) (sa da : Nat) : List Nat → State → List Move × State
  | [], s => ([], s)
  | i :: l, s =>
    let (a, s) := sideCells s k ssp .read ((sa + i) % 2 ^ 64) 1
    let (b, s) := sideCells s k dsp .write ((da + i) % 2 ^ 64) 1
    let (ms, s) := rowBytes k ssp dsp sa da l s
    match a, b with
    | .ok x, .ok y => ({ src := x, dst := y } :: ms, s)
    | _, _ => (ms, s)

/-- The moves that a command with a failing access may have made (R237): every byte of its rows that it may reach. -/
def reachable (k : Cmd) (ssp dsp : Bool) (rows : List (Nat × Nat × Nat)) (s : State) : List Move × State :=
  rows.foldl (fun acc r =>
    let (ms, s) := rowBytes k ssp dsp r.1 r.2.1 (List.range r.2.2) acc.2
    (acc.1 ++ ms, s)) ([], s)

/-- The moves of rows given by their sides, and the first failure in the order of the pseudocode. -/
def rowMoves (k : Cmd) (ssp dsp : Bool) : List (Nat × Nat × Nat) → State → List Move × Option TrapInfo × State
  | [], s => ([], none, s)
  | (sa, da, n) :: l, s =>
    let (a, s) := sideCells s k ssp .read sa n
    match a with
    | .error t => ([], some t, s)
    | .ok sc =>
      let (b, s) := sideCells s k dsp .write da n
      match b with
      | .error t => ([], some t, s)
      | .ok dc =>
        let (ms, t, s) := rowMoves k ssp dsp l s
        ({ src := sc, dst := dc } :: ms, t, s)

/-- The bytes at places of a space, as the home or the scratchpad holds them. -/
def bytesAt (s : State) (sp : Bool) (cells : List Nat) : List Byte :=
  cells.map fun a => if sp then s.spad.get a else s.mem.get a

/-- Writes bytes at places of a space. -/
def putBytes (s : State) (sp : Bool) (w : List (Nat × Byte)) : State :=
  if sp then { s with spad := s.spad.setAll w } else writeGlobal s [] w

/-- Each granule that a command reads is served by its home (10 R260). -/
def serveAll (s : State) (sp : Bool) (cells : List Nat) : State :=
  if sp then s else (granulesOf cells).foldl serve s

/-- Keeps a free subset of a list (DESIGN CHOICE, log 9). -/
def freeSubset {α : Type} : List α → State → List α × State
  | [], s => ([], s)
  | x :: l, s =>
    let (b, s) := s.free 1
    let (r, s) := freeSubset l s
    (if b = 1 then x :: r else r, s)

/-- Takes the elements of a list in a free order (09 R238, R239, R242); n bounds the length. -/
def freeOrder {α : Type} : Nat → List α → State → List α × State
  | 0, l, s => (l, s)
  | n + 1, l, s =>
    match l with
    | [] => ([], s)
    | x :: r =>
      let (v, s) := s.free 32
      let i := v.toNat % (r.length + 1)
      match (x :: r)[i]? with
      | none => (x :: r, s)
      | some y =>
        let (o, s) := freeOrder n ((x :: r).eraseIdx i) s
        (y :: o, s)

/-- The source and destination of each byte that moves carry. -/
def movePairs (ms : List Move) : List (Pa × Pa) := ms.flatMap fun m => m.src.zip m.dst

/-- The byte moves of a row parted into those that are single-copy atomic together (09 R238): the bytes of an 8-byte unit
aligned at both its source and its destination address; any other byte is on its own. -/
def unitsOf : List (Pa × Pa) → List (List (Pa × Pa))
  | [] => []
  | p :: l =>
    match unitsOf l with
    | (q :: u) :: us =>
      if p.1.pa / 8 = q.1.pa / 8 ∧ p.2.pa / 8 = q.2.pa / 8 ∧ p.1.pa % 8 = p.2.pa % 8 then (p :: q :: u) :: us
      else [p] :: (q :: u) :: us
    | us => [p] :: us

/-- The bytes of a space as a byte move finds them after some writes, the latest first. -/
def byteAfter (before : State) (ssp : Bool) (w : List (Nat × Byte)) (a : Nat) : Byte :=
  match w.find? fun q => q.1 == a with
  | some q => q.2
  | none => if ssp then before.spad.get a else before.mem.get a

/-- The writes of units that act one after another, the latest first: a unit whose source an earlier one has written reads
it as it stood before some of the earlier writes, how many of them is free (09 R238). done holds the writes so far, unit by
unit, the latest first. -/
def chaseUnits (before : State) (ssp : Bool) :
    List (List (Pa × Pa)) → List (List (Nat × Byte)) → State → List (Nat × Byte) × State
  | [], done, s => (done.flatten, s)
  | u :: l, done, s =>
    let late := u.any fun p => done.any fun w => w.any fun q => q.1 == p.1.pa
    let (n, s) := if late then
        let (v, s) := s.free 32
        (v.toNat % (done.length + 1), s)
      else (0, s)
    let seen := (done.drop n).flatten
    chaseUnits before ssp l ((u.map fun p => (p.2.pa, byteAfter before ssp seen p.1.pa)) :: done) s

/-- The last write of each byte, of writes of which the latest stands first. -/
def lastWrites : List (Nat × Byte) → List (Nat × Byte)
  | [] => []
  | p :: l => p :: (lastWrites l).filter fun q => q.1 != p.1

/-- What the moves write, each byte once. Where no byte is moved twice and none that is read is written, that is the source
bytes. Else the moves act in any order, but for the collisions of a scatter above DETL FREE, which inOrder keeps in the order
of its elements (09 R238, R239). -/
def moveBytes (before : State) (ssp dsp inOrder : Bool) (ms : List Move) (s : State) : List (Nat × Byte) × State :=
  let ps := movePairs ms
  let from' := ps.map fun p => p.1.pa
  let to' := ps.map fun p => p.2.pa
  let tied := hasDup to' || (ssp == dsp && from'.any to'.contains)
  if !tied then (to'.zip (bytesAt before ssp from'), s)
  else
    let us := ms.flatMap fun m => unitsOf (m.src.zip m.dst)
    let (us, s) := if inOrder then (us, s) else freeOrder us.length us s
    let (w, s) := chaseUnits before ssp us [] s
    (lastWrites w, s)

/-- The taint of destination words follows that of their sources (10 R274): a word is tainted when a byte written to it comes
from a tainted word, or when it was and is not written whole. -/
def moveTaint (s : State) (gang : Nat) (ssp dsp : Bool) (ps : List (Pa × Pa)) : State :=
  if s.taintMem = [] then s
  else
    let key (p : Pa × Pa) : Nat := taintKey dsp (p.2.pa / 4)
    let keys := (ps.map key).dedup
    let hot := keys.filter fun b =>
      (ps.any fun p => key p == b && s.taintMem.contains (taintKey ssp (p.1.pa / 4))) ||
        (s.taintMem.contains b && decide (((ps.filter fun p => key p == b).map fun p => p.2.pa).dedup.length < 4))
    let s : State := { s with taintMem := hot ++ s.taintMem.filter fun k => !keys.contains k }
    if dsp then s
    else noteWritten s gang ((ps.filter fun p => hot.contains (key p)).map fun p => (key p, p.2.va / 4 * 4)).dedup

/-- Poison in granules. -/
def addPoison (s : State) (sp : Bool) (gs : List Nat) : State :=
  if gs = [] then s
  else
    let keys := gs.map (taintKey sp)
    { s with poison := keys ++ s.poison.filter fun k => !keys.contains k }

/-- The destination granules that moves poison (17 R382): an engine that reads poisoned data writes poison there; bad says that
what it reads in this turn has an uncorrectable error. -/
def poisonedBy (s : State) (ssp bad : Bool) (ps : List (Pa × Pa)) : List Nat :=
  if !bad ∧ s.poison = [] then []
  else ((ps.filter fun p => bad || s.poison.contains (taintKey ssp (granule p.1.pa))).map fun p => granule p.2.pa).dedup

/-- A command makes moves, but for those of its byte writes that keep leaves out: their bytes, taint and poison. With arg.val2
= 1 what it reads has an uncorrectable error (log 61). -/
def makeMoves (s : State) (k : Cmd) (ssp dsp inOrder : Bool) (ms : List Move)
    (keep : List (Nat × Byte) → State → List (Nat × Byte) × State) : State :=
  let s := serveAll s ssp (ms.flatMap fun m => m.src.map fun p => p.pa)
  let (w, s) := moveBytes s ssp dsp inOrder ms s
  let (w, s) := keep w s
  let ps := (movePairs ms).filter fun p => w.any fun q => q.1 == p.2.pa
  let bad := poisonedBy s ssp (s.arg.val2 == 1) ps
  addPoison (moveTaint (putBytes s dsp w) k.who.gang ssp dsp ps) dsp bad

/-- Ends a command that moves bytes (09 R235, R237): it makes its moves, and its token completes OK; or, at a failing access,
it has made any subset of the moves that it may reach, and its token completes with FAULT. -/
def finishMoves (s : State) (k : Cmd) (ssp dsp inOrder : Bool) (ms : List Move) (t : Option TrapInfo) : State :=
  match t with
  | none => finishCmd (makeMoves s k ssp dsp inOrder ms fun w s => (w, s)) k .ok
  | some t => finishCmd (makeMoves s k ssp dsp inOrder ms freeSubset) k (.fault t.cause.code t.faddr)

/-- The addresses of global memory that moves touch. -/
def moveGlobals (ssp dsp : Bool) (ms : List Move) : List Nat :=
  (if ssp then [] else ms.flatMap fun m => m.src.map Pa.pa) ++ if dsp then [] else ms.flatMap fun m => m.dst.map Pa.pa

/-- Whether an engine must wait with accesses to global addresses: for a quiesce or a dead furrow (19 R399, R406), or for a
request to the same granules that a quiesce has retained (R403). -/
def engineHeld (s : State) (cells : List Nat) : Bool :=
  portHeld s cells || behindReplay s {} false 0 (granulesOf cells)

/-- The rows of a copy (09 R238), as source, destination and length. -/
def CopyBlock.rows (b : CopyBlock) : List (Nat × Nat × Nat) :=
  (List.range b.n2).flatMap fun (p : Nat) => (List.range b.n1).map fun (q : Nat) =>
    (ofInt 64 ((b.src : Int) + q * b.sstr1 + p * b.sstr2), ofInt 64 ((b.dst : Int) + q * b.dstr1 + p * b.dstr2), b.n0)

/-- The bytes that a copy moves. -/
def CopyBlock.total (b : CopyBlock) : Nat := b.n0 * b.n1 * b.n2

/-- The rows of a copy as far as they stand among its bytes lo to hi, counted row by row. -/
def CopyBlock.part (b : CopyBlock) (lo hi : Nat) : List (Nat × Nat × Nat) :=
  (b.rows.mapIdx fun r x =>
    let first := max lo (r * b.n0)
    (x.1 + (first - r * b.n0), x.2.1 + (first - r * b.n0), min hi ((r + 1) * b.n0) - first)).filter fun x => 0 < x.2.2

/-- Where a turn ends that moves n bytes of a copy from byte lo, or all that are left with n = 0: it parts no 8-byte unit of
the destination (09 R238). -/
def CopyBlock.turnEnd (b : CopyBlock) (lo n : Nat) : Nat :=
  if n = 0 then b.total
  else
    let e := lo + n
    if e % b.n0 = 0 then min e b.total
    else
      let d := ((b.rows[e / b.n0]?).elim 0 fun x => x.2.1) + e % b.n0
      min (min ((e / b.n0 + 1) * b.n0) (e + (8 - d % 8) % 8)) b.total

/-- A copy runs (09 R238) over its next arg.val bytes, or all that are left: other agents act between its turns (DESIGN
CHOICE, log 20). -/
def runCopy (s : State) (k : Cmd) (b : CopyBlock) : State :=
  let hi := b.turnEnd k.stage s.arg.val
  let (ms, t, s1) := rowMoves k b.ssp b.dsp (b.part k.stage hi) s
  match t with
  | some _ =>
    let left := b.part k.stage b.total
    let (_, t, s1) := rowMoves k b.ssp b.dsp left s
    let (ms, s1) := reachable k b.ssp b.dsp left s1
    if engineHeld s (moveGlobals b.ssp b.dsp ms) then s else finishMoves s1 k b.ssp b.dsp false ms t
  | none =>
    if engineHeld s (moveGlobals b.ssp b.dsp ms) then s
    else if hi = b.total then finishMoves s1 k b.ssp b.dsp false ms none
    else (makeMoves s1 k b.ssp b.dsp false ms fun w s => (w, s)).updCmd k.id fun x => { x with stage := hi }

/-- The index of element e, read before its access (09 R239). -/
def readIndex (s : State) (k : Cmd) (b : GatherBlock) (e : Nat) : Except TrapInfo Nat × State :=
  let n := if b.wide then 8 else 4
  let (c, s) := sideCells s k b.isp .read ((b.index + e * n) % 2 ^ 64) n
  match c with
  | .error t => (.error t, s)
  | .ok l =>
    let cells := l.map fun p => p.pa
    let s := serveAll s b.isp cells
    (.ok (ofBytes (bytesAt s b.isp cells)), s)

/-- Whether the side that a gather or scatter reads is the scratchpad. -/
def GatherBlock.ssp (b : GatherBlock) : Bool := if b.scatter then b.dnsp else b.bsp
/-- Whether the side that it writes is. -/
def GatherBlock.dsp (b : GatherBlock) : Bool := if b.scatter then b.bsp else b.dnsp

/-- The row of element e, given its index (09 R239). -/
def GatherBlock.row (b : GatherBlock) (e x : Nat) : Nat × Nat × Nat :=
  let a := (b.base + x * b.stride) % 2 ^ 64
  let d := (b.dense + e * b.esz) % 2 ^ 64
  if b.scatter then (d, a, b.esz) else (a, d, b.esz)

/-- The moves of the elements of a gather or scatter, one element after another (09 R239). Every index of a turn is read as
it stood before the turn wrote anything (DESIGN CHOICE, log 108). -/
def elemMoves (k : Cmd) (b : GatherBlock) : List Nat → State → List Move × Option TrapInfo × State
  | [], s => ([], none, s)
  | e :: l, s =>
    let (x, s) := readIndex s k b e
    match x with
    | .error t => ([], some t, s)
    | .ok x =>
      let (m, t, s) := rowMoves k b.ssp b.dsp [b.row e x] s
      match t with
      | some t => ([], some t, s)
      | none =>
        let (ms, t, s) := elemMoves k b l s
        (m ++ ms, t, s)

/-- The rows of the elements whose index can be read. -/
def elemRows (k : Cmd) (b : GatherBlock) : List Nat → State → List (Nat × Nat × Nat) × State
  | [], s => ([], s)
  | e :: l, s =>
    let (x, s) := readIndex s k b e
    let (rs, s) := elemRows k b l s
    match x with
    | .ok x => (b.row e x :: rs, s)
    | .error _ => (rs, s)

/-- The moves that the elements of a gather or scatter with a failing access may have made (R237). -/
def elemReachable (k : Cmd) (b : GatherBlock) (l : List Nat) (s : State) : List Move × State :=
  let (rows, s) := elemRows k b l s
  reachable k b.ssp b.dsp rows s

/-- Whether the collisions of a command are settled by the order of its elements (09 R239). -/
def GatherBlock.inOrder (b : GatherBlock) (k : Cmd) : Bool := b.scatter && k.detl != 0

/-- The addresses of the indices of elements. -/
def indexCells (s : State) (k : Cmd) (b : GatherBlock) (l : List Nat) : List Nat :=
  if b.isp then []
  else l.flatMap fun e =>
    let n := if b.wide then 8 else 4
    match (sideCells s k false .read ((b.index + e * n) % 2 ^ 64) n).1 with
    | .ok c => c.map Pa.pa
    | .error _ => []

/-- A gather or scatter runs (09 R239) over its next arg.val elements, or all that are left: other agents act between its
turns (DESIGN CHOICE, log 20). -/
def runGather (s : State) (k : Cmd) (b : GatherBlock) : State :=
  let left := (List.range b.count).drop k.stage
  let now := if s.arg.val = 0 then left else left.take s.arg.val
  let (ms, t, s1) := elemMoves k b now s
  match t with
  | some _ =>
    let (ms, s1) := elemReachable k b left s1
    if engineHeld s (indexCells s k b left ++ moveGlobals b.ssp b.dsp ms) then s
    else finishMoves s1 k b.ssp b.dsp (b.inOrder k) ms t
  | none =>
    if engineHeld s (indexCells s k b now ++ moveGlobals b.ssp b.dsp ms) then s
    else if now.length = left.length then finishMoves s1 k b.ssp b.dsp (b.inOrder k) ms none
    else (makeMoves s1 k b.ssp b.dsp (b.inOrder k) ms fun w s => (w, s)).updCmd k.id fun x =>
      { x with stage := x.stage + now.length }

/-! ### Reshard (09 R240 to R243) -/

/-- The extents L of a layout's shard (09 R241). -/
def shardLens (b : List Byte) (off : Nat) : List Nat :=
  (List.range (leAt b 1 1)).map fun d => rsDim b d / rsProd b (rsMask b off d)

/-- The bytes of an element type (09 R240). -/
def rsBytes (b : List Byte) : Nat :=
  match leAt b 3 1 with
  | 1 => 2
  | 2 => 2
  | 3 => 8
  | 5 => 1
  | _ => 4

/-- The bytes of a shard. -/
def shardBytes (b : List Byte) (off : Nat) : Nat := (shardLens b off).prod * rsBytes b

/-- The coordinates of a rank (09 R241). -/
def rankCoords (b : List Byte) (r : Nat) : List Nat :=
  let m := rsAxis b
  [r % m 0, r / m 0 % m 1, r / (m 0 * m 1) % m 2, r / (m 0 * m 1 * m 2) % m 3]

/-- The rank with given coordinates. -/
def rankOf (b : List Byte) (c : List Nat) : Nat :=
  let co : Nat → Nat := fun i => c.getD i 0
  co 0 + rsAxis b 0 * (co 1 + rsAxis b 1 * (co 2 + rsAxis b 2 * co 3))

/-- The shard coordinate of a rank for a dimension (09 R241): the lowest axis is the most significant. -/
def shardCoord (b : List Byte) (off d : Nat) (c : List Nat) : Nat :=
  (axesOf (rsMask b off d)).foldl (fun sc a => sc * rsAxis b a + c.getD a 0) 0

/-- The indices of a dense row-major place among extents. -/
def unflatten : List Nat → Nat → List Nat
  | [], _ => []
  | l :: ls, i => i / ls.prod % l :: unflatten ls (i % ls.prod)

/-- The dense row-major place of indices among extents. -/
def flatten : List Nat → List Nat → Nat
  | l :: ls, i :: is => (i % l) * ls.prod + flatten ls is
  | _, _ => 0

/-- The digit of axis a in the shard coordinate sc of dimension d. -/
def axisDigit (b : List Byte) (mask a sc : Nat) : Nat :=
  sc / ((axesOf mask).filter fun x => a < x).foldl (fun p x => p * rsAxis b x) 1 % rsAxis b a

/-- The coordinate on axis a that holds global index g under the source layout, when a shards a dimension. -/
def holderCoord (b : List Byte) (a : Nat) (g : List Nat) : Option Nat :=
  ((List.range (leAt b 1 1)).find? fun d => testBit (rsMask b 0x20 d) a).map fun d =>
    let len := rsDim b d / rsProd b (rsMask b 0x20 d)
    axisDigit b (rsMask b 0x20 d) a ((g[d]?).getD 0 / len)

/-- The combinations of coordinates over the reduced axes, in rank-index order: axis 0 varies fastest. -/
def reducedCoords (b : List Byte) : List (List (Option Nat)) :=
  let rx := rsReduced b
  (List.range (rsProd b rx)).map fun z =>
    (List.range 4).map fun a =>
      if testBit rx a then
        some (z / ((axesOf rx).filter fun x => x < a).foldl (fun p x => p * rsAxis b x) 1 % rsAxis b a)
      else none

/-- The number type of a reshard. -/
def rsType (b : List Byte) : NumTy :=
  match leAt b 3 1 with
  | 0 => .fp .f32
  | 1 => .fp .bf16
  | 2 => .fp .f16
  | 3 => .fp .f64
  | 4 => iTy 32
  | _ => nTy 8

/-- The fold of FP32 values by ROP, left to right; NaN and infinity by 02 R51 over all of them (09 R242). -/
def foldF32 (rop : Nat) (l : List Nat) : FR :=
  match l with
  | [] => { bits := 0 }
  | x :: r =>
    if rop = 0 then
      match (if r = [] then none else sumSpecial .f32 (l.map fun v => .val (Fmt.f32.unpack v))) with
      | some v => v
      | none => r.foldl (fun a v => let t := fadd .f32 .rne a.bits v; { t with flags := t.flags ||| a.flags }) { bits := x }
    else r.foldl (fun a v => let t := fminmax .f32 (rop == 2) a.bits v; { t with flags := t.flags ||| a.flags }) { bits := x }

/-- The fold of the values of one element (09 R242); a single value is copied, also where the reduced axes are not empty and
all have size 1 (DESIGN CHOICE, log 103). -/
def rsFold (b : List Byte) (l : List Nat) : FR :=
  let rop := leAt b 4 1
  match l with
  | [v] => { bits := v }
  | _ =>
    match leAt b 3 1 with
    | 0 => foldF32 rop l
    | 1 | 2 =>
      let f := if leAt b 3 1 = 1 then Fmt.bf16 else Fmt.f16
      let wide := l.map fun v => convertNum (.fp f) (.fp .f32) .rne 0 v
      let r := foldF32 rop (wide.map FR.bits)
      let o := convertNum (.fp .f32) (.fp f) .rne 0 r.bits
      { o with flags := o.flags ||| r.flags ||| orFlags (wide.map FR.flags) }
    | e =>
      let t : IntTy := if e = 4 then { width := 32, signed := true } else { width := 8, signed := false }
      let vs := l.map t.val
      let r := match rop with
        | 0 => vs.foldl (· + ·) 0
        | 1 => vs.foldl min (vs.headD 0)
        | _ => vs.foldl max (vs.headD 0)
      { bits := ofInt t.width r }

/-- The destination shard of rank x, from the source shards of all ranks in rank order (09 R242). -/
def reshardResult (b : List Byte) (detl x : Nat) (shards : List (List Byte)) (s : State) : List Byte × Flags × State :=
  let lens := shardLens b 0x28
  let slens := shardLens b 0x20
  let n := rsBytes b
  let cx := rankCoords b x
  let zs := reducedCoords b
  (List.range lens.prod).foldl (fun (acc : List Byte × Flags × State) e =>
    let g := (unflatten lens e).mapIdx fun d i => shardCoord b 0x28 d cx * (lens[d]?).getD 1 + i
    let vs := zs.map fun z =>
      let cy := (List.range 4).map fun a => match (z[a]?).getD none with
        | some v => v
        | none => (holderCoord b a g).getD ((cx[a]?).getD 0)
      let place := flatten slens (g.mapIdx fun d v => v % (slens[d]?).getD 1)
      leAt ((shards[rankOf b cy]?).getD []) (place * n) n
    let (vs, s) := if detl = 0 then freeOrder vs.length vs acc.2.2 else (vs, acc.2.2)
    let r := rsFold b vs
    (acc.1 ++ toBytes n r.bits, acc.2.1 ||| r.flags, s)) ([], 0, s)

/-- The reshard block of a command. -/
def Cmd.reshard? (k : Cmd) : Option ReshardBlock :=
  match k.body with
  | .reshard b => some b
  | _ => none

/-- The digest of a reshard (09 R242): bytes 0x00 to 0x2F with SELF read as zero, and the rank table. -/
def ReshardBlock.digest (b : ReshardBlock) : List Byte × List (Nat × Nat) :=
  (sliceBytes b.bytes 0 6 ++ [0, 0] ++ sliceBytes b.bytes 8 0x28, b.ranks)

/-- Whether the rank table of a reshard names the rank that another command is. -/
def Cmd.names (c : Cmd) (pkg place : Nat) : Bool := c.reshard?.any fun b => b.ranks.contains (pkg, place)

/-- The command of a die of this package that belongs to one collective with k. -/
def localRank (s : State) (k : Cmd) (b : ReshardBlock) (stage die : Nat) : Option Cmd :=
  let here := s.cmds.filter fun c => c.place == die && c.reshard?.isSome && c.stage == stage
  if die = k.place then some k
  else (here.find? fun c => (c.reshard?.map fun x => x.ranks) == some b.ranks).or
    (here.find? fun c => c.names s.pkg k.place)

/-- The commands of this package's threshers that belong to one collective with k: for each rank of k's table in this
package, a reshard of that die that has not exchanged (stage 0); none while one is missing. Which reshard of a die belongs
to a collective the spec does not say: the first with the same rank table, or else the first whose table names the rank
of k (DESIGN CHOICE, log 99). -/
def localRanks (s : State) (k : Cmd) (stage : Nat) : Option (List Cmd) :=
  match k.reshard? with
  | none => none
  | some b => (b.ranks.filter fun r => r.1 == s.pkg).mapM fun r => localRank s k b stage r.2

/-- RESHARD_DIGEST_EXCHANGE (09 R242) of the collective of command arg.id, once every rank has been accepted: arg.val
is not 0 when a rank of another package has sent a digest that differs. Every rank goes on, or every rank's token
completes with FAULT and cause ILLEGAL_INSTR. -/
def execReshardDigestExchange (s : State) : Host.Outcome State Fault Refusal :=
  match s.cmd? s.arg.id with
  | none => .next s
  | some k =>
    match k.reshard?, localRanks s k 0 with
    | some b, some l =>
      if k.stage ≠ 0 ∨ s.fleet.step ≠ .idle then .next s
      else if s.arg.val ≠ 0 ∨ l.any (fun c => (c.reshard?.map ReshardBlock.digest) != some b.digest) then
        .next (l.foldl (fun s c => finishCmd s c (.fault Cause.illegalInstr.code 0)) s)
      else .next (l.foldl (fun s c => s.updCmd c.id fun x => { x with stage := 1, chunksRead := l.map fun y => y.id }) s)
    | _, _ => .next s

/-- The number of chunks that a reshard waits for: none with TRIGBASE 0 (09 R243). -/
def chunkCount (b : ReshardBlock) : Nat := if zeroAt b.bytes 0x48 8 then 0 else leAt b.bytes 0x50 4

/-- Reads part of a rank's source shard into the command: chunk j of n. -/
def readChunk (s : State) (k : Cmd) (b : ReshardBlock) (j n : Nat) : State :=
  let size := shardBytes b.bytes 0x20 / n
  let (c, s) := xlateAll k.xl .read (byteRange (leAt b.bytes 0x30 8 + j * size) size) none s
  match c with
  | .error t => s.updCmd k.id fun x => { x with fault := some (t.cause.code, t.faddr), stage := x.stage + 1 }
  | .ok l =>
    let cells := l.map fun p => p.pa
    if engineHeld s cells then s
    else
      let s := serveAll s false cells
      let d := bytesAt s false cells
      let bad := s.arg.val2 == 1 || (granulesOf cells).any fun g => s.poison.contains (taintKey false g)
      s.updCmd k.id fun x => { x with shard := x.shard ++ d, stage := x.stage + 1, poisoned := x.poisoned || bad }

/-- The next chunk of a reshard, or the fault of its counter's address (09 R243, R237): chunk j of n is read once its trigger
counter passes the threshold, behind what the counter's last writer released (10 R262, R264). -/
def readNextChunk (s : State) (k : Cmd) (b : ReshardBlock) (j n : Nat) : State :=
  let a := (leAt b.bytes 0x48 8 + 4 * j) % 2 ^ 64
  let stop (s : State) (c : Cause) (a : Nat) : State := s.updCmd k.id fun x => { x with fault := some (c.code, a % 2 ^ 56) }
  if a % 4 ≠ 0 then stop s .align a
  else
    let (c, s) := xlateAll k.xl .read (byteRange a 4) none s
    match c with
    | .error t => stop s t.cause t.faddr
    | .ok l =>
      let cells := l.map fun p => p.pa
      let s := serveAll s false cells
      let v := BitVec.ofNat 32 (ofBytes (bytesAt s false cells))
      let stamp := vcMax k.stamp (stampOf s (granule (cells.headD 0)))
      if (v - BitVec.ofNat 32 (leAt b.bytes 0x54 4)).toNat < 2 ^ 31 ∧ clockReachedAll s stamp ∧ engineHeld s cells = false then
        readChunk s k b j n
      else s

/-- The commands of this package that belong to one collective with k: before the digests are exchanged, those that have been
accepted so far. -/
def collective (s : State) (k : Cmd) : List Cmd :=
  if k.stage ≠ 0 then k.chunksRead.filterMap s.cmd?
  else match k.reshard? with
    | none => [k]
    | some b => (b.ranks.filter fun r => r.1 == s.pkg).filterMap fun r => localRank s k b 0 r.2

/-- Writes free bytes over the destination shard of a cancelled reshard (09 R243). -/
def freeShard (s : State) (k : Cmd) : State :=
  match k.reshard? with
  | none => s
  | some b =>
    match xlateAll k.xl .write (byteRange (leAt b.bytes 0x38 8) (shardBytes b.bytes 0x28)) none s with
    | (.error _, s) => s
    | (.ok l, s) =>
      let (d, s) := s.free (8 * l.length)
      putBytes s false ((l.map fun p => p.pa).zip (toBytes l.length d.toNat))

/-- A collective is cancelled: the token of every rank here completes as CANCELLED. -/
def cancelCollective (s : State) (k : Cmd) : State :=
  (collective s k).foldl (fun s c => if s.cmds.any fun x => x.id == c.id then finishCmd (freeShard s c) c .cancelled
    else s) s

/-- RESHARD_CHUNK_READ (09 R243): the next chunk of command arg.id is read; with TRIGBASE 0 the whole shard is read once the
consumed tokens have completed. stage counts the parts read, plus one for the exchange. With arg.val not 0 a chunk counter
has been reset at a rank in another package, which cancels the collective. -/
def execReshardChunkRead (s : State) : Host.Outcome State Fault Refusal :=
  match s.cmd? s.arg.id with
  | none => .next s
  | some k =>
    match k.reshard? with
    | none => .next s
    | some b =>
      let n := chunkCount b
      let j := k.stage - 1
      if s.arg.val ≠ 0 ∧ b.ranks.any (fun r => r.1 != s.pkg) then .next (cancelCollective s k)
      else if k.stage = 0 ∨ !k.started ∨ k.fault.isSome then .next s
      else if n = 0 then (if k.stage = 1 then .next (readChunk s k b 0 1) else .next s)
      else if n ≤ j then .next s
      else .next (readNextChunk s k b j n)

/-- Whether a reshard command has read its whole shard. -/
def shardRead (k : Cmd) (b : ReshardBlock) : Bool := decide (k.stage = 1 + max (chunkCount b) 1)

/-- A list of n bytes: those given, and free ones for what is missing. -/
def fillFree (n : Nat) (l : List Byte) (s : State) : List Byte × State :=
  if n ≤ l.length then (l.take n, s)
  else
    let (v, s) := s.free (8 * (n - l.length))
    (l ++ toBytes (n - l.length) v.toNat, s)

/-- The source shards of all ranks in rank order, of size bytes each: what the ranks of this package have read, and, one
after another, what remote gives of the others. What a rank could not read, its command having stopped, is free (log 112). -/
def allShards (s : State) (k : Cmd) (size : Nat) (remote : List Byte) : List (Nat × Nat) → List (List Byte) × State
  | [] => ([], s)
  | p :: l =>
    let here := p.1 == s.pkg
    let d := if here then ((((k.chunksRead.filterMap s.cmd?).find? fun c => c.place == p.2).map fun c => c.shard).getD [])
      else remote.take size
    let (d, s) := fillFree size d s
    let (r, s) := allShards s k size (if here then remote else remote.drop size) l
    (d :: r, s)

/-- What a reshard writes: the bytes of its destination shard, by address where they translate, and the flags; and the first
failure, if any (09 R237, R242). -/
def reshardWrites (s : State) (k : Cmd) (b : ReshardBlock) (remote : List Byte) :
    List (Nat × Byte) × Flags × Option TrapInfo × State :=
  let (shards, s) := allShards s k (shardBytes b.bytes 0x20) remote b.ranks
  let (d, fl, s) := reshardResult b.bytes k.detl (leAt b.bytes 6 2) shards s
  let vas := byteRange (leAt b.bytes 0x38 8) d.length
  let (c, s) := xlateAll k.xl .write vas none s
  match c with
  | .ok l => ((l.map fun p => p.pa).zip d, fl, none, s)
  | .error t =>
    let (w, s) := (vas.zip d).foldr (fun p acc => match xlate acc.2 k.xl .write p.1 with
      | (.ok x, s) => ((x.pa, p.2) :: acc.1, s)
      | (.error _, s) => (acc.1, s)) ([], s)
    (w, fl, some t, s)

/-- A reshard completes (09 R242, R243), or stops at a failing access with a free subset of its destination bytes written
(R237); remote gives the shards of ranks in other packages, one after another. -/
def runReshard (s : State) (k : Cmd) (b : ReshardBlock) (remote : List Byte) : State :=
  let (w, fl, t, s1) := reshardWrites s k b remote
  if engineHeld s (w.map Prod.fst) then s
  else
    let bad := k.poisoned || (k.chunksRead.filterMap s.cmd?).any fun c => c.poisoned
    let s := raiseRemote s1 k.who.gang fl
    let (w, s) := if t.isSome then freeSubset w s else (w, s)
    let s := putBytes s false w
    let s := if bad then addPoison s false (granulesOf (w.map Prod.fst)) else s
    s.updCmd k.id fun x => match t with
      | none => { x with cancel := true }
      | some t => { x with fault := some (t.cause.code, t.faddr) }

/-- A rank whose destination is written, or whose command has stopped at a failing access, keeps its shard until every rank of
the package has its own: then all their tokens complete (09 R243). -/
def settleReshard (s : State) (k : Cmd) : State :=
  let l := k.chunksRead.filterMap s.cmd?
  if l.all fun c => c.cancel || c.fault.isSome then
    l.foldl (fun s c => finishCmd s c (match c.fault with
      | some (x, a) => .fault x a
      | none => .ok)) s
  else s

/-! ### COMBINE (09 R244) -/

/-- Whether contribution a comes before b in source order (09 R244). -/
def stagedBefore (a b : Staged) : Bool :=
  if a.pkg ≠ b.pkg then decide (a.pkg < b.pkg)
  else if a.gang ≠ b.gang then decide (a.gang < b.gang)
  else if a.gix ≠ b.gix then decide (a.gix < b.gix)
  else decide (a.seq < b.seq)

/-- A list of staged contributions in source order. -/
def insertStaged (x : Staged) : List Staged → List Staged
  | [] => [x]
  | y :: l => if stagedBefore x y then x :: y :: l else y :: insertStaged x l

/-- The value of an element after the fold of its staged contributions; a sum takes NaN and infinity by 02 R51 over
the element and every contribution. -/
def foldStaged (c : CombineBlock) (x : Nat) (l : List Staged) : Nat × Flags :=
  let ops := l.map fun st => { st.atom with op := c.op, ty := c.ty }
  let special := if c.op = .fadd ∧ l ≠ [] then
      sumSpecial c.ty.fmt ((x :: ops.map fun a => a.val.toNat % 2 ^ (8 * c.ty.bytes)).map fun v => .val (c.ty.fmt.unpack v))
    else none
  match special with
  | some r => (r.bits, r.flags)
  | none => ops.foldl (fun acc a => let (v, fl) := a.apply acc.1; (v, acc.2 ||| fl)) (x, 0)

/-- Whether the element at an address is damaged (19 R410). -/
def damagedAt (s : State) (pa : Nat) : Bool :=
  (windowOf s pa).any fun w => s.fleet.damaged.any fun d =>
    d.wid == w.wid && hashOf (hashX pa) == d.hash && !(d.repaired.any fun r => decide (r.1 ≤ pa ∧ pa < r.1 + r.2))

/-- The damage marks of a range of n bytes gone (19 R410). -/
def repair (s : State) (pa n : Nat) : State :=
  { s with fleet := { s.fleet with
      damaged := s.fleet.damaged.map fun d => { d with repaired := d.repaired ++ [(pa, n)] } } }

/-- The elements of a command's range that are damaged (19 R410). -/
def combineDamaged (s : State) (k : Cmd) (c : CombineBlock) : List Nat :=
  (List.range c.count).filterMap fun i =>
    match (xlate s k.xl .combine ((c.addr + i * c.ty.bytes) % 2 ^ 64)).1 with
    | .ok p => if damagedAt s p.pa then some p.pa else none
    | .error _ => none

/-- The fold of one element (09 R244): its staged contributions in source order, the delivery of the result, and its
staging empty. An element with nothing staged is unchanged. -/
def foldElement (s : State) (c : CombineBlock) (pa : Nat) : Flags × State :=
  let n := c.ty.bytes
  let l := (s.fleet.staged.filter fun st => st.addr == pa).foldr insertStaged []
  let s := serve s (granule pa)
  let (v, fl) := foldStaged c (s.mem.le pa n) l
  let s := if l = [] then s else writeHome s (granule pa) [] ((byteRange pa n).zip (toBytes n v))
  (fl, { s with fleet := { s.fleet with staged := s.fleet.staged.filter fun st => st.addr != pa } })

/-- All that is staged or merged for elements at addresses is discarded, and so are the contributions to them in flight, which
are acknowledged: none reaches its target (19 R410). Those that were issued behind a given command stay. -/
def discardStaging (s : State) (before : Option Nat) (cells : List Nat) : State :=
  let f := s.fleet
  let gone := f.accs.filter fun k => cells.contains k.addr
  let hit (a : Access) : Bool := (a.place == .switch && (a.cells.head?.any cells.contains) && before.all fun n => decide (a.id < n)) ||
    gone.any fun k => k.acks.contains a.id
  { s with
    fleet := { f with
      staged := f.staged.filter fun x => !cells.contains x.addr
      accs := f.accs.filter fun k => !cells.contains k.addr }
    flights := s.flights.map fun a => if hit a then { a with todo := [] } else a }

/-- The operations and types of an atomic from outside this package, as arg.sig numbers them. -/
def contribOps : List AtomOp := [.add, .and, .or, .xor, .min, .max, .fadd, .fmin, .fmax, .swap, .cas]
/-- The types of an atomic from outside this package. -/
def contribTys : List AtomTy := [.i32, .i64, .n32, .n64, .f32, .f64]

/-- A byte of arg.sig. -/
def State.sigByte (s : State) (i : Nat) : Nat := leAt s.arg.sig i 1

/-- What a COMBINE that a context of another package of the domain has issued does at the element at arg.val (09 R244): it
folds it, by the operation and type that the second and third byte of arg.sig number, and its flags go to that package; or
it discards it, where the first byte is not 0 (19 R410). -/
def foreignCombine (s : State) : State :=
  match (contribOps.take 9)[s.sigByte 1]?, contribTys[s.sigByte 2]? with
  | some op, some ty =>
    let pa := s.arg.val
    if (windowOf s pa).isNone ∨ pa % ty.bytes ≠ 0 ∨ (s.sigByte 0 = 0 ∧ damagedAt s pa) ∨ engineHeld s [pa] then s
    else if s.sigByte 0 = 0 then (foldElement s { op := op, ty := ty, count := 1, addr := pa } pa).2
    else repair (discardStaging s none [pa]) pa ty.bytes
  | _, _ => s

/-- COMBINE_FOLD (09 R244): the switch folds the next element of COMBINE command arg.id, in source order, and delivers
the result; at an element that does not translate the command stops, with a free subset of the further ones folded (R237). A
range that holds a damaged element is discarded instead (19 R410): no element is folded, its staging and
its damage marks go, and the token completes as CANCELLED. With arg.sig it is the fold of another package's COMBINE. -/
def execCombineFold (s : State) : Host.Outcome State Fault Refusal :=
  if s.arg.sig ≠ [] then .next (foreignCombine s)
  else match s.cmd? s.arg.id with
  | none => .next s
  | some k =>
    match k.body with
    | .combine c =>
      let n := c.ty.bytes
      let place (i : Nat) : Option Nat :=
        match (xlate s k.xl .combine ((c.addr + i * n) % 2 ^ 64)).1 with
        | .ok p => some p.pa
        | .error _ => none
      if !k.started ∨ k.fault.isSome ∨ c.count ≤ k.stage ∨ s.fleet.step ≠ .idle then .next s
      else if combineDamaged s k c ≠ [] then
        let cells := (List.range c.count).filterMap place
        .next (finishCmd (cells.foldl (fun s a => repair s a n) (discardStaging s (some k.id) cells)) k .cancelled)
      else
        let (p, t) := xlate s k.xl .combine ((c.addr + k.stage * n) % 2 ^ 64)
        match p with
        | .error e =>
          let (more, t) := freeSubset (((List.range c.count).drop k.stage).filterMap place) t
          let t := more.foldl (fun t a => let (fl, t) := foldElement t c a; raiseRemote t k.who.gang fl) t
          .next (t.updCmd k.id fun x => { x with fault := some (e.code, (c.addr + k.stage * n) % 2 ^ 56) })
        | .ok p =>
          if engineHeld s [p.pa] then .next s
          else
            let (fl, t) := foldElement t c p.pa
            .next ((raiseRemote t k.who.gang fl).updCmd k.id fun x => { x with stage := x.stage + 1 })
    | _ => .next s

/-- ENGINE_COMMAND_COMPLETE (09 R235, R237) of command arg.id, when it runs: it does what its block says, a copy, gather or
scatter in as many turns as the events name, and its token completes OK, or FAULT at a failing access. A reshard whose ranks are partly in other packages takes their source
shards from arg.data. Engines stall during a quiesce (19 R406). -/
def execEngineCommandComplete (s : State) : Host.Outcome State Fault Refusal :=
  match s.cmd? s.arg.id with
  | none => .next s
  | some k =>
    if !k.started ∨ s.fleet.step ≠ .idle then .next s
    else match k.body with
      | .copy b => .next (runCopy s k b)
      | .gather b => .next (runGather s k b)
      | .reshard b =>
        let peers := k.chunksRead.filterMap s.cmd?
        if k.fault.isSome then .next (settleReshard s k)
        else if k.cancel ∨ !shardRead k b ∨ !(peers.all fun c => match c.reshard? with
            | some x => shardRead c x || c.fault.isSome
            | none => false) then .next s
        else .next (settleReshard (runReshard s k b s.arg.data) k)
      | .combine c =>
        match k.fault with
        | some (x, a) => .next (finishCmd s k (.fault x a))
        | none => if k.stage = c.count then .next (finishCmd s k .ok) else .next s

/-- The status of a TOKJOIN (09 R248): FAULT with the cause and address of the lowest-numbered field that is FAULT,
else CANCELLED, else OK. -/
def joinStatus (l : List Dep) : TokStatus :=
  match l.find? fun d => match d with
    | .known _ (.fault _ _) => true
    | _ => false with
  | some (.known _ st) => st
  | _ => if l.any (fun d => match d with
      | .known _ .cancelled => true
      | _ => false) then .cancelled else .ok

/-- TOKJOIN_COMPLETE (09 R248) of join arg.id. -/
def execTokjoinComplete (s : State) : Host.Outcome State Fault Refusal :=
  match s.joins.find? fun j => j.id == s.arg.id with
  | none => .next s
  | some j =>
    if j.deps.all Dep.isKnown then
      .next (completeToken { s with joins := s.joins.filter fun x => x.id != j.id } j.who j.q j.gen (joinStatus j.deps))
    else .next s

end Sys2Proof.Machine
end

