-- ==== Sys2Proof/Machine/Tile.lean ====
section
/-! DEFINITION. Tiles: shapes and byte images (07 R176, R177), whole-tile operations (R180 to R185), and tile loads and
stores (R186 to R189). -/
namespace Sys2Proof.Machine

/-! ### Shapes and images -/

/-- The shape of a tile (03 R72). -/
structure Shape where
  fmt : Nat
  rows : Nat
  cols : Nat
  deriving DecidableEq, Repr

/-- The shape in a TCFG word. -/
def Shape.ofWord (w : Word) : Shape := { fmt := bits w.toNat 0 5, rows := bits w.toNat 21 9, cols := bits w.toNat 8 13 }
/-- The element width. -/
def Shape.width (h : Shape) : Nat := fmtWidth h.fmt
/-- RS: the bytes of a row (07 R176). -/
def Shape.rs (h : Shape) : Nat := ceilDiv (h.cols * h.width) 8
/-- Whether the format is an MX code. -/
def Shape.isMx (h : Shape) : Bool := (mxElem h.fmt).isSome
/-- Whether the format is an SC code. -/
def Shape.isSc (h : Shape) : Bool := (scElem h.fmt).isSome
/-- Whether a shape is valid (03 R73). -/
def Shape.valid (h : Shape) : Bool :=
  decide (h.width ≠ 0 ∧ 1 ≤ h.rows ∧ h.rows ≤ 256 ∧ 1 ≤ h.rs ∧ h.rs ≤ 512 ∧ h.rows * h.rs ≤ 65536)
/-- Whether COLS suits the scale sidecar of the format (07 R177). -/
def Shape.sideOk (h : Shape) : Bool :=
  (!h.isMx || h.cols % 32 == 0) && (!h.isSc || h.cols % 128 == 0)
/-- The bytes of scales that belong to a row (07 R177). -/
def Shape.scaleBytes (h : Shape) : Nat := if h.isMx then h.cols / 32 else if h.isSc then 4 * (h.cols / 128) else 0
/-- IRS: the bytes of a row image in memory (07 R186). -/
def Shape.irs (h : Shape) : Nat := h.rs + h.scaleBytes
/-- PP: the packed pitch (07 R186). -/
def Shape.pitch (h : Shape) : Nat := ceilDiv h.irs 4 * 4

/-- The shape of a declared tile, where it is valid (01 R24, 03 R73). -/
def Ctx.shape? (c : Ctx) (n : TReg) : Option Shape :=
  let h := Shape.ofWord (c.tcfg.get n)
  if n.val < c.ntiles ∧ h.valid then some h else none

/-- The shape of a tile, where it is also valid for an instruction that uses the sidecar (07 R177). -/
def Ctx.sideShape? (c : Ctx) (n : TReg) : Option Shape := (c.shape? n).bind fun h => if h.sideOk then some h else none

/-- Row r of a byte image, as a number. -/
def Tile.row (t : Tile) (h : Shape) (r : Nat) : Nat := bits t.bytes.toNat (8 * h.rs * r) (8 * h.rs)
/-- The elements of row r. -/
def Tile.elems (t : Tile) (h : Shape) (r : Nat) : List Nat := splitElems h.width h.cols (t.row h r)
/-- The scale bytes of row r, as a number. -/
def Tile.scaleRow (t : Tile) (h : Shape) (r : Nat) : Nat :=
  bits t.scales.toNat (8 * h.scaleBytes * r) (8 * h.scaleBytes)

/-- A tile with n bits of its bytes, from bit lo, replaced. -/
def Tile.setBytes (t : Tile) (lo n x : Nat) : Tile := { t with bytes := BitVec.ofNat 524288 (setBits t.bytes.toNat lo n x) }
/-- A tile with n bits of its scale sidecar, from bit lo, replaced. -/
def Tile.setScales (t : Tile) (lo n x : Nat) : Tile := { t with scales := BitVec.ofNat 32768 (setBits t.scales.toNat lo n x) }

/-- A tile with its byte image replaced, given row by row. -/
def Tile.withRows (t : Tile) (h : Shape) (rows : List Nat) : Tile :=
  t.setBytes 0 (8 * h.rs * rows.length) (joinElems (8 * h.rs) rows)
/-- A tile with its elements replaced, given row by row; bits of a row beyond its elements stay. -/
def Tile.withElems (t : Tile) (h : Shape) (rows : List (List Nat)) : Tile :=
  t.withRows h (rows.mapIdx fun r l => setBits (t.row h r) 0 (h.width * h.cols) (joinElems h.width l))
/-- A tile with the scales of its rows replaced. -/
def Tile.withScales (t : Tile) (h : Shape) (rows : List Nat) : Tile :=
  t.setScales 0 (8 * h.scaleBytes * rows.length) (joinElems (8 * h.scaleBytes) rows)

/-- The row image of row r: its bytes, then its scales (07 R177). -/
def Tile.rowImage (t : Tile) (h : Shape) (r : Nat) : List Byte :=
  toBytes h.rs (t.row h r) ++ toBytes h.scaleBytes (t.scaleRow h r)

/-- A tile with the row image of row r replaced. -/
def Tile.putRow (t : Tile) (h : Shape) (r : Nat) (d : List Byte) : Tile :=
  (t.setBytes (8 * h.rs * r) (8 * h.rs) (leAt d 0 h.rs)).setScales (8 * h.scaleBytes * r) (8 * h.scaleBytes)
    (leAt d h.rs h.scaleBytes)

/-- TILE_SHAPE at a tile (03 R80). -/
def tileTrap (n : TReg) : SlotEnd := .trap { cause := .tileShape, xinfo := n.val }

/-- Writes a tile register of a context. -/
def Ctx.wrT (c : Ctx) (n : TReg) (t : Tile) : Ctx := { c with t := c.t.set n.val t n.isLt }

/-! ### Issue of whole-tile operations (07 R179 to R184) -/

/-- The record of a tile instruction that the bundle puts in flight, with the TCFG words of its tiles as they stood
before the bundle (03 R92). -/
def flightOf (s : State) (i : Nat) (op : TileOp) (tok : Option (QReg × Nat)) (banks : BitVec 48) (cont : Bool) :
    TileFlight :=
  let c := s.src
  let cfg (n : Option TReg) : Word := n.elim 0 c.tcfg.get
  { id := i, who := c.id, op := op, bundle := c.bundles, slot := s.bun.slot, fenceNo := s.ctx.fenceNo,
    stamp := stampAt s c, left := i, tok := tok, banks := banks, cd := cfg op.tileOut, ca := cfg op.tileIn, cont := cont }

/-- Puts a tile instruction in flight: it counts in OCT until its last row is written. -/
def launchTile (s : State) (op : TileOp) (tok : Option (QReg × Nat)) (banks : BitVec 48) (cont : Bool := false)
    (pages : List Page := []) : State :=
  let (i, s) := s.fresh
  let s := s.withCtx fun c => { c with oct := c.oct + 1 }
  { s with tileOps := s.tileOps ++ [{ flightOf s i op tok banks cont with pages := pages }] }

/-- A whole-tile instruction once its stalls have cleared: a breach at a tile, or its operation. -/
def tileBody (check : Ctx → Except TReg TileOp) (s : State) : SlotEnd :=
  if countFull s .t then .stall
  else match check s.src with
    | .error n => tileTrap n
    | .ok op => .done (launchTile s op none 0)

/-- The shape of a tile, or the tile as the one at fault. -/
def needShape (h : Option Shape) (n : TReg) : Except TReg Shape :=
  match h with
  | some h => .ok h
  | none => .error n

/-- Two tiles of valid shape that keep a condition between them; a breach of it names the destination (03 R80), and so do two
tiles that are both at fault on their own (DESIGN CHOICE, log 104). -/
def pairCheck (c : Ctx) (side : Bool) (d a : TReg) (ok : Shape → Shape → Bool) (op : TileOp) : Except TReg TileOp :=
  match needShape (if side then c.sideShape? d else c.shape? d) d, needShape (if side then c.sideShape? a else c.shape? a) a with
  | .error n, _ => .error n
  | _, .error n => .error n
  | .ok hd, .ok ha => if ok hd ha then .ok op else .error d

/-- TZERO (07 R181). -/
def execTzero (d : TReg) (s : State) : Host.Outcome State Fault Refusal :=
  runSlot (.tzero d) s <| tileBody fun c => (needShape (c.sideShape? d) d).map fun _ => .zero d

/-- TFILL (07 R181). -/
def execTfill (d : TReg) (a : SReg) (s : State) : Host.Outcome State Fault Refusal :=
  runSlot (.tfill d a) s <| tileBody fun c => (needShape (c.shape? d) d).map fun _ => .fill d (c.rdS a)

/-- TMOV between tiles (07 R181). -/
def execTmov (d a : TReg) (s : State) : Host.Outcome State Fault Refusal :=
  runSlot (.tmov d a) s <| tileBody fun c =>
    pairCheck c true d a (fun hd ha => hd.rows * hd.rs == ha.rows * ha.rs) (.mov d a)

/-- TMOV from a vector register (07 R181). -/
def execTmovFromVector (d : TReg) (a : VIdx) (b : SReg) (s : State) : Host.Outcome State Fault Refusal :=
  runSlot (.tmovFromVector d a b) s <| tileBody fun c =>
    (needShape (c.shape? d) d).bind fun h =>
      let r := (c.rdS b).toNat
      if h.rows ≤ r then .error d else .ok (.fromVector d (c.v.get (c.physV a)).elems r)

/-- TMOV to a vector register (07 R181). -/
def execTmovToVector (d : VIdx) (a : TReg) (b : SReg) (s : State) : Host.Outcome State Fault Refusal :=
  runSlot (.tmovToVector d a b) s <| tileBody fun c =>
    (needShape (c.shape? a) a).bind fun h =>
      let r := (c.rdS b).toNat
      if h.rows ≤ r then .error a else .ok (.toVector (c.physV d) a r)

/-- TTRANS (07 R182). -/
def execTtrans (d a : TReg) (s : State) : Host.Outcome State Fault Refusal :=
  runSlot (.ttrans d a) s <| tileBody fun c =>
    pairCheck c false d a
      (fun hd ha => hd.fmt == ha.fmt && hd.rows == ha.cols && hd.cols == ha.rows && !ha.isMx && !ha.isSc) (.trans d a)

/-- TCVT (07 R183). An SC code is a fault of its own tile. -/
def execTcvt (d a : TReg) (rm : Rm) (s : State) : Host.Outcome State Fault Refusal :=
  runSlot (.tcvt d a rm) s <| tileBody fun c =>
    let plain (n : TReg) : Option Shape := (c.sideShape? n).bind fun h => if h.isSc then none else some h
    match needShape (plain d) d, needShape (plain a) a with
    | .error n, _ => .error n
    | _, .error n => .error n
    | .ok hd, .ok ha =>
      if hd.rows = ha.rows ∧ hd.cols = ha.cols then .ok (.cvt d a (rmCode rm c)) else .error d

/-- TSCALE (07 R184). -/
def execTscale (d a : TReg) (b : SReg) (rm : Rm) (s : State) : Host.Outcome State Fault Refusal :=
  runSlot (.tscale d a b rm) s <| tileBody fun c =>
    pairCheck c false d a
      (fun hd ha => hd.fmt == ha.fmt && hd.rows == ha.rows && hd.cols == ha.cols && decide (ha.fmt ≤ 9))
      (.scale d a (c.rdS b) (rmCode rm c))

/-! ### What a whole-tile operation writes (07 R181 to R185) -/

/-- The value of an element of a format that is no SC code; x is its MX scale (07 R183). -/
def elemValue (fmt : Nat) (x w : Nat) : FVal :=
  match mxElem fmt with
  | some (t, _) => if x = 0xFF then .nan false else (mxValue t w).scale ((x : Int) - 127)
  | none =>
    match numTyOf fmt with
    | some (.fp f) => f.unpack w
    | some (.int t) => .fin (t.val w < 0) (t.val w).natAbs 0
    | some .bin => .fin (w % 2 == 0) 1 0
    | none => .fin false 0 0

/-- The values of a row. -/
def rowValues (t : Tile) (h : Shape) (r : Nat) : List FVal :=
  (t.elems h r).mapIdx fun c w => elemValue h.fmt (bits (t.scaleRow h r) (8 * (c / 32)) 8) w

/-- A row converted to a format without scales (02 R53 to R56). -/
def cvtRow (t : Tile) (h : Shape) (dst : NumTy) (rm : Rnd) (nbv r : Nat) : List FR :=
  match numTyOf h.fmt with
  | some src => (t.elems h r).map (convertNum src dst rm nbv)
  | none => (rowValues t h r).map (ofValTo dst rm nbv)

/-- A list cut into blocks of n. -/
def blocksOf {α : Type} (n : Nat) : Nat → List α → List (List α)
  | 0, _ => []
  | k + 1, l => l.take n :: blocksOf n k (l.drop n)

/-- TCVT's tile and flags (07 R183). -/
def cvtTile (d a : Tile) (hd ha : Shape) (rm : Rnd) (nbv : Nat) : Tile × Flags :=
  match mxElem hd.fmt, numTyOf hd.fmt with
  | some (t, emax), _ =>
    let rows := (List.range hd.rows).map fun r =>
      (blocksOf 32 (hd.cols / 32) (rowValues a ha r)).map (mxNorm t emax rm nbv)
    ((d.withElems hd (rows.map fun l => l.flatMap fun b => b.2.1)).withScales hd
        (rows.map fun l => joinElems 8 (l.map fun b => b.1)),
      orFlags (rows.flatMap fun l => l.map fun b => b.2.2))
  | none, some t =>
    let rows := (List.range hd.rows).map fun r => cvtRow a ha t rm nbv r
    (d.withElems hd (rows.map fun l => l.map FR.bits), orFlags (rows.flatMap fun l => l.map FR.flags))
  | none, none => (d, 0)

/-- convert(exact(a * s)) of TSCALE (07 R184). -/
def scaleElem (f : Fmt) (rm : Rnd) (nbv : Nat) (x y : FVal) : FR :=
  match product x y with
  | .invalid => f.convert rm nbv (.nan true)
  | .val v => f.convert rm nbv v

/-- The tile that a whole-tile operation leaves in its destination, with its flags; c is its context, hd and ha the
shapes of its destination and its source as they stood at issue (03 R92). -/
def tileResult (c : Ctx) (hd ha : Shape) (op : TileOp) : Ctx × Flags :=
  match op with
  | .zero d =>
    let t := (c.t.get d).withRows hd (List.replicate hd.rows 0)
    (c.wrT d { t with scales := 0 }, 0)
  | .fill d v =>
    let h := hd
    let e := if h.fmt = 2 then v.toNat % 2 ^ 32 / 2 ^ 13 * 2 ^ 13 else v.toNat % 2 ^ h.width
    (c.wrT d ((c.t.get d).withElems h (List.replicate h.rows (List.replicate h.cols e))), 0)
  | .mov d a =>
    let n := 8 * (ha.rows * ha.rs)
    let t := c.t.get d
    let x := c.t.get a
    (c.wrT d { t.setBytes 0 n x.bytes.toNat with scales := x.scales }, 0)
  | .fromVector d v r =>
    let h := hd
    let off := r * h.rs
    let n := min 2048 (h.rows * h.rs - off)
    let t := c.t.get d
    (c.wrT d (t.setBytes (8 * off) (8 * n) v.toNat), 0)
  | .toVector d a r =>
    let h := ha
    let off := r * h.rs
    let n := min 2048 (h.rows * h.rs - off)
    let old := c.v.get d
    let new : VReg := { old with elems := BitVec.ofNat 16384 (bits (c.t.get a).bytes.toNat (8 * off) (8 * n)) }
    ({ c with v := c.v.set d.val new d.isLt }, 0)
  | .trans d a =>
    let rows := (List.range ha.rows).map ((c.t.get a).elems ha)
    (c.wrT d ((c.t.get d).withElems hd ((List.range ha.cols).map fun j => rows.map fun l => l.getD j 0)), 0)
  | .cvt d a rm =>
    let (t, fl) := cvtTile (c.t.get d) (c.t.get a) hd ha (Rnd.ofCode rm) c.nbv
    (c.wrT d t, fl)
  | .scale d a v rm =>
    let h := ha
    match numTyOf h.fmt with
    | some (.fp f) =>
      let y := if h.fmt = 0 then Fmt.f64.unpack v.toNat else Fmt.f32.unpack (v.toNat % 2 ^ 32)
      let rows := (List.range h.rows).map fun r =>
        ((c.t.get a).elems h r).map fun w => scaleElem f (Rnd.ofCode rm) c.nbv (f.unpack w) y
      (c.wrT d ((c.t.get d).withElems h (rows.map fun l => l.map FR.bits)), orFlags (rows.flatMap fun l => l.map FR.flags))
    | _ => (c, 0)
  | .load _ _ _ | .store _ _ _ => (c, 0)

/-- ORs flags into a context's FXF; where FPM enables one, FP_EXCEPTION becomes due before its next bundle (06 R161,
07 R185). -/
def deferFlags (s : State) (w : CtxId) (fl : Flags) : State :=
  match s.anyCtx? w with
  | none => s
  | some c =>
    let s := s.updCtx w fun c => { c with fxf := c.fxf ||| fl }
    let e := fl &&& c.enables
    if e = 0 then s else deferTrap s w { cause := .fpException, xinfo := e.toNat }

/-- A tile instruction of the context leaves OCT. -/
def octDown (s : State) (w : CtxId) : State := s.updCtx w fun c => { c with oct := c.oct - 1 }

/-- A tile flight by number. -/
def State.tileOp? (s : State) (i : Nat) : Option TileFlight := s.tileOps.find? fun t => t.id == i

/-- The shape of the tile that a tile flight writes, as it stood at issue. -/
def TileFlight.hd (t : TileFlight) : Shape := Shape.ofWord t.cd
/-- The shape of the tile that a tile flight reads, as it stood at issue. -/
def TileFlight.ha (t : TileFlight) : Shape := Shape.ofWord t.ca

/-- TILE_OP_COMPLETE (07 R185): a whole-tile instruction has written its last row and delivers its flags. -/
def execTileOpComplete (s : State) : Host.Outcome State Fault Refusal :=
  match s.tileOp? s.arg.id with
  | none => .next s
  | some t =>
    if t.op.moves ∨ unsettled s t.who t.bundle t.op.touches then .next s
    else match s.ctx? t.who with
      | none => .next s
      | some c =>
        let (c', fl) := tileResult c t.hd t.ha t.op
        let s := s.updCtx t.who fun _ => { c' with oct := c'.oct - 1 }
        .next (deferFlags { s with tileOps := s.tileOps.filter fun x => x.id != t.id } t.who fl)

/-! ### Tile loads and stores (07 R186 to R189) -/

/-- Equal neighbours of a list made one. -/
def squeeze : List Nat → List Nat
  | x :: y :: l => if x = y then squeeze (y :: l) else x :: squeeze (y :: l)
  | l => l

/-- Whether a TLD or TST of the context, issued earlier, comes before another (10 R261, R264, R267). -/
def rowsBefore (s : State) (t u : TileFlight) : Bool :=
  decide (t.bundle < u.bundle) && !t.cells.isEmpty && !u.cells.isEmpty &&
    (decide (t.fenceNo < u.fenceNo) || (t.spad && u.spad) ||
      (!t.spad && !u.spad &&
        (let a := (squeeze (t.cells.map granule)).map fun g => furrowOf s (g * 64)
         let b := (squeeze (u.cells.map granule)).map fun g => furrowOf s (g * 64)
         a.any fun x => b.contains x)))

/-- The stamp that holds a tile instruction's rows at their slices (10 R269). -/
def rowStamp (s : State) (t : TileFlight) : List (BitVec 16) := vcMax t.stamp (fenceStamp s t.who t.fenceNo)

/-- Whether the rows of a TLD or TST wait for stores of other contexts that their L1 shows (10 R257, R263, R266). -/
def rowsBehindShown (s : State) (t : TileFlight) : Bool :=
  (s.ctx? t.who).any fun c =>
    (decide (c.fenceSeen < t.fenceNo) && othersShown s t.who) ||
    (t.stores && !t.spad && s.flights.any fun f =>
      f.who != t.who && f.shownAt (l1Place s c) && meets f.spad t.spad f.cells t.cells)

/-- Whether the rows of a TLD or TST may move now: what precedes them has been performed, and furrows carry the cells that
move now (19 R399, R400). -/
def rowsFree (s : State) (t : TileFlight) (now : List Nat) : Bool :=
  (t.spad || (!portHeld s now && !behindReplay s t.who t.replay t.id (t.cells.map granule))) &&
  (s.flights.all fun a => a.who != t.who || !heldBackRows a t) &&
  (s.tileOps.all fun u => u.who != t.who || u.id == t.id || !rowsBefore s u t) &&
  !rowsBehindShown s t &&
  (t.spad || clockReached s (rowStamp s t) ((squeeze (t.cells.map granule)).map fun g => g * 64))

/-- The places in a tile, its scales behind its bytes, of the bytes of the row image of row r. -/
def Shape.rowPlaces (h : Shape) (r : Nat) : List Nat :=
  byteRange (h.rs * r) h.rs ++ byteRange (65536 + h.scaleBytes * r) h.scaleBytes

/-- Moves rows of memory into a tile; tainted says whether the addresses are, and a row may take part in a race (10
R274). -/
def loadRows (s : State) (c : Ctx) (bundle id : Nat) (n : TReg) (h : Shape) (sp tainted : Bool) : List (Nat × Nat × List Nat) → State
  | [] => s
  | (r, _, cells) :: l =>
    let (d, s) := if sp then (cells.map s.spad.get, s) else loadCells s c bundle id cells
    let (race, s) := raceBit s c.detl
    let tainted := tainted || race
    let places := h.rowPlaces r
    let hot := if s.taintMem = [] ∧ tainted = false then []
      else (cells.zip places).filterMap fun p =>
        if tainted ∨ s.taintMem.contains (taintKey sp (p.1 / 4)) then some p.2 else none
    let s := notePoison s c.id sp (squeeze (cells.map granule))
    let s := s.updCtx c.id fun c => (c.wrT n ((c.t.get n).putRow h r d)).noteParts (.t n) places hot
    loadRows s c bundle id n h sp tainted l

/-- Moves rows of a tile to memory; tainted says whether the addresses are (10 R274). -/
def storeRows (s : State) (c : Ctx) (n : TReg) (h : Shape) (sp tainted : Bool) (stamp : List (BitVec 16)) :
    List (Nat × Nat × List Nat) → State
  | [] => s
  | (r, va, cells) :: l =>
    let w := cells.zip ((c.t.get n).rowImage h r)
    let s := if sp then { s with spad := s.spad.setAll w } else patchL1 (writeGlobal s stamp w) (l1Place s c) stamp w
    let keys := (wordsOf cells).map (taintKey sp)
    let hot := if tainted then keys
      else if c.taint = [] then []
      else ((cells.zip (h.rowPlaces r)).filterMap fun p =>
        if c.taint.contains (.t n, p.2 / 4) then some (taintKey sp (p.1 / 4)) else none).dedup
    let s : State := { s with taintMem := hot ++ s.taintMem.filter fun k => !keys.contains k }
    let s := if hot ≠ [] ∧ !sp then
        noteWritten s c.id.gang ((wordPlaces cells (byteRange va cells.length)).filter fun p => hot.contains p.1)
      else s
    storeRows s c n h sp tainted stamp l

/-- The rows that pass their checks, in order from the first, with the pages that translate them, and the row and trap of the
first that fails (07 R188). -/
def checkRows (sp load : Bool) (base pitch irs : Nat) : List Nat → State →
    List (Nat × Nat × List Nat) × List Page × Option (Nat × TrapInfo) × State
  | [], s => ([], [], none, s)
  | r :: l, s =>
    let va := (base + r * pitch) % 2 ^ 64
    match resolve s sp (if load then .read else .write) (byteRange va irs) with
    | (.error t, s) => ([], [], some (r, { t with faddr := va % 2 ^ 56 }), s)
    | (.ok p, s) =>
      let (rows, pages, t, s) := checkRows sp load base pitch irs l s
      ((r, va, p.map fun x => x.pa) :: rows, (p.filterMap Pa.page).dedup ++ pages, t, s)

/-- TCFGn with PACT and PROG set. -/
def Ctx.setProg (c : Ctx) (n : TReg) (pact : Bool) (r : Nat) : Ctx :=
  let w := setBits (setBits (c.tcfg.get n).toNat 32 9 r) 41 1 pact.toNat
  { c with tcfg := c.tcfg.set n.val (BitVec.ofNat 64 w) n.isLt }

/-- The token of a TLD or TST at its issue (09 R245): a continued transfer keeps the token of the stopped
instruction; under another name that token completes as CANCELLED. -/
def moveToken (s : State) (n : TReg) (q : QReg) (cont : Bool) : Nat × State :=
  if cont then ((s.ctx.q.get q).gen, s)
  else
    let s := match s.ctx.stopTok.get n with
      | some o => completeToken s s.ctx.id (Fin.ofNat 32 o) (s.ctx.q.get (Fin.ofNat 32 o)).gen .cancelled
      | none => s
    produceToken s q

/-- A stop at row r (06 R175): the rows before it move, TCFGn records the progress, the token stays incomplete. -/
def stopRows (s : State) (load : Bool) (n : TReg) (h : Shape) (sp cont : Bool) (q : QReg) (r : Nat)
    (rows : List (Nat × Nat × List Nat)) : State :=
  let c := s.src
  let s := fenceEffect s c.id s.ctx.fenceNo
  let s := if load then loadRows s c c.bundles s.nextId n h sp false rows else storeRows s c n h sp false (stampAt s c) rows
  let (_, s) := moveToken s n q cont
  s.withCtx fun c => { c.setProg n true r with stopTok := c.stopTok.set n.val (some q.val) n.isLt }

/-- The row boundary at which a pre-emption stops a TLD or TST in execution (06 R174, R175, 17 R373): one behind at least
one row that passes its checks, and before the end. -/
def preemptRow (c : Ctx) (first : Nat) (rows : List (Nat × Nat × List Nat)) (bad : Option (Nat × TrapInfo)) :
    Option Nat :=
  c.rowStop.filter fun r => decide (first < r) && decide (r < first + rows.length + (if bad.isSome then 1 else 0))

/-- TLD and TST at issue (07 R186 to R188, 06 R175). -/
def tileMove (load : Bool) (n : TReg) (a b : SReg) (q : QReg) (sp : Bool) (s : State) : SlotEnd :=
  let c := s.src
  let cfg := (c.tcfg.get n).toNat
  let pact := n.val < c.ntiles && testBit cfg 41
  let first := if pact then bits cfg 32 9 else 0
  let cont := pact && c.stopTok.get n == some q.val
  let base := (rdS s a).toNat
  let h? := c.sideShape? n
  let h := h?.getD { fmt := 0, rows := 0, cols := 0 }
  let pitch := if b = 0 then h.pitch else (rdS s b).toNat
  let todo := (List.range h.rows).drop first
  let banks := if sp ∧ h?.isSome then
      banksOf ((todo.flatMap fun r => byteRange ((base + r * pitch) % 2 ^ 64) h.irs).filter fun x => x < 0xC00000)
    else 0
  if countFull s .t then .stall
  else if sp ∧ banksBusy s c.lc banks then .waitBanks banks
  else if !cont ∧ !(rdQ s q).done then tokenError q
  else if h?.isNone then tileTrap n
  else if base % 4 ≠ 0 ∨ pitch % 4 ≠ 0 then .trap { cause := .align, faddr := base % 2 ^ 56 }
  else
    let (rows, pages, bad, s) := checkRows sp load base pitch h.irs todo s
    let op : TileOp := if load then .load n rows sp else .store n rows sp
    let probe : TileFlight := flightOf s s.nextId op none 0 cont
    match preemptRow c first rows bad with
    | some r =>
      let now := rows.take (r - first)
      if rowsFree s probe (now.flatMap fun x => x.2.2) then .halt (stopRows s load n h sp cont q r now) else .stall
    | none => match bad with
      | some (r, t) =>
        if r = 0 then .trap t
        else if rowsFree s probe probe.cells then .trapKeep (stopRows s load n h sp cont q r rows) t else .stall
      | none =>
        if !sp ∧ portHeld s (rows.flatMap fun x => x.2.2) then .stall
        else
          let (g, s) := moveToken s n q cont
          let s := s.withCtx fun c => { c with stopTok := c.stopTok.set n.val none n.isLt }
          .done (launchTile s op (some (q, g)) banks pact pages.dedup)

/-- TLD (07 R186). -/
def execTld (d : TReg) (a b : SReg) (q : QReg) (sp : Bool) (s : State) : Host.Outcome State Fault Refusal :=
  runSlot (.tld d a b q sp) s (tileMove true d a b q sp)

/-- TST (07 R186). -/
def execTst (d : TReg) (a b : SReg) (q : QReg) (sp : Bool) (s : State) : Host.Outcome State Fault Refusal :=
  runSlot (.tst d a b q sp) s (tileMove false d a b q sp)

/-- The end of a TLD or TST: its flight goes, its count is released and its token completes. One that continued a
stopped transfer clears PACT and PROG as it completes (06 R175). -/
def tileMoved (s : State) (t : TileFlight) : State :=
  let s := match if t.cont then t.op.tileOut.or t.op.tileIn else none with
    | some n => s.updCtx t.who fun c => c.setProg n false 0
    | none => s
  completeTok? (octDown { s with tileOps := s.tileOps.filter fun x => x.id != t.id } t.who) t.who t.tok .ok

/-- How many of its remaining rows a TLD or TST moves in the present turn: arg.val of them, or all. The rows of one
transfer are accesses of their own (07 R189), so others may act between them; a row moves as a whole, and they move in
ascending order (DESIGN CHOICE, log 20). -/
def rowsNow (s : State) (rows : List (Nat × Nat × List Nat)) : Nat :=
  if s.arg.val = 0 then rows.length else s.arg.val

/-- A tile flight after some of its rows have moved: it goes on with the rest, or ends. -/
def tileGoes (s : State) (t : TileFlight) (rest : List (Nat × Nat × List Nat)) : State :=
  if rest.isEmpty then tileMoved s t
  else { s with tileOps := updateFirst (fun x => x.id == t.id) (fun x => { x with op := x.op.withRows rest }) s.tileOps }

/-- The addresses of the next rows of a TLD or TST that move in the present turn. -/
def cellsNow (s : State) (t : TileFlight) : List Nat :=
  match t.op with
  | .load _ rows _ | .store _ rows _ => (rows.take (rowsNow s rows)).flatMap fun r => r.2.2
  | _ => []

/-- A TLD or TST in flight whose next rows may move, once the fence before it has taken effect (10 R267). -/
def movingTile (s : State) : Option (TileFlight × State) :=
  match s.tileOp? s.arg.id with
  | none => none
  | some t =>
    if rowsFree s t (cellsNow s t) then
      let s := fenceEffect s t.who t.fenceNo
      (s.tileOp? t.id).map fun t => (t, s)
    else none

/-- TLD_COMPLETE (07 R187): rows are written into the tile, each in one turn (DESIGN CHOICE, log 20), and with the last one
the transfer ends. -/
def execTldComplete (s : State) : Host.Outcome State Fault Refusal :=
  match movingTile s with
  | none => .next s
  | some (t, u) =>
    match t.op, u.ctx? t.who with
    | .load n rows sp, some c =>
      let k := rowsNow s rows
      .next (tileGoes (loadRows u c t.bundle t.id n t.hd sp t.tainted (rows.take k)) t (rows.drop k))
    | _, _ => .next s

/-- TST_COMPLETE (07 R187): the writes of rows are performed, each in one turn (DESIGN CHOICE, log 20), and with the last one
the transfer ends. -/
def execTstComplete (s : State) : Host.Outcome State Fault Refusal :=
  match movingTile s with
  | none => .next s
  | some (t, u) =>
    match t.op, u.ctx? t.who with
    | .store n rows sp, some c =>
      let k := rowsNow s rows
      .next (tileGoes (storeRows u c n t.ha sp t.tainted (rowStamp u t) (rows.take k)) t (rows.drop k))
    | _, _ => .next s

end Sys2Proof.Machine
end

