-- ==== Sys2Proof/Machine/Chain.lean ====
section
/-! DEFINITION. Matrix contributions (07 R190 to R193) and the chain group (07 R195 to R205), with the arithmetic of a
cell (06 R150 to R155), of a hand-off (R158) and of a close (R160). -/
namespace Sys2Proof.Machine

/-! ### Names and states -/

/-- The code of a chain state (06 R163). -/
def ChainState.code : ChainState → Nat
  | .idle => 0
  | .built => 1
  | .active => 2
  | .frozen => 3
  | .closed => 4

/-- The code of a freeze cause (07 R201). -/
def FreezeCause.code : FreezeCause → Nat
  | .none => 0
  | .fault => 1
  | .preempt => 2

/-- The code of a link state (06 R164). -/
def LinkState.code : LinkState → Nat
  | .empty => 0
  | .accumulating => 1
  | .complete => 2
  | .sent => 3
  | .done => 4
  | .faulted => 5

/-- A chain of a gang. -/
def State.chain (s : State) (g : Nat) (k : KReg) : Chain :=
  match s.gang? g with
  | some x => x.chains.get k
  | none => {}

/-- Changes a chain of a gang. -/
def State.updChain (s : State) (g : Nat) (k : KReg) (f : Chain → Chain) : State :=
  s.updGang g fun x => { x with chains := x.chains.set k.val (f (x.chains.get k)) k.isLt }

/-- A link that a gang owns, by its number (01 R13, R24). -/
def State.link? (s : State) (g i : Nat) : Option Link := s.links.find? fun l => l.gang == g && l.id == i

/-- Changes a link of a gang. -/
def State.updLink (s : State) (g i : Nat) (f : Link → Link) : State :=
  { s with links := updateFirst (fun l => l.gang == g && l.id == i) f s.links }

/-- The hop of a chain that a link serves, with its position. -/
def Chain.hopOf (c : Chain) (i : Nat) : Option (Nat × Hop) :=
  (c.hops.mapIdx fun p h => (p, h)).find? fun p => p.2.link == i

/-- CHAIN_STATE at a chain (03 R80). -/
def chainTrap (s : State) (k : KReg) : SlotEnd :=
  .trap { cause := .chainState, xinfo := k.val + (s.chain s.src.id.gang k).state.code * 256 }

/-- LINK_FAULT at issue (06 R166): XINFO names the first faulted link of the chain; where a splice has left none, which
link it names is free. -/
def linkFaultInfo (s : State) (k : KReg) : TrapInfo × State :=
  let ids := (s.chain s.src.id.gang k).hops.map fun h => h.link
  match ids.find? fun i => (s.link? s.src.id.gang i).any fun l => l.state == .faulted with
  | some i => ({ cause := .linkFault, xinfo := i + k.val * 256 }, s)
  | none =>
    let (v, s) := s.free 8
    ({ cause := .linkFault, xinfo := v.toNat + k.val * 256 }, s)

/-- The trap of an instruction on a frozen chain. -/
def linkFaultTrap (s : State) (k : KReg) : SlotEnd := .trapKeep (linkFaultInfo s k).2 (linkFaultInfo s k).1

/-! ### Formats and steps (06 R150, R151) -/

/-- Whether the hop's accumulators are floating point. -/
def HopFmt.isFp : HopFmt → Bool
  | .int32 => false
  | _ => true

/-- The accumulator format of a floating-point hop (06 R150). -/
def HopFmt.acc : HopFmt → Fmt
  | .fp64 => .f64
  | _ => .f32

/-- The format in which a floating-point hop hands on. -/
def HopFmt.hop : HopFmt → Fmt
  | .fp64 => .f64
  | .bf16 => .bf16
  | _ => .f32

/-- The accumulator type of an integer hop (06 R150). -/
def Hop.accInt (h : Hop) : IntTy := { width := if h.wide then 64 else 32, signed := true }

/-- Whether a link with the hop's format accepts an operand format (06 R150). -/
def HopFmt.accepts (h : HopFmt) (fmt : Nat) : Bool :=
  match h with
  | .fp32 | .bf16 => (1 ≤ fmt && fmt ≤ 9) || (0x10 ≤ fmt && fmt ≤ 0x17)
  | .fp64 => fmt == 0
  | .int32 => 0x0A ≤ fmt && fmt ≤ 0x0F

/-- The promotion unit g and the cycles of a step of a contribution (06 R151 to R153). -/
def unitOf (kind : MmaKind) (fmt nbv : Nat) : Nat × Nat :=
  match kind with
  | .mx => (32, if fmt = 0x14 then 8 else 16)
  | .sc => (128, 64)
  | .plain =>
    match fmt with
    | 0x00 => (1, 32)
    | 0x01 => (1, 4)
    | 0x02 | 0x0A => (1, 2)
    | 0x03 | 0x04 => if nbv = 1 then (4, 4) else (1, 1)
    | 0x09 | 0x0D | 0x0E => (4, 1)
    | 0x0F => (8, 1)
    | _ => (2, 1)

/-- The array cycles of a contribution of inner size n (07 R191). -/
def mmaCycles (kind : MmaKind) (fmt nbv n : Nat) : Nat := ceilDiv n (unitOf kind fmt nbv).1 * (unitOf kind fmt nbv).2

/-! ### Arithmetic of a cell (06 R151 to R155) -/

/-- NAN among the class bits. -/
def clsNAN : Nat := 1
/-- SNAN. -/
def clsSNAN : Nat := 2
/-- PINF. -/
def clsPINF : Nat := 4
/-- NINF. -/
def clsNINF : Nat := 8
/-- INV. -/
def clsINV : Nat := 16

/-- Whether PINF and NINF are both set. -/
def bothInf (c : Nat) : Bool := testBit c 2 && testBit c 3

/-- The class bits that a product sets (06 R155). -/
def classOf : Contrib → Nat
  | .invalid => clsINV
  | .val (.nan sig) => if sig then clsNAN ||| clsSNAN else clsNAN
  | .val (.inf neg) => if neg then clsNINF else clsPINF
  | .val (.fin _ _ _) => 0

/-- An accumulator cell: its bits, its class bits, and the flags raised so far. -/
structure Cell where
  v : Nat
  cls : Nat
  fl : Flags := 0
  deriving DecidableEq, Repr

/-- Whether a contributor is finite. -/
def Contrib.isFin : Contrib → Bool
  | .val (.fin _ _ _) => true
  | _ => false

/-- Sets class bits in a cell, with the NV of SNAN, of INV and of the first time that both infinities are set. -/
def Cell.note (c : Cell) (b : Nat) : Cell :=
  let k := c.cls ||| b
  { c with cls := k, fl := c.fl ||| nvIf (testBit b 1 || testBit b 4) ||| nvIf (bothInf k && !bothInf c.cls) }

/-- Adds finite terms to a cell with one rounding (06 R151), setting the class bit of an overflow (R155). -/
def Cell.add (f : Fmt) (c : Cell) (terms : List Contrib) : Cell :=
  let r := fsum f .rne (.val (f.unpack c.v) :: terms)
  let c := { c with v := r.bits, fl := c.fl ||| r.flags }
  if r.flags &&& flagOF = 0 then c
  else c.note (if testBit r.bits f.signPos then clsNINF else clsPINF)

/-- A scale of a unit: an exact factor, or a NaN that only sets NAN (06 R152, R153, R155). -/
inductive UnitScale where
  | nan
  | factor (c : Contrib)
  deriving DecidableEq, Repr

/-- The value of a contributor, with an invalid one as a NaN that is already noted. -/
def Contrib.value : Contrib → FVal
  | .val v => v
  | .invalid => .nan false

/-- Whether the exact sum of finite contributors is 0. -/
def sumZero (l : List Contrib) : Bool := (exactSum l).1 == 0

/-- One promotion unit of floating-point products under a scale (06 R151 to R153, R155). A special product sets its
class bit by its own sign, the scale apart; under an MX scale of 0xFF the unit sets NAN and raises nothing (02 R39). Under
an infinite scale a unit that holds a special product is not judged by its block sum (DESIGN CHOICE, log 32). -/
def fpUnit (f : Fmt) (c : Cell) (scale : UnitScale) (prods : List Contrib) : Cell :=
  let special := prods.filter fun p => !p.isFin
  let plain := prods.filter Contrib.isFin
  let noted (c : Cell) : Cell := special.foldl (fun c p => c.note (classOf p)) c
  match scale with
  | .nan => c.note clsNAN
  | .factor .invalid => noted (c.note clsINV)
  | .factor (.val (.nan _)) => noted (c.note clsNAN)
  | .factor (.val (.inf n)) =>
    if special ≠ [] then noted c
    else if sumZero plain then c.note clsINV
    else c.note (if n ^^ decide ((exactSum plain).1 < 0) then clsNINF else clsPINF)
  | .factor (.val k) => (noted c).add f (plain.map fun p => product p.value k)

/-- One promotion unit of integer products (06 R154). -/
def intUnit (t : IntTy) (sat : Bool) (c : Cell) (terms : List Int) : Cell :=
  let x := t.val c.v + terms.sum
  let (y, clamped) := t.clamp x
  if sat then { c with v := ofInt t.width y, fl := c.fl ||| (if clamped then flagSAT else 0) }
  else { c with v := ofInt t.width x }

/-- A list cut into groups of n, the last one as it is. -/
def chunks {α : Type} (n : Nat) : Nat → List α → List (List α)
  | 0, _ => []
  | _, [] => []
  | k + 1, l => l.take n :: chunks n k (l.drop n)

/-- The element rows of an operand: A as M rows of K, B as N rows of K, whichever way the tile stores it. -/
def operandRows (t : Tile) (h : Shape) (across : Bool) : List (List Nat) :=
  let rows := (List.range h.rows).map (t.elems h)
  if across then (List.range h.cols).map fun j => rows.map fun l => l.getD j 0 else rows

/-- The scale of block u of row r of a tile (07 R177, R193). -/
def blockScale (t : Tile) (h : Shape) (r u : Nat) : Nat :=
  if h.isMx then bits (t.scaleRow h r) (8 * u) 8 else bits (t.scaleRow h r) (32 * u) 32

/-- The scale of block u for cell (i, j) (06 R152, R153). -/
def unitScale (kind : MmaKind) (x : Contribution) (ha hb : Shape) (i j u : Nat) : UnitScale :=
  match kind with
  | .plain => .factor (.val (.fin false 1 0))
  | .mx =>
    let a := blockScale x.a ha i u
    let b := blockScale x.b hb j u
    if a = 0xFF ∨ b = 0xFF then .nan else .factor (.val (.fin false 1 ((a : Int) + (b : Int) - 254)))
  | .sc =>
    .factor (product (Fmt.f32.unpack (blockScale x.a ha i u)) (Fmt.f32.unpack (blockScale x.b hb (128 * (j / 128)) u)))

/-- The value of an operand element without its block's scale. -/
def operandValue (fmt w : Nat) : FVal :=
  match mxElem fmt, scElem fmt, numTyOf fmt with
  | some (t, _), _, _ => mxValue t w
  | _, some f, _ => f.unpack w
  | _, _, some (.fp f) => f.unpack w
  | _, _, _ => .fin false 0 0

/-- The value of an integer operand element. -/
def operandInt (fmt w : Nat) : Int :=
  match numTyOf fmt with
  | some (.int t) => t.val w
  | some .bin => if w % 2 = 1 then 1 else -1
  | _ => 0

/-- What one contribution does to one cell (06 R151 to R155): ra and rb are the K elements that meet there. -/
def promoteCell (hop : Hop) (x : Contribution) (ha hb : Shape) (i j : Nat) (ra rb : List Nat) (c : Cell) : Cell :=
  let g := (unitOf x.kind ha.fmt x.nbv).1
  if hop.fmt.isFp then
    let prods := List.zipWith (fun a b => product (operandValue ha.fmt a) (operandValue hb.fmt b)) ra rb
    let units := (chunks g prods.length prods).map fun u =>
      u ++ List.replicate (g - u.length) (Contrib.val (.fin false 0 0))
    (units.foldl (fun (p : Nat × Cell) u => (p.1 + 1, fpUnit hop.fmt.acc p.2 (unitScale x.kind x ha hb i j p.1) u))
      (0, c)).2
  else
    let prods := List.zipWith (fun a b => operandInt ha.fmt a * operandInt hb.fmt b) ra rb
    (chunks g prods.length prods).foldl (fun c u => intUnit hop.accInt x.sat c u) c

/-! ### Planes -/

/-- The cells of row i of a plane, n of them. -/
def Plane.cells (p : Plane) (i n : Nat) : List Cell :=
  (splitElems 64 n (bits p.acc.toNat (16384 * i) (64 * n))).zipWith (fun v c => { v := v, cls := c })
    (splitElems 5 n (bits p.cls.toNat (1280 * i) (5 * n)))

/-- A plane with the cells of row i replaced. -/
def Plane.putCells (p : Plane) (i : Nat) (l : List Cell) : Plane :=
  { acc := BitVec.ofNat 2097152 (setBits p.acc.toNat (16384 * i) (64 * l.length) (joinElems 64 (l.map fun c => c.v)))
    cls := BitVec.ofNat 163840 (setBits p.cls.toNat (1280 * i) (5 * l.length) (joinElems 5 (l.map fun c => c.cls))) }

/-- A plane with every cell of an m by n region passed through f, and the flags raised. -/
def Plane.mapCells (f : Nat → Nat → Cell → Cell) (n : Nat) : Nat → Plane → Plane × Flags
  | 0, p => (p, 0)
  | m + 1, p =>
    let (p, fl) := Plane.mapCells f n m p
    let row := (p.cells m n).mapIdx fun j c => f m j c
    (p.putCells m row, fl ||| orFlags (row.map fun c => c.fl))

/-- A contribution promoted into a link's own plane (06 R151 to R155). -/
def promote (c : Chain) (hop : Hop) (x : Contribution) (p : Plane) : Plane × Flags :=
  let ha := Shape.ofWord x.ca
  let hb := Shape.ofWord x.cb
  let a := operandRows x.a ha x.ta
  let b := operandRows x.b hb (x.kind == .plain && !x.tb)
  Plane.mapCells (fun i j cell => promoteCell hop x ha hb i j (a.getD i []) (b.getD j []) cell) c.n c.m p

/-! ### The hand-off (06 R158) -/

/-- The factor on a link's own sum: h, with the fold factor attached to the link (14 R318). -/
def hopFactor (hop : Hop) (fold : Option (BitVec 32)) : Contrib :=
  let h : FVal := match hop.scale with
    | some w => Fmt.f32.unpack w.toNat
    | none => .fin false 1 0
  match fold with
  | some w => product h (Fmt.f32.unpack w.toNat)
  | none => .val h

/-- The product of a factor with a link's own value, where the factor may itself be a NaN or a product of an infinity
and 0 (02 R51, 14 R318). -/
def Contrib.times (c : Contrib) (v : FVal) : Contrib :=
  match c with
  | .invalid => .invalid
  | .val f => product v f

/-- The class bits that a special factor adds: those of its product with a finite own value (06 R155); an own value that
has overflowed has its bit already. -/
def factorClass (factor : Contrib) (own : FVal) : Nat :=
  match factor, own with
  | .val (.fin _ _ _), _ => 0
  | .val (.inf n), .fin s m e => classOf (product (.fin s m e) (.inf n))
  | .val (.inf _), _ => 0
  | f, _ => classOf f

/-- One cell of a floating-point hand-off partial: pf is the format of the inbound value. -/
def handoffFp (hop : Hop) (factor : Contrib) (inb : Option (Fmt × Cell)) (own : Cell) : Cell :=
  let o := hop.fmt.acc.unpack own.v
  let extra := factorClass factor o
  let cls := own.cls ||| (match inb with
    | some (_, p) => p.cls
    | none => 0) ||| extra
  let nv := nvIf (testBit extra 1 || testBit extra 4)
  let seen := bothInf own.cls || inb.any fun p => bothInf p.2.cls
  let terms := factor.times o :: (match inb with
    | some (pf, p) => [.val (pf.unpack p.v)]
    | none => [])
  if terms.all Contrib.isFin then
    let (v, e) := exactSum terms
    let r : FR := if v = 0 then { bits := 0 } else hop.fmt.hop.round .rne (v < 0) v.natAbs e
    let k := if r.flags &&& flagOF = 0 then cls
      else cls ||| (if testBit r.bits hop.fmt.hop.signPos then clsNINF else clsPINF)
    { v := r.bits, cls := k, fl := r.flags ||| nvIf (bothInf k && !seen) }
  else { v := hop.fmt.hop.pack (terms.any (Contrib.isInf true)) hop.fmt.hop.infCode, cls := cls,
         fl := nv ||| nvIf (bothInf cls && !seen) }

/-- One cell of an integer hand-off partial. -/
def handoffInt (hop : Hop) (isat : Bool) (inb : Option Cell) (own : Cell) : Cell :=
  let t : IntTy := { width := 32, signed := true }
  let x := hop.accInt.val own.v + (match inb with
    | some p => t.val p.v
    | none => 0)
  let (y, clamped) := t.clamp x
  if isat then { v := ofInt 32 y, cls := 0, fl := if clamped then flagSAT else 0 } else { v := ofInt 32 x, cls := 0 }

/-- The hand-off partial of a link, with the flags it raises. -/
def formPartial (c : Chain) (pos : Nat) (hop : Hop) (l : Link) : Plane × Flags :=
  let pf : Fmt := match c.hops[pos - 1]? with
    | some h => h.fmt.hop
    | none => .f32
  let inb (i j : Nat) : Option Cell :=
    if pos = 0 then none else l.inbound.bind fun p => (p.cells i (j + 1))[j]?
  Plane.mapCells (fun i j cell =>
    if hop.fmt.isFp then handoffFp hop (hopFactor hop l.fold) ((inb i j).map fun p => (pf, p)) cell
    else handoffInt hop c.isat (inb i j) cell) c.n c.m l.own

/-! ### The close (06 R160) -/

/-- The value of a cell of the tail's partial (06 R155). -/
def cellValue (f : Fmt) (c : Cell) : FVal :=
  if testBit c.cls 0 || testBit c.cls 4 || bothInf c.cls then .nan false
  else if testBit c.cls 2 then .inf false
  else if testBit c.cls 3 then .inf true
  else f.unpack c.v

/-- One element of a close's output (06 R160, 07 R200). -/
def closeCell (hop : Hop) (a : CloseArm) (nbv : Nat) (dst : NumTy) (c : Cell) : FR :=
  if hop.fmt.isFp then
    match product (Fmt.f32.unpack a.oscale.toNat) (cellValue hop.fmt.hop c) with
    | .invalid => ofValTo dst (Rnd.ofCode a.rm) nbv (.nan true)
    | .val v => ofValTo dst (Rnd.ofCode a.rm) nbv v
  else convertNum (iTy 32) dst (Rnd.ofCode a.rm) nbv c.v

/-- The rows of a close's output, each as its elements and flags. -/
def closeRows (c : Chain) (hop : Hop) (a : CloseArm) (nbv : Nat) (p : Plane) : List (List FR) :=
  match numTyOf a.ofmt with
  | none => []
  | some dst => (List.range c.m).map fun i => (p.cells i c.n).map (closeCell hop a nbv dst)

/-! ### MMA at issue (07 R190 to R193, 06 R157, R171, R172) -/

/-- The array cycles of an issue window (06 R171, R172). -/
def windowCycles (altw : BitVec 4) : Nat :=
  match altw.toNat % 8 with
  | 1 => 16
  | 2 => 32
  | 3 => 64
  | _ => 8

/-- Whether the setting is SOLO (06 R172). -/
def soloSet (altw : BitVec 4) : Bool := altw.toNat % 8 == 4

/-- The array that the context in focus feeds. -/
def arrayOf (s : State) : Option ArrayUnit := s.arrays.find? fun a => a.id == s.src.array

/-- Whether the array takes an MMA of the context's core now (06 R171, R172). -/
def windowOpen (s : State) : Bool :=
  match arrayOf s with
  | none => true
  | some a => decide (s.time < a.start + windowCycles a.altw) && (soloSet a.altw || a.window % 2 == s.src.lcore % 2)

/-- Whether the array belongs to the other core in SOLO (06 R172). -/
def soloOther (s : State) : Bool :=
  match arrayOf s with
  | none => false
  | some a => soloSet a.altw && a.altw.toNat / 8 % 2 != s.src.lcore % 2

/-- The tile at fault of a contribution (07 R191, R193, 03 R80), or none when both keep to the rules. -/
def mmaShape (s : State) (kind : MmaKind) (k : KReg) (a b : TReg) (pos : Nat) (ta tb : Bool) : Option TReg :=
  let c := s.src
  let ch := s.chain c.id.gang k
  let shape (n : TReg) : Option Shape := if kind = .plain then c.shape? n else c.sideShape? n
  match shape a, shape b with
  | none, _ => some a
  | some ha, hb? =>
    let m := if ta then ha.cols else ha.rows
    let ka := if ta then ha.rows else ha.cols
    let kindOk := match kind with
      | .plain => decide (ha.fmt ≤ 0x0F)
      | .mx => ha.isMx
      | .sc => ha.isSc
    if !kindOk ∨ (ch.state ≠ .idle ∧ m ≠ ch.m) ∨ 2048 < mmaCycles kind ha.fmt c.nbv ka ∨
        (ch.state ≠ .idle ∧ (ch.hops[pos]?).any fun h => !h.fmt.accepts ha.fmt) then some a
    else match hb? with
      | none => some b
      | some hb =>
        let kb := if kind ≠ .plain ∨ tb then hb.cols else hb.rows
        let n := if kind ≠ .plain ∨ tb then hb.rows else hb.cols
        if hb.fmt ≠ ha.fmt ∨ kb ≠ ka then some a
        else if ch.state ≠ .idle ∧ n ≠ ch.n then some b
        else none

/-- The acceptance of a contribution by the link at a position (07 R192). -/
def acceptMma (s : State) (k : KReg) (h : Hop) (x : Contribution) : State :=
  let g := s.src.id.gang
  let s := s.updChain g k fun c => { c with state := if c.state = .built then .active else c.state }
  let s := s.updLink g h.link fun l =>
    { l with
      state := if l.state = .empty then .accumulating else l.state
      accepted := l.accepted + 1
      waiting := l.waiting ++ [x]
      fold := x.fold.or l.fold }
  s.withCtx fun c => { c with oct := c.oct + 1 }

/-- MMA, MMA.MX and MMA.SC at issue, in the order of 07 R179 and 09 R245. A frozen chain gives LINK_FAULT whatever
its link holds (06 R165). -/
def mmaBody (kind : MmaKind) (k : KReg) (a b : TReg) (pos : Fin 32) (ta tb sat : Bool) (q : Option QReg) (s : State) :
    SlotEnd :=
  let c := s.src
  let ch := s.chain c.id.gang k
  if countFull s .t ∨ (!windowOpen s) then .stall
  else if q.any fun q => !(rdQ s q).done then tokenError (q.getD 0)
  else match mmaShape s kind k a b pos.val ta tb with
    | some n => tileTrap n
    | none =>
      if ch.state = .idle ∨ ch.state = .closed then chainTrap s k
      else match ch.hops[pos.val]? with
        | none => chainTrap s k
        | some h =>
          if ch.state = .frozen then linkFaultTrap s k
          else match s.link? c.id.gang h.link with
            | none => chainTrap s k
            | some l =>
              if h.count ≤ l.accepted then chainTrap s k
              else if h.link / 2 ≠ c.array ∨ soloOther s then
                .trap { cause := .linkNotLocal, xinfo := h.link + k.val * 256 }
              else
                let (tok, s) : Option (QReg × Nat) × State := match q with
                  | some q =>
                    let (g, s) := produceToken s q
                    (some (q, g), s)
                  | none => (none, s)
                .done (acceptMma s k h
                  { who := c.id, kind := kind, sat := sat, ta := ta, tb := tb, nbv := c.nbv, a := rdT s a, b := rdT s b,
                    ca := c.tcfg.get a, cb := c.tcfg.get b, regs := (a, b), tok := tok, fold := s.bun.fold,
                    bundle := c.bundles })

/-- MMA (07 R190). -/
def execMma (k : KReg) (a b : TReg) (pos : Fin 32) (ta tb sat : Bool) (qt : Fin 8) (s : State) :
    Host.Outcome State Fault Refusal :=
  runSlot (.mma k a b pos ta tb sat qt) s
    (mmaBody .plain k a b pos ta tb sat (if qt.val = 0 then none else some (mmaToken qt)))

/-- MMA.MX (07 R193). -/
def execMmaMx (k : KReg) (a b : TReg) (pos : Fin 32) (qk : Bool) (s : State) : Host.Outcome State Fault Refusal :=
  runSlot (.mmaMx k a b pos qk) s (mmaBody .mx k a b pos false false false (if qk then some 31 else none))

/-- MMA.SC (07 R193). -/
def execMmaSc (k : KReg) (a b : TReg) (pos : Fin 32) (qk : Bool) (s : State) : Host.Outcome State Fault Refusal :=
  runSlot (.mmaSc k a b pos qk) s (mmaBody .sc k a b pos false false false (if qk then some 31 else none))

/-! ### CHAIN.BUILD (07 R196 to R198) -/

/-- The hop format of a code (07 R197). -/
def hopFmtOf : Nat → Option HopFmt
  | 0 => some .fp32
  | 1 => some .fp64
  | 2 => some .int32
  | 3 => some .bf16
  | _ => none

/-- One hop of a descriptor (07 R197). -/
def parseHop (d : List Byte) (i : Nat) : Option Hop :=
  let o := 16 + 16 * i
  let link := leAt d o 2
  let hfl := leAt d (o + 5) 1
  let hsv := testBit hfl 0
  let wideBit := testBit hfl 1
  let sc := leAt d (o + 8) 4
  let finite : Bool := match Fmt.f32.unpack sc with
    | .fin _ _ _ => true
    | _ => false
  match hopFmtOf (leAt d (o + 4) 1) with
  | none => none
  | some f =>
    if link < 256 ∧ hfl < 4 ∧ zeroAt d (o + 6) 2 ∧ zeroAt d (o + 12) 4 ∧ (hsv → f.isFp ∧ finite) ∧ (!hsv → sc = 0) ∧
        (wideBit → f = .int32) then
      some { link := link, count := leAt d (o + 2) 2, fmt := f, wide := f == .fp64 || wideBit,
             scale := if hsv then some (BitVec.ofNat 32 sc) else none }
    else none

/-- The hops of a descriptor, or none where one breaks a rule. -/
def parseHops (d : List Byte) : Nat → Option (List Hop)
  | 0 => some []
  | n + 1 => match parseHops d n, parseHop d n with
    | some l, some h => some (l ++ [h])
    | _, _ => none

/-- The links that chains of the gang other than k name, with whether each is wide. -/
def namedBy (g : Gang) (k : KReg) : List (Nat × Bool) :=
  (List.finRange 32).flatMap fun j =>
    let c := g.chains.get j
    if j = k ∨ c.state = .idle then [] else c.hops.map fun h => (h.link, h.wide)

/-- Whether a descriptor's links keep to R149, R156 and R198. -/
def linksOk (s : State) (g : Gang) (k : KReg) (hops : List Hop) : Bool :=
  let others := namedBy g k
  let mine := hops.map fun h => (h.link, h.wide)
  let all := others ++ mine
  !hasDup (hops.map fun h => h.link) &&
  hops.all fun h =>
    ((s.link? g.id h.link).any fun l => !l.spare) && !(others.any fun x => x.1 == h.link) &&
    (!h.wide || (h.link % 2 == 0 && (s.link? g.id (h.link + 1)).isSome && !(all.any fun x => x.1 == h.link + 1))) &&
    (h.link % 2 == 0 || !(all.any fun x => x.1 == h.link - 1 && x.2))

/-- The header and the hops of a descriptor (07 R196): region, ISAT and hops. -/
def parseChain (d : List Byte) : Option (Nat × Nat × Bool × List Hop) :=
  let m := leAt d 4 2
  let n := leAt d 6 2
  let cfl := leAt d 2 1
  match parseHops d (leAt d 1 1) with
  | none => none
  | some hops =>
    if leAt d 0 1 = 1 ∧ cfl < 2 ∧ zeroAt d 3 1 ∧ 1 ≤ m ∧ m ≤ 128 ∧ 1 ≤ n ∧ n ≤ 256 ∧ zeroAt d 8 8 ∧
        (hops.all (fun h => h.fmt.isFp) ∨ hops.all (fun h => !h.fmt.isFp)) then
      some (m, n, testBit cfl 0, hops)
    else none

/-- A link returned to its gang's pool. -/
def Link.clear (l : Link) : Link := { id := l.id, gang := l.gang, spare := l.spare }

/-- A link as it stands when its chain is built or it is spliced in: EMPTY, or COMPLETE where c is 0 (06 R164). -/
def Link.fresh (l : Link) (k : KReg) (c : Nat) : Link :=
  { id := l.id, gang := l.gang, chain := some k, state := if c = 0 then .complete else .empty }

/-- Returns every link of a chain to the pool. -/
def freeLinks (s : State) (g : Nat) (k : KReg) : State :=
  { s with links := updateAll (fun l => l.gang == g && l.chain == some k) Link.clear s.links }

/-- The chain and its links as CHAIN.BUILD leaves them (07 R198). -/
def buildChain (s : State) (g : Nat) (k : KReg) (m n : Nat) (isat : Bool) (hops : List Hop) : State :=
  let s := freeLinks s g k
  let s := s.updChain g k fun _ => { state := .built, m := m, n := n, isat := isat, hops := hops }
  hops.foldl (fun s h => s.updLink g h.link fun l => l.fresh k h.count) s

/-- The banks of a scratchpad record of n bytes at an offset, as far as they lie in the scratchpad. -/
def recordBanks (off n : Nat) : BitVec 48 := banksOf ((byteRange off n).filter fun x => x < 0xC00000)

/-- CHAIN.BUILD (07 R198). The banks of a descriptor in scratchpad are waited for before any check (R179). A descriptor whose
HOPS is outside 1 to 32 is rejected from its 16-byte header, and nothing behind it is read (DESIGN CHOICE, log 105). -/
def execChainBuild (k : KReg) (a : SReg) (sp : Bool) (s : State) : Host.Outcome State Fault Refusal :=
  runSlot (.chainBuild k a sp) s fun s =>
    let g := s.src.id.gang
    let st := (s.chain g k).state
    let addr := (rdS s a).toNat
    let hops := min 32 (s.spad.get (s.src.lc * 0xC00000 + addr + 1)).toNat
    if sp ∧ banksBusy s s.src.lc (recordBanks addr (16 + 16 * hops)) then .waitBanks (recordBanks addr (16 + 16 * hops))
    else if st = .built ∨ st = .active ∨ st = .frozen then chainTrap s k
    else match readRecord s sp addr 16 16 with
      | .trap t => .trap t
      | .stall b => .waitBanks b
      | .ok hd _ =>
        let n := leAt hd 1 1
        if n = 0 ∨ 32 < n then chainTrap s k
        else match readRecord s sp addr 16 (16 + 16 * n) with
          | .trap t => .trap t
          | .stall b => .waitBanks b
          | .ok d s1 =>
            match parseChain d, s.gang? g with
            | some (m, w, isat, hops), some x =>
              if linksOk s x k hops then .done (buildChain s1 g k m w isat hops) else chainTrap s k
            | _, _ => chainTrap s k

/-! ### CHAIN.CLOSE (07 R199, R200) -/

/-- Whether a code is an output format of a close (07 R199). -/
def closeFmtOk (f : Nat) : Bool := f ≤ 0x0F || f == 0x18 || f == 0x19

/-- PP of a row of n elements of a format without scales (07 R186). -/
def closePitch (f n : Nat) : Nat := ceilDiv (ceilDiv (fmtWidth f * n) 8) 4 * 4

/-- The bytes from the first to the last that a close into scratchpad writes. -/
def closeSpan (f m n : Nat) : Nat := (m - 1) * closePitch f n + ceilDiv (fmtWidth f * n) 8

/-- The arming of a close (07 R200). -/
def armClose (s : State) (k : KReg) (x : CloseArm) : State :=
  (s.updChain s.src.id.gang k fun c =>
    { c with close := some x, state := if c.state = .built then .active else c.state }).withCtx fun c =>
      { c with oct := c.oct + 1 }

/-- CHAIN.CLOSE (07 R199). -/
def execChainClose (k : KReg) (a b : SReg) (rm : Rm) (dst : Bool) (s : State) : Host.Outcome State Fault Refusal :=
  runSlot (.chainClose k a b rm dst) s fun s =>
    let c := s.src
    let ch := s.chain c.id.gang k
    let v := (rdS s b).toNat
    let osc := v % 2 ^ 32
    let ofc := bits v 32 5
    let tile := lowTile a
    let live := ch.state ≠ .idle
    let isInt := live ∧ ch.hops.any fun h => !h.fmt.isFp
    let off := (rdS s a).toNat
    let fmt := if dst then ofc else (Shape.ofWord (c.tcfg.get tile)).fmt
    let shapeOk := if dst then true else
      match c.shape? tile with
      | none => false
      | some h => ofc == 0 && (!live || (h.rows == ch.m && h.cols == ch.n))
    let span := byteRange off (closeSpan fmt ch.m ch.n)
    if countFull s .t then .stall
    else if dst ∧ live ∧ banksBusy s c.lc (banksOf (span.filter fun x => x < 0xC00000)) then
      .waitBanks (banksOf (span.filter fun x => x < 0xC00000))
    else if v / 2 ^ 37 ≠ 0 ∨ (isInt ∧ osc ≠ 0) ∨ !shapeOk ∨ !closeFmtOk fmt then
      .trap { cause := .tileShape, xinfo := if dst then 0 else tile.val }
    else if ch.state = .idle ∨ ch.state = .closed then chainTrap s k
    else if ch.state = .frozen then linkFaultTrap s k
    else if ch.close.isSome then chainTrap s k
    else
      let arm : CloseArm := { gix := c.id.gix, dst := if dst then .spad c.lc off else .tile tile, ofmt := fmt,
                              rm := rmCode rm c, oscale := BitVec.ofNat 32 osc, cfg := c.tcfg.get tile,
                              bundle := c.bundles }
      if dst then
        aligned off 4 <|
          match resolve s true .write span with
          | (.error t, _) => .trap t
          | (.ok _, s) => .done (armClose s k arm)
      else .done (armClose s k arm)

/-! ### CHAIN.STAT, SPLICE, RESUME and FREE (07 R201 to R204) -/

/-- The freeze cause as reported: 0 in any state but FROZEN (11 R277). -/
def Chain.reportedCause (c : Chain) : Nat := if c.state = .frozen then c.cause.code else 0

/-- H as reported: 0 for an IDLE chain. -/
def Chain.reportedHops (c : Chain) : List Hop := if c.state = .idle then [] else c.hops

/-- The record that CHAIN.STAT writes (07 R201, 11 R277). -/
def statRecord (s : State) (g : Nat) (c : Chain) : List Byte :=
  let hops := c.reportedHops
  let armed := c.close.isSome || c.written
  toBytes 4 (c.state.code + c.reportedCause * 2 ^ 8 + hops.length * 2 ^ 16 + armed.toNat * 2 ^ 24 +
    c.written.toNat * 2 ^ 25) ++
  toBytes 4 c.flags.toNat ++ toBytes 8 (s.links.filter fun l => l.gang == g && l.spare).length ++
  hops.flatMap fun h =>
    match s.link? g h.link with
    | some l => toBytes 8 (h.link + l.state.code * 2 ^ 16 + l.promoted % 2 ^ 16 * 2 ^ 32 + h.count * 2 ^ 48)
    | none => toBytes 8 (h.link + h.count * 2 ^ 48)

/-- CHAIN.STAT (07 R201); the record is written as one row, so FADDR is its first byte (R188). -/
def execChainStat (d a : SReg) (k : KReg) (sp : Bool) (s : State) : Host.Outcome State Fault Refusal :=
  runSlot (.chainStat d a k sp) s fun s =>
    let g := s.src.id.gang
    let c := s.chain g k
    let r := BitVec.ofNat 64 (c.state.code + c.reportedCause * 8 + c.reportedHops.length * 32)
    if a = 0 then .done (wrS s d r)
    else
      let addr := (rdS s a).toNat
      let rec_ := statRecord s g c
      if countFull s .s then .stall
      else if sp ∧ banksBusy s s.src.lc (recordBanks addr rec_.length) then .waitBanks (recordBanks addr rec_.length)
      else aligned addr 16 <|
        match issue s sp .write .s (byteRange addr rec_.length) fun l =>
            .ok (mkAccess sp .s addr l (.store rec_)) with
        | .done s => .done (wrS s d r)
        | .trap t => .trap { t with faddr := addr % 2 ^ 56 }
        | e => e

/-- Whether a spare may take a position (06 R167, 07 R202). -/
def spliceOk (s : State) (g : Gang) (k : KReg) (h : Hop) (i : Nat) : Bool :=
  let mine := ((g.chains.get k).hops.filter fun x => x.link != h.link).map fun x => (x.link, x.wide)
  let all := namedBy g k ++ mine
  ((s.link? g.id i).any fun l => l.spare && l.state == .empty) && i != h.link && !(all.any fun x => x.1 == i) &&
    (if h.wide then i % 2 == 0 && (s.link? g.id (i + 1)).isSome && !(all.any fun x => x.1 == i + 1)
     else i % 2 == 0 || !(all.any fun x => x.1 == i - 1 && x.2))

/-- CHAIN.SPLICE (07 R202, 06 R167). The faulted LLINK leaves the gang's allocation; of a wide link's odd LLINK R167 does not
say whether it leaves too: it stays, and may be named again (DESIGN CHOICE, log 90). -/
def execChainSplice (k : KReg) (a : SReg) (pos : Fin 32) (s : State) : Host.Outcome State Fault Refusal :=
  runSlot (.chainSplice k a pos) s fun s =>
    let g := s.src.id.gang
    let c := s.chain g k
    let v := (rdS s a).toNat
    match c.hops[pos.val]?, s.gang? g with
    | some h, some x =>
      if v / 256 = 0 ∧ c.state = .frozen ∧ c.cause = .fault ∧
          ((s.link? g h.link).any fun l => l.state == .faulted) ∧ spliceOk s x k h v then
        let s := s.updChain g k fun c => { c with hops := updateAt pos.val (fun y => { y with link := v }) c.hops }
        let s := { s with links := s.links.filter fun l => !(l.gang == g && l.id == h.link) }
        .done (s.updLink g v fun l => l.fresh k h.count)
      else chainTrap s k
    | _, _ => chainTrap s k

/-- The upstream re-send of a resumed chain (06 R167): a sender whose receiver holds no inbound partial sends its
retained copy again. -/
def resend (s : State) (g : Nat) (c : Chain) : State :=
  (c.hops.zip (c.hops.drop 1)).foldl (fun s p =>
    match s.link? g p.2.link with
    | some r =>
      if r.inbound.isNone then
        s.updLink g p.1.link fun l => if l.state = .sent then { l with inTransit := true } else l
      else s
    | none => s) s

/-- CHAIN.RESUME (07 R203). -/
def execChainResume (k : KReg) (s : State) : Host.Outcome State Fault Refusal :=
  runSlot (.chainResume k) s fun s =>
    let g := s.src.id.gang
    let c := s.chain g k
    if c.state = .frozen ∧ c.cause = .fault ∧
        !(c.hops.any fun h => (s.link? g h.link).any fun l => l.state == .faulted) then
      .done (resend (s.updChain g k fun c => { c with state := c.left, cause := .none }) g c)
    else chainTrap s k

/-- Discards contributions: their counts are released and their tokens complete as CANCELLED (06 R166, 07 R192). -/
def discard (s : State) (l : List Contribution) : State :=
  l.foldl (fun s x => completeTok? (octDown s x.who) x.who x.tok .cancelled) s

/-- CHAIN.FREE of a chain whose close is not writing (06 R163, 07 R204). -/
def freeChain (s : State) (g : Nat) (k : KReg) : State :=
  let s := discard s ((s.links.filter fun l => l.gang == g && l.chain == some k).flatMap fun l => l.waiting)
  let s := match (s.chain g k).close with
    | some a => octDown s { gang := g, gix := a.gix }
    | none => s
  (freeLinks s g k).updChain g k fun _ => {}

/-- CHAIN.FREE (07 R204). -/
def execChainFree (k : KReg) (s : State) : Host.Outcome State Fault Refusal :=
  runSlot (.chainFree k) s fun s =>
    let g := s.src.id.gang
    if (s.chain g k).close.any fun a => a.acting then .stall else .done (freeChain s g k)

end Sys2Proof.Machine
end

