-- ==== Sys2Proof/Machine/ChainEvent.lean ====
section
/-! DEFINITION. The steps of arrays, links and closes (06 R151 to R172). What an event acts on stands in State.arg: the
gang and the link, or the gang and the chain; an event whose conditions do not hold leaves the state as it is. -/
namespace Sys2Proof.Machine

/-- Changes an array's window record. -/
def State.updArray (s : State) (arr : Nat) (f : ArrayUnit → ArrayUnit) : State :=
  { s with arrays := updateFirst (fun a => a.id == arr) f s.arrays }

/-- Whether another resident gang uses an array: it has a context placed on one of its cores (06 R171). -/
def othersUse (s : State) (arr g : Nat) : Bool :=
  s.allCtx.any fun c => c.id.gang != g && !c.isV && c.array == arr

/-- The gang in focus has issued a bundle on its array, so its windows have begun (06 R171). -/
def windowsBegun (s : State) : Bool :=
  s.ctx.isV || (arrayOf s).all fun a => a.gangs.contains s.ctx.id.gang

/-- The first bundle of the gang in focus on its array issues: the array numbers its windows from 0, unless another
resident gang uses it and they run already (06 R171). Where several gangs use it and no window has begun, the first bundle of
any of them begins the windows (DESIGN CHOICE, log 38). -/
def beginWindows (s : State) : State :=
  s.updArray s.ctx.array fun a =>
    if a.on ∧ othersUse s s.ctx.array s.ctx.id.gang then { a with gangs := s.ctx.id.gang :: a.gangs }
    else { a with on := true, window := 0, start := s.time, gangs := [s.ctx.id.gang] }

/-- A gang leaves the arrays: it has ended or been saved. -/
def leaveArrays (s : State) (g : Nat) : State :=
  { s with arrays := s.arrays.map fun a => { a with gangs := a.gangs.filter fun x => x != g } }

/-- The window of an array that an MMA has stretched ends when its last step does (06 R171). -/
def stretchWindow (s : State) (arr : Nat) : State :=
  s.updArray arr fun a =>
    if a.on ∧ a.start + windowCycles a.altw ≤ s.time then { a with start := s.time + 1 - windowCycles a.altw } else a

/-- MMA_PROMOTION_COMPLETE (06 R157): the last promotion of the link's oldest contribution has finished. -/
def execMmaPromotionComplete (s : State) : Host.Outcome State Fault Refusal :=
  match s.link? s.arg.gang s.arg.id with
  | none => .next s
  | some l =>
    match l.waiting, l.chain with
    | x :: rest, some k =>
      let c := s.chain s.arg.gang k
      match c.hopOf l.id with
      | none => .next s
      | some (_, hop) =>
        if unsettled s x.who x.bundle [.t x.regs.1, .t x.regs.2] then .next s else
        let (p, fl) := promote c hop x l.own
        let s := s.updLink l.gang l.id fun l =>
          { l with own := p, waiting := rest, promoted := l.promoted + 1,
                   state := if l.promoted + 1 = hop.count then .complete else l.state }
        let s := s.updChain l.gang k fun c => { c with flags := c.flags ||| fl }
        .next (stretchWindow (completeTok? (octDown s x.who) x.who x.tok .ok) (l.id / 2))
    | _, _ => .next s

/-- Whether a chain may act: it is not frozen (06 R166). -/
def Chain.moving (c : Chain) : Bool := c.state == .built || c.state == .active

/-- Whether a link may form its hand-off partial (06 R158). An inbound partial waits in the image of a link whose logical
cluster is sliced out, and is applied when the link is resident again (01 R17). -/
def mayForm (s : State) (c : Chain) (l : Link) : Bool :=
  c.moving && l.state == .complete &&
    (match c.hopOf l.id with
      | some (pos, _) => pos == 0 || (l.inbound.isSome && clusterIn s (l.id / 8))
      | none => false)

/-- HANDOFF_FORM (06 R158): the link forms L and shifts it out, to the next link or to the close; during a quiesce it
waits (19 R406). -/
def execHandoffForm (s : State) : Host.Outcome State Fault Refusal :=
  match s.link? s.arg.gang s.arg.id with
  | none => .next s
  | some l =>
    match l.chain with
    | none => .next s
    | some k =>
      let c := s.chain l.gang k
      match c.hopOf l.id with
      | none => .next s
      | some (pos, hop) =>
        if !mayForm s c l ∨ s.fleet.step ≠ .idle then .next s
        else
          let (p, fl) := formPartial c pos hop l
          let s := s.updLink l.gang l.id fun l =>
            { l with state := .sent, partialOut := some p, inTransit := pos + 1 < c.hops.length }
          .next (s.updChain l.gang k fun c => { c with flags := c.flags ||| fl })

/-- HANDOFF_ARRIVAL (06 R162): the last row reaches the receiver's inbound buffer; a receiver that already holds its
partial ignores a repeat (R167), and a faulted one loses it. -/
def execHandoffArrival (s : State) : Host.Outcome State Fault Refusal :=
  match s.link? s.arg.gang s.arg.id with
  | none => .next s
  | some l =>
    match l.chain, l.partialOut with
    | some k, some p =>
      if !l.inTransit then .next s
      else
        let c := s.chain l.gang k
        let s := s.updLink l.gang l.id fun l => { l with inTransit := false }
        match (c.hopOf l.id).bind fun h => c.hops[h.1 + 1]? with
        | none => .next s
        | some r => .next (s.updLink l.gang r.link fun x =>
            if x.inbound.isNone ∧ x.state ≠ .faulted then { x with inbound := some p } else x)
    | _, _ => .next s

/-- The tail of a chain, with its hop. -/
def tailOf (s : State) (g : Nat) (c : Chain) : Option (Hop × Link) :=
  c.hops.getLast?.bind fun h => (s.link? g h.link).map fun l => (h, l)

/-- Whether every link of a chain has formed its partial: a spare that has replaced a link behind whose receiver the chain
has gone on must form the partial again before the close may act (06 R168, 11 R278; DEDUCED, log 96). -/
def allFormed (s : State) (g : Nat) (c : Chain) : Bool :=
  c.hops.all fun h => (s.link? g h.link).any fun l => l.state == .sent

/-- Whether a close may act (06 R160): it is armed, and the tail has formed its partial. -/
def mayClose (s : State) (g : Nat) (c : Chain) : Bool :=
  c.moving && c.close.isSome && (tailOf s g c).isSome && allFormed s g c

/-- Whether a close into scratchpad waits for a scratchpad store or TST of its own context that is earlier in program order
and still in flight to the banks it writes (10 R261, R272). -/
def closeWaits (s : State) (g : Nat) (c : Chain) : Bool :=
  c.close.any fun a => match a.dst with
    | .tile _ => false
    | .spad cl off =>
      let hit (w : CtxId) (bundle : Nat) (cells : List Nat) : Bool :=
        w == { gang := g, gix := a.gix } && decide (bundle < a.bundle) &&
          banksOf (cells.filter fun x => x / 0xC00000 == cl) &&& closeBanks c a off != 0
      (s.flights.any fun f => f.spad && !f.performed && f.kind.writes && hit f.who f.bundle f.cells) ||
        s.tileOps.any fun t => t.spad && t.stores && hit t.who t.bundle t.cells

/-- CLOSE_ACT (06 R160): the armed close begins to convert and to write. -/
def execCloseAct (s : State) : Host.Outcome State Fault Refusal :=
  let k : KReg := Fin.ofNat 32 s.arg.id
  if mayClose s s.arg.gang (s.chain s.arg.gang k) then
    .next (s.updChain s.arg.gang k fun c => { c with close := c.close.map fun a => { a with acting := true } })
  else .next s

/-- Writes the output of a close to its destination, with the taint of the chain (10 R274). In scratchpad the bits of a
row's last byte beyond its elements are written 0, of which R199 says nothing (DESIGN CHOICE, log 14). -/
def writeClose (s : State) (g : Nat) (c : Chain) (a : CloseArm) (rows : List (List FR)) : State :=
  match a.dst with
  | .tile n => s.updCtx { gang := g, gix := a.gix } fun x =>
      (x.wrT n ((x.t.get n).withElems (Shape.ofWord a.cfg) (rows.map fun l => l.map FR.bits))).setTaint (.t n) c.tainted
  | .spad cl off =>
    let len := ceilDiv (fmtWidth a.ofmt * c.n) 8
    let put := rows.mapIdx fun i l =>
      (byteRange (cl * 0xC00000 + off + i * closePitch a.ofmt c.n) len).zip
        (toBytes len (joinElems (fmtWidth a.ofmt) (l.map FR.bits)))
    let keys := (wordsOf (put.flatten.map fun p => p.1)).map (taintKey true)
    { s with
      spad := s.spad.setAll put.flatten
      taintMem := (if c.tainted then keys else []) ++ s.taintMem.filter fun k => !keys.contains k }

/-- The links of a chain made DONE (06 R159): the retained copies and the fold factors go. -/
def doneLinks (s : State) (g : Nat) (k : KReg) : State :=
  let finish (l : Link) : Link :=
    { l with state := .done, inbound := none, partialOut := none, inTransit := false, fold := none }
  { s with links := updateAll (fun l => l.gang == g && l.chain == some k) finish s.links }

/-- CLOSE_WRITTEN (06 R161): the destination is written; the chain is CLOSED, its links are DONE, and its flags reach
the closing context. -/
def execCloseWritten (s : State) : Host.Outcome State Fault Refusal :=
  let g := s.arg.gang
  let k : KReg := Fin.ofNat 32 s.arg.id
  let c := s.chain g k
  match c.close, tailOf s g c with
  | some a, some (hop, l) =>
    match l.partialOut with
    | none => .next s
    | some p =>
      if !a.acting ∨ !c.moving ∨ !allFormed s g c ∨ closeWaits s g c then .next s
      else
        let w : CtxId := { gang := g, gix := a.gix }
        let rows := closeRows c hop a ((s.anyCtx? w).elim 0 fun x => x.nbv) p
        let fl := c.flags ||| orFlags (rows.flatten.map FR.flags)
        let s := writeClose s g c a rows
        let s := s.updChain g k fun c => { c with state := .closed, close := none, written := true, flags := fl }
        .next (deferFlags (octDown (doneLinks s g k) w) w fl)
  | _, _ => .next s

/-! ### Errors (06 R166) -/

/-- The physical array that carries a logical link (16 R350). -/
def physicalArray (s : State) (link : Nat) : Nat :=
  match s.granary.remap[link / 8]? with
  | some e => e.toNat % 32 * 4 + link / 2 % 4
  | none => link / 2

/-- Adds to a counter that saturates at n bits (20 R413). -/
def satAdd32 (x n : Nat) : Nat := min (x + n) (2 ^ 32 - 1)

/-- Changes the counters of an array (20 R413). -/
def countArray (s : State) (arr : Nat) (f : ArrayCount → ArrayCount) : State :=
  let l := s.mgmt.arrays
  let l := if l.any fun a => a.arr == arr then updateFirst (fun a => a.arr == arr) f l else l ++ [f { arr := arr }]
  { s with mgmt := { s.mgmt with arrays := l } }

/-- The contexts that have an MMA or a close of a chain counted in OCT (06 R166). -/
def chainUsers (s : State) (g : Nat) (k : KReg) : List CtxId :=
  (((s.links.filter fun l => l.gang == g && l.chain == some k).flatMap fun l => l.waiting.map fun x => x.who) ++
    (match (s.chain g k).close with
      | some a => [{ gang := g, gix := a.gix }]
      | none => [])).dedup

/-- A link of a chain is hit before it is DONE (06 R166): it is FAULTED and loses what it held, its contributions in
flight are discarded, and the chain freezes. -/
def faultLink (s : State) (l : Link) (k : KReg) : State :=
  let users := chainUsers s l.gang k
  let s := s.updLink l.gang l.id fun l =>
    { l with state := .faulted, own := {}, inbound := none, partialOut := none, inTransit := false, waiting := [] }
  let s := s.updChain l.gang k fun c =>
    { c with
      state := .frozen
      cause := if c.state = .frozen then c.cause else .fault
      left := if c.state = .frozen then c.left else c.state
      close := c.close.map fun a => { a with acting := false } }
  let s := discard s l.waiting
  users.foldl (fun s w => deferTrap s w { cause := .linkFault, xinfo := l.id + k.val * 256 }) s

/-- An array's count of an error: corrected, in its window and in all, or uncorrected (20 R413). -/
def ArrayCount.note (a : ArrayCount) (corrected : Bool) : ArrayCount :=
  if corrected then { a with window := satAdd32 a.window 1, corrected := satAdd32 a.corrected 1 }
  else { a with uncorrected := satAdd32 a.uncorrected 1 }

/-- LINK_UNCORRECTABLE_ERROR (06 R166): it faults a link of a live chain that is not DONE; in any other link it is
corrected by discarding the contents. An error named on the odd link of a wide link in a live chain, which no chain names,
is taken as one in a link of no chain (DESIGN CHOICE, log 90). -/
def execLinkUncorrectableError (s : State) : Host.Outcome State Fault Refusal :=
  let note (s : State) (corrected : Bool) : State :=
    countArray s (physicalArray s s.arg.id) fun a => a.note corrected
  match s.links.find? fun l => l.id == s.arg.id && (s.gang? l.gang).any fun g => g.run != .preempted with
  | none => .next (note s true)
  | some l =>
    match l.chain with
    | none => .next (note s true)
    | some k =>
      if l.state = .done then .next (note s true) else .next (faultLink (note s false) l k)

/-! ### Issue windows (06 R171, R172) -/

/-- Whether an MMA of an array is running. -/
def arrayBusy (s : State) (arr : Nat) : Bool := s.links.any fun l => l.id / 2 == arr && !l.waiting.isEmpty

/-- The setting that the next window takes: of two writes in one window the odd core's is last (03 R77). -/
def ArrayUnit.nextSetting (a : ArrayUnit) : BitVec 4 := (a.nextOdd.or a.nextEven).getD a.altw

/-- Whether an array's window has ended. -/
def windowDue (s : State) (a : ArrayUnit) : Bool :=
  a.on && decide (a.start + windowCycles a.altw ≤ s.time) && !arrayBusy s a.id

/-- The array in the window that holds the present cycle. -/
def nextWindow (s : State) (a : ArrayUnit) : ArrayUnit :=
  let begin := a.start + windowCycles a.altw
  let set := a.nextSetting
  let more := (s.time - begin) / windowCycles set
  { a with window := a.window + 1 + more, start := begin + more * windowCycles set, altw := set, nextEven := none,
           nextOdd := none }

/-- ARRAY_WINDOW_START (06 R171): a window has ended and the next one begins. -/
def execArrayWindowStart (s : State) : Host.Outcome State Fault Refusal :=
  .next (s.updArray s.arg.id fun a => if windowDue s a then nextWindow s a else a)

/-- Every array in the window that holds the present cycle. -/
def rollWindows (s : State) : State :=
  { s with arrays := s.arrays.map fun a => if windowDue s a then nextWindow s a else a }

end Sys2Proof.Machine
end

