-- ==== Sys2Proof/Machine/MemEvent.lean ====
section
/-! DEFINITION. The steps of accesses, presses, switches, fences, timed waits, table walks and contexts (08 R208 to
R232, 10 R263 to R269, 17 R364 to R366, 19 R409). What an event acts on stands in State.arg; an event whose conditions
do not hold leaves the state as it is. -/
namespace Sys2Proof.Machine

/-- The context that an event names. -/
def State.argCtx (s : State) : CtxId := { gang := s.arg.gang, gix := s.arg.gix }

/-- An access in flight by number. -/
def State.flight? (s : State) (i : Nat) : Option Access := s.flights.find? fun f => f.id == i

/-! ### Performing and returning accesses -/

/-- The physical address of the counter of chunk j of a reshard, where it translates. -/
def chunkCounter (s : State) (k : Cmd) (b : ReshardBlock) (j : Nat) : Option Nat :=
  match (xlate s k.xl .read ((leAt b.bytes 0x48 8 + 4 * j) % 2 ^ 64)).1 with
  | .ok p => some p.pa
  | .error _ => none

/-- Whether a reset of the counter at an address cancels a reshard: the counter's chunk has not been read (09 R243). -/
def resetCancels (s : State) (pa : Nat) (k : Cmd) : Bool :=
  match k.reshard? with
  | none => false
  | some b => ((List.range (chunkCount b)).drop (k.stage - 1)).any fun j => chunkCounter s k b j == some pa

/-- The collectives that a TRIG reset of a counter cancels: every rank's token completes as CANCELLED. -/
def cancelReshards (s : State) (pa : Nat) : State :=
  (s.cmds.filter (resetCancels s pa)).foldl cancelCollective s

/-- Whether every byte of a range lies in memory that an agent outside this package may write: local HBM, host memory, and
the memory of other packages. -/
def outsideMayWrite (s : State) (a n : Nat) : Bool :=
  (byteRange a n).all fun x => paKind s x != .reserved && paNorm s x == x

/-- What an agent outside this package performs at address arg.val (10 R260, R270): with arg.write, a write of those bytes;
else, by the first byte of arg.sig, FLAG.SET of flag arg.val2 (1), TRIG that adds (2) or sets (3) arg.val2, or an atomic
with operand arg.val2 and compared value arg.id (4, its operation and type in the next two bytes). -/
def performOutside (s : State) : State :=
  let a := s.arg.val
  match s.arg.write with
  | some d => if outsideMayWrite s a d.length then writeGlobal s [] ((byteRange a d.length).zip d) else s
  | none =>
    if s.sigByte 0 = 1 then
      if a % 64 = 0 ∧ outsideMayWrite s a 64 then
        let s := serve s (granule a)
        writeHome s (granule a) [] ((byteRange a 64).zip (setFlag (granuleBytes s (granule a)) (s.arg.val2 % 64)))
      else s
    else if s.sigByte 0 = 2 ∨ s.sigByte 0 = 3 then
      if a % 4 = 0 ∧ outsideMayWrite s a 4 then
        let reset := s.sigByte 0 == 3
        let t := trigAt s [] a reset (BitVec.ofNat 32 s.arg.val2)
        if reset then cancelReshards t a else t
      else s
    else if s.sigByte 0 = 4 then
      match contribOps[s.sigByte 1]?, contribTys[s.sigByte 2]? with
      | some op, some ty =>
        if a % ty.bytes = 0 ∧ outsideMayWrite s a ty.bytes then
          (atomAt s [] a { op := op, ty := ty, val := BitVec.ofNat 64 s.arg.val2, cmp := BitVec.ofNat 64 s.arg.id }).2.2
        else s
      | _, _ => s
    else s

/-- A release of scope mod that the port has held sends its END markers and leaves (10 R269, item 6); nothing while its die's
epoch still runs too far ahead. -/
def portLets (s : State) (a : Access) : State :=
  match s.anyCtx? a.who with
  | none => s
  | some c =>
    if epochHeld s c.pdie ∨ s.fleet.step ≠ .idle then s
    else
      let t := modRelease s c (some a.id)
      let (i, t) := t.fresh
      putFlight t { a with relHeld := false, left := i, stamp := vcMax a.stamp (stampAt t c) }

/-- MEMORY_ACCESS_PERFORM (10 R263): access arg.id is performed at its home, in granule arg.val or in its next one; with
arg.val2 = 1, a store reaches its core's L1 first (R257). With arg.write or arg.sig it is an access of an agent outside this
package. -/
def execMemoryAccessPerform (s : State) : Host.Outcome State Fault Refusal :=
  if s.arg.write.isSome ∨ s.arg.sig ≠ [] then .next (performOutside s)
  else match s.flight? s.arg.id with
  | none => .next s
  | some a =>
    if a.relHeld then .next (portLets s a)
    else if s.arg.val2 = 1 then .next (showStore s a)
    else if a.kind.isAtom ∨ !mayPerform s a then .next s
    else
      let t := performAccess s a s.arg.val
      match a.kind, a.cells.head? with
      | .trig true _, some pa => .next (cancelReshards t pa)
      | _, _ => .next t

/-- HOME_ATOMIC_PERFORM (08 R216): atomic arg.id is applied at its home slice. -/
def execHomeAtomicPerform (s : State) : Host.Outcome State Fault Refusal :=
  match s.flight? s.arg.id with
  | none => .next s
  | some a =>
    if a.kind.isAtom ∧ a.place = .home ∧ mayPerform s a then .next (performAccess s a s.arg.val) else .next s

/-- Whether an integer atomic returns a value that DETL TAINT taints (10 R274). -/
def atomTaints (a : Access) : Bool :=
  match a.kind with
  | .atom x => !x.op.isFp && a.detl == 2
  | _ => false

/-- LOAD_RETURN (08 R209): the data of load or AMO arg.id returns. -/
def execLoadReturn (s : State) : Host.Outcome State Fault Refusal :=
  match s.flight? s.arg.id with
  | none => .next s
  | some a =>
    if a.cls = .l ∧ a.performed then
      .next (returnLoad (dropFlight s a.id) a.who a.dest a.data (a.hotBytes (a.tainted || atomTaints a)))
    else .next s

/-- STORE_ACKNOWLEDGE (08 R208): write arg.id has been performed at its home and releases its count. -/
def execStoreAcknowledge (s : State) : Host.Outcome State Fault Refusal :=
  match s.flight? s.arg.id with
  | none => .next s
  | some a =>
    if a.cls = .s ∧ a.performed then
      .next ((dropFlight s a.id).updCtx a.who fun c => { c with ocs := c.ocs - 1 })
    else .next s

/-- Whether an access or tile instruction, by its context, its number and the number under which it left the port, goes before
a marker: those of the releasing context by program order, those of others by when they left (10 R269, items 2 and 5). -/
def Marker.behind (m : Marker) (w : CtxId) (id left : Nat) : Bool :=
  if w = m.who then decide (id < m.num) else decide (left < m.id)

/-- Whether a marker has still to wait for what goes before it at its place: a marker and the accesses of one source reach it
in order, and it performs what it holds in the order of arrival. It waits too for what its own context reads before the
release, and for the clock that was read, so that a release is cumulative (10 R266, item 2; DEDUCED, log 111). -/
def behindMarker (s : State) (m : Marker) : Bool :=
  (s.clocks.markers.any fun x => x.die == m.die && x.slice == m.slice && decide (x.id < m.id)) ||
  !vcGe (s.clocks.doneOf m.slice) m.stamp ||
  (s.flights.any fun f => f.die == m.die && !f.spad && m.behind f.who f.id f.left &&
    (f.who == m.who || !behindReplay s f.who f.replay f.id f.todo) &&
    ((f.todo.any fun g => orderPlace s (g * 64) == m.slice) ||
      (f.who == m.who && !f.performed && (f.kind == .load || f.kind.isAtom)))) ||
  s.tileOps.any fun t => !t.spad && m.behind t.who t.id t.left && ((s.anyCtx? t.who).any fun c => c.pdie == m.die) &&
    (((squeeze (t.cells.map granule)).any fun g => orderPlace s (g * 64) == m.slice) ||
      (t.who == m.who && t.op.moves && !t.stores))

/-- END_MARKER_RECEIPT (10 R269): marker arg.id reaches slice arg.val, after every earlier access of its die. -/
def execEndMarkerReceipt (s : State) : Host.Outcome State Fault Refusal :=
  match s.clocks.markers.find? fun m => m.id == s.arg.id && m.slice == s.arg.val with
  | none => .next s
  | some m =>
    if behindMarker s m then .next s
    else
      let k := s.clocks
      let done := updateAt m.slice (updateAt m.die fun e => e + 1) k.done
      .next { s with clocks := { k with done := done, markers := k.markers.erase m } }

/-! ### Presses (08 R217 to R219, 17 R366) -/

/-- The entries in the holding buffer of a slice. -/
def heldEntries (s : State) (slice : Nat) : List PressEntry := s.press.filter fun e => e.slice == slice && !e.spilled

/-- The bytes of a gang's spill area that its spill runs use (08 R219). -/
def spillUsed (s : State) (g : Nat) : Nat := 32 * (s.press.filter fun e => e.spilled && e.who.gang == g).length

/-- The gang whose entries a full buffer spills (08 R219): among those whose area holds their run the one with the most
entries, and among equals the lowest. -/
def spillGang (s : State) (l : List PressEntry) : Option Nat :=
  let count (g : Nat) : Nat := (l.filter fun e => e.who.gang == g).length
  let fits (g : Nat) : Bool := (s.gang? g).any fun x => decide (spillUsed s g + 32 * count g ≤ x.spillsz)
  (((l.map fun e => e.who.gang).dedup).filter fits).foldl (fun b g => match b with
    | none => some g
    | some h => if count h < count g ∨ (count g = count h ∧ g < h) then some g else some h) none

/-- The issuer's ACCESS_FAULT for a press atomic that is rejected or revoked (08 R219, 17 R366). -/
def pressFault (s : State) (w : CtxId) (va : Nat) : State :=
  deferTrap s w { cause := .accessFault, faddr := va % 2 ^ 56 }

/-- A press atomic that is not entered: its count is released, and its issuer's ACCESS_FAULT becomes due. -/
def rejectPress (s : State) (a : Access) : State :=
  let s := (dropFlight s a.id).updCtx a.who fun c =>
    if a.cls = .l then { c with ocl := c.ocl - 1 } else { c with ocs := c.ocs - 1 }
  pressFault s a.who a.va

/-- The register of a load's destination. -/
def LoadDest.sreg : LoadDest → Option SReg
  | .scalar r _ _ => Option.some r
  | _ => Option.none

/-- The entry of a press atomic. -/
def pressEntry (s : State) (a : Access) (x : Atom) : PressEntry :=
  let pa := a.cells.headD 0
  { who := a.who, seq := a.seq, addr := pa, va := a.va, atom := x, dest := a.dest.sreg, amo := a.cls == .l, die := a.die,
    slice := pressSlice s pa, page := a.pages.head?, tainted := a.tainted }

/-- Enters a press atomic: a RED is then performed at the press and is acknowledged (08 R208); an AMO waits for its
value with its count held. -/
def enterPress (s : State) (a : Access) (e : PressEntry) : State :=
  let s := if a.cls = .l then dropFlight s a.id else putFlight s { a with todo := [] }
  { s with press := s.press ++ [e] }

/-- Whether an INVR that has reached its invalidation points waits for an access (17 R366). -/
def revoking (s : State) (i : Nat) : Bool := s.invals.any fun v => v.points && v.waits.contains i

/-- The entries of a gang in the holding buffer of a slice written as one spill run behind the runs that its area holds
(08 R219): 32 bytes an entry, in a layout that the spec does not give, so free bytes. What does not translate is not
written. -/
def spillRun (s : State) (slice g : Nat) : State :=
  let n := ((heldEntries s slice).filter fun e => e.who.gang == g).length
  let run : State := match s.gang? g with
    | none => s
    | some x =>
      let t : Xl := { priv := true, asid := x.asid.toNat % 2 ^ 16, root := x.ptbase.toNat, tlbs := [], cache := 300 + slice }
      let (v, s) := s.free (256 * n)
      match xlateAll t .write (byteRange (x.spill + spillUsed s g) (32 * n)) none s with
      | (.ok l, s) => writeGlobal s [] ((l.map Pa.pa).zip (toBytes (32 * n) v.toNat))
      | (.error _, s) => s
  { run with press := run.press.map fun y => if y.slice = slice ∧ y.who.gang = g then { y with spilled := true } else y }

/-- PRESS_ENTRY_ARRIVAL (08 R217, R219): press atomic arg.id reaches its slice. A press of another package rejects it when
arg.val is not 0. -/
def execPressEntryArrival (s : State) : Host.Outcome State Fault Refusal :=
  match s.flight? s.arg.id with
  | none => .next s
  | some a =>
    match a.kind with
    | .atom x =>
      if a.place ≠ .press ∨ !mayPerform s a then .next s
      else if revoking s a.id then .next (rejectPress s a)
      else
        let e := pressEntry s a x
        let l := heldEntries s e.slice
        if 64 ≤ e.slice then .next (if s.arg.val = 0 then enterPress s a e else rejectPress s a)
        else if l.length < 16 then .next (enterPress s a e)
        else match spillGang s l with
          | none => .next (rejectPress s a)
          | some g => .next (enterPress (spillRun s e.slice g) a e)
    | _ => .next s

/-- Whether a window holds a press atomic of a context with an issuer sequence (08 R218): by the context's cut, or, for
a context that took no part, not yet known. -/
def Window.holds (w : Window) (gix seq : Nat) : Option Bool :=
  if w.all then some true
  else (w.cuts.find? fun c => c.1 == gix).map fun c => decide (seq < c.2)

/-- Whether a window may be applied: every press atomic that belongs to it has been entered. -/
def windowReady (s : State) (g : Nat) (w : Window) : Bool :=
  s.flights.all fun f => f.who.gang != g || f.place != .press || !f.kind.isAtom || f.performed ||
    w.holds f.who.gix f.seq != some true

/-- The order of keys within one gang (08 R217). -/
def PressEntry.before (a b : PressEntry) : Bool :=
  if a.addr ≠ b.addr then decide (a.addr < b.addr)
  else if a.who.gix ≠ b.who.gix then decide (a.who.gix < b.who.gix)
  else decide (a.seq < b.seq)

/-- Inserts an entry by its key. -/
def insertEntry (e : PressEntry) : List PressEntry → List PressEntry
  | [] => [e]
  | x :: l => if x.before e then x :: insertEntry e l else e :: x :: l

/-- Parts the entries of a gang: those that the window applies and those that stay; an entry of a context that took no
part is applied at some later closing point, and which one is free. -/
def partWindow (g : Nat) (w : Window) : List PressEntry → State → List PressEntry × List PressEntry × State
  | [], s => ([], [], s)
  | e :: l, s =>
    if e.who.gang ≠ g then
      let (a, b, s) := partWindow g w l s
      (a, e :: b, s)
    else match w.holds e.who.gix e.seq with
      | some true =>
        let (a, b, s) := partWindow g w l s
        (insertEntry e a, b, s)
      | some false =>
        let (a, b, s) := partWindow g w l s
        (a, e :: b, s)
      | none =>
        let (v, s) := s.free 1
        let (a, b, s) := partWindow g w l s
        if v = 1 then (insertEntry e a, b, s) else (a, e :: b, s)

/-- Applies one entry of a window: one rounding, and an AMO's old value returns (08 R218). -/
def applyEntry (s : State) (e : PressEntry) : State :=
  let (x, s) := applyAtom s e.who [] e.addr e.atom
  let cells := byteRange e.addr e.atom.ty.bytes
  let keys := (wordsOf cells).map (taintKey false)
  let hot := e.tainted || keys.any fun k => s.taintMem.contains k
  let s := if e.tainted then
      noteWritten { s with taintMem := keys ++ s.taintMem.filter fun k => !keys.contains k } e.who.gang
        (wordPlaces cells (byteRange e.va e.atom.ty.bytes))
    else s
  if e.amo then
    returnLoad s e.who (match e.dest with
      | some r => .scalar r e.atom.ty.bytes .zero
      | none => .none) (toBytes e.atom.ty.bytes x) (if hot then List.range e.atom.ty.bytes else [])
  else s

/-- PRESS_WINDOW_APPLY (08 R218): the oldest closed window of gang arg.gang is applied in key order; a quiesce delays it
(19 R406). -/
def execPressWindowApply (s : State) : Host.Outcome State Fault Refusal :=
  match s.gang? s.arg.gang with
  | none => .next s
  | some g =>
    match g.windows with
    | [] => .next s
    | w :: rest =>
      if !windowReady s g.id w ∨ s.fleet.step ≠ .idle then .next s
      else
        let (now, later, s) := partWindow g.id w s.press s
        let s := (({ s with press := later } : State).updGang g.id fun x => { x with windows := rest })
        .next (now.foldl applyEntry s)

/-! ### Plane switches (08 R220 to R222, 19 R409) -/

/-- REMOTE_ATOMIC_RETRY (08 R220): a retry is invisible except in time. -/
def execRemoteAtomicRetry (s : State) : Host.Outcome State Fault Refusal := .next s

/-- Contributions that the staging SRAM of a plane holds (19 R409). -/
def planeSlots : Nat := 64 * 2 ^ 20 / 32

/-- Where a new contribution is staged: in SRAM (false), in the spill area (true), or nowhere. -/
def stagePlace (s : State) (plane pa : Nat) : Option Bool :=
  if (s.fleet.staged.filter fun x => x.plane == plane && !x.spilled).length < planeSlots then some false
  else match windowOf s pa with
    | none => none
    | some w =>
      let used := (s.fleet.staged.filter fun x => x.spilled && (windowOf s x.addr).any fun v => v.wid == w.wid).length
      if 32 * (used + 1) ≤ w.spilllen then some true else none

/-- Merges a contribution into the accumulator of its element (19 R409, DETL FREE). -/
def mergeAcc (s : State) (a : Access) (x : Atom) (pa plane : Nat) : State :=
  let f := s.fleet
  let add (k : SwitchAcc) : SwitchAcc := { k with atoms := k.atoms ++ [x], acks := k.acks ++ [a.id] }
  let hit (k : SwitchAcc) : Bool := k.addr == pa && k.plane == plane
  let new : SwitchAcc := { addr := pa, plane := plane, atoms := [x], acks := [a.id], since := s.time }
  { s with fleet := { f with accs := if f.accs.any hit then updateFirst hit add f.accs else f.accs ++ [new] } }

/-- A contribution of another package reaches a switch (19 R409): arg.sig gives its package, operation, type and
whether its gang runs at DETL FREE; arg.val its address, arg.val2 its value, and arg.gang, arg.gix and arg.id its
issuer. -/
def foreignContribution (s : State) : State :=
  let n := s.sigByte
  let pa := s.arg.val
  match (contribOps.take 9)[n 1]?, contribTys[n 2]? with
  | some op, some ty =>
    let x : Atom := { op := op, ty := ty, val := BitVec.ofNat 64 s.arg.val2 }
    if !inWindow s pa then s
    else if n 3 = 1 then
      let (i, s) := s.fresh
      mergeAcc s { mkAccess false .s 0 [] (.atom x) with id := i } x pa (furrowOf s pa)
    else match stagePlace s (furrowOf s pa) pa with
      | none => s
      | some spilled =>
        let st : Staged := { addr := pa, plane := furrowOf s pa, pkg := n 0, gang := s.arg.gang, gix := s.arg.gix,
                             seq := s.arg.id, atom := x, spilled := spilled }
        { s with fleet := { s.fleet with staged := s.fleet.staged ++ [st] } }
  | _, _ => s

/-- SWITCH_CONTRIBUTION (08 R221, 19 R409): contribution arg.id reaches the switch of its furrow; with arg.sig it is
another package's. -/
def execSwitchContribution (s : State) : Host.Outcome State Fault Refusal :=
  if s.arg.sig ≠ [] then .next (foreignContribution s)
  else match s.flight? s.arg.id with
  | none => .next s
  | some a =>
    match a.kind, a.cells.head? with
    | .atom x, some pa =>
      if a.place ≠ .switch ∨ !mayPerform s a ∨ s.fleet.accs.any (fun k => k.acks.contains a.id) then .next s
      else
        let plane := furrowOf s pa
        if a.detl = 0 then .next (mergeAcc s a x pa plane)
        else match stagePlace s plane pa with
          | none => .next (rejectPress s a)
          | some spilled =>
            let st : Staged := { addr := pa, plane := plane, pkg := s.pkg, gang := a.who.gang, gix := a.who.gix,
                                 seq := a.seq, atom := x, spilled := spilled }
            .next { putFlight s { a with todo := [] } with fleet := { s.fleet with staged := s.fleet.staged ++ [st] } }
    | _, _ => .next s

/-- Whether a plane switch sends: its furrow has not been declared dead, and it has not emptied its queues for a quiesce
(19 R399, R400). -/
def planeSends (s : State) (plane : Nat) : Bool := portsRun s && !s.fleet.dead.contains plane

/-- SWITCH_ACCUMULATOR_WRITE (19 R409): an accumulator of the element at address arg.val is written to the home, its
contributions in their order of arrival, and each is acknowledged. The flags of another package's contribution reach that
package's gang (08 R216). -/
def execSwitchAccumulatorWrite (s : State) : Host.Outcome State Fault Refusal :=
  match s.fleet.accs.find? fun k => k.addr == s.arg.val && planeSends s k.plane with
  | none => .next s
  | some k =>
    let s : State := { s with fleet := { s.fleet with accs := s.fleet.accs.erase k } }
    .next ((k.atoms.zip k.acks).foldl (fun s p =>
      match s.flight? p.2 with
      | some a => putFlight (applyAtom s a.who a.stamp k.addr p.1).2 { a with todo := [] }
      | none => (atomAt s [] k.addr p.1).2.2) s)

/-! ### Fences and waits -/

/-- Whether every access of a context before its latest fence has been performed and acknowledged (10 R267). -/
def fenceClear (s : State) (c : Ctx) : Bool :=
  (s.flights.all fun f => f.who != c.id || decide (c.fenceNo ≤ f.fenceNo) || (f.spad && f.performed)) &&
  (s.tileOps.all fun t => t.who != c.id || !t.op.moves || decide (c.fenceNo ≤ t.fenceNo))

/-- Changes the record of the blocked slots of a context's present bundle. -/
def Ctx.updProg (c : Ctx) (f : Progress → Progress) : Ctx :=
  { c with prog := updateAll (fun p => p.pc == c.pc) f c.prog }

/-- FENCE_SYS_ACKNOWLEDGE (08 R224): every live furrow has acknowledged the marker of the context's FENCE.sys; during a
quiesce none does (19 R406). -/
def execFenceSysAcknowledge (s : State) : Host.Outcome State Fault Refusal :=
  match s.ctx? s.argCtx with
  | none => .next s
  | some c =>
    match c.status with
    | .blocked l =>
      if l.contains .fenceSys ∧ fenceClear s c ∧ s.fleet.step = .idle then
        .next (s.updCtx c.id fun c => c.updProg fun p => if p.expiry.isNone then { p with met := true } else p)
      else .next s
    | _ => .next s

/-- Whether a context may go on from what it waits for (04 R118, 08 R224 to R230, 09 R248, R251). -/
def blockDone (s : State) (c : Ctx) : Block → Bool
  | .counts l t p k => decide (c.ocl ≤ l ∧ c.ocs ≤ t ∧ c.occ ≤ p ∧ c.oct ≤ k)
  | .token q => (c.q.get (Fin.ofNat 32 q)).done
  | .barrier b timed =>
    match s.gang? c.id.gang with
    | none => false
    | some g =>
      let k := g.barriers.get (Fin.ofNat 16 b)
      let past := (c.bar.get (Fin.ofNat 16 b)).arrph != some k.phase
      past && (g.windows.isEmpty || (timed && c.prog.any fun p => p.pc == c.pc && p.expired && !p.met))
  | .flag pa mask any timed => flagCond (granuleBytes s (granule pa)) mask any ||
      (timed && c.prog.any fun p => p.pc == c.pc && p.met && p.flag.isSome)
  | .engineQueue e place => !queueFull s e place
  | .fenceSys => c.prog.any fun p => p.pc == c.pc && p.met
  | .pressFence round => (s.gang? c.id.gang).all fun g => decide (round ≤ g.fenceRounds) && g.windows.isEmpty
  | .commit round => (s.gang? c.id.gang).all fun g => decide (round ≤ g.commitRounds)
  | .invr i => !(s.invals.any fun v => v.id == i)

/-- Whether what a context waits for is a timed wait whose expiry cycle has passed (08 R228). -/
def blockExpired (s : State) (c : Ctx) : Block → Bool
  | .barrier _ true | .flag _ _ _ true => c.prog.any fun p => p.pc == c.pc && (p.expiry.any fun e => decide (e < s.time)) && !p.met
  | _ => false

/-- Whether a blocked context may become ready. -/
def mayWake (s : State) (c : Ctx) : Bool :=
  match c.status with
  | .blocked l => l.all fun b => blockDone s c b || blockExpired s c b
  | _ => false

/-- BUNDLE_REISSUE (01 R18): what the context waits for has come, and it is ready to reissue its bundle. -/
def execBundleReissue (s : State) : Host.Outcome State Fault Refusal :=
  match s.ctx? s.argCtx with
  | none => .next s
  | some c => if mayWake s c then .next (s.updCtx c.id Ctx.wake) else .next s

/-- TIMED_WAIT_EXPIRY (08 R228): the expiry cycle of the context's timed wait has passed. -/
def execTimedWaitExpiry (s : State) : Host.Outcome State Fault Refusal :=
  match s.ctx? s.argCtx with
  | none => .next s
  | some c =>
    match c.status with
    | .blocked l =>
      if l.any (blockExpired s c) ∧ mayWake s c then
        .next (s.updCtx c.id fun c => (c.updProg fun p =>
          if p.expiry.any fun e => decide (e < s.time) then { p with expired := true } else p).wake)
      else .next s
    | _ => .next s

/-! ### Table walks and INVR (17 R364 to R366) -/

/-- TABLE_WALK_COMPLETE (17 R364): walk arg.id ends; it fills the TLBs unless an INVR's point has passed meanwhile. -/
def execTableWalkComplete (s : State) : Host.Outcome State Fault Refusal :=
  match s.walks.find? fun w => w.id == s.arg.id with
  | none => .next s
  | some w =>
    let t : State := { s with walks := s.walks.filter fun x => x.id != w.id }
    if w.stale then .next t
    else
      let x : Xl := { priv := true, asid := w.asid, root := w.root, tlbs := [(0, w.core), (1, w.cl)], cache := w.cl }
      .next (walkNow t x w.va).2

/-- Whether an INVR drops a TLB entry (17 R365). -/
def dropsEntry (v : Invalidation) (e : TlbEntry) : Bool :=
  decide (0 < v.len) && decide (e.page * e.size < v.lo + v.len) && decide (v.lo < (e.page + 1) * e.size) &&
    (v.asid.isNone || e.asid.isNone || e.asid == v.asid)

/-- The bytes of the address space that an entry of a level selects (17 R359). -/
def WalkCopy.range (k : WalkCopy) : Nat × Nat := (k.key * levelBase k.level, levelBase k.level)

/-- Whether an INVR drops an entry of a walk cache (17 R365). -/
def dropsWalkCopy (v : Invalidation) (k : WalkCopy) : Bool :=
  decide (0 < v.len) && decide (k.range.1 < v.lo + v.len) && decide (v.lo < k.range.1 + k.range.2) &&
    (v.asid.isNone || v.asid == some k.asid)

/-- Whether an INVR covers the translation of a page (17 R365). -/
def coversPage (v : Invalidation) (p : Page) : Bool :=
  decide (0 < v.len) && decide (p.lo < v.lo + v.len) && decide (v.lo < p.lo + p.size) &&
    (v.asid.isNone || p.asid.isNone || p.asid == v.asid)

/-- Whether an L1 belongs to a physical core: the core itself, or the fused L1 of its cluster. -/
def l1OnCore (s : State) (x : L1Copy) (core : Nat) : Bool :=
  let lc := if x.fused then x.place else x.place / 12
  ((s.granary.remap[lc]?).any fun e => e.toNat % 32 == core / 12) && (x.fused || x.place % 12 == core % 12)

/-- Whether dropping TLB entries of cores drops an L1 copy of a frame that they mapped (17 R365). -/
def dropsL1 (s : State) (l : List TlbEntry) (x : L1Copy) : Bool :=
  l.any fun e => e.kind == 0 && l1OnCore s x e.place &&
    (let base := paNorm s (leafPa e.asLeaf 0 / e.size * e.size)
     decide (base ≤ x.granule * 64) && decide (x.granule * 64 < base + e.size))

/-- Revokes a press entry (17 R366): it is not applied, its count is released, a RED's where its acknowledgement has not yet
released it, and the issuer's ACCESS_FAULT becomes due. -/
def revokeEntry (s : State) (e : PressEntry) : State :=
  let s := if e.amo then s.updCtx e.who fun c => { c with ocl := c.ocl - 1 }
    else match s.flights.find? fun f => f.who == e.who && f.seq == e.seq with
      | some f => (dropFlight s f.id).updCtx e.who fun c => { c with ocs := c.ocs - 1 }
      | none => s
  pressFault s e.who e.va

/-- The invalidation points of an INVR (17 R365, steps 2 and 3): the TLBs drop their entries, the cores the L1 copies;
what was translated before, through a page that the INVR covers, must drain, whether or not a TLB still holds its entry, and
press entries are revoked. A walk that is under way fills no TLB (R364). -/
def invalidate (s : State) (v : Invalidation) : State :=
  let gone := s.tlb.filter (dropsEntry v)
  let waits := ((s.flights.filter fun f => f.pages.any (coversPage v)).map fun f => f.id) ++
    ((s.tileOps.filter fun t => t.pages.any (coversPage v)).map fun t => t.id)
  let hit (e : PressEntry) : Bool := e.page.any (coversPage v)
  let t : State := { s with
    tlb := s.tlb.filter fun e => !dropsEntry v e
    walkCache := s.walkCache.filter fun k => !dropsWalkCopy v k
    l1 := s.l1.filter fun x => !dropsL1 s gone x
    walks := if 0 < v.len then s.walks.map fun w => { w with stale := true } else s.walks
    press := s.press.filter fun e => !hit e
    invals := updateFirst (fun x => x.id == v.id) (fun x => { x with points := true, waits := waits }) s.invals }
  (s.press.filter hit).foldl revokeEntry t

/-- Whether an access, or the rows of a tile instruction, have drained (17 R366): a read when it has read, a write when it
is acknowledged. -/
def drained (s : State) (i : Nat) : Bool :=
  match s.flight? i with
  | none => !(s.tileOps.any fun t => t.id == i)
  | some a => !a.kind.writes && a.performed

/-- INVR_ACKNOWLEDGE (17 R365): INVR arg.id reaches its invalidation points once the earlier accesses of its context are
performed, and is acknowledged once what used the old translations has drained. -/
def execInvrAcknowledge (s : State) : Host.Outcome State Fault Refusal :=
  match s.invals.find? fun v => v.id == s.arg.id with
  | none => .next s
  | some v =>
    if !v.points then
      (if ((s.ctx? v.who).all fun c => fenceClear s c) ∧ s.fleet.step = .idle then .next (invalidate s v) else .next s)
    else if v.waits.all (drained s) then
      .next { s with invals := s.invals.filter fun x => x.id != v.id }
    else .next s

/-! ### Contexts -/

/-- Whether an exited context's slot may become free (04 R121). -/
def slotFreeable (c : Ctx) : Bool := c.live && c.exited && c.ocl == 0 && c.ocs == 0 && c.occ == 0 && c.oct == 0

/-- CONTEXT_SLOT_FREE (04 R121): an exited context with nothing outstanding leaves its slot. -/
def execContextSlotFree (s : State) : Host.Outcome State Fault Refusal :=
  match s.ctx? s.argCtx with
  | none => .next s
  | some c =>
    if !slotFreeable c then .next s
    else if s.ctx.live ∧ s.ctx.id = c.id then .next { s with ctx := { s.ctx with live := false } }
    else .next { s with others := s.others.filter fun x => x.id != c.id }

/-- The record that a bundle boundary delivers (17 R370): the lowest cause code, the earliest among equals. -/
def dueDeferred : List Deferred → Option Deferred
  | [] => none
  | d :: l => match dueDeferred l with
    | some e => if e.code < d.code then some e else some d
    | none => some d

/-- Takes the due deferred trap of the context in focus (17 R370): TRAPPC names the bundle it precedes, SLOT is 0. -/
def deliverDeferred (s : State) : State :=
  match dueDeferred s.ctx.deferred with
  | none => s
  | some d =>
    let s := s.withCtx fun c => { c with deferred := c.deferred.erase d }
    takeTrap s s.ctx.pc 0 d.trapc d.trapx 0 (0x40 + d.code)

/-- Whether a deferred trap waits at the next bundle boundary of a context. -/
def deferredDue (c : Ctx) : Bool := c.mode == .user && !c.deferred.isEmpty && c.status == .ready && !c.inSpan

/-- DEFERRED_TRAP_DELIVERY (17 R370) to the context in focus, when it is the one that the event names. -/
def execDeferredTrapDelivery (s : State) : Host.Outcome State Fault Refusal :=
  if s.ctx.live ∧ s.ctx.id = s.argCtx ∧ deferredDue s.ctx then .next (deliverDeferred s) else .next s

end Sys2Proof.Machine
end

