-- ==== Sys2Proof/Machine/System.lean ====
section
/-! DEFINITION. The phase and system groups (09 R249 to R254), HRULES apart. -/
namespace Sys2Proof.Machine

/-! ### Phases (09 R249 to R252) -/

/-- The physical registers that a phase checkpoint holds (09 R250). -/
def checkpointOf (c : Ctx) : Checkpoint :=
  { s := c.s, p := c.p, pass := c.pass, sc := c.sc, rbs := c.rbs, rbv := c.rbv, fpm := c.fpm, fxf := c.fxf,
    vshape := c.vshape }

/-- Whether the n bytes at a scratchpad offset lie in banks that the gang holds. -/
def inBanks (held : BitVec 48) (off n : Nat) : Bool :=
  decide (off + n ≤ 0xC00000) &&
    (List.range 48).all fun b => held.getLsbD b || decide ((b + 1) * 262144 ≤ off) || decide (off + n ≤ b * 262144)

/-- A phase record (09 R250), or none where it breaks a rule. -/
def parsePhase (d : List Byte) (held : BitVec 48) (addr : Nat) (restart : Word) (k : Checkpoint) : Option Phase :=
  let len := leAt d 8 4
  let a := leAt d 0x10 4
  let b := leAt d 0x14 4
  if 1 ≤ len ∧ len ≤ 4 * 2 ^ 20 ∧ zeroAt d 0xC 4 ∧ zeroAt d 0x18 8 ∧ inBanks held a len ∧ inBanks held b len then
    some { record := addr, src := leAt d 0 8, len := len, bufa := a, bufb := b, restart := restart, chk := k }
  else none

/-- PHASE.BEGIN (09 R250). It stands in slot 3, so the checkpoint is the context as the bundle leaves it. -/
def execPhaseBegin (a : SReg) (s : State) : Host.Outcome State Fault Refusal :=
  runSlot (.phaseBegin a) s fun s =>
    let addr := (rdS s a).toNat
    match readRecord s false addr 16 32 with
    | .trap t => .trap t
    | .stall b => .waitBanks b
    | .ok d s =>
      match parsePhase d (gangBanks s s.src.id.gang s.src.lc) addr (s.src.pc + 16) (checkpointOf s.ctx) with
      | none => .trap (recordTrap s)
      | some f => .done (s.withCtx fun c => { c with phase := some f })

/-- PHASE.COMMIT (09 R251): it waits in place for the context's counters, then blocks until the commit point. -/
def execPhaseCommit (d : SReg) (s : State) : Host.Outcome State Fault Refusal :=
  runSlot (.phaseCommit d) s fun s =>
    let c := s.src
    if c.ocl ≠ 0 ∨ c.ocs ≠ 0 ∨ c.occ ≠ 0 ∨ c.oct ≠ 0 then .stall
    else
      let old := findProg s
      let s := if old.isNone then checkCommit (s.withCtx fun c => { c with commits := c.commits + 1 }) s.src.id.gang
        else s
      let p := old.getD { newProg s with made := true, round := s.ctx.commits }
      let s := putProg s p
      if (s.gang? s.src.id.gang).all fun g => decide (p.round ≤ g.commitRounds) then
        .done (wrS s d (BitVec.ofNat 64 s.ctx.commitVal))
      else .block s (.commit p.round)

/-- Whether the operands of a CHK are equal bit for bit (09 R252). -/
def chkEqual (s : State) (a b : SReg) (kk : Fin 4) : Bool :=
  match kk.val with
  | 0 => rdS s a == rdS s b
  | 1 => rdV s (lowV a) == rdV s (lowV b)
  | _ => rdP s (lowP a) == rdP s (lowP b)

/-- CHK (09 R252). The management core counts it and a mismatch (20 R413). -/
def execChk (a b : SReg) (kk : Fin 4) (s : State) : Host.Outcome State Fault Refusal :=
  runSlot (.chk a b kk) s fun s =>
    let s : State := { s with mgmt := { s.mgmt with chkExecuted := satAdd64 s.mgmt.chkExecuted } }
    if chkEqual s a b kk then .done s
    else .trapKeep { s with
        ctx := { s.ctx with pc := s.src.pc }
        mgmt := { s.mgmt with chkMismatch := satAdd64 s.mgmt.chkMismatch } } { cause := .checkMismatch }

/-! ### The system group (09 R253, R254) -/

/-- TRAP (09 R254). -/
def execTrap (code : Fin 32768) (s : State) : Host.Outcome State Fault Refusal :=
  runSlot (.trap code) s fun _ => .trapCode { cause := .software } code.val

/-- ERET (09 R254): no trap record changes; the mode is that of TRAPC.PM where the context is privileged. -/
def execEret (s : State) : Host.Outcome State Fault Refusal :=
  runSlot .eret s fun s => .done (eret (flushHarrow s))

/-- HFLUSH (09 R254). -/
def execHflush (s : State) : Host.Outcome State Fault Refusal :=
  runSlot .hflush s fun s => .done (flushHarrow s)

/-- INVR (09 R254, 17 R365): it acts as a FENCE.sys, and blocks until the invalidation is acknowledged. -/
def execInvr (d a b : SReg) (aa : Bool) (s : State) : Host.Outcome State Fault Refusal :=
  runSlot (.invr d a b aa) s fun s =>
    match findProg s with
    | some p => if s.invals.any fun v => v.id == p.round then .block s (.invr p.round) else .done s
    | none =>
      let s := flushHarrow (fenceOrder s 4)
      let (i, s) := s.fresh
      let s := putProg s { newProg s with made := true, round := i }
      let v : Invalidation :=
        { id := i, who := s.src.id, lo := (rdS s a).toNat, len := (rdS s b).toNat,
          asid := if aa then none else some ((rdS s d).toNat % 2 ^ 16) }
      .block { s with invals := s.invals ++ [v] } (.invr i)

/-! ### Queues of the granary, as the system group reaches them (16 R348, R357) -/

/-- A queue by number; one that the device has not met is as at reset. -/
def State.queue (s : State) (q : Nat) : Queue := (s.granary.queues.find? fun x => x.id == q).getD { id := q }

/-- Changes a queue, which the device keeps in ascending number. -/
def putQueue (x : Queue) : List Queue → List Queue
  | [] => [x]
  | y :: l => if x.id < y.id then x :: y :: l else if x.id = y.id then x :: l else y :: putQueue x l

/-- Changes a queue by number. -/
def State.updQueue (s : State) (q : Nat) (f : Queue → Queue) : State :=
  { s with granary := { s.granary with queues := putQueue (f (s.queue q)) s.granary.queues } }

/-- The node of a gang, as the granary keeps it. -/
def State.node? (s : State) (i : Nat) : Option Node := s.granary.nodes.find? fun n => n.id == i

/-- A completion entry (16 R357). -/
def entryBytes (kind status node : Nat) (tag : BitVec 64) (value time : Nat) : List Byte :=
  toBytes 1 kind ++ toBytes 1 status ++ toBytes 2 node ++ toBytes 4 0 ++ toBytes 8 tag.toNat ++ toBytes 8 value ++
    toBytes 8 time

/-- Puts a completion entry in order behind those of its queue that are not yet written (16 R357). -/
def postEntry (s : State) (q : Nat) (e : List Byte) : State := s.updQueue q fun x => { x with events := x.events ++ [e] }

/-- DETSET (09 R254, 16 R348): the change stands behind every packet that the device has accepted. It names its own
frame, since its constructor lies beyond those that compiled code can build. -/
def execDetset (a b : SReg) (s : State) : Host.Outcome State Fault Refusal :=
  runSig { reads := [.s a, .s b], priv := true } s fun s =>
    let q := (rdS s a).toNat
    let l := (rdS s b).toNat
    if 2 ^ 16 ≤ q ∨ 4 ≤ l then .trap (recordTrap s)
    else .done (flushHarrow (s.updQueue q fun x => { x with insns := x.insns ++ [(x.tail, l)] }))

/-- NODE.DONE (09 R254). -/
def execNodeDone (a : SReg) (s : State) : Host.Outcome State Fault Refusal :=
  runSig { reads := [.s a] } s fun s =>
    .done (flushHarrow (s.updGang s.src.id.gang fun g =>
      { g with doneVal := g.doneVal ||| BitVec.ofNat 32 (rdS s a).toNat }))

/-- Whether an earlier access of the context in focus holds back a release at scope sys (10 R268). -/
def releaseHeld (s : State) : Bool :=
  let probe : Access := { mkAccess false .s 0 [] (.store []) with
    who := s.src.id, bundle := s.src.bundles, fenceNo := s.ctx.fenceNo, id := s.nextId, rel := some 4 }
  (s.flights.any fun a => a.who == s.src.id && holdsBack s a probe) ||
    s.tileOps.any fun t => t.who == s.src.id && rowsHoldBack t probe

/-- GRAPH.SIGNAL (09 R254, 16 R357): a release at scope sys, then a KIND-2 entry, of which the spec states no STATUS; a
full device queue stalls it. -/
def execGraphSignal (a : SReg) (s : State) : Host.Outcome State Fault Refusal :=
  runSig { reads := [.s a] } s fun s =>
    match (s.gang? s.src.id.gang).bind fun g => s.node? g.node with
    | none => .done (flushHarrow s)
    | some n =>
      if releaseHeld s ∨ 256 ≤ (s.queue n.queue).events.length then .stall
      else
        let (st, s) := s.free 8
        .done (flushHarrow (postEntry s n.queue (entryBytes 2 st.toNat n.index n.tag (rdS s a).toNat s.time)))

end Sys2Proof.Machine
end

