-- ==== Sys2Proof/Machine/Xmss.lean ====
section
/-! DEFINITION. SHAKE256 and the check of an XMSS-SHAKE256_10_256 signature (14 R324, 20 R418, R419). The spec names the
scheme by its standards, NIST SP 800-208 and RFC 8391; what they say is taken from there (PRESUMED, log 11). -/
namespace Sys2Proof.Machine

/-! ### SHAKE256 -/

/-- A word of the sponge's state. -/
abbrev Lane := BitVec 64

/-- The rotation of each lane, lane x + 5 y in place x + 5 y. -/
def laneRot : List Nat :=
  [0, 1, 62, 28, 27, 36, 44, 6, 55, 20, 3, 10, 43, 25, 39, 41, 45, 15, 21, 8, 18, 2, 61, 56, 14]

/-- The constant of each round. -/
def roundConst : List Lane :=
  [0x0000000000000001, 0x0000000000008082, 0x800000000000808A, 0x8000000080008000,
   0x000000000000808B, 0x0000000080000001, 0x8000000080008081, 0x8000000000008009,
   0x000000000000008A, 0x0000000000000088, 0x0000000080008009, 0x000000008000000A] ++
  [0x000000008000808B, 0x800000000000008B, 0x8000000000008089, 0x8000000000008003,
   0x8000000000008002, 0x8000000000000080, 0x000000000000800A, 0x800000008000000A,
   0x8000000080008081, 0x8000000000008080, 0x0000000080000001, 0x8000000080008008]

/-- Lane (x, y) of a state of 25 lanes, its places counted modulo 5. -/
def laneAt (a : List Lane) (x y : Nat) : Lane := a.getD (x % 5 + 5 * (y % 5)) 0

/-- A state from its lanes. -/
def lanes (f : Nat → Nat → Lane) : List Lane := (List.range 25).map fun i => f (i % 5) (i / 5)

/-- One round of Keccak-f[1600]. -/
def keccakRound (a : List Lane) (rc : Lane) : List Lane :=
  let c := (List.range 5).map fun x => (List.range 5).foldl (fun v y => v ^^^ laneAt a x y) 0
  let d := (List.range 5).map fun x => c.getD ((x + 4) % 5) 0 ^^^ (c.getD ((x + 1) % 5) 0).rotateLeft 1
  let a := lanes fun x y => laneAt a x y ^^^ d.getD x 0
  let b := lanes fun x y =>
    let u := (x + 3 * y) % 5
    (laneAt a u x).rotateLeft (laneRot.getD (u + 5 * x) 0)
  (lanes fun x y => laneAt b x y ^^^ (~~~ laneAt b (x + 1) y &&& laneAt b (x + 2) y)).mapIdx fun i v =>
    if i = 0 then v ^^^ rc else v

/-- Keccak-f[1600]. -/
def keccak (a : List Lane) : List Lane := roundConst.foldl keccakRound a

/-- The bytes that SHAKE256 takes in at a time. -/
def shakeRate : Nat := 136

/-- Takes blocks of a padded message into a state, n of them. -/
def absorb : Nat → List Byte → List Lane → List Lane
  | 0, _, a => a
  | n + 1, m, a =>
    absorb n (m.drop shakeRate) (keccak (a.mapIdx fun i v => if i < 17 then v ^^^ BitVec.ofNat 64 (leAt m (8 * i) 8) else v))

/-- A message padded to whole blocks. -/
def shakePad (m : List Byte) : List Byte :=
  let k := shakeRate - m.length % shakeRate
  m ++ (if k = 1 then [0x9F] else 0x1F :: (List.replicate (k - 2) 0 ++ [0x80]))

/-- SHAKE256 with an output of 32 bytes. -/
def shake256 (m : List Byte) : List Byte :=
  let p := shakePad m
  (((absorb (p.length / shakeRate) p (List.replicate 25 0)).take 4).flatMap fun v => toBytes 8 v.toNat)

/-! ### XMSS (RFC 8391, section 4, with n = 32, w = 16, h = 10) -/

/-- A number in n bytes, the most significant first. -/
def beBytes (n v : Nat) : List Byte := (toBytes n v).reverse

/-- The number in bytes, the most significant first. -/
def ofBe (l : List Byte) : Nat := ofBytes l.reverse

/-- The four functions of a parameter set, by the number that each puts first. -/
def xmssHash (pad : Nat) (key m : List Byte) : List Byte := shake256 (beBytes 32 pad ++ key ++ m)

/-- The exclusive OR of two strings. -/
def xorBytes (a b : List Byte) : List Byte := List.zipWith (· ^^^ ·) a b

/-- An address: its type, its three words, and keyAndMask. -/
def adrs (type a b c mask : Nat) : List Byte :=
  beBytes 4 0 ++ beBytes 8 0 ++ beBytes 4 type ++ beBytes 4 a ++ beBytes 4 b ++ beBytes 4 c ++ beBytes 4 mask

/-- The pseudorandom function. -/
def prf (seed a : List Byte) : List Byte := xmssHash 3 seed a

/-- n steps of a chain of a one-time signature, from step i on. -/
def chainSteps (seed : List Byte) (ots chain : Nat) : Nat → Nat → List Byte → List Byte
  | 0, _, x => x
  | n + 1, i, x =>
    let key := prf seed (adrs 0 ots chain i 0)
    let mask := prf seed (adrs 0 ots chain i 1)
    chainSteps seed ots chain n (i + 1) (xmssHash 0 key (xorBytes x mask))

/-- The hash of two nodes of a tree. -/
def nodeHash (seed : List Byte) (type a b c : Nat) (l r : List Byte) : List Byte :=
  let key := prf seed (adrs type a b c 0)
  xmssHash 1 key (xorBytes l (prf seed (adrs type a b c 1)) ++ xorBytes r (prf seed (adrs type a b c 2)))

/-- One level of an L-tree: neighbours are hashed, and a last one without a neighbour rises as it is. -/
def ltreeLevel (seed : List Byte) (tree height : Nat) : Nat → List (List Byte) → List (List Byte)
  | i, l :: r :: rest => nodeHash seed 1 tree height i l r :: ltreeLevel seed tree height (i + 1) rest
  | _, l => l

/-- The root of an L-tree of at most 2^n leaves. -/
def ltree (seed : List Byte) (tree : Nat) : Nat → Nat → List (List Byte) → List Byte
  | 0, _, l => l.headD []
  | n + 1, h, l => if l.length ≤ 1 then l.headD [] else ltree seed tree n (h + 1) (ltreeLevel seed tree h 0 l)

/-- The nibbles of a string, the high one of each byte first. -/
def nibbles (m : List Byte) : List Nat := m.flatMap fun b => [b.toNat / 16, b.toNat % 16]

/-- The 67 digits of a digest: its own, and those of their checksum. -/
def wotsDigits (m : List Byte) : List Nat :=
  let d := nibbles m
  let c := (d.map fun x => 15 - x).sum
  d ++ (nibbles (beBytes 2 (c * 16))).take 3

/-- The public key of a one-time signature, as the leaf that its L-tree gives. -/
def wotsLeaf (seed : List Byte) (ots : Nat) (sig m : List Byte) : List Byte :=
  ltree seed ots 7 0 ((wotsDigits m).mapIdx fun i d => chainSteps seed ots i (15 - d) d (sliceBytes sig (32 * i) 32))

/-- The root above a leaf, with the n nodes of its authentication path from height k on. -/
def treeRoot (seed auth : List Byte) (idx : Nat) : Nat → Nat → List Byte → List Byte
  | 0, _, x => x
  | n + 1, k, x =>
    let a := sliceBytes auth (32 * k) 32
    let i := idx / 2 ^ (k + 1)
    treeRoot seed auth idx n (k + 1)
      (if idx / 2 ^ k % 2 = 0 then nodeHash seed 2 0 k i x a else nodeHash seed 2 0 k i a x)

/-- Whether sig is a valid signature of msg under a public key: the parameter set's number, the root and the seed. -/
def xmssVerify (key msg sig : List Byte) : Bool :=
  let root := sliceBytes key 4 32
  let seed := sliceBytes key 36 32
  let idx := ofBe (sig.take 4)
  let m := xmssHash 2 (sliceBytes sig 4 32 ++ root ++ beBytes 32 idx) msg
  key.length == 68 && sig.length == 2500 && decide (idx < 2 ^ 10) &&
    treeRoot seed (sig.drop 2180) idx 10 0 (wotsLeaf seed idx (sig.drop 36) m) == root

/-- The signatures that a key of this parameter set has left once sig has been made. -/
def xmssLeft (sig : List Byte) : Nat := 2 ^ 10 - 1 - ofBe (sig.take 4)

end Sys2Proof.Machine
end

