-- ==== Sys2Proof/Machine/Harrow.lean ====
section
/-! DEFINITION. The harrow (14 R306 to R324): rule-set images and HRULES, the window, matching, and the decision for a
head. How a decision is carried out stands with the bundle. -/
namespace Sys2Proof.Machine

/-! ### Rule-set images (14 R314 to R317, R322, R323) -/

/-- A binding or substitution field: none where it breaks a rule, some none where it is unused (R316, R323). -/
def parseBinding (b0 b1 : Nat) : Option (Option Binding) :=
  let x : Binding := { lsb := b0 % 32, width := b0 / 32 + 1, scl := testBit b1 6, var := b1 % 8 }
  if bits b1 3 3 ≠ 0 then none
  else if !testBit b1 7 then some none
  else if 5 < x.width ∨ 32 < x.lsb + x.width ∨ (x.scl ∧ (x.width ≠ 5 ∨ ¬(x.lsb = 21 ∨ x.lsb = 16 ∨ x.lsb = 11))) then none
  else some (some x)

/-- The four bindings from an offset; those that are used. -/
def parseBindings (d : List Byte) (off : Nat) : Option (List Binding) :=
  let l := (List.range 4).map fun i => parseBinding (leAt d (off + 2 * i) 1) (leAt d (off + 2 * i + 1) 1)
  if l.any Option.isNone then none else some (l.filterMap fun x => x.bind id)

/-- The pattern element at index i (R316). -/
def parseElement (d : List Byte) (i : Nat) : Option Element :=
  let off := 0x20 + 16 * i
  let v := leAt d off 4
  let m := leAt d (off + 4) 4
  if m / 2 ^ 26 = 63 ∧ 0x24 ≤ v / 2 ^ 26 ∧ v / 2 ^ 26 ≤ 0x28 ∧ v &&& m = v then
    (parseBindings d (off + 8)).map fun b => { value := v, mask := m, binds := b }
  else none

/-- The guard at index i (R315): none where it breaks a rule, some none for KIND 0x00. -/
def parseGuard (d : List Byte) (i : Nat) : Option (Option Guard) :=
  let off := 0x10 + 4 * i
  let g : Guard := { kind := leAt d off 1, a := leAt d (off + 1) 1, b := leAt d (off + 2) 1, param := leAt d (off + 3) 1 }
  let two := g.kind = 1 ∨ g.kind = 2 ∨ g.kind = 4 ∨ g.kind = 6
  if g.kind = 0 then (if g.a = 0 ∧ g.b = 0 ∧ g.param = 0 then some none else none)
  else if 6 < g.kind ∨ 7 < g.a ∨ (if two then 7 < g.b else g.b ≠ 0) ∨ (if g.kind = 3 then 2 < g.param else g.param ≠ 0) then
    none
  else some (some g)

/-- The replacement at index i (R317). -/
def parseReplacement (d : List Byte) (i : Nat) : Option Replacement :=
  let off := 0x60 + 16 * i
  let w := leAt d off 4
  let src := leAt d (off + 0xC) 1
  let fold := leAt d (off + 0xD) 1
  let maj := w / 2 ^ 26
  if leAt d (off + 0xE) 2 ≠ 0 then none
  else if src ≠ 0 then
    if w = 0 ∧ leAt d (off + 4) 8 = 0 ∧ fold = 0 then some { word := 0, subs := [], src := src, fold := none } else none
  else if maj < 0x24 ∨ 0x28 < maj ∨ maj = 0x25 ∨ bits fold 3 4 ≠ 0 ∨ (testBit fold 7 ∧ maj ≠ 0x26) then none
  else (parseBindings d (off + 4)).map fun b =>
    { word := w, subs := b, src := 0, fold := if testBit fold 7 then some (fold % 8) else none }

/-- Every item of a list, or none where one is missing. -/
def allSome {α : Type} : List (Option α) → Option (List α)
  | [] => some []
  | some x :: l => (allSome l).map fun r => x :: r
  | none :: _ => none

/-- The operands of a guard that name variables. -/
def Guard.vars (g : Guard) : List Nat := if g.kind = 3 ∨ g.kind = 5 then [g.a] else [g.a, g.b]

/-- Whether an entry keeps to the rules that join its parts (R323). -/
def entryJoins (e : RuleEntry) : Bool :=
  let binds := e.elems.flatMap Element.binds
  let bound (v : Nat) : Bool := binds.any fun b => b.var == v
  let copied (i : Nat) : Bool := e.repls.any fun r => r.src == i + 1
  (e.guards.all fun g => g.vars.all bound) &&
  (e.repls.all fun r => decide (r.src ≤ e.elems.length) && (r.subs.all fun b => bound b.var) &&
    (r.fold.all fun v => binds.any fun b => b.var == v && b.scl)) &&
  ((e.elems.mapIdx fun i x =>
    let maj := x.value / 2 ^ 26
    (maj != 0x25 || (i == 0 && (e.repls.head?.map fun r => r.src) == some 1)) &&
    (maj != 0x26 || (x.mask % 8 == 7 && x.value % 8 == 0) || copied i) &&
    (maj != 0x27 || (x.mask % 2 == 1 && x.value % 2 == 0) || copied i)).all id)

/-- One entry of an image (R314, R323): none where it breaks a rule, some none where it is empty. -/
def parseEntry (d : List Byte) : Option (Option RuleEntry) :=
  let npat := leAt d 0 1
  let nrep := leAt d 1 1
  let minNbv := leAt d 3 1
  let span := leAt d 4 1
  if leAt d 0 128 = 0 then some none
  else if npat < 1 ∨ 4 < npat ∨ 2 < nrep ∨ 2 < leAt d 2 1 ∨ minNbv < 1 ∨ span < 1 ∨ 16 < span ∨ leAt d 5 11 ≠ 0 ∨
      leAt d (0x20 + 16 * npat) (64 - 16 * npat) ≠ 0 ∨ leAt d (0x60 + 16 * nrep) (32 - 16 * nrep) ≠ 0 then none
  else
    match allSome ((List.range npat).map (parseElement d)), allSome ((List.range nrep).map (parseReplacement d)),
        allSome ((List.range 4).map (parseGuard d)) with
    | some es, some rs, some gs =>
      let e : RuleEntry := { cls := leAt d 2 1, minNbv := minNbv, span := span, guards := gs.filterMap id, elems := es,
                             repls := rs }
      if entryJoins e then some (some e) else none
    | _, _, _ => none

/-- Whether the header of an image keeps to R322. -/
def imageHeaderOk (s : State) (d : List Byte) : Bool :=
  let n := leAt d 6 2
  leAt d 0 4 == 0x31535248 && leAt d 4 2 == 1 && decide (n ≤ 128) && decide (leAt d 8 1 ≤ bits (caps s).toNat 32 8) &&
    leAt d 9 7 == 0 && leAt d 0x20 4 == 128 * n && leAt d 0x24 4 == 0x40 + 128 * n && leAt d 0x28 4 == 2500 &&
    leAt d 0x2C 20 == 0

/-- Flushes the window of every context of a physical cluster, as an HRULES that issues there does (R307). -/
def flushCluster (s : State) (cl : Nat) : State :=
  let flush (c : Ctx) : Ctx := if c.pc8 = cl then c.flushHarrow else c
  { s with ctx := flush s.ctx, others := s.others.map flush }

/-- Installs a rule table in a physical cluster (R324). -/
def installRules (s : State) (cl : Nat) (setid : List Byte) (l : List (Option RuleEntry)) : State :=
  let t : RuleTable := { cluster := cl, setid := setid, entries := l ++ List.replicate (128 - l.length) none }
  { s with rules := t :: s.rules.filter fun x => x.cluster != cl }

/-- HRULES (09 R254, 14 R322 to R324): status 0, 1 for a bad signature, 2 for a bad format; whatever its status, it flushes
the windows of its cluster (R307). -/
def execHrules (d a : SReg) (s : State) : Host.Outcome State Fault Refusal :=
  runSlot (.hrules d a) s fun s =>
    let addr := (rdS s a).toNat
    let bad (s : State) (v : Word) : SlotEnd := .done (wrS (flushCluster s s.src.pc8) d v)
    if addr % 16 ≠ 0 then bad s 2
    else match readRecord s false addr 1 64 with
      | .trap t => .trap t
      | .stall b => .waitBanks b
      | .ok h s1 =>
        if !imageHeaderOk s h then bad s1 2
        else
          let n := leAt h 6 2
          match readRecord s false addr 1 (0x40 + 128 * n + 2500) with
          | .trap t => .trap t
          | .stall b => .waitBanks b
          | .ok img s =>
            match allSome ((List.range n).map fun i => parseEntry (sliceBytes img (0x40 + 128 * i) 128)) with
            | none => bad s 2
            | some l =>
              if xmssVerify s.mgmt.ruleKey (img.take (0x40 + 128 * n)) (img.drop (0x40 + 128 * n)) then
                .done (wrS (flushCluster (installRules s s.src.pc8 (sliceBytes img 0x10 16) l) s.src.pc8) d 0)
              else bad s 1

/-! ### The window (14 R306, R307) -/

/-- Whether a word of major 0x3C is an instruction (03 R93); HFLUSH stands for whichever it is, since each is C class
and closes the window. -/
def look3C (w : Nat) (x : Ext) : Except DecodeError Instr :=
  match fld w 6 5 with
  | 0 => form w x false false false false [(0, 11, 0)] .hflush
  | 1 => form w x false false false false [(0, 26, 64)] .hflush
  | 2 => form w x false false false false [(0, 26, 128)] .hflush
  | 3 => form w x true true false false [(0, 16, 192)] .hflush
  | 4 => form w x (!bit w 0) true true false [(1, 10, 128)] .hflush
  | 5 => form w x false true true false [(0, 11, 320), (21, 5, 0)] .hflush
  | 6 => form w x false true false false [(0, 16, 384), (21, 5, 0)] .hflush
  | 7 => form w x false true false false [(0, 16, 448), (21, 5, 0)] .hflush
  | _ => unassigned x

/-- A decoder for the bundles ahead, which need not tell the instructions of major 0x3C apart. -/
def lookDecode (w : Nat) (x : Ext) : Except DecodeError Instr := decodeBy (look3C w x) w x

/-- Whether an instruction is a flush point by what it is (14 R307). -/
def flushInstr : Instr → Bool
  | .wait _ _ _ _ | .tokwait _ _ | .fence _ _ | .barArrive _ | .barWait _ _ | .barDrop _ | .barTwait _ _ _ _ => true
  | .csrw _ _ c | .csrs _ _ c | .csrc _ _ c => flushingCsr c.val
  | i => slotClass i == .c

/-- Whether an M-core has the unit of a word, by the word alone (14 R307). -/
def flushUnit (w : Nat) : Bool :=
  let maj := w / 2 ^ 26
  let minor := w / 64 % 32
  !(maj == 0x14 || (maj == 0x1B && decide (minor < 8)) || (maj == 0x1A && wideCode minor (w / 2 ^ 11 % 32)))

/-- Whether a slot makes its bundle a flush point (14 R307). -/
def flushSlot (c : Ctx) (x : Slot) : Bool :=
  match x.ins with
  | none => true
  | some i => flushInstr i || !i.limits || (slotPrivileged i && c.mode == .user) || !flushUnit x.word

/-- The bundles from an address to the window's end, at most n of them: no match reaches further (14 R311). The first
is present only when it holds no flush point. -/
def aheadFrom (s : State) (c : Ctx) : Nat → Word → List (Word × List Slot)
  | 0, _ => []
  | n + 1, pc =>
    match (fetchBundle s c pc).1 with
    | .error _ => []
    | .ok ws => match parseBundle lookDecode ws with
      | none => []
      | some l => if l.any (flushSlot c) then [] else (pc, l) :: aheadFrom s c n (pc + 16)

/-- The T-class slots of bundles ahead, up to eight (14 R306). -/
def windowOf8 (l : List (Word × List Slot)) : List (Word × Slot) :=
  (l.flatMap fun b => (b.2.filter fun x => x.cls == .t).map fun x => (b.1, x)).take 8

/-! ### Matching (14 R308 to R317) -/

/-- The bit-5 extension of the scalar field at a bit. -/
def extBitAt (x : Ext) (lsb : Nat) : Bool :=
  match x with
  | .regs d a b => if lsb = 21 then d else if lsb = 16 then a else lsb = 11 && b
  | _ => false

/-- The value that a binding takes from a slot (R316). -/
def Binding.value (b : Binding) (x : Slot) : Nat :=
  bits x.word b.lsb b.width + (if b.scl ∧ extBitAt x.ext b.lsb then 32 else 0)

/-- Binds the variables of an element's bindings; none where one meets another value. -/
def bindAll (x : Slot) : List Binding → List (Nat × Nat) → Option (List (Nat × Nat))
  | [], v => some v
  | b :: l, v =>
    match v.find? fun p => p.1 == b.var with
    | none => bindAll x l ((b.var, b.value x) :: v)
    | some p => if p.2 = b.value x then bindAll x l v else none

/-- Matches the elements of a pattern against the window's slots, in order. -/
def matchElems : List Element → List (Word × Slot) → List (Nat × Nat) → Option (List (Nat × Nat))
  | [], _, v => some v
  | _ :: _, [], _ => none
  | e :: es, x :: xs, v =>
    if x.2.pred ≠ 0 ∨ x.2.neg ∨ x.2.word &&& e.mask ≠ e.value then none
    else (bindAll x.2 e.binds v).bind (matchElems es xs)

/-- The value of a variable. -/
def varOf (v : List (Nat × Nat)) (i : Nat) : Nat := ((v.find? fun p => p.1 == i).map fun p => p.2).getD 0

/-- Whether the class of an entry is permitted (R309). -/
def permitted (c : Ctx) (cls : Nat) : Bool :=
  let h := c.hperm.toNat
  testBit h 0 && (match cls with
    | 0 => true
    | 1 => testBit h 1
    | _ => testBit h 2 && c.detl == 0)

/-- The declared and valid shape of the tile that a variable names. -/
def tileVar (c : Ctx) (x : Nat) : Option Shape := if x < 8 then c.shape? (Fin.ofNat 8 x) else none

/-- Whether a guard holds (R315). -/
def guardHolds (s : State) (v : List (Nat × Nat)) (g : Guard) : Bool :=
  let c := s.src
  let x := varOf v g.a
  let y := varOf v g.b
  match g.kind with
  | 1 => match tileVar c x, tileVar c y with
    | some p, some q => p.fmt == q.fmt && p.rows == q.rows && p.cols == q.cols
    | _, _ => false
  | 2 => match tileVar c x, tileVar c y with
    | some p, some q => p.fmt == q.fmt && p.rows == q.cols && p.cols == q.rows
    | _, _ => false
  | 3 =>
    let f := if x < c.ntiles then (c.tcfg.get (Fin.ofNat 8 x)).toNat % 32 else 0
    decide (x < 8) && (match g.param with
      | 0 => decide (f ≤ 0x09)
      | 1 => decide (f ≤ 0x0F)
      | _ => decide (0x0A ≤ f ∧ f ≤ 0x0F))
  | 4 =>
    let k := s.chain c.id.gang (Fin.ofNat 32 x)
    decide (x < 32) && (k.state == .built || k.state == .active) &&
      (k.hops[y]?).any fun h => h.count == 1 && (h.fmt == .fp32 || h.fmt == .bf16) &&
        (s.link? c.id.gang h.link).any fun l => l.state == .empty
  | 5 => bits (c.rdS (Fin.ofNat 64 x)).toNat 23 8 != 255
  | _ => x != y

/-- Whether a word with its bit-5 extensions is an instruction that takes no decode-time trap on an M-core. -/
def issueInstr (x : Issue) : Option Instr :=
  match lookDecode x.word (.regs x.ext.1 x.ext.2.1 x.ext.2.2) with
  | .ok i => if i.limits then some i else none
  | .error _ => none

/-- A substitution made in a template (R317). -/
def substitute (v : List (Nat × Nat)) (x : Issue) (b : Binding) : Issue :=
  let n := varOf v b.var
  let up := b.scl && testBit n 5
  { x with
    word := setBits x.word b.lsb b.width n
    ext := (x.ext.1 || (up && b.lsb == 21), x.ext.2.1 || (up && b.lsb == 16), x.ext.2.2 || (up && b.lsb == 11)) }

/-- The instruction that a replacement issues (R317, R318), with the register of its factor, which is read at the issue of
B0 (R312). -/
def replace (v : List (Nat × Nat)) (w : List (Word × Slot)) (r : Replacement) : Issue :=
  if r.src = 0 then
    let f : Option SReg := r.fold.map fun i => Fin.ofNat 64 (varOf v i)
    r.subs.foldl (substitute v) { word := r.word, ext := (false, false, false), fold := f }
  else match w[r.src - 1]? with
    | some x => { word := x.2.word, ext := (extBitAt x.2.ext 21, extBitAt x.2.ext 16, extBitAt x.2.ext 11), fold := none }
    | none => { word := 0, ext := (false, false, false), fold := none }

/-- The scalar and predicate registers that a replacement reads. -/
def replReads (v : List (Nat × Nat)) (r : Replacement) (x : Issue) : List Res :=
  (match issueInstr x with
    | some i => slotReads i
    | none => []) ++ (match r.fold with
    | some i => [.s (Fin.ofNat 64 (varOf v i))]
    | none => [])

/-- The majors that a span admits beside the matched slots (R311). -/
def spanMajor (m : Nat) : Bool := decide (1 ≤ m ∧ m ≤ 6) || m == 0x0C

/-- Whether the span of a match keeps to R311. -/
def spanOk (e : RuleEntry) (ahead : List (Word × List Slot)) (origins : List Origin) (reads : List Res) (bl : Word) :
    Bool :=
  let n := ahead.findIdx fun b => b.1 == bl
  let span := ahead.take (n + 1)
  decide (n < e.span) && span.all fun b => b.2.all fun x =>
    origins.any (fun o => o.pc == b.1 && o.slot == x.no) || x.ins == some .nop ||
      (spanMajor (x.word / 2 ^ 26) && (b.1 == bl || !(x.writes.any fun r => reads.contains r)))

/-- Whether a replacement in the head's place takes no decode-time trap, its own or its bundle's (R308, 03 R91, R95). -/
def replacementOk (s : State) (b0 : List Slot) (head : Nat) (x : Issue) : Bool :=
  (issueInstr x).any fun i =>
    (decodeTrap s (sigOf s i)).isNone &&
      limitsOk (b0.map fun y => if y.no = head then { no := head, word := x.word, ins := some i } else y)

/-- Tries one entry (R308). -/
def tryEntry (s : State) (pc : Word) (ahead : List (Word × List Slot)) (w : List (Word × Slot)) (i : Nat)
    (e : RuleEntry) : Option Decision :=
  let c := s.src
  if c.nbv < e.minNbv ∨ !permitted c e.cls ∨ w.length < e.elems.length then none
  else match matchElems e.elems w [] with
    | none => none
    | some v =>
      let hit := w.take e.elems.length
      let origins := hit.map fun x => ({ pc := x.1, slot := x.2.no } : Origin)
      let bl := (hit.getLast?.map fun x => x.1).getD pc
      let repls := e.repls.map (replace v hit)
      let b0 := (ahead.head?.map fun b => b.2).getD []
      let head := (hit.head?.map fun x => x.2.no).getD 0
      let reads := (e.repls.zip repls).flatMap fun p => replReads v p.1 p.2
      if spanOk e ahead origins reads bl ∧ e.guards.all (guardHolds s v) ∧ repls.all (replacementOk s b0 head) then
        some { pc := pc, rule := some i, origins := origins, repls := repls, last := bl }
      else none

/-- The first entry of a table that applies. -/
def firstEntry (s : State) (pc : Word) (ahead : List (Word × List Slot)) (w : List (Word × Slot)) :
    List (Nat × Option RuleEntry) → Decision
  | [] => { pc := pc }
  | (_, none) :: l => firstEntry s pc ahead w l
  | (i, some e) :: l => (tryEntry s pc ahead w i e).getD (firstEntry s pc ahead w l)

/-- Whether a head of the context may be matched now: not in the run of a cancelled rewrite (R319), and not while a
replay stretch is open (R321). -/
def mayMatch (c : Ctx) (pc : Word) : Bool :=
  c.harrow.stretch.isNone &&
    (match c.harrow.cancelled with
      | none => true
      | some (_, origins, last) =>
        match origins.head? with
        | some o => decide (pc.toNat < o.pc.toNat ∨ last.toNat < pc.toNat)
        | none => true)

/-- What the harrow decides for the head in the bundle at the context's PC (R308). -/
def decideHead (s : State) : Decision :=
  let c := s.src
  let ahead := aheadFrom s c 16 c.pc
  let w := windowOf8 ahead
  match s.rules.find? (fun t => t.cluster == c.pc8), w.head? with
  | some t, some h =>
    if h.1 = c.pc ∧ mayMatch c c.pc then firstEntry s c.pc ahead w (t.entries.mapIdx fun i e => (i, e)) else { pc := c.pc }
  | _, _ => { pc := c.pc }

/-- Whether the harrow delay of a context's present bundle is under way (13 R301). -/
def decisionDue (c : Ctx) : Bool := c.harrow.delay == some c.pc

/-- What the harrow decides for the present head of a context. -/
def decisionOf (s : State) (c : Ctx) : Decision := decideHead { s with ctx := c, pre := none }

/-- HARROW_DECISION (13 R301, 14 R308) for context arg.gix of gang arg.gang: its harrow delay ends, and the harrow decides
once for its head. -/
def execHarrowDecision (s : State) : Host.Outcome State Fault Refusal :=
  match (s.ctx? { gang := s.arg.gang, gix := s.arg.gix }).filter decisionDue with
  | none => .next s
  | some c => .next (s.updCtx c.id fun x => { x with harrow := { x.harrow with
      decided := some (decisionOf s c), delay := none } })

end Sys2Proof.Machine
end

