-- ==== Sys2Proof/Machine/Granary.lean ====
section
/-! DEFINITION. The granary's queues: doorbells, packets, node and graph records, completion records and entries, and
where a node fits (16 R345 to R357, 01 R26 to R28). An event acts on the queue in State.arg; one whose conditions do not
hold leaves the state as it is. -/
namespace Sys2Proof.Machine

/-! ### The device's own accesses -/

/-- The bytes that the device reads at physical addresses, served by their home. -/
def devRead (s : State) (pa n : Nat) : List Byte × State :=
  let cells := byteRange (paNorm s pa) n
  let s := serveAll s false cells
  (bytesAt s false cells, s)

/-- The device writes bytes at physical addresses. -/
def devWrite (s : State) (pa : Nat) (d : List Byte) : State :=
  writeGlobal s [] ((byteRange (paNorm s pa) d.length).zip d)

/-- The address of field off of a queue's descriptor (16 R345). -/
def descAt (s : State) (q off : Nat) : Nat := s.granary.qtbase + 64 * q + off

/-- A field of n bytes of a queue's descriptor. -/
def desc (s : State) (q off n : Nat) : Nat := s.mem.le (descAt s q off) n

/-- Writes a field of a queue's descriptor. -/
def putDesc (s : State) (q off n v : Nat) : State := devWrite s (descAt s q off) (toBytes n v)

/-- The device's translation of addresses under a queue's ASID and PTBASE. The spec names no mode for it; it is taken
as privileged, so that U does not matter. -/
def devXl (asid root : Word) : Xl := { priv := true, asid := asid.toNat % 2 ^ 16, root := root.toNat, tlbs := [], cache := 400 }

/-- Reads n bytes at a virtual address for the device; none at an address trap. -/
def devLoad (s : State) (asid root : Word) (va n : Nat) : Option (List Byte) × State :=
  match xlateAll (devXl asid root) .read (byteRange va n) none s with
  | (.error _, s) => (none, s)
  | (.ok l, s) =>
    let cells := l.map fun p => p.pa
    let s := serveAll s false cells
    (some (bytesAt s false cells), s)

/-- Writes bytes at a virtual address for the device, with what the write needs of its pages; where they do not translate
nothing is written. -/
def devStore (s : State) (asid root : Word) (va : Nat) (d : List Byte) (n : Need := .write) : State :=
  match xlateAll (devXl asid root) n (byteRange va d.length) none s with
  | (.error _, s) => s
  | (.ok l, s) => writeGlobal s [] ((l.map fun p => p.pa).zip d)

/-! ### The save region (20 R420) -/

/-- A size rounded up to the region's unit. -/
def saveUnits (n : Nat) : Nat := ceilDiv n 65536 * 65536

/-- The units of the save region that blocks take. -/
def unitsTaken (s : State) : List Nat := s.mgmt.saveAllocs.flatMap SaveAlloc.units

/-- The free bytes of the save region. -/
def saveFree (s : State) : Nat := s.mgmt.saveg * 2 ^ 30 - 65536 * (unitsTaken s).length

/-- The lowest n units from u on that are not taken; k bounds the search. -/
def freeUnits (taken : List Nat) : Nat → Nat → Nat → List Nat
  | 0, _, _ => []
  | _, _, 0 => []
  | k + 1, u, n + 1 => if taken.contains u then freeUnits taken k (u + 1) (n + 1) else u :: freeUnits taken k (u + 1) n

/-- Allocates a block: kind 0 a gang's save block, 1 its DETL DUAL shadow. It takes the lowest free units (DESIGN CHOICE,
log 23). -/
def allocSave (s : State) (kind g n : Nat) : State :=
  let k := ceilDiv n 65536
  let taken := unitsTaken s
  { s with mgmt := { s.mgmt with
      saveAllocs := { kind := kind, gang := g, units := freeUnits taken (taken.length + k) 0 k } :: s.mgmt.saveAllocs } }

/-- Frees a block. -/
def freeSave (s : State) (kind g : Nat) : State :=
  { s with mgmt := { s.mgmt with saveAllocs := s.mgmt.saveAllocs.filter fun a => !(a.kind == kind && a.gang == g) } }

/-- The size of a DETL DUAL shadow (17 R385). -/
def shadowSize (r : NodeRec) : Nat := ((r.opers.filter fun o => decide (2 ≤ o.mode)).map fun o => o.size).sum

/-! ### Placement (16 R354, 15 R337) -/

/-- The contexts that a request places on logical core k. -/
def ClusterReq.count (c : ClusterReq) (k : Nat) : Nat := if testBit c.cores k then bits c.counts (2 * k) 2 + 1 else 0

/-- The link entries of a record that name its gang cluster i. -/
def NodeRec.linksOf (r : NodeRec) (i : Nat) : List Nat := (r.links ++ r.spares).filter fun e => bits e 8 5 == i

/-- The LLINK of a link entry on a logical cluster (01 R13). -/
def llinkOf (lc e : Nat) : Nat := 2 * (lc * 4 + bits e 1 2) + e % 2

/-- Whether gang cluster i of a record uses array j: it has a context on one of the two M-cores that feed it (06 R171). -/
def NodeRec.usesArray (r : NodeRec) (i j : Nat) : Bool :=
  match r.clusters[i]? with
  | some c => testBit c.cores (2 * j) || testBit c.cores (2 * j + 1)
  | none => false

/-- The ALTW bits that a record gives array j of its gang cluster i. -/
def NodeRec.altwAt (r : NodeRec) (i j : Nat) : Nat :=
  match r.clusters[i]? with
  | some c => bits c.altw.toNat (4 * j) 4
  | none => 0

/-- The record of a gang's node. -/
def gangRec (s : State) (g : Gang) : Option NodeRec := (s.node? g.node).bind fun n => n.rec?

/-- Whether a gang is resident (17 R374). -/
def Gang.resident (g : Gang) : Bool := g.run != .preempted

/-- The resident gangs of a logical cluster, each with its gang cluster there. -/
def gangsOn (s : State) (lc : Nat) : List (Gang × GangCluster) :=
  (s.gangs.filter Gang.resident).filterMap fun g => (g.clusters.find? fun k => k.lc == lc).map fun k => (g, k)

/-- The banks that resident gangs hold on a physical cluster. -/
def banksHeld (s : State) (phys : Nat) : BitVec 48 :=
  (List.range 32).foldl (fun m lc =>
    if physOf s lc = some phys then (gangsOn s lc).foldl (fun m p => m ||| p.2.banks) m else m) 0

/-- The tiles that resident gangs hold on an M-core. -/
def tilesHeld (s : State) (lc k : Nat) : Nat :=
  ((gangsOn s lc).map fun p => match gangRec s p.1 with
    | some r => match r.clusters[p.2.idx]? with
      | some c => c.count k * r.tiles.length
      | none => 0
    | none => 0).sum

/-- Whether a gang's second run is still to come (17 R385). -/
def Gang.owesRun (g : Gang) : Bool := g.detl == 3 && !g.run2

/-- Whether a context slot is kept for the second run of a resident DETL DUAL gang, whose contexts have the same place in
both runs (01 R14, DESIGN CHOICE, log 64). -/
def slotKept (s : State) (lc k i : Nat) : Bool :=
  s.gangs.any fun g => g.owesRun && g.resident && g.seats.contains (lc, k, i)

/-- The free context slots of a logical core, lowest first. -/
def freeSlots (s : State) (lc k : Nat) : List Nat :=
  (List.range 4).filter fun i =>
    !(s.allCtx.any fun c => c.lc == lc && c.lcore == k && c.slotNo == i) && !slotKept s lc k i

/-- The smallest bank shift that fits (15 R337). -/
def bankShift (mask : Nat) (held : BitVec 48) : Option Nat :=
  (List.range 48).find? fun d => decide (mask * 2 ^ d < 2 ^ 48) && BitVec.ofNat 48 (mask * 2 ^ d) &&& held == 0

/-- Whether gang cluster i finds its context slots on a logical cluster. -/
def slotsFit (s : State) (r : NodeRec) (i lc : Nat) : Bool :=
  match r.clusters[i]? with
  | none => false
  | some c => (List.range 12).all fun k => decide (c.count k ≤ (freeSlots s lc k).length)

/-- Whether gang cluster i fits on a logical cluster beside what is resident there, its slots and banks apart. -/
def fitsBeside (s : State) (r : NodeRec) (i lc : Nat) : Bool :=
  (match r.clusters[i]? with
    | none => false
    | some c => (List.range 8).all fun k => decide (tilesHeld s lc k + c.count k * r.tiles.length ≤ 8)) &&
  ((r.linksOf i).all fun e => !(s.links.any fun l =>
    l.id == llinkOf lc e && (s.gang? l.gang).any Gang.resident)) &&
  (gangsOn s lc).all fun p => p.1.fuse == r.fuse &&
    (List.range 4).all fun j => match gangRec s p.1 with
      | some o => !(r.usesArray i j && o.usesArray p.2.idx j) || r.altwAt i j == o.altwAt p.2.idx j
      | none => true

/-- Where gang cluster i goes on a logical cluster: its bank shift. -/
def placeOn (s : State) (r : NodeRec) (mask i lc : Nat) : Option Nat :=
  match physOf s lc with
  | none => none
  | some p =>
    if (s.granary.remapPending.any fun w => w.lc == lc) ∨ !slotsFit s r i lc ∨ !fitsBeside s r i lc then none
    else bankShift mask (banksHeld s p)

/-- The lowest logical cluster of a list on which gang cluster i fits, with its bank shift. -/
def placeFirst (s : State) (r : NodeRec) (mask i : Nat) (taken : List Nat) : List Nat → Option (Nat × Nat)
  | [] => none
  | lc :: l =>
    if taken.contains lc then placeFirst s r mask i taken l
    else match placeOn s r mask i lc with
      | some d => some (lc, d)
      | none => placeFirst s r mask i taken l

/-- Places gang clusters from i on, n of them, in ascending i. Two that come to share a physical cluster (01 R16) hold
the same gang's banks, which R337 does not keep apart. -/
def placeFrom (s : State) (r : NodeRec) (mask : Nat) : Nat → Nat → List Nat → Option (List (Nat × Nat))
  | _, 0, _ => some []
  | i, n + 1, taken =>
    match placeFirst s r mask i taken (List.range 32) with
    | none => none
    | some p => (placeFrom s r mask (i + 1) n (p.1 :: taken)).map fun l => p :: l

/-- The image of a text address in an address space (15 R335). -/
def imageOf (s : State) (asid : Word) (text : Nat) : Option ImageRec :=
  s.granary.images.find? fun m => m.asid == asid.toNat % 2 ^ 16 && m.text == text

/-- The bank mask of an image's plan (15 R336). -/
def ImageRec.mask (m : ImageRec) : Nat := m.plan.elim 0 BitVec.toNat

/-- The placement of a node: for each gang cluster its logical cluster and bank shift. -/
def placement (s : State) (r : NodeRec) (mask : Nat) : Option (List (Nat × Nat)) :=
  placeFrom s r mask 0 r.clusters.length []

/-- Whether a node fits in an empty package (16 R353). -/
def fitsEmpty (s : State) (r : NodeRec) (mask : Nat) : Bool :=
  (placement { s with gangs := [], links := [], others := [], ctx := { s.ctx with live := false }
                      granary := { s.granary with remapPending := [] } } r mask).isSome

/-! ### Node records (16 R351) -/

/-- Whether the header of a node record keeps to its fields. -/
def headerOk (s : State) (h : List Byte) : Bool :=
  let f (o n : Nat) : Nat := leAt h o n
  f 0 1 == 1 && decide (1 ≤ f 1 1) && decide (f 1 1 ≤ 32) && decide (f 2 1 ≤ 7) && decide (f 3 1 ≤ 3) &&
    decide (1 ≤ f 4 1) && decide (f 4 1 ≤ bits (caps s).toNat 40 8) && decide (f 5 1 ≤ 1) && decide (f 6 1 ≤ 8) &&
    decide (f 7 1 ≤ 64) && f 8 8 % 4096 == 0 && f 0x20 8 % 32 == 0 && f 0x28 4 % 32 == 0 && f 0x30 8 % 32 == 0

/-- A gang-cluster entry. -/
def parseCluster (v : Nat) : Option ClusterReq :=
  let cores := bits v 0 12
  let counts := bits v 12 24
  if bits v 52 12 = 0 ∧ (List.range 12).all fun k => testBit cores k || bits counts (2 * k) 2 == 0 then
    some { cores := cores, counts := counts, altw := BitVec.ofNat 16 (bits v 36 16) }
  else none

/-- An entry of the operand table. -/
def parseOperand (d : List Byte) : Option Operand :=
  if 1 ≤ leAt d 12 1 ∧ leAt d 12 1 ≤ 3 ∧ zeroAt d 13 3 then
    some { va := leAt d 0 8, size := leAt d 8 4, mode := leAt d 12 1 }
  else none

/-- All values of a list of options. -/
def allOf {α : Type} : List (Option α) → Option (List α)
  | [] => some []
  | some x :: l => (allOf l).map fun r => x :: r
  | none :: _ => none

/-- The length of a node record after its header. -/
def tailLen (h : List Byte) : Nat :=
  8 * leAt h 1 1 + ceilDiv (2 * (leAt h 0x2C 2 + leAt h 0x2E 2)) 8 * 8 + 4 * leAt h 6 1

/-- A node record from its header, its tail and its operand table; none where a field is out of range. -/
def parseRecord (h t o : List Byte) : Option NodeRec :=
  let ngcl := leAt h 1 1
  let nl := leAt h 0x2C 2
  let ns := leAt h 0x2E 2
  let nt := leAt h 6 1
  let pad := ceilDiv (2 * (nl + ns)) 8 * 8
  let entries := (List.range (nl + ns)).map fun i => leAt t (8 * ngcl + 2 * i) 2
  match allOf ((List.range ngcl).map fun i => parseCluster (leAt t (8 * i) 8)),
      allOf ((List.range (leAt h 7 1)).map fun i => parseOperand (sliceBytes o (16 * i) 16)) with
  | some cl, some op =>
    if !zeroAt t (8 * ngcl + 2 * (nl + ns)) (pad - 2 * (nl + ns)) ∨
        entries.any fun e => decide (2 ^ 13 ≤ e) || bits e 3 5 != 0 || decide (ngcl ≤ bits e 8 5) then none
    else some
      { prio := leAt h 2 1, detl := leAt h 3 1, nbv := leAt h 4 1, fuse := leAt h 5 1 == 1, text := leAt h 8 8
        entry := leAt h 0x10 4, handler := leAt h 0x14 4, optab := leAt h 0x18 8, opers := op, spill := leAt h 0x20 8
        spillsz := leAt h 0x28 4, crec := leAt h 0x30 8, stackva := leAt h 0x38 8, clusters := cl
        links := entries.take nl, spares := entries.drop nl
        tiles := (List.range nt).map fun i => BitVec.ofNat 32 (leAt t (8 * ngcl + pad + 4 * i) 4) }
  | _, _ => none

/-- Whether a record keeps to the limits of 01 R26. A gang cluster without a core, and a link listed twice, are taken to
break them (DESIGN CHOICE, log 79). -/
def limitsHold (r : NodeRec) : Bool :=
  decide (r.spares.length ≤ 32) && decide (r.links.length + r.spares.length ≤ 256) &&
    !hasDup (r.links ++ r.spares) &&
    ((List.range r.clusters.length).all fun i => match r.clusters[i]? with
      | none => false
      | some c => c.cores != 0 && (List.range 8).all (fun k => decide (c.count k * r.tiles.length ≤ 8)) &&
        (List.range 4).all fun j => !r.usesArray i j || decide (r.altwAt i j % 8 ≤ 4))

/-- Whether a record agrees with the meta of its image (15 R335). -/
def agrees (r : NodeRec) (m : ImageRec) : Bool :=
  m.clusters == r.clusters.length && m.detl == r.detl && m.nbv == r.nbv && m.fuse == r.fuse &&
    (m.handler == 0 || m.handler == r.handler) && m.links == r.links && m.spares == r.spares

/-- Reads and checks the node record at an address (16 R351, R356): the record, or the reason of its rejection, and its
completion record's address where the header was read. -/
def readNode (s : State) (asid root : Word) (va : Nat) : Except Nat NodeRec × Nat × State :=
  match devLoad s asid root va 64 with
  | (none, s) => (.error 5, 0, s)
  | (some h, s) =>
    let crec := if leAt h 0x30 8 % 32 = 0 then leAt h 0x30 8 else 0
    if !headerOk s h then (.error 1, crec, s)
    else match devLoad s asid root (va + 64) (tailLen h) with
      | (none, s) => (.error 5, crec, s)
      | (some t, s) =>
        match devLoad s asid root (leAt h 0x18 8) (16 * leAt h 7 1) with
        | (none, s) => (.error 5, crec, s)
        | (some o, s) =>
          match parseRecord h t o with
          | none => (.error 1, crec, s)
          | some r =>
            match imageOf s asid r.text with
            | none => (.error 2, crec, s)
            | some m => if limitsHold r && agrees r m then (.ok r, crec, s) else (.error 2, crec, s)

/-! ### Nodes that finish (16 R353, R355, R357) -/

/-- Changes a node. -/
def State.updNode (s : State) (i : Nat) (f : Node → Node) : State :=
  { s with granary := { s.granary with nodes := updateFirst (fun n => n.id == i) f s.granary.nodes } }

/-- What the completion record says beside the status. -/
structure Report where
  rflags : BitVec 6 := 0
  doneVal : BitVec 32 := 0
  taintCount : Nat := 0
  taintAddr : Nat := 0

/-- The completion record (16 R355). -/
def recordBytes (status : Nat) (p : Report) (time : Nat) : List Byte :=
  toBytes 1 status ++ toBytes 1 p.rflags.toNat ++ toBytes 2 0 ++ toBytes 4 p.doneVal.toNat ++
    toBytes 8 p.taintCount ++ toBytes 8 p.taintAddr ++ toBytes 8 time

/-- A node ends with a status: its completion record is written, and its KIND-1 entry with CMP. -/
def endNode (s : State) (n : Node) (status : Nat) (p : Report) : State :=
  let s := if n.crec = 0 then s else devStore s n.asid n.ptbase n.crec (recordBytes status p s.time)
  let s := if n.cmp then postEntry s n.queue (entryBytes 1 status n.index n.tag 0 s.time) else s
  s.updNode n.id fun n => { n with state := .finished status }

/-- Whether a node has finished. -/
def Node.done (n : Node) : Bool :=
  match n.state with
  | .finished _ => true
  | _ => false

/-- Skips every node reachable from those of a list (16 R353); one that has been rejected keeps its own status. -/
def skipFrom : Nat → List Nat → State → State
  | 0, _, s => s
  | _, [], s => s
  | k + 1, i :: l, s =>
    match s.node? i with
    | none => skipFrom k l s
    | some n => if n.done then skipFrom k l s else skipFrom k (l ++ n.succs) (endNode s n 0xC1 {})

/-- A bound on the steps of skipFrom. -/
def skipBound (s : State) : Nat :=
  s.granary.nodes.length + (s.granary.nodes.map fun n => n.succs.length).sum + 1

/-- A predecessor of a node has completed (16 R353): without another it is ready in the next cycle. -/
def satisfied (time i : Nat) (n : Node) : Node :=
  match n.state with
  | .waiting l =>
    let l := l.filter (· != i)
    if l = [] then { n with state := .ready (time + 1), readyAt := time + 1, agedAt := time + 1 }
    else { n with state := .waiting l }
  | _ => n

/-- Once every node of a packet has finished, its KIND-3 entry is written with CMP, and the granary forgets it. The spec
states no STATUS or NODE for the entry. -/
def endPacket (s : State) (q p : Nat) : State :=
  let mine (n : Node) : Bool := n.queue == q && n.packet == p
  let l := s.granary.nodes.filter mine
  match s.granary.packets.find? fun k => k.queue == q && k.packet == p with
  | none => s
  | some k =>
    if !l.all Node.done then s
    else
      let bad := (l.filter fun n => n.state != .finished 0).length
      let (v, s) : BitVec 24 × State := if k.cmp then s.free 24 else (0, s)
      let s := if k.cmp then
          postEntry s q (entryBytes 3 (v.toNat % 256) (v.toNat / 256) k.tag bad s.time)
        else s
      { s with granary := { s.granary with
          nodes := s.granary.nodes.filter fun n => !mine n
          packets := s.granary.packets.filter fun x => !(x.queue == q && x.packet == p) } }

/-- A node completes or fails (01 R27): its successors count it, or are skipped, and its packet may end. -/
def finishNode (s : State) (n : Node) (status : Nat) (p : Report) : State :=
  let s := endNode s n status p
  let s := if status = 0 then
      { s with granary := { s.granary with
          nodes := s.granary.nodes.map fun m => if n.succs.contains m.id then satisfied s.time n.id m else m } }
    else skipFrom (skipBound s) n.succs s
  endPacket s n.queue n.packet

/-! ### Doorbells (16 R344, R346) -/

/-- Whether a function sees the doorbell of a queue. -/
def seesQueue (s : State) (f q : Nat) : Bool := f == 0 || (decide (f ≤ 16) && desc s q 0x26 2 == f)

/-- A queue whose descriptor the host has enabled again: HEAD and TAIL are 0. -/
def enableQueue (s : State) (q : Nat) : State :=
  let (d, s) := devRead s (descAt s q 0) 64
  let s := s.updQueue q fun x =>
    { x with en := true, err := false, tail := 0, head := 0, detl := leAt d 0xE 1 % 4,
             insns := x.insns.map fun i => (0, i.2) }
  putDesc s q 0x28 4 0

/-- The device marks a queue's error. -/
def queueError (s : State) (q : Nat) : State :=
  let s := s.updQueue q fun x => { x with err := true }
  putDesc s q 0xF 1 (desc s q 0xF 1 ||| 2)

/-- DOORBELL (16 R346): function arg.gix writes arg.val to the doorbell of queue arg.id. Doorbells are
enabled by the last step of the boot (20 R418). -/
def execDoorbell (s : State) : Host.Outcome State Fault Refusal :=
  let q := s.arg.id
  let v : BitVec 32 := BitVec.ofNat 32 s.arg.val
  if 65536 ≤ q ∨ !seesQueue s s.arg.gix q ∨ s.mgmt.boot ≠ 5 then .next s
  else
    let s : State := { s with granary := { s.granary with
      doorbells := (q, v) :: s.granary.doorbells.filter fun d => d.1 != q } }
    let (d, s) := devRead s (descAt s q 0) 64
    if !testBit (leAt d 0xF 1) 0 then .next (s.updQueue q fun x => { x with en := false })
    else
      let x := s.queue q
      let s := if !x.en ∨ (x.err ∧ !testBit (leAt d 0xF 1) 1) then enableQueue s q else s
      let x := s.queue q
      let n := (v - x.tail).toNat
      if x.err ∨ n = 0 ∨ 2 ^ 31 ≤ n then .next s
      else if n + (x.tail - x.head).toNat ≤ leAt d 8 4 then .next (s.updQueue q fun x => { x with tail := v })
      else .next (queueError s q)

/-! ### Packets (16 R347, R348, R352) -/

/-- The packet at the head of a queue. -/
def headPacket (s : State) (q : Nat) : List Byte × State :=
  devRead s (desc s q 0 8 + 64 * ((s.queue q).head.toNat % desc s q 8 4)) 64

/-- Whether every node of the packets that a queue has taken has finished. -/
def queueQuiet (s : State) (q : Nat) : Bool := !(s.granary.packets.any fun p => p.queue == q)

/-- Whether a change of level stands at the head of a queue (16 R348). -/
def detsetAtHead (x : Queue) : Bool := x.detWait.isSome || x.insns.any fun i => i.1 == x.head

/-- Whether the device may take the packet at the head of a queue, given its bytes. -/
def mayTake (s : State) (q : Nat) (d : List Byte) : Bool :=
  let x := s.queue q
  x.en && !x.err && x.head != x.tail && !detsetAtHead x && !s.granary.go &&
    (!testBit (leAt d 1 1) 0 || queueQuiet s q)

/-- The nodes admitted and not finished (16 R347). -/
def admitted (s : State) : Nat := (s.granary.nodes.filter fun n => !n.done).length

/-- HEAD passes the packet that has been taken. -/
def advanceHead (s : State) (q : Nat) : State :=
  let s := s.updQueue q fun x => { x with head := x.head + 1 }
  putDesc s q 0x28 4 (s.queue q).head.toNat

/-- The head packet of a queue and the state, where it has a type and may be taken. -/
def takePacket (s : State) (q : Nat) (ok : Nat → Bool) : Option (List Byte) × State :=
  let x := s.queue q
  if !x.en ∨ x.head = x.tail then (none, s)
  else
    let (d, s) := headPacket s q
    if ok (leAt d 0 1) ∧ mayTake s q d then (some d, s) else (none, s)

/-- Whether a packet has CMP. -/
def cmpOf (d : List Byte) : Bool := testBit (leAt d 1 1) 1

/-- NOP_PACKET (16 R347) of queue arg.id. A packet of an unknown type sets ERR. -/
def execNopPacket (s : State) : Host.Outcome State Fault Refusal :=
  let q := s.arg.id
  match takePacket s q fun t => t == 0 || decide (4 ≤ t) with
  | (none, _) => .next s
  | (some d, s) =>
    if leAt d 0 1 ≠ 0 then .next (queueError s q)
    else
      let (v, s) : BitVec 8 × State := if cmpOf d then s.free 8 else (0, s)
      let s := if cmpOf d then
          postEntry s q (entryBytes 3 v.toNat 0 (BitVec.ofNat 64 (leAt d 0x10 8)) 0 s.time)
        else s
      .next (advanceHead s q)

/-- A root page table's address as PTBASE holds it: bits [51:12] (03 R83). -/
def rootOf (v : Nat) : Word := BitVec.ofNat 64 (v % 2 ^ 52 / 2 ^ 12 * 2 ^ 12)

/-- A node as the granary admits it. -/
def newNode (s : State) (q i : Nat) (d : List Byte) : Node :=
  { id := 0, queue := q, packet := 0, index := i, tag := BitVec.ofNat 64 (leAt d 0x10 8), cmp := cmpOf d
    rec? := none, state := .waiting [], asid := BitVec.ofNat 64 (desc s q 0xC 2), ptbase := rootOf (desc s q 0x10 8) }

/-- Reads the records of nodes and checks each (16 R351, R353): the nodes, each with the reason of its rejection, if
any. bad is the reason that rejects the whole graph. -/
def admitNodes (q : Nat) (d : List Byte) (bad : Option Nat) : List (Nat × Nat) → State →
    List (Node × Option Nat) × State
  | [], s => ([], s)
  | (i, va) :: l, s =>
    let n := newNode s q i d
    let (r, crec, s) := readNode s n.asid n.ptbase va
    let (k, s) := s.fresh
    let n := { n with id := k, crec := crec }
    let (why, n) : Option Nat × Node := match r with
      | .error e => (some e, n)
      | .ok r =>
        let mask := (imageOf s n.asid r.text).elim 0 ImageRec.mask
        let n := { n with rec? := some r, cls := r.prio, level := max r.detl (s.queue q).detl }
        if !fitsEmpty s r mask ∨ (n.level = 3 ∧ s.mgmt.saveg * 2 ^ 30 < saveUnits (shadowSize r)) then (some 3, n)
        else (none, n)
    let (rest, s) := admitNodes q d bad l s
    ((n, bad.or why) :: rest, s)

/-- The number of the node with an index in a list of nodes. -/
def idAt (l : List (Node × Option Nat)) (i : Nat) : Option Nat := l[i]?.map fun p => p.1.id

/-- Nodes joined by the edges of a graph. -/
def joinNodes (l : List (Node × Option Nat)) (edges : List (Nat × Nat)) : List (Node × Option Nat) :=
  l.map fun p =>
    let n := p.1
    let preds := (edges.filter fun e => e.2 == n.index).filterMap fun e => idAt l e.1
    let succs := (edges.filter fun e => e.1 == n.index).filterMap fun e => idAt l e.2
    ({ n with state := .waiting preds, succs := succs }, p.2)

/-- Admits nodes that are joined (16 R353): the packet is kept under a number of its own, rejected nodes fail, and nodes without a predecessor are
ready at once. -/
def acceptNodes (s : State) (q : Nat) (d : List Byte) (l : List (Node × Option Nat)) : State :=
  let (p, s) := s.fresh
  let ready (n : Node) : Node :=
    if n.state = .waiting [] then { n with state := .ready s.time, readyAt := s.time, agedAt := s.time } else n
  let s : State := { s with granary := { s.granary with
    packets := s.granary.packets ++ [{ queue := q, packet := p, tag := BitVec.ofNat 64 (leAt d 0x10 8), cmp := cmpOf d }]
    nodes := s.granary.nodes ++ l.map fun x => { (if x.2.isNone then ready x.1 else x.1) with packet := p } } }
  let bad := l.filterMap fun x => x.2.map fun e => (x.1, 0x80 + e)
  let s := bad.foldl (fun s x => endNode s x.1 x.2 {}) s
  let s := bad.foldl (fun s x => skipFrom (skipBound s) x.1.succs s) s
  endPacket (advanceHead s q) q p

/-- NODE_PACKET (16 R347) of queue arg.id: a graph of one node, once the granary has room. -/
def execNodePacket (s : State) : Host.Outcome State Fault Refusal :=
  let q := s.arg.id
  match takePacket s q fun t => t == 1 with
  | (none, _) => .next s
  | (some d, t) =>
    if 16384 < admitted t + 1 then .next s
    else
      let (l, t) := admitNodes q d none [(0, leAt d 8 8)] t
      .next (acceptNodes t q d l)

/-- Whether a graph of nodes without a cycle: nodes whose predecessors are gone leave, round by round. -/
def acyclic : Nat → List Nat → List (Nat × Nat) → Bool
  | 0, l, _ => l == []
  | k + 1, l, edges =>
    let rest := l.filter fun n => edges.any fun e => e.2 == n && l.contains e.1
    if rest.length = l.length then l == [] else acyclic k rest edges

/-- The edges of a graph record. -/
def parseEdges (d : List Byte) (n : Nat) : List (Nat × Nat) :=
  ((List.range n).map fun j => (leAt d (4 * j) 2, leAt d (4 * j + 2) 2)).dedup

/-- Why a graph is rejected whole, if it is (16 R352, R356). -/
def graphReason (h : List Byte) (nn : Nat) (edges : List (Nat × Nat)) : Option Nat :=
  if !zeroAt h 4 12 then some 1
  else if edges.any (fun e => decide (nn ≤ e.1) || decide (nn ≤ e.2) || e.1 == e.2) ||
      !acyclic nn (List.range nn) edges then some 4
  else none

/-- A graph of n nodes of which nothing more can be read: none of them starts, and each is reported, rejected. -/
def rejectGraph (s : State) (q : Nat) (d : List Byte) (n why : Nat) : State :=
  acceptNodes { s with nextId := s.nextId + n } q d
    ((List.range n).map fun i => ({ newNode s q i d with id := s.nextId + i }, some why))

/-- GRAPH_PACKET (16 R347, R352) of queue arg.id: the graph is read, checked and admitted once the granary has room. -/
def execGraphPacket (s : State) : Host.Outcome State Fault Refusal :=
  let q := s.arg.id
  match takePacket s q fun t => t == 2 with
  | (none, _) => .next s
  | (some d, t) =>
    let va := leAt d 8 8
    let asid := BitVec.ofNat 64 (desc t q 0xC 2)
    let root := BitVec.ofNat 64 (desc t q 0x10 8)
    let (h, t) := devLoad t asid root va 16
    match h with
    | none => if 16384 < admitted t + 1 then .next s else .next (rejectGraph t q d 1 5)
    | some h =>
      let nn := leAt h 0 2
      let ne := leAt h 2 2
      if nn = 0 ∨ 4096 < nn then (if 16384 < admitted t + 1 then .next s else .next (rejectGraph t q d 1 1))
      else if 16384 < admitted t + nn then .next s
      else
        let (a, t) := devLoad t asid root (va + 16) (8 * nn)
        let (e, t) := devLoad t asid root (va + 16 + 8 * nn) (4 * ne)
        match a, e with
        | some a, some e =>
          let edges := parseEdges e ne
          let bad := graphReason h nn edges
          let (l, t) := admitNodes q d bad ((List.range nn).map fun i => (i, leAt a (8 * i) 8)) t
          .next (acceptNodes t q d (if bad.isSome then l else joinNodes l edges))
        | _, _ => .next (rejectGraph t q d nn 5)

/-- DETSET_PACKET (16 R348) of queue arg.id: the change of level waits at its position. -/
def execDetsetPacket (s : State) : Host.Outcome State Fault Refusal :=
  let q := s.arg.id
  match takePacket s q fun t => t == 3 with
  | (none, _) => .next s
  | (some d, s) => .next ((advanceHead s q).updQueue q fun x => { x with detWait := some (leAt d 2 1 % 4) })

/-- A queue's level changes, and the device writes it to the descriptor. -/
def setLevel (s : State) (q l : Nat) : State := putDesc (s.updQueue q fun x => { x with detl := l }) q 0xE 1 l

/-- DETSET_TAKES_EFFECT (16 R348) of queue arg.id: once every node of every earlier packet has finished, the packet's or
the instruction's level becomes the queue's. -/
def execDetsetTakesEffect (s : State) : Host.Outcome State Fault Refusal :=
  let q := s.arg.id
  let x := s.queue q
  if !queueQuiet s q then .next s
  else match x.detWait with
    | some l => .next (setLevel (s.updQueue q fun x => { x with detWait := none }) q l)
    | none =>
      match x.insns.find? fun i => i.1 == x.head with
      | some i => .next (setLevel (s.updQueue q fun x => { x with insns := x.insns.erase i }) q i.2)
      | none => .next s

/-! ### Completion entries (16 R357) -/

/-- COMPLETION_ENTRY_WRITE (16 R357) of queue arg.id: the oldest entry is written when the ring has room, CTAIL
advances and the queue's vector is raised. -/
def execCompletionEntryWrite (s : State) : Host.Outcome State Fault Refusal :=
  let q := s.arg.id
  match (s.queue q).events with
  | [] => .next s
  | e :: rest =>
    let (d, s) := devRead s (descAt s q 0) 64
    let tail : BitVec 32 := BitVec.ofNat 32 (leAt d 0x2C 4)
    let size := leAt d 0x20 4
    if size ≤ (tail - BitVec.ofNat 32 (leAt d 0x30 4)).toNat then .next s
    else
      let s := devWrite s (leAt d 0x18 8 + 32 * (tail.toNat % size)) e
      let s := putDesc s q 0x2C 4 (tail + 1).toNat
      let s := s.updQueue q fun x => { x with events := rest }
      .next { s with granary := { s.granary with msix := s.granary.msix ++ [(leAt d 0x26 2, leAt d 0x24 2)] } }

/-! ### Aging (01 R28) -/

/-- Whether a node is in the ready set: ready by now, or its gang is pre-empted (17 R372). -/
def inReadySet (s : State) (n : Node) : Bool :=
  match n.state with
  | .ready t => decide (t ≤ s.time)
  | .running g => (s.gang? g).any fun x => x.run == .preempted
  | _ => false

/-- Whether a ready node has waited one more aging interval. -/
def agingDue (s : State) (n : Node) : Bool :=
  inReadySet s n && s.granary.aging != 0 && decide (n.agedAt + s.granary.aging ≤ s.time)

/-- AGING_INTERVAL_EXPIRY (01 R28) of node arg.id. -/
def execAgingIntervalExpiry (s : State) : Host.Outcome State Fault Refusal :=
  match s.node? s.arg.id with
  | none => .next s
  | some n =>
    if agingDue s n then
      .next (s.updNode n.id fun n =>
        { n with cls := n.cls - 1, waits := n.waits + 1, agedAt := n.agedAt + s.granary.aging })
    else .next s

end Sys2Proof.Machine
end

