-- ==== Sys2Proof/Machine/SaveBlock.lean ====
section
/-! DEFINITION. The bytes of a gang's save block (17 R375 to R377) and their place in the save region (20 R420). -/
namespace Sys2Proof.Machine

/-! ### Link records (17 R376) -/

/-- The code of a hop format (07 R197). -/
def HopFmt.code : HopFmt → Nat
  | .fp32 => 0
  | .fp64 => 1
  | .int32 => 2
  | .bf16 => 3

/-- The cells of an image, 32 bits each: the low or the high half of every accumulator. -/
def Plane.cellBytes (p : Plane) (high : Bool) : List Byte :=
  (List.range 32768).flatMap fun i => toBytes 4 (bits p.acc.toNat (64 * i + 32 * high.toNat) 32)

/-- The class bits of an image, one byte for each cell. -/
def Plane.classBytes (p : Plane) : List Byte :=
  (List.range 32768).map fun i => BitVec.ofNat 8 (bits p.cls.toNat (5 * i) 5)

/-- What stands in a link's plane: its accumulator, or the retained copy of a SENT link. -/
def Link.plane (l : Link) : Plane := l.partialOut.getD l.own

/-- The header of a link record. -/
def linkHeader (s : State) (id : Nat) (l : Link) : List Byte :=
  let hop := l.chain.bind fun k => (s.chain l.gang k).hopOf l.id
  let h := hop.map fun p => p.2
  toBytes 1 id ++ toBytes 1 l.state.code ++ toBytes 1 (l.chain.elim 0xFF fun k => k.val) ++
    toBytes 1 (hop.elim 0 fun p => p.1) ++ toBytes 2 l.promoted ++ toBytes 2 (h.elim 0 fun x => x.count) ++
    toBytes 1 (h.elim 0 fun x => x.fmt.code) ++
    toBytes 1 (h.elim 0 fun x => x.scale.isSome.toNat + 2 * (x.fmt == .int32 && x.wide).toNat) ++ toBytes 2 0 ++
    toBytes 4 ((h.bind Hop.scale).elim 0 BitVec.toNat) ++ toBytes 4 (l.fold.elim 0x3F800000 BitVec.toNat) ++
    List.replicate 4076 0

/-- The link whose cells a record holds: a link's own, or those of the wide link whose odd LLINK it is (06 R149). Of that
record's header R376 says nothing more: it names its own LLINK and is the wide link's otherwise (DESIGN CHOICE, log 23). -/
def wideOver (s : State) (l : Link) : Option Link :=
  if l.id % 2 = 0 then none
  else (s.link? l.gang (l.id - 1)).filter fun e =>
    ((e.chain.bind fun k => (s.chain e.gang k).hopOf e.id).any fun p => p.2.wide)

/-- A link record. -/
def linkRecord (s : State) (l : Link) : List Byte :=
  let high := (wideOver s l).isSome
  let e := (wideOver s l).getD l
  let inb := e.inbound.getD {}
  linkHeader s l.id e ++ e.plane.cellBytes high ++ inb.cellBytes high ++ e.plane.classBytes ++ inb.classBytes

/-! ### The header, barriers and chains (17 R375) -/

/-- A chain's 64 bytes. -/
def chainSave (c : Chain) : List Byte :=
  let a := c.close
  toBytes 1 c.state.code ++ toBytes 1 c.reportedCause ++ toBytes 1 c.reportedHops.length ++ toBytes 1 c.flags.toNat ++
    toBytes 1 ((a.isSome || c.written).toNat + 2 * c.written.toNat) ++ toBytes 1 (a.elim 0 fun x => x.rm) ++
    toBytes 1 (a.elim 0 fun x => x.ofmt) ++ toBytes 1 c.isat.toNat ++ toBytes 2 c.m ++ toBytes 2 c.n ++
    toBytes 2 (a.elim 0 fun x => x.gix) ++
    toBytes 1 (a.elim 0 fun x => match x.dst with
      | .tile n => n.val
      | .spad _ _ => 0) ++ toBytes 1 0 ++ toBytes 4 (a.elim 0 fun x => x.oscale.toNat) ++ toBytes 4 0 ++
    toBytes 8 (a.elim 0 fun x => match x.dst with
      | .tile _ => 0
      | .spad _ off => off) ++
    (List.range 32).map fun i => BitVec.ofNat 8 ((c.reportedHops[i]?).elim 0 fun h => h.link)

/-- The first 4 KiB of a save block. -/
def saveHeader (s : State) (g : Gang) : List Byte :=
  let links := s.links.filter fun l => l.gang == g.id
  toBytes 2 g.id ++ toBytes 2 g.n ++ toBytes 2 links.length ++
    toBytes 2 (links.filter fun l => l.spare && l.chain.isNone).length ++ toBytes 1 g.detl ++ toBytes 1 g.nbv ++
    toBytes 1 g.fuse.toNat ++ toBytes 5 0 ++ toBytes 8 s.time ++ toBytes 40 0 ++
    (g.barriers.toList.flatMap fun b =>
      toBytes 4 b.phase.toNat ++ toBytes 4 b.e ++ toBytes 4 b.arrivals ++ toBytes 4 0) ++ List.replicate 192 0 ++
    g.chains.toList.flatMap chainSave ++ List.replicate 1536 0

/-! ### Context records (17 R377) -/

/-- A register of 64 bits. -/
def wordBytes (w : Word) : List Byte := toBytes 8 w.toNat

/-- The CSRs PIPE and ROTB from their fields (03 R85). -/
def rotWords (sc rbs rbv : Nat) : List Byte := toBytes 8 (sc % 16) ++ toBytes 8 (rbs % 32 * 2 ^ 8 + rbv % 16)

/-- The first 4 KiB of a context record, up to the vector registers. -/
def contextWords (s : State) (c : Ctx) : List Byte :=
  let blocked := match c.status with
    | .stopped (_ :: _) => true
    | _ => false
  let flags := (c.mode == .privileged).toNat + 2 * blocked.toNat + 4 * c.harrow.stretch.isSome.toNat +
    2 ^ 8 * c.deferred.length
  wordBytes c.pc ++ toBytes 8 flags ++ wordBytes (c.harrow.stretch.elim 0 fun p => p.2) ++
    wordBytes c.pass ++ rotWords c.sc c.rbs c.rbv ++ wordBytes c.fpm ++ toBytes 8 c.fxf.toNat ++ wordBytes c.hperm ++
    wordBytes c.vshape ++ wordBytes c.tscr ++ wordBytes c.tvec ++ wordBytes c.trapc ++ wordBytes c.trappc ++
    wordBytes c.trapx ++ wordBytes c.trapo ++ toBytes 16 0 ++ toBytes 8 c.p.toNat ++
    toBytes 8 ((List.finRange 8).foldl (fun v n => v + (closeOwes s c.id n).toNat * 2 ^ n.val) 0) ++ List.replicate 80 0 ++
    wordBytes c.asid ++ wordBytes c.ptbase ++ c.s.toList.flatMap wordBytes ++
    (c.q.toList.flatMap fun t => wordBytes t.word) ++ c.tcfg.toList.flatMap wordBytes ++
    (c.bar.toList.flatMap fun b =>
      toBytes 4 (b.arrph.elim 0 BitVec.toNat) ++ toBytes 4 (b.arrph.isSome.toNat + 2 * b.dropped.toNat)) ++
    toBytes 8 (c.phase.elim 0 fun f => f.record) ++ wordBytes (c.phase.elim 0 fun f => f.restart) ++
    toBytes 8 (c.phase.isSome.toNat + 2 * c.parity.toNat) ++ toBytes 8 c.commits ++
    toBytes 8 (c.phase.elim 0 fun f => f.aborts) ++ toBytes 24 0 ++
    (match c.phase with
      | none => List.replicate 576 0
      | some f =>
        let k := f.chk
        k.s.toList.flatMap wordBytes ++ toBytes 8 k.p.toNat ++ wordBytes k.pass ++ rotWords k.sc k.rbs k.rbv ++
          wordBytes k.fpm ++ toBytes 8 k.fxf.toNat ++ wordBytes k.vshape ++ toBytes 8 0) ++
    ((List.range 8).flatMap fun i => match c.deferred[i]? with
      | some d => wordBytes d.trapc ++ wordBytes d.trapx
      | none => toBytes 16 0) ++ List.replicate 64 0 ++
    c.m.toList.flatMap fun x => toBytes 256 x.toNat

/-- A context record: its words, its vector registers and its tiles. -/
def contextRecord (s : State) (c : Ctx) : List Byte :=
  contextWords s c ++
    (c.v.toList.flatMap fun x => toBytes 2048 x.elems.toNat ++ toBytes 128 x.side.toNat) ++
    (c.t.toList.take c.ntiles).flatMap fun x => toBytes 65536 x.bytes.toNat ++ toBytes 4096 x.scales.toNat

/-! ### The block in the save region (20 R420) -/

/-- A gang's save block. -/
def saveBlock (s : State) (g : Gang) : List Byte :=
  saveHeader s g ++
    ((sortKeys ((s.links.filter fun l => l.gang == g.id).map fun l => (l.id, l))).flatMap fun p => linkRecord s p.2) ++
    (sortKeys ((s.gangCtx g.id).map fun c => (c.id.gix, c))).flatMap fun p => contextRecord s p.2

/-- The addresses of an allocated block, in order. -/
def blockCells (s : State) (kind g : Nat) : List Nat :=
  ((s.mgmt.saveAllocs.find? fun a => a.kind == kind && a.gang == g).elim [] SaveAlloc.units).flatMap fun u =>
    byteRange (s.saveBase + 65536 * u) 65536

/-- Writes the first bytes of an allocated block, in HBM itself. -/
def writeBlock (s : State) (kind g : Nat) (d : List Byte) : State :=
  let w := (blockCells s kind g).zip d
  (w.map fun p => granule p.1).dedup.foldl settleHbm { s with mem := s.mem.setAll w }

end Sys2Proof.Machine
end

