-- ==== Sys2Proof/Machine/Launch.lean ====
section
/-! DEFINITION. Dispatch, the state that a gang starts with, completion, the second run of DETL DUAL, time slicing and
pre-emption (01 R16, R21 to R28, 15 R330, 16 R353 to R355, 17 R372 to R380, R385). An event acts on the gang, node or
cluster in State.arg; one whose conditions do not hold leaves the state as it is. -/
namespace Sys2Proof.Machine

/-! ### Time slices (01 R16) -/

/-- Whether a context's logical cluster is the one that its physical cluster runs. -/
def slicedIn (s : State) (c : Ctx) : Bool := !c.sliced || (sliceOf s c.pc8).1 == c.lc

/-- Whether a logical cluster has a ready context. -/
def hasReady (s : State) (lc : Nat) : Bool := s.allCtx.any fun c => c.lc == lc && c.status == .ready

/-- Whether a logical cluster stands at a bundle boundary outside any MMA (01 R16): no contribution is promoted into its
links, and no bundle of its contexts waits between two replacements (14 R312). -/
def atBoundary (s : State) (lc : Nat) : Bool :=
  !(s.links.any fun l => l.id / 8 == lc && !l.waiting.isEmpty) &&
    !(s.allCtx.any fun c => c.lc == lc && c.harrow.decided.any Decision.handed)

/-- The logical cluster that a physical cluster would switch to, if a switch is due. -/
def switchDue (s : State) (phys : Nat) : Option Nat :=
  let (lc, since) := sliceOf s phys
  match (sharing s phys).find? fun x => x != lc && hasReady s x with
  | none => none
  | some x =>
    if atBoundary s lc ∧ (!hasReady s lc ∨ since + 32768 ≤ s.time) then some x else none

/-- SLICE_SWITCH (01 R16) of physical cluster arg.id. Nothing of either logical cluster changes but which of them
runs: the running context of each core stays its running context until the slice returns (R18, R20). -/
def execSliceSwitch (s : State) : Host.Outcome State Fault Refusal :=
  match switchDue s s.arg.id with
  | none => .next s
  | some x =>
    .next { s with
      granary := { s.granary with slices := (s.arg.id, x, s.time) :: s.granary.slices.filter fun y => y.1 != s.arg.id } }

/-! ### The state at the first bundle (01 R25, 15 R330) -/

/-- One context's place: its gang cluster, core and slot. -/
structure Seat where
  cl : GangCluster
  core : Nat
  slot : Nat

/-- The seats of a gang, in the order of its gang indices (01 R22). -/
def seatsOf (s : State) (r : NodeRec) (l : List GangCluster) : List Seat :=
  (sortKeys (l.map fun k => (k.lc, k))).flatMap fun p =>
    (List.range 12).flatMap fun k =>
      ((freeSlots s p.1 k).take ((r.clusters[p.2.idx]?).elim 0 fun c => c.count k)).map fun i =>
        { cl := p.2, core := k, slot := i }

/-- The scratchpad base of a plan's bank mask placed as banks (15 R337). -/
def baseOf (mask : Nat) (banks : BitVec 48) : Nat :=
  if mask = 0 then 0 else 262144 * (trailingZeros 48 banks.toNat - trailingZeros 48 mask)

/-- The scalar registers at entry. -/
def entryRegs (r : NodeRec) (base stack : Nat) : Vector Word 64 :=
  Vector.ofFn fun i : Fin 64 =>
    let k := i.val
    if 1 ≤ k ∧ k ≤ 8 then BitVec.ofNat 64 ((r.opers[k - 1]?).elim 0 fun o => o.va)
    else if k = 9 then BitVec.ofNat 64 base
    else if k = 10 then BitVec.ofNat 64 r.optab
    else if k = 30 then BitVec.ofNat 64 stack
    else 0

/-- The physical fields of a context's place. -/
def Ctx.onPhys (c : Ctx) (s : State) : Ctx :=
  let p := (physOf s c.lc).getD c.lc
  { c with pdie := p / 8, pcl := p % 8, pcore := c.lcore, sliced := decide (2 ≤ (sharing s p).length) }

/-- A context of a node's gang as it starts. -/
def launchCtx (s : State) (n : Node) (r : NodeRec) (m : ImageRec) (g total gix : Nat) (k : Seat) : Ctx :=
  let tv := if r.handler = 0 then desc s n.queue 0x38 8 else r.text + 16 * (r.handler - 1)
  let mcore := k.core < 8
  ({ id := { gang := g, gix := gix }, live := true, gcl := k.cl.gcl, glast := total - 1, ldie := k.cl.lc / 8
     lcl := k.cl.lc % 8, lcore := k.core, slotNo := k.slot, pc := BitVec.ofNat 64 (r.text + 16 * r.entry)
     s := entryRegs r (baseOf m.mask k.cl.banks) (if m.stack = 0 then 0 else r.stackva + (gix + 1) * m.stack)
     nbv := r.nbv, detl := n.level, tvec := BitVec.ofNat 64 (tv % 2 ^ 56 / 16 * 16), asid := n.asid, ptbase := n.ptbase
     tcfg := Vector.ofFn fun i : Fin 8 =>
       if mcore then ((r.tiles[i.val]?).elim 0 fun w => w.setWidth 64) else 0
     ntiles := if mcore then r.tiles.length else 0 } : Ctx).onPhys s

/-- The contexts of a gang as they start. -/
def startContexts (s : State) (n : Node) (r : NodeRec) (m : ImageRec) (g : Nat) (seats : List Seat) : List Ctx :=
  seats.mapIdx fun i k => launchCtx s n r m g seats.length i k

/-- The seats of a gang as it keeps them: logical cluster, core and slot. -/
def seatKeys (l : List Seat) : List (Nat × Nat × Nat) := l.map fun k => (k.cl.lc, k.core, k.slot)

/-- The seats that a gang has kept, with its gang clusters (01 R14). -/
def keptSeats (g : Gang) : List Seat :=
  g.seats.filterMap fun p => (g.clusters.find? fun k => k.lc == p.1).map fun k => { cl := k, core := p.2.1, slot := p.2.2 }

/-! ### Dispatch (01 R28, 16 R353, R354) -/

/-- The gang clusters of a placement, numbered by ascending logical cluster (01 R23). -/
def clustersOf (r : NodeRec) (mask : Nat) (pl : List (Nat × Nat)) : List GangCluster :=
  pl.mapIdx fun i p =>
    { gcl := (pl.filter fun q => decide (q.1 < p.1)).length, idx := i, lc := p.1, banks := BitVec.ofNat 48 (mask * 2 ^ p.2)
      altw := (r.clusters[i]?).elim 0 fun c => c.altw }

/-- The links of a gang, each EMPTY (01 R24). -/
def startLinks (r : NodeRec) (g : Nat) (pl : List (Nat × Nat)) : List Link :=
  let lcOf (e : Nat) : Nat := (pl[bits e 8 5]?).elim 0 fun p => p.1
  (r.links.map fun e => ({ id := llinkOf (lcOf e) e, gang := g } : Link)) ++
    r.spares.map fun e => ({ id := llinkOf (lcOf e) e, gang := g, spare := true } : Link)

/-- Whether a resident gang other than g uses array j of a logical cluster. -/
def arrayShared (s : State) (g lc j : Nat) : Bool :=
  (gangsOn s lc).any fun p => p.1.id != g && (gangRec s p.1).any fun r => r.usesArray p.2.idx j

/-- The sowers set the arrays that a gang uses from its record, where no other resident gang uses them (R354). -/
def setArrays (s : State) (g : Nat) (r : NodeRec) (l : List GangCluster) : State :=
  l.foldl (fun s k => (List.range 4).foldl (fun s j =>
    if !r.usesArray k.idx j ∨ arrayShared s g k.lc j then s
    else
      let a : ArrayUnit := { id := k.lc * 4 + j, altw := BitVec.ofNat 4 (r.altwAt k.idx j) }
      { s with arrays := a :: s.arrays.filter fun x => x.id != a.id }) s) s

/-- The first number from v on that is not among some, going round at 2^16; k bounds the search. -/
def firstUnused (used : List Nat) : Nat → Nat → Nat
  | 0, v => v
  | k + 1, v => if used.contains v then firstUnused used k ((v + 1) % 65536) else v

/-- The gang identifiers that are in use. -/
def usedGangs (s : State) : List Nat :=
  (s.gangs.map fun g => g.id) ++ (s.allCtx.map fun c => c.id.gang) ++ (s.flights.map fun f => f.who.gang) ++
    (s.tileOps.map fun t => t.who.gang) ++ s.fleet.staged.map fun x => x.gang

/-- The bytes of the operands that a node writes, each with its address (17 R385). -/
def operandBytes (n : Node) : List Operand → State → List (Nat × List Byte) × State
  | [], s => ([], s)
  | o :: l, s =>
    if o.mode < 2 then operandBytes n l s
    else
      let (d, s) := devLoad s n.asid n.ptbase o.va o.size
      let (rest, s) := operandBytes n l s
      ((o.va, d.getD []) :: rest, s)

/-- Whether a data section lies within a tile operand (15 R340). -/
def Operand.holds (o : Operand) (d : Nat × List Byte) : Bool :=
  decide (o.va ≤ d.1) && decide (d.1 + d.2.length ≤ o.va + o.size)

/-- The bytes of an operand that contains data sections: theirs where they give them, and 0 everywhere else. -/
def Operand.filled (o : Operand) (l : List (Nat × List Byte)) : List Byte :=
  toBytes o.size (l.foldl (fun v d => setBits v (8 * (d.1 - o.va)) (8 * d.2.length) (leAt d.2 0 d.2.length)) 0)

/-- Every tile operand that contains a data section of the image is written before the node is dispatched, whatever its pages
permit; the others hold what they held (15 R340; DESIGN CHOICE, log 48). -/
def fillOperands (s : State) (n : Node) (r : NodeRec) (m : ImageRec) : State :=
  r.opers.foldl (fun s o =>
    match m.data.filter o.holds with
    | [] => s
    | l => devStore s n.asid n.ptbase o.va (o.filled l) .fill) s

/-- Dispatches a node (01 R21): its data sections are written, and then the gang is there with all that it owns, and its
contexts, ready. A node at DETL DUAL first has its operands copied into a shadow, one behind the other (DESIGN
CHOICE, log 23). -/
def dispatchNode (s : State) (n : Node) (r : NodeRec) (m : ImageRec) (pl : List (Nat × Nat)) : State :=
  let s := fillOperands s n r m
  let (v, s) := s.free 16
  let used := usedGangs s
  let g := firstUnused used (used.length + 1) v.toNat
  let cl := clustersOf r m.mask pl
  let (sh, s) := if n.level = 3 then operandBytes n r.opers (allocSave s 1 g (shadowSize r)) else ([], s)
  let s := if n.level = 3 then writeBlock s 1 g (sh.flatMap fun p => p.2) else s
  let seats := seatsOf s r cl
  let cs := startContexts s n r m g seats
  let s := setArrays s g r cl
  let gang : Gang :=
    { id := g, node := n.id, n := cs.length, detl := n.level, nbv := r.nbv, fuse := r.fuse, clusters := cl
      spill := r.spill, spillsz := r.spillsz, asid := n.asid, ptbase := n.ptbase, opers := r.opers
      barriers := Vector.replicate 16 { e := cs.length }, startTime := s.time, shadow := sh
      seats := seatKeys seats }
  let s := s.updNode n.id fun x => { x with state := .running g, firstRun := x.firstRun.or (some s.time) }
  { s with
    gangs := s.gangs ++ [gang]
    links := s.links ++ startLinks r g pl
    others := s.others ++ cs }

/-- Whether the saved contexts of a pre-empted gang find their slots, and the gang its other items, on its own logical
clusters (17 R372). A gang that owes its second run needs the slots of its exited contexts too. -/
def resumeFits (s : State) (g : Gang) : Bool :=
  match gangRec s g with
  | none => false
  | some r =>
    ((s.saved.filter fun c => c.id.gang == g.id).all fun c => (freeSlots s c.lc c.lcore).contains c.slotNo) &&
    (!g.owesRun || g.seats.all fun p => (freeSlots s p.1 p.2.1).contains p.2.2) &&
    g.clusters.all fun k => match physOf s k.lc with
      | none => false
      | some p => !(s.granary.remapPending.any fun w => w.lc == k.lc) && fitsBeside s r k.idx k.lc &&
          k.banks &&& banksHeld s p == 0

/-- The mask of a node's image. -/
def maskOf (s : State) (n : Node) (r : NodeRec) : Nat := (imageOf s n.asid r.text).elim 0 ImageRec.mask

/-- Whether a node of the ready set fits now (01 R28). -/
def nodeFits (s : State) (n : Node) : Bool :=
  match n.state, n.rec? with
  | .ready _, some r =>
    (placement s r (maskOf s n r)).isSome && (n.level != 3 || decide (saveUnits (shadowSize r) ≤ saveFree s))
  | .running g, _ => (s.gang? g).any (resumeFits s)
  | _, _ => false

/-- The order of dispatch: class, time of becoming ready, queue, index (01 R28, 16 R353). -/
def Node.ahead (a b : Node) : Bool :=
  if a.cls ≠ b.cls then decide (a.cls < b.cls)
  else if a.readyAt ≠ b.readyAt then decide (a.readyAt < b.readyAt)
  else if a.queue ≠ b.queue then decide (a.queue < b.queue)
  else if a.index ≠ b.index then decide (a.index < b.index)
  else decide (a.id < b.id)

/-- The first of a list of nodes in the order of dispatch. -/
def firstNode : List Node → Option Node
  | [] => none
  | n :: l => match firstNode l with
    | some m => if n.ahead m then some n else some m
    | none => some n

/-- The node that the granary takes next. -/
def nextNode (s : State) : Option Node :=
  if s.granary.go then none else firstNode (s.granary.nodes.filter fun n => inReadySet s n && nodeFits s n)

/-- NODE_DISPATCH (01 R28): the next node, when its gang has not run before. -/
def execNodeDispatch (s : State) : Host.Outcome State Fault Refusal :=
  match nextNode s with
  | none => .next s
  | some n =>
    match n.state, n.rec? with
    | .ready _, some r =>
      match imageOf s n.asid r.text, placement s r (maskOf s n r) with
      | some m, some pl => .next (dispatchNode s n r m pl)
      | _, _ => .next s
    | _, _ => .next s

/-! ### Completion and kills (01 R27, 16 R355, 17 R379, R380) -/

/-- Whether every token of a gang's contexts has completed. -/
def tokensDone (s : State) (g : Nat) : Bool :=
  !(s.cmds.any fun k => k.who.gang == g) && !(s.armed.any fun a => a.cmd.who.gang == g) &&
    !(s.joins.any fun j => j.who.gang == g) && !(s.tileOps.any fun t => t.who.gang == g && t.tok.isSome) &&
    !(s.links.any fun l => l.gang == g && l.waiting.any fun x => x.tok.isSome)

/-- Whether every context of a gang has executed EXIT. -/
def Gang.exitsDone (g : Gang) : Bool := g.exited.length == g.n

/-- A gang releases what it owns (01 R27). -/
def releaseGang (s : State) (g : Nat) : State :=
  let s := leaveArrays (freeSave (freeSave s 0 g) 1 g) g
  { s with
    gangs := s.gangs.filter fun x => x.id != g
    links := s.links.filter fun l => l.gang != g
    tileOps := s.tileOps.filter fun t => t.who.gang != g
    bankWaits := s.bankWaits.filter fun w => w.who.gang != g }

/-- What a gang reports at its end (16 R355). -/
def reportOf (s : State) (g : Gang) : Report :=
  let hot := if g.detl = 2 then g.written.filter fun w => s.taintMem.contains w.1 else []
  { rflags := g.rflags, doneVal := g.doneVal, taintCount := hot.length
    taintAddr := match hot.map fun w => w.2 with
      | [] => 0
      | a :: l => l.foldl min a }

/-- A gang ends with a status: it releases what it owns, and its node finishes. -/
def concludeGang (s : State) (g : Gang) (status : Nat) : State :=
  let p := reportOf s g
  let s := releaseGang s g.id
  match s.node? g.node with
  | some n => finishNode s n status p
  | none => s

/-- A running command of a killed gang stops with a free subset of its destination bytes written, each with the value that the
command would have given it (17 R380, 09 R237); a reshard that has not read its shard has written none. -/
def stopCmd (s : State) (k : Cmd) : State :=
  match k.body with
  | .copy b =>
    let (ms, s) := reachable k b.ssp b.dsp (b.part k.stage b.total) s
    makeMoves s k b.ssp b.dsp false ms freeSubset
  | .gather b =>
    let (ms, s) := elemReachable k b ((List.range b.count).drop k.stage) s
    makeMoves s k b.ssp b.dsp (b.inOrder k) ms freeSubset
  | .reshard b =>
    if !shardRead k b ∨ k.cancel ∨ k.fault.isSome then s
    else
      let (w, _, _, s) := reshardWrites s k b []
      let (w, s) := freeSubset w s
      putBytes s false w
  | .combine _ => s

/-- An access of a killed gang: each of its granules is performed or not, which is free (17 R379), but for a store that an
L1 has shown to other contexts (10 R257, R263). -/
def loseAccess (s : State) (a : Access) : State :=
  let s := a.todo.foldl (fun s g =>
    if a.kind.writes ∧ a.place = .home then
      let (b, s) := s.free 1
      if b = 1 ∨ a.l1.isSome then (performGranule s a g).2 else s
    else s) s
  dropFlight s a.id

/-- The rows of a TST of a killed gang: a free subset of its granules, with the bytes of the tile (17 R379). -/
def loseRows (s : State) (t : TileFlight) : State :=
  match t.op, t.tile with
  | .store _ rows sp, some x =>
    let w := rows.flatMap fun r => r.2.2.zip (x.rowImage t.ha r.1)
    let (gs, s) := freeSubset (granulesOf (w.map Prod.fst)) s
    putBytes s sp (w.filter fun p => gs.contains (granule p.1))
  | _, _ => s

/-- The drain of a killed gang: its running commands stop, and what its accesses still owed is done in part. -/
def drainKilled (s : State) (g : Nat) : State :=
  let s := (s.cmds.filter fun k => k.who.gang == g).foldl stopCmd s
  let s : State := { s with cmds := s.cmds.filter fun k => k.who.gang != g }
  let s := (s.flights.filter fun f => f.who.gang == g).foldl loseAccess s
  (s.tileOps.filter fun t => t.who.gang == g).foldl loseRows s

/-- The final press window of a node (08 R218): every press atomic that is left. -/
def finalWindow (s : State) (g : Nat) : State :=
  (s.updGang g fun x => { x with windows := x.windows ++ [{ cuts := [], all := true }], final := true })

/-- Whether a gang that runs has come to its end (01 R27), its press windows apart. -/
def ended (s : State) (g : Gang) : Bool := g.run == .running && g.exitsDone && tokensDone s g.id

/-- The digest of a run of a DETL DUAL node, over its issuer indices (01 R22) and what it has written; the spec does not
say how it is formed (DESIGN CHOICE, log 12). -/
def runDigest (s : State) (n : Node) (g : Gang) : BitVec 64 × State :=
  let (l, s) := operandBytes n g.opers s
  (Config.dualDigest (List.range g.n) (l.flatMap fun p => p.2), s)

/-- Whether an ended gang has nothing left in its presses; at DETL DUAL also no access in flight. -/
def settled (s : State) (g : Gang) : Bool :=
  g.windows.isEmpty && !pressBusy s g.id &&
    (g.detl != 3 || !(s.flights.any fun f => f.who.gang == g.id))

/-- NODE_COMPLETE (01 R27, 17 R380) of gang arg.gang: a gang that has ended closes its final press window, and then its
node completes; a killed gang drains, and its node fails. -/
def execNodeComplete (s : State) : Host.Outcome State Fault Refusal :=
  match s.gang? s.arg.gang with
  | none => .next s
  | some g =>
    match g.run with
    | .killing k => .next (concludeGang (drainKilled s g.id) g k)
    | .running =>
      if !ended s g then .next s
      else if !g.final ∧ pressBusy s g.id then .next (finalWindow s g.id)
      else if !settled s g then .next s
      else if g.detl ≠ 3 then .next (concludeGang s g 0)
      else match g.digest1, s.node? g.node with
        | some d, some n =>
          let (e, s) := runDigest s n g
          .next (concludeGang s g (if d = e then 0 else 0x71))
        | _, _ => .next s
    | _ => .next s

/-- DUAL_SECOND_RUN (17 R385) of gang arg.gang: once the first run has ended and left its slots, the operands are restored
from the shadow and the node runs again, each context in the slot that it had (01 R14). -/
def execDualSecondRun (s : State) : Host.Outcome State Fault Refusal :=
  match s.gang? s.arg.gang with
  | none => .next s
  | some g =>
    match s.node? g.node, gangRec s g with
    | some n, some r =>
      match imageOf s n.asid r.text with
      | none => .next s
      | some m =>
        if g.detl ≠ 3 ∨ g.run2 ∨ !ended s g ∨ !settled s g ∨ s.allCtx.any (fun c => c.id.gang == g.id) then .next s
        else
          let (d, s) := runDigest s n g
          let s := g.shadow.foldl (fun s p => devStore s n.asid n.ptbase p.1 p.2) s
          let cs := startContexts s n r m g.id (keptSeats g)
          let s := (leaveArrays s g.id).updGang g.id fun x =>
            { x with run2 := true, digest1 := some d, exited := [], final := false, rflags := 0, doneVal := 0,
                     fenceRounds := 0, commitRounds := 0,
                     barriers := Vector.replicate 16 { e := x.n }, chains := Vector.replicate 32 {} }
          .next { s with
            links := s.links.map fun l => if l.gang = g.id then { id := l.id, gang := l.gang, spare := l.spare } else l
            others := s.others ++ cs }
    | _, _ => .next s

/-- DUAL_SHADOW_ERROR (20 R420): an uncorrectable error in the shadow of gang arg.gang, which its node holds until it ends,
fails the node. -/
def execDualShadowError (s : State) : Host.Outcome State Fault Refusal :=
  if (s.gang? s.arg.gang).any fun g => g.detl == 3 then
    .next (endGang s s.arg.gang (0x40 + Cause.registerUncorrectable.code))
  else .next s

/-! ### Pre-emption (17 R372 to R378) -/

/-- The size of a gang's save block (20 R420). -/
def saveSize (s : State) (g : Nat) : Nat :=
  0x1000 + 0x51000 * (s.links.filter fun l => l.gang == g).length +
    ((s.gangCtx g).map fun c => 0x12000 + 0x11000 * c.ntiles).sum

/-- The package without a gang. -/
def withoutGang (s : State) (g : Nat) : State :=
  { s with
    gangs := s.gangs.filter fun x => x.id != g
    links := s.links.filter fun l => l.gang != g
    others := s.others.filter fun c => c.id.gang != g
    ctx := if s.ctx.id.gang = g then { s.ctx with live := false } else s.ctx }

/-- Whether gang g may be pre-empted for node n (17 R372). -/
def mayPreempt (s : State) (n : Node) (g : Gang) : Bool :=
  g.run == .running && !g.aborting &&
    ((s.node? g.node).any fun m => decide (n.cls + 2 ≤ m.cls)) && decide (saveUnits (saveSize s g.id) ≤ saveFree s) &&
    nodeFits (withoutGang s g.id) n

/-- The class of a gang's node. -/
def classOfGang (s : State) (g : Gang) : Nat := (s.node? g.node).elim 0 fun n => n.cls

/-- The gang of a list that is pre-empted first: the highest class, then the one that started last. -/
def worstGang (s : State) : List Gang → Option Gang
  | [] => none
  | g :: l => match worstGang s l with
    | none => some g
    | some h =>
      if classOfGang s h < classOfGang s g ∨ (classOfGang s h = classOfGang s g ∧ h.startTime < g.startTime) then some g
      else some h

/-- The gang that the granary pre-empts now, if any. -/
def victim (s : State) : Option Gang :=
  let waiting := s.granary.nodes.filter fun n => inReadySet s n && decide (2 ≤ n.waits) && !nodeFits s n
  match firstNode (waiting.filter fun n => s.gangs.any (mayPreempt s n)) with
  | none => none
  | some n => worstGang s (s.gangs.filter (mayPreempt s n))

/-- A context stops at its bundle boundary, unless it stands inside a harrow span (17 R373, 14 R313). -/
def Ctx.stopNow (c : Ctx) : Ctx :=
  if c.inSpan then c
  else match c.status with
    | .ready => { c with status := .stopped [], running := false }
    | .blocked l => { c with status := .stopped l, running := false }
    | _ => c

/-- The rows at which a pre-emption finds the TLDs and TSTs in execution (06 R174): for each context named, its gang index
and the row, two bytes each. -/
def rowStops (d : List Byte) : List (Nat × Nat) :=
  (List.range (d.length / 4)).map fun i => (leAt d (4 * i) 2, leAt d (4 * i + 2) 2)

/-- A context as a pre-emption begins: a running one whose present bundle holds a TLD or TST in execution stops at a row
boundary of it, any other at its bundle boundary (17 R373). -/
def Ctx.beginStop (l : List (Nat × Nat)) (c : Ctx) : Ctx :=
  match l.find? fun p => p.1 == c.id.gix with
  | some p => if c.running ∧ c.status = .ready ∧ !c.inSpan then { c with rowStop := some p.2 } else c.stopNow
  | none => c.stopNow

/-- Whether a context has stopped or has exited. -/
def Ctx.atRest (c : Ctx) : Bool :=
  match c.status with
  | .stopped _ | .exited => true
  | _ => false

/-- What a gang owes before it can be saved (17 R373, steps 1 to 3): loads, tile operations, contributions, closes into
tiles that have begun to write, and hand-offs in transit. -/
def owesNothing (s : State) (g : Gang) : Bool :=
  ((s.gangCtx g.id).all fun c => c.ocl == 0) && !(s.tileOps.any fun t => t.who.gang == g.id) &&
    (s.links.all fun l => l.gang != g.id || (l.waiting.isEmpty && !l.inTransit)) &&
    g.chains.toList.all fun k => match k.close with
      | some a => !a.acting || (match a.dst with
        | .tile _ => false
        | .spad _ _ => true)
      | none => true

/-- A chain frozen by a pre-emption (06 R169). -/
def Chain.freeze (c : Chain) : Chain :=
  if c.state = .built ∨ c.state = .active then
    { c with state := .frozen, cause := .preempt, left := c.state, close := c.close.map fun a => { a with acting := false } }
  else c

/-- A chain returned to the state that it left. -/
def Chain.thaw (c : Chain) : Chain :=
  if c.state = .frozen ∧ c.cause = .preempt then { c with state := c.left, cause := .none } else c

/-- Saves a stopped gang (17 R373, steps 3 to 5): its chains freeze, and its links and contexts are written into its save
block (R375). What the gang resumes with stands in State.saved and its Gang (DESIGN CHOICE, log 23). -/
def saveGang (s : State) (g : Gang) : State :=
  let s := leaveArrays s g.id
  let gone := (s.gangCtx g.id).map Ctx.flushHarrow
  let s := s.updGang g.id fun x =>
    { x with run := .preempted, chains := x.chains.map Chain.freeze }
  let s := writeBlock s 0 g.id ((s.gang? g.id).elim [] (saveBlock s))
  let s := s.updNode g.node fun n => { n with agedAt := s.time, waits := 0 }
  { s with
    saved := s.saved ++ gone
    others := s.others.filter fun c => c.id.gang != g.id
    ctx := if s.ctx.id.gang = g.id then { s.ctx with live := false } else s.ctx }

/-- Whether a gang that is being pre-empted can be saved now. -/
def readyToSave (s : State) (g : Gang) : Bool := ((s.gangCtx g.id).all Ctx.atRest) && owesNothing s g

/-- Whether the first two steps of a pre-emption have ended (17 R373): every context has stopped, its loads have returned,
and every write owed to its tiles has been made. -/
def tilesSettled (s : State) (g : Gang) : Bool :=
  ((s.gangCtx g.id).all fun c => c.atRest && c.ocl == 0) && !(s.tileOps.any fun t => t.who.gang == g.id) &&
    g.chains.toList.all fun k => match k.close with
      | some a => !a.acting || (match a.dst with
        | .tile _ => false
        | .spad _ _ => true)
      | none => true

/-- The cycles within which step 2 of a pre-emption must end (17 R373). -/
def preemptLimit : Nat := 65536

/-- Notes the gangs whose step 2 has ended in time. -/
def noteStopped (s : State) : State :=
  { s with gangs := s.gangs.map fun g =>
      if g.run = .preempting ∧ !g.drained ∧ s.time ≤ g.preemptSince + preemptLimit ∧ tilesSettled s g then
        { g with drained := true }
      else g }

/-- Whether a pre-emption is late: step 2 has not ended within its limit. -/
def Gang.late (g : Gang) (now : Nat) : Bool := !g.drained && decide (g.preemptSince + preemptLimit < now)

/-- PREEMPT (17 R372, R373). arg.data names the tile transfers in execution at which contexts stop. With a gang being
pre-empted in arg.gang, its contexts that can stop do so, and once it owes nothing it is saved; otherwise the granary
begins to pre-empt a gang that R372 names. -/
def execPreempt (s : State) : Host.Outcome State Fault Refusal :=
  match (s.gangs.find? fun g => g.id == s.arg.gang && g.run == .preempting) with
  | some g =>
    let s := s.updGangCtx g.id fun c => if c.rowStop.isSome then c else c.stopNow
    .next (if readyToSave s g ∧ !g.late s.time then saveGang s g else s)
  | none =>
    if s.gangs.any (fun g => g.run == .preempting) then .next s
    else match victim s with
      | none => .next s
      | some g =>
        let s := allocSave s 0 g.id (saveSize s g.id)
        let s := s.updGang g.id fun x => { x with run := .preempting, preemptSince := s.time, drained := false }
        .next (s.updGangCtx g.id (Ctx.beginStop (rowStops s.arg.data)))

/-- A stopped context goes on where it stopped; one in user mode for which a deferred trap has become due meanwhile is ready
to take it (17 R370). -/
def Ctx.goOn (c : Ctx) : Ctx :=
  let c := { c with rowStop := none }
  match c.status with
  | .stopped [] => { c with status := .ready }
  | .stopped l => { c with status := if c.mode = .user ∧ c.deferred ≠ [] then .ready else .blocked l }
  | _ => c

/-- PREEMPT_ABANDON (17 R373): step 2 of the pre-emption of gang arg.gang has not ended within 65,536 cycles. -/
def execPreemptAbandon (s : State) : Host.Outcome State Fault Refusal :=
  match s.gang? s.arg.gang with
  | none => .next s
  | some g =>
    if g.run = .preempting ∧ g.late s.time then
      let s := (freeSave s 0 g.id).updGang g.id fun x => { x with run := .running }
      .next (s.updGangCtx g.id Ctx.goOn)
    else .next s

/-- A saved context restored (17 R378): one that was blocked reissues its bundle. -/
def Ctx.restored (s : State) (c : Ctx) : Ctx :=
  let c := match c.status with
    | .stopped _ => { c with status := .ready }
    | _ => c
  c.onPhys s

/-- GANG_RESUME (17 R378): the next node, when its gang is pre-empted. -/
def execGangResume (s : State) : Host.Outcome State Fault Refusal :=
  match nextNode s with
  | none => .next s
  | some n =>
    match n.state with
    | .running g =>
      let back := (s.saved.filter fun c => c.id.gang == g).map (Ctx.restored s)
      let s := (freeSave s 0 g).updGang g fun x =>
        { x with run := .running, startTime := s.time, chains := x.chains.map Chain.thaw }
      let s : State := { s with
        saved := s.saved.filter fun c => c.id.gang != g
        others := s.others ++ back }
      .next (match s.gang? g, n.rec? with
        | some x, some r => setArrays s g r x.clusters
        | _, _ => s)
    | _ => .next s

/-- SAVE_BLOCK_ERROR (17 R378): an uncorrectable error in the save block of gang arg.gang kills it. -/
def execSaveBlockError (s : State) : Host.Outcome State Fault Refusal :=
  if (s.gang? s.arg.gang).any fun g => g.run == .preempting || g.run == .preempted then
    .next (endGang s s.arg.gang (0x40 + Cause.registerUncorrectable.code))
  else .next s

end Sys2Proof.Machine
end

