-- ==== Sys2Proof/Machine/Contain.lean ====
section
/-! DEFINITION. Errors and what they do to a context or a gang: illegal words, bundles that cannot be fetched, register
errors, phase abort and DEADLOCK (03 R95, 04 R114, 17 R381 to R384, 20 R414). An event acts on the context or gang in
State.arg; one whose conditions do not hold leaves the state as it is. -/
namespace Sys2Proof.Machine

/-! ### Illegal words and bundles that cannot be fetched -/

/-- Whether a word, with what the header adds to its slot, is no instruction (03 R95). -/
def unassignedWord (w : Nat) (x : Ext) : Bool :=
  match lookDecode w x with
  | .error .illegalInstr => true
  | _ => false

/-- UNASSIGNED_ENCODING (03 R95): the word of the slot in execution is no instruction. -/
def execUnassignedEncoding (s : State) : Host.Outcome State Fault Refusal :=
  if unassignedWord s.bun.word s.bun.ext ∧ s.ctx.live then runSig { legal := false } s fun _ => .stall else .next s

/-- The trap of a bundle boundary at the PC of the context in focus, reported with SLOT 0. -/
def boundaryTrap (s : State) (t : TrapInfo) : State := trapWith { s with bun := {}, pre := none } t none (0, 0)

/-- BUNDLE_FETCH_FAULT (04 R114): the bundle of the context in focus cannot be fetched. A deferred trap comes before it (17
R370). -/
def execBundleFetchFault (s : State) : Host.Outcome State Fault Refusal :=
  if !s.ctx.live ∨ s.ctx.status ≠ .ready ∨ deferredDue s.ctx then .next s
  else match fetchBundle s s.ctx s.ctx.pc with
    | (.error t, s) => .next (boundaryTrap s t)
    | (.ok _, _) => .next s

/-! ### Contexts by name -/

/-- Brings a context into focus, where it is resident. -/
def focusOn (s : State) (w : CtxId) : State :=
  if s.ctx.live ∧ s.ctx.id = w then s
  else match s.others.find? fun c => c.live && c.id == w with
    | none => s
    | some c =>
      { s with
        ctx := c
        others := (if s.ctx.live then [s.ctx] else []) ++ s.others.filter fun x => x.live && x.id != w }

/-- A trap taken by a context at the bundle where it stands, blocked or stopped, none of whose slots takes effect. -/
def trapAt (s : State) (w : CtxId) (cause : Cause) : State :=
  let s := focusOn s w
  if s.ctx.live ∧ s.ctx.id = w then
    boundaryTrap (s.withCtx fun c =>
      { c with status := .ready, running := false, prog := c.prog.filter fun p => p.pc != c.pc }) { cause := cause }
  else s

/-! ### Register errors (17 R381, 20 R414) -/

/-- A register with physical number holds a value that is not known. -/
def spoilReg (s : State) (w : CtxId) (r : Res) : State :=
  match r with
  | .s i =>
    let (v, s) := s.free 64
    if i = 0 then s else s.updCtx w fun c => { c with s := c.s.set i.val v i.isLt }
  | .v i =>
    let (v, s) := s.free 16384
    let (x, s) := s.free 1024
    s.updCtx w fun c => { c with v := c.v.set i.val { elems := v, side := x } i.isLt }
  | .p i =>
    let (v, s) := s.free 1
    if i = 0 then s else s.updCtx w fun c => { c with p := setBit c.p i.val (v == 1) }
  | .m i =>
    let (v, s) := s.free 2048
    s.updCtx w fun c => { c with m := c.m.set i.val v i.isLt }
  | _ => s

/-- A register error that replay cannot repair: the register keeps its bad value, and the bundle that would read it
traps. -/
def badRegister (s : State) (w : CtxId) (r : Res) : State :=
  (spoilReg s w r).updCtx w fun c => { c with badRegs := r :: c.badRegs.filter (· != r) }

/-- Whether the predicate of a slot holds (03 R88). -/
def slotOn (s : State) (x : Slot) : Bool := xor (rdP s x.pred) x.neg

/-- The registers that a slot reads, by physical number: its predicate, and its operands where the predicate holds. -/
def slotNeeds (s : State) (x : Slot) : List Res :=
  (if x.pred = 0 then [] else [.p x.pred]) ++
    (if slotOn s x then (x.ins.elim [] slotReads).map s.src.phys else [])

/-- The trap of the slot in execution, which would read a register with an error; it is counted (20 R413). -/
def badTrap (s : State) : State :=
  slotTrap { s with mgmt := { s.mgmt with regUncorrectable := satAdd64 s.mgmt.regUncorrectable } }
    { cause := .registerUncorrectable }

/-- REGISTER_UNCORRECTABLE (17 R381): register arg.reg, by physical number, of a context has an error: the first bundle that
would read it traps, as it issues. -/
def execRegisterUncorrectable (s : State) : Host.Outcome State Fault Refusal :=
  match s.ctx? s.argCtx with
  | none => .next s
  | some c => .next (badRegister s c.id s.arg.reg)

/-- REGISTER_PARITY_REPLAY (20 R414): a parity error in register arg.reg, by physical number, is repaired from the last 16
bundles of its context; a producer that has left them makes it uncorrectable. -/
def execRegisterParityReplay (s : State) : Host.Outcome State Fault Refusal :=
  match s.ctx? s.argCtx with
  | none => .next s
  | some c =>
    if c.recent.any fun l => l.contains s.arg.reg then
      .next { s with mgmt := { s.mgmt with parityRepaired := satAdd64 s.mgmt.parityRepaired } }
    else .next (badRegister s c.id s.arg.reg)

/-! ### Phase abort (17 R382, R383) -/

/-- The status of a gang killed under R383. -/
def phaseStatus : Nat := 0x40 + Cause.phaseAbort.code

/-- ERROR_CONSUMED (17 R382, R383): a context consumes poisoned data. With an open phase its gang begins to abort the
phase: its contexts stop, those that arg.data names at a row boundary of a tile transfer, and its queued commands are
cancelled. Without one, at a fourth abort, or, with arg.val, during
the recopy of an abort, the gang is killed. -/
def execErrorConsumed (s : State) : Host.Outcome State Fault Refusal :=
  match s.ctx? s.argCtx, s.gang? s.arg.gang with
  | some c, some g =>
    let s := s.updCtx c.id fun x => { x with poisoned := false }
    if g.aborting then (if s.arg.val = 0 ∧ c.phase.isSome then .next s else .next (endGang s g.id phaseStatus))
    else if c.phase.isNone ∨ ((s.gangCtx g.id).any fun x => x.phase.any fun f => decide (3 ≤ f.aborts)) then
      .next (endGang s g.id phaseStatus)
    else
      let s := if g.run = .preempting then freeSave s 0 g.id else s
      let s := s.updGang g.id fun x => { x with aborting := true, run := .running }
      let s := s.updGangCtx g.id (Ctx.beginStop (rowStops s.arg.data))
      let s := (s.cmds.filter fun k => k.who.gang == g.id && !k.started).foldl (fun s k => finishCmd s k .cancelled) s
      .next { s with mgmt := { s.mgmt with phaseAborts := satAdd64 s.mgmt.phaseAborts } }
  | _, _ => .next s

/-- Whether an aborting gang has come to rest: its loads have returned, its tile operations, contributions and acting
closes are over, and its running commands have completed. Loads that wait in a press, and closes that have not begun,
end with the abort itself. -/
def abortReady (s : State) (g : Gang) : Bool :=
  ((s.gangCtx g.id).all Ctx.atRest) &&
    !(s.flights.any fun f => f.who.gang == g.id && f.cls == .l && f.place != .press) &&
    !(s.tileOps.any fun t => t.who.gang == g.id) && !(s.cmds.any fun k => k.who.gang == g.id && k.started) &&
    (s.links.all fun l => l.gang != g.id || (l.waiting.isEmpty && !l.inTransit)) &&
    !(g.chains.toList.any fun k => k.close.any fun a => a.acting)

/-- Discards the press atomics of a gang, on their way or entered: the counts that they hold are released. -/
def dropPress (s : State) (g : Nat) : State :=
  let lost := s.flights.filter fun f => f.who.gang == g && f.place == .press && !f.performed
  let s := lost.foldl (fun s f => (dropFlight s f.id).updCtx f.who fun c =>
    if f.cls = .l then { c with ocl := c.ocl - 1 } else { c with ocs := c.ocs - 1 }) s
  let s := (s.press.filter fun e => e.who.gang == g && e.amo).foldl (fun s e =>
    s.updCtx e.who fun c => { c with ocl := c.ocl - 1 }) s
  ({ s with press := s.press.filter fun e => e.who.gang != g } : State).updGang g fun x => { x with windows := [] }

/-- Every barrier's current phase drops its arrivals (17 R382, step 3). -/
def dropArrivals (s : State) (g : Gang) : State :=
  let s := s.updGangCtx g.id fun c =>
    { c with bar := c.bar.mapFinIdx fun i b h =>
        if b.arrph = some (g.barriers[i]).phase then { b with arrph := none } else b }
  s.updGang g.id fun x => { x with barriers := x.barriers.map fun b => { b with arrivals := 0 } }

/-- Frees every chain of a gang as CHAIN.FREE does. -/
def freeChains (s : State) (g : Nat) : State :=
  (List.finRange 32).foldl (fun s k => if (s.chain g k).state = .idle then s else freeChain s g k) s

/-- The input of an open phase copied again into the context's input buffer (17 R382, step 4). -/
def recopy (s : State) (c : Ctx) : State :=
  match c.phase with
  | none => s
  | some f =>
    match xlateAll c.xl .read (byteRange f.src f.len) none s with
    | (.error _, s) => s
    | (.ok l, s) =>
      let cells := l.map fun p => p.pa
      let s := serveAll s false cells
      { s with spad := s.spad.setBytes (c.lc * 0xC00000 + (if c.parity then f.bufb else f.bufa)) (bytesAt s false cells) }

/-- A context with an open phase back at its checkpoint (17 R382, step 5). -/
def Ctx.restart (g : Gang) (c : Ctx) : Ctx :=
  let c := { c with rowStop := none }
  match c.phase with
  | none => c
  | some f =>
    { c with
      badRegs := c.badRegs.filter fun r => match r with
        | .s _ | .p _ => false
        | _ => true
      s := f.chk.s, p := f.chk.p, pass := f.chk.pass, sc := f.chk.sc, rbs := f.chk.rbs, rbv := f.chk.rbv,
      fpm := f.chk.fpm, fxf := f.chk.fxf, vshape := f.chk.vshape, pc := f.restart, prog := [],
      status := if c.status = .exited then .exited else .ready,
      phase := some { f with aborts := f.aborts + 1 },
      commits := g.commitRounds, fences := g.fenceRounds,
      harrow := { c.flushHarrow.harrow with vacated := [], spanEnd := none, cancelled := none } }

/-- PHASE_RESTART (17 R382, steps 1 to 5) of gang arg.gang: once it has come to rest, the contexts with an open phase
restart, and the others take PHASE_ABORT. -/
def execPhaseRestart (s : State) : Host.Outcome State Fault Refusal :=
  match s.gang? s.arg.gang with
  | none => .next s
  | some g =>
    if !g.aborting then .next s
    else
      let s := s.updGangCtx g.id fun c => if c.rowStop.isSome then c else c.stopNow
      if !abortReady s g then .next s
      else
        let s := dropArrivals (dropPress (freeChains s g.id) g.id) g
        let s := (s.gangCtx g.id).foldl recopy s
        let s := s.updGang g.id fun x => { x with aborting := false }
        let s := s.updGangCtx g.id (Ctx.restart g)
        let rest := (s.gangCtx g.id).filter fun c => c.phase.isNone && !c.exited
        .next (rest.foldl (fun s c => trapAt s c.id .phaseAbort) s)

/-! ### DEADLOCK (17 R384) -/

/-- What the slots of a blocked bundle have done so far, undone: an arrival is withdrawn (08 R226), and a press fence or
commit is not counted. -/
def undoBlocked (s : State) (c : Ctx) : Block → State
  | .barrier b _ =>
    let i : Fin 16 := Fin.ofNat 16 b
    match s.gang? c.id.gang with
    | none => s
    | some g =>
      if (c.bar.get i).arrph = some (g.barriers.get i).phase ∧ c.prog.any (fun p => p.pc == c.pc && p.bar == some b) then
        updBarrier (s.updCtx c.id fun c => c.setBar i fun k => { k with arrph := none }) c.id.gang i fun k =>
          { k with arrivals := k.arrivals - 1 }
      else s
  | .pressFence _ => s.updCtx c.id fun c => { c with fences := c.fences - 1 }
  | .commit _ => s.updCtx c.id fun c => { c with commits := c.commits - 1 }
  | .invr i => { s with invals := s.invals.filter fun v => v.id != i }
  | _ => s

/-- DEADLOCK taken by a context at its blocked bundle. -/
def deadlockAt (s : State) (c : Ctx) : State :=
  match c.status with
  | .blocked l => trapAt (l.foldl (fun s b => undoBlocked s c b) s) c.id .deadlock
  | _ => s

/-- DEADLOCK_DELIVERY (17 R384): the driver delivers DEADLOCK to the contexts of gang arg.gang that are blocked on an edge
of the cycle that the management core last reported. -/
def execDeadlockDelivery (s : State) : Host.Outcome State Fault Refusal :=
  let hit := (s.gangCtx s.arg.gang).filter fun c => s.mgmt.reported.contains c.id
  let s := hit.foldl deadlockAt s
  let away (l : List CtxId) : List CtxId := l.filter fun w => !(hit.any fun c => c.id == w)
  .next { s with mgmt := { s.mgmt with lastCycle := away s.mgmt.lastCycle, reported := away s.mgmt.reported } }

end Sys2Proof.Machine
end

