-- ==== Sys2Proof/Machine/Counters.lean ====
section
/-! DEFINITION. The counter block (20 R413), the summary of a RESYNC (16 R358) and what BAR0 reads (16 R344). -/
namespace Sys2Proof.Machine

/-! ### Counters (20 R413) -/

/-- The number of arrays fitted. -/
def State.narr (s : State) : Nat := s.dies * 32

/-- The counters of an array, by its argument. -/
def State.arrayCount (s : State) (a : Nat) : ArrayCount := (s.mgmt.arrays.find? fun x => x.arr == a).getD { arr := a }

/-- The entry of an array. -/
def arrayEntry (a : ArrayCount) : List Byte :=
  toBytes 2 a.arr ++ toBytes 1 a.out.toNat ++ toBytes 1 0 ++ toBytes 4 a.window ++ toBytes 4 a.corrected ++
    toBytes 4 a.uncorrected

/-- Pairs of counters of 8 bytes. -/
def pairBytes (l : List (Nat × Nat)) : List Byte := l.flatMap fun p => toBytes 8 p.1 ++ toBytes 8 p.2

/-- The counter block. -/
def counterBlock (s : State) : List Byte :=
  let m := s.mgmt
  toBytes 4 0x434E5443 ++ toBytes 2 1 ++ toBytes 2 s.narr ++ toBytes 8 m.windowWall ++ toBytes 8 m.parityRepaired ++
    toBytes 8 m.regUncorrectable ++ toBytes 8 m.chkExecuted ++ toBytes 8 m.chkMismatch ++ toBytes 8 m.commitPoints ++
    toBytes 8 m.phaseAborts ++ ((List.range s.narr).flatMap fun a => arrayEntry (s.arrayCount a)) ++
    ((m.crcRetries.zip m.deadDecl).flatMap fun p => toBytes 8 p.1 ++ toBytes 4 p.2 ++ toBytes 4 0) ++
    pairBytes m.hbm ++ pairBytes m.l2

/-! ### Firmware -/

/-- The firmware that runs (20 R418): the sowers', or the management core's; as delivered, or as installed since. -/
def Mgmt.running (m : Mgmt) (sower : Bool) : Signed :=
  (if sower then m.fwSower else m.fwCore).getD
    { image := Config.firmwareImage sower.toNat, sig := Config.firmwareSig sower.toNat }

/-- The firmware images that run, as one string in boot order. -/
def runningImages (s : State) : List Byte := (s.mgmt.running false).image ++ (s.mgmt.running true).image

/-- The version of the firmware that runs. -/
def firmwareVersion (s : State) : Nat := (Config.firmwareVersion (runningImages s)).toNat

/-! ### The summary of a RESYNC (16 R358) -/

/-- The nodes that the head packet of a queue would take, where it is a NODE or GRAPH packet that may be taken. -/
def headNodes (s : State) (q : Nat) : Nat :=
  let x := s.queue q
  if !x.en ∨ x.head = x.tail then 0
  else
    let (d, s) := headPacket s q
    if !mayTake { s with granary := { s.granary with go := false } } q d then 0
    else match leAt d 0 1 with
      | 1 => 1
      | 2 => match (devLoad s (BitVec.ofNat 64 (desc s q 0xC 2)) (BitVec.ofNat 64 (desc s q 0x10 8)) (leAt d 8 8) 16).1 with
        | some h => leAt h 0 2
        | none => 1
      | _ => 0

/-- Whether the head packet of a queue waits for granary room. -/
def waitsRoom (s : State) (q : Nat) : Bool := headNodes s q != 0 && decide (16384 < admitted s + headNodes s q)

/-- A queue's entry. -/
def queueEntry (s : State) (x : Queue) : List Byte :=
  let flags := x.err.toNat + 2 * (x.detWait.isSome || !x.insns.isEmpty).toNat + 4 * (waitsRoom s x.id).toNat
  toBytes 2 x.id ++ toBytes 1 x.detl ++ toBytes 1 flags ++ toBytes 4 x.head.toNat ++ toBytes 4 x.tail.toNat ++
    toBytes 4 (s.granary.nodes.filter fun n => n.queue == x.id && !n.done).length

/-- The state code of a gang. -/
def gangState (g : Gang) : Nat :=
  match g.run with
  | .killing _ => 3
  | .preempted => 1
  | _ => if g.run2 then 2 else 0

/-- The chain byte of a gang's entry. -/
def chainByte (c : Chain) : Nat := c.state.code + 8 * c.reportedCause

/-- A gang's entry, with the number of its queue. -/
def gangEntry (s : State) (g : Gang) (n : Option Node) : List Byte :=
  toBytes 2 g.id ++ toBytes 2 (n.elim 0 fun n => n.queue) ++ toBytes 1 (gangState g) ++ toBytes 1 g.detl ++ toBytes 1 g.nbv ++
    toBytes 1 g.rflags.toNat ++ toBytes 2 g.n ++
    toBytes 2 (s.links.filter fun l => l.gang == g.id && l.spare && l.chain.isNone).length ++ toBytes 4 0 ++
    toBytes 8 (n.elim 0 fun n => n.tag.toNat) ++ toBytes 8 (n.elim 0 fun n => n.firstRun.getD 0) ++
    g.chains.toList.flatMap fun c => toBytes 1 (chainByte c)

/-- The gangs in the order of their queue and then of their identifier. -/
def gangsInOrder (s : State) : List (Gang × Option Node) :=
  (sortKeys (s.gangs.map fun g =>
    let n := s.node? g.node
    ((n.elim 0 fun n => n.queue) * 65536 + g.id, (g, n)))).map fun p => p.2

/-- The entry of a pending fault: a deferred trap that a context has not yet taken. -/
def faultEntry (w : CtxId) (d : Deferred) : List Byte :=
  toBytes 1 d.code ++ toBytes 1 0 ++ toBytes 2 w.gang ++ toBytes 2 w.gix ++ toBytes 2 0 ++ toBytes 8 (d.trapc.toNat / 256)

/-- The pending faults of a gang, by gang index. -/
def faultsOf (s : State) (g : Gang) : List (CtxId × Deferred) :=
  let l := s.gangCtx g.id ++ s.saved.filter fun c => c.id.gang == g.id
  (sortKeys (l.map fun c => (c.id.gix, c))).flatMap fun p => p.2.deferred.map fun d => (p.2.id, d)

/-- The queues whose descriptor has EN = 1, in ascending number; of one that the device has not enabled since by a doorbell
HEAD and TAIL are 0. -/
def enabledQueues (s : State) : List Queue :=
  ((List.range 65536).filter fun q => testBit (desc s q 0xF 1) 0).map fun q =>
    let x := s.queue q
    if x.en then x else { x with head := 0, tail := 0, err := testBit (desc s q 0xF 1) 1, detl := desc s q 0xE 1 % 4 }

/-- The queue table as the device reads it where the host has written it through BAR2 (10 R260). -/
def settleTable (s : State) : State :=
  (s.hbmNew.filter fun g => decide (s.granary.qtbase ≤ g * 64 ∧ g * 64 < s.granary.qtbase + 64 * 65536)).foldl serve s

/-- The whole summary, given the length to which it will be cut. -/
def summary (s : State) (limit : Nat) : List Byte :=
  let qs := enabledQueues s
  let gs := gangsInOrder s
  let fs := gs.flatMap fun p => faultsOf s p.1
  let body := (qs.flatMap (queueEntry s)) ++ (gs.flatMap fun p => gangEntry s p.1 p.2) ++
    fs.flatMap fun p => faultEntry p.1 p.2
  let block := counterBlock s
  let full := 0x40 + body.length + block.length
  toBytes 4 0x59535352 ++ toBytes 2 1 ++ toBytes 1 (decide (limit < full)).toNat ++ toBytes 1 0 ++
    toBytes 8 (caps s).toNat ++ toBytes 8 s.pmap.toNat ++ toBytes 8 s.time ++ toBytes 8 (firmwareVersion s) ++
    toBytes 4 qs.length ++ toBytes 4 gs.length ++ toBytes 4 fs.length ++ toBytes 4 full ++
    toBytes 8 (0x40 + body.length) ++ body ++ block

/-! ### Reads of BAR0 (16 R344) -/

/-- Four REMAP entries as one register. -/
def remapReg (s : State) (i : Nat) : Nat :=
  (List.range 4).foldl (fun v k => v + ((s.granary.remap[4 * i + k]?).elim 0 BitVec.toNat) * 2 ^ (16 * k)) 0

/-- What function f reads with an access of n bytes at an offset of BAR0: 0 but for an aligned access of 8. -/
def bar0Read (s : State) (f off n : Nat) : Nat :=
  if n ≠ 8 ∨ off % 8 ≠ 0 then 0
  else if 0x1000000 ≤ off ∧ off < 0x1000000 + 64 * 65536 then
    if off % 64 = 0 ∧ seesQueue s f ((off - 0x1000000) / 64) then
      ((s.granary.doorbells.find? fun d => d.1 == (off - 0x1000000) / 64).elim 0 fun d => d.2.toNat)
    else 0
  else if f ≠ 0 then 0
  else match off with
    | 0x00 => (caps s).toNat
    | 0x08 => s.granary.qtbase
    | 0x10 => s.granary.aging
    | 0x18 => s.granary.rsaddr + s.granary.go.toNat
    | 0x20 => s.granary.rslen
    | 0x28 => s.saveBase
    | 0x30 => s.mgmt.saveg
    | 0x38 => saveFree s / 65536
    | _ => if 0x40 ≤ off ∧ off < 0x80 then remapReg s ((off - 0x40) / 8) else 0

end Sys2Proof.Machine
end

