-- ==== Sys2Proof/Machine/Host.lean ====
section
/-! DEFINITION. What the host does to the package: BAR0 registers and REMAP (16 R344, R350), RESYNC (R358), and accesses
through BAR2 and CXL.mem (10 R260). An access outside its window faults. -/
namespace Sys2Proof.Machine

/-- Writes RSADDR and GO (16 R344, R358): nothing while GO reads 1. -/
def writeRs (s : State) (v : Nat) : State :=
  if s.granary.go then s
  else { s with granary := { s.granary with rsaddr := bits v 6 46 * 64, go := testBit v 0 } }

/-- BAR0_REGISTER_WRITE (16 R344): function arg.gix writes arg.val at offset arg.id with an access of arg.val2 bytes; with
arg.sig it reads there instead, into arg.data. -/
def execBar0RegisterWrite (s : State) : Host.Outcome State Fault Refusal :=
  let off := s.arg.id
  let v := s.arg.val % 2 ^ 64
  if 2 ^ 26 < off + s.arg.val2 then .fault .hostOutsideWindow
  else if s.arg.sig ≠ [] then
    .next { s with arg := { s.arg with data := toBytes s.arg.val2 (bar0Read s s.arg.gix off s.arg.val2) } }
  else if s.arg.val2 ≠ 8 ∨ off % 8 ≠ 0 ∨ s.arg.gix ≠ 0 then .next s
  else match off with
    | 0x08 => .next { s with granary := { s.granary with qtbase := bits v 12 40 * 4096 } }
    | 0x10 => .next { s with granary := { s.granary with aging := v % 2 ^ 32 } }
    | 0x18 => .next (writeRs s v)
    | 0x20 => .next { s with granary := { s.granary with rslen := v % 2 ^ 32 } }
    | _ => .next s

/-! ### REMAP (16 R350) -/

/-- The value that an entry has or is about to have. -/
def remapNext (s : State) (lc : Nat) : BitVec 16 :=
  match s.granary.remapPending.find? fun w => w.lc == lc with
  | some w => w.value
  | none => (s.granary.remap[lc]?).getD 0

/-- Whether an entry places its logical cluster on a physical cluster, by the value it has or by one that has not taken
effect yet. -/
def remapOn (s : State) (lc phys : Nat) : Bool :=
  physOf s lc == some phys ||
    s.granary.remapPending.any fun w => w.lc == lc && w.value.getLsbD 15 && w.value.toNat % 32 == phys

/-- Whether writing an entry would place a third logical cluster on one physical cluster, or names a die that is not
fitted. -/
def remapBad (s : State) (lc : Nat) (v : BitVec 16) : Bool :=
  v.getLsbD 15 &&
    (decide (s.dies ≤ v.toNat % 32 / 8) ||
      decide (2 ≤ ((List.range 32).filter fun x => x != lc && remapOn s x (v.toNat % 32)).length))

/-- Records the write of a REMAP entry, which takes effect once no gang is resident there. An entry written with its current
value is not a write (R344). -/
def writeRemap (s : State) (lc : Nat) (v : BitVec 16) : State :=
  let v := v &&& 0x801F
  if (s.granary.remap[lc]?).getD 0 = v ∨ remapBad s lc v then s
  else { s with granary := { s.granary with
    remapPending := s.granary.remapPending.filter (fun w => w.lc != lc) ++ [{ lc := lc, value := v }] } }

/-- REMAP_WRITE (16 R350): the physical function writes arg.val to the register of entries 4 arg.id to 4 arg.id + 3. -/
def execRemapWrite (s : State) : Host.Outcome State Fault Refusal :=
  if s.arg.gix ≠ 0 ∨ 8 ≤ s.arg.id then .next s
  else .next ((List.range 4).foldl (fun s k =>
    writeRemap s (4 * s.arg.id + k) (BitVec.ofNat 16 (bits s.arg.val (16 * k) 16))) s)

/-- Whether a gang is resident on a logical cluster, or a context still stands there. -/
def occupied (s : State) (lc : Nat) : Bool :=
  !(gangsOn s lc).isEmpty || s.allCtx.any fun c => c.lc == lc

/-- The running slices once an entry takes effect (01 R16): a logical cluster that stood alone on the physical cluster that
the entry names runs there, and its slice begins now; the moved one has no slice of its own any more. -/
def slicesAfter (s : State) (w : RemapWrite) : List (Nat × Nat × Nat) :=
  let p := w.value.toNat % 32
  let l := s.granary.slices.filter fun x => x.2.1 != w.lc
  match (sharing s p).filter fun x => x != w.lc with
  | [x] => if w.value.getLsbD 15 then (p, x, s.time) :: l.filter fun y => y.1 != p else l
  | _ => l

/-- REMAP_TAKES_EFFECT (16 R350) of logical cluster arg.id. Contexts elsewhere learn whether their cluster is now
time-sliced (01 R14). -/
def execRemapTakesEffect (s : State) : Host.Outcome State Fault Refusal :=
  match s.granary.remapPending.find? fun w => w.lc == s.arg.id with
  | none => .next s
  | some w =>
    if occupied s w.lc then .next s
    else
      let s : State := { s with granary := { s.granary with
        remap := updateAt w.lc (fun _ => w.value) s.granary.remap
        remapPending := s.granary.remapPending.filter fun x => x.lc != w.lc
        slices := slicesAfter s w } }
      let look (c : Ctx) : Ctx :=
        let p := (physOf s c.lc).getD c.pc8
        { c with sliced := decide (2 ≤ ((List.range 32).filter fun x => physOf s x == some p).length) }
      .next { s with ctx := look s.ctx, others := s.others.map look }

/-! ### RESYNC (16 R358) -/

/-- RESYNC: a write of arg.val to RSADDR with GO; with arg.id not 0, the summary that GO has asked for is written and GO
reads 0. Between the two the granary neither admits nor dispatches. -/
def execResync (s : State) : Host.Outcome State Fault Refusal :=
  if s.arg.id = 0 then .next (writeRs s s.arg.val)
  else if !s.granary.go then .next s
  else
    let s := settleTable s
    let s := devWrite s s.granary.rsaddr ((summary s s.granary.rslen).take s.granary.rslen)
    .next { s with granary := { s.granary with go := false } }

/-! ### Device memory (10 R260) -/

/-- The queues whose descriptor the host has written to with EN clear are off. -/
def noteDisabled (s : State) : State :=
  { s with granary := { s.granary with
      queues := s.granary.queues.map fun x => if x.en ∧ !testBit (desc s x.id 0xF 1) 0 then { x with en := false } else x } }

/-- What a read through BAR2 finds of a granule in HBM: where L2 is newer, whether it has been written back by now is
free. -/
def bar2Granule (s : State) (g : Nat) : State :=
  if s.hbmDirty.contains g then
    let (b, s) := s.free 1
    if b = 1 then settleHbm s g else s
  else s

/-- The byte of HBM at an address. -/
def hbmByte (s : State) (a : Nat) : Byte :=
  if s.hbmDirty.contains (granule a) ∨ s.hbmNew.contains (granule a) then s.hbmHost.get a else s.mem.get a

/-- A write through BAR2 of bytes of one granule: HBM changes, and L2 does not see it. -/
def bar2Write (s : State) (g : Nat) (w : List (Nat × Byte)) : State :=
  let s := bar2Granule s g
  let s : State := if s.hbmDirty.contains g ∨ s.hbmNew.contains g then s
    else { s with hbmHost := s.hbmHost.setBytes (g * 64) (granuleBytes s g) }
  { s with
    hbmHost := s.hbmHost.setAll w
    hbmNew := if s.hbmNew.contains g then s.hbmNew else g :: s.hbmNew }

/-- HOST_BAR2_ACCESS (10 R260): the host writes arg.write at offset arg.val, or reads arg.val2 bytes there into arg.data.
A quiesce delays it (19 R406). -/
def execHostBar2Access (s : State) : Host.Outcome State Fault Refusal :=
  let a := s.arg.val
  match s.arg.write with
  | some d =>
    if s.hbmSize < a + d.length then .fault .hostOutsideWindow
    else if s.fleet.step ≠ .idle then .next s
    else
      let w := (byteRange a d.length).zip d
      .next ((granulesOf (w.map fun p => p.1)).foldl (fun s g =>
        bar2Write s g (w.filter fun p => granule p.1 == g)) s)
  | none =>
    if s.hbmSize < a + s.arg.val2 then .fault .hostOutsideWindow
    else if s.fleet.step ≠ .idle then .next s
    else
      let cells := byteRange a s.arg.val2
      let s := (granulesOf cells).foldl bar2Granule s
      .next { s with arg := { s.arg with data := cells.map (hbmByte s) } }

/-- HOST_CXL_MEM_ACCESS (10 R260): the host writes arg.write at offset arg.val, or reads arg.val2 bytes there into
arg.data, at the home slice. A quiesce delays it (19 R406). -/
def execHostCxlMemAccess (s : State) : Host.Outcome State Fault Refusal :=
  let a := s.arg.val
  match s.arg.write with
  | some d =>
    if s.hbmSize < a + d.length then .fault .hostOutsideWindow
    else if s.fleet.step ≠ .idle then .next s
    else .next (noteDisabled (writeGlobal s [] ((byteRange a d.length).zip d)))
  | none =>
    if s.hbmSize < a + s.arg.val2 then .fault .hostOutsideWindow
    else if s.fleet.step ≠ .idle then .next s
    else
      let cells := byteRange a s.arg.val2
      let s := serveAll s false cells
      .next { s with arg := { s.arg with data := bytesAt s false cells } }

end Sys2Proof.Machine
end

