-- ==== Sys2Proof/Machine/Fleet.lean ====
section
/-! DEFINITION. Furrows and the quiesce protocol (19 R397 to R406), reduction windows' damage (R410), and the events and
replies of the management core (20 R411, R412). A message of the protocol names its mask in arg.val and its sender in
arg.id; one that is not due leaves the state as it is. -/
namespace Sys2Proof.Machine

/-! ### Events and replies of the management core (20 R411, R412) -/

/-- Raises a management event and sends it to the physical function; a full ring drops it, and the next that fits
carries OVERFLOW. -/
def raiseEvent (s : State) (code source arg : Nat) : State :=
  let m := s.mgmt
  let e : MgmtEvent := { code := code, source := source, arg := arg, wall := s.wall }
  if 256 ≤ m.events.length then { s with mgmt := { m with overflow := true, unsolicited := m.unsolicited ++ [e] } }
  else
    let e : MgmtEvent := { e with code := if m.overflow then 0xFF else code }
    { s with mgmt := { m with events := m.events ++ [e], overflow := false, unsolicited := m.unsolicited ++ [e] } }

/-- A reply of the management core: status, and its payload. -/
def reply (s : State) (status : Nat) (payload : List Byte) : State :=
  { s with mgmt := { s.mgmt with
      replies := s.mgmt.replies ++ [toBytes 1 status ++ toBytes 1 0 ++ toBytes 2 payload.length ++ payload] } }

/-- Status 0: the command is done. -/
def replyOk (s : State) : State := reply s 0 []
/-- Status 1: a bad argument. -/
def replyBad (s : State) : State := reply s 1 []
/-- Status 2: the command is refused. -/
def replyRefused (s : State) : State := reply s 2 []

/-! ### The live mask (19 R397) -/

/-- PMAP as a function of the live mask. -/
def pmapOf (m : BitVec 8) : BitVec 24 :=
  let l := (List.range 8).filter fun f => m.getLsbD f
  BitVec.ofNat 24 (((List.range 8).map fun i =>
    (if m.getLsbD i then i else (l[i % l.length]?).getD 0) * 2 ^ (3 * i)).sum)

/-- A mask with a furrow's bit changed. -/
def withFurrow (m : BitVec 8) (f : Nat) (b : Bool) : BitVec 8 := setBit m f b

/-- Changes the fleet's state. -/
def State.updFleet (s : State) (f : Fleet → Fleet) : State := { s with fleet := f s.fleet }

/-- The numbers of the protocol's messages, as Fleet.sent records them: a dead-furrow report, QREQ, DRAINED, INSTALL,
INSTALLED, RESUME and DOMAIN_FAIL. -/
inductive Msg where
  | report
  | qreq
  | drained
  | install
  | installed
  | resume
  | domainFail
  deriving DecidableEq, Repr

/-- The number of a message. -/
def Msg.code : Msg → Nat
  | .report => 0
  | .qreq => 1
  | .drained => 2
  | .install => 3
  | .installed => 4
  | .resume => 5
  | .domainFail => 6

/-- The master sends a message to every package of the domain. -/
def sendAll (s : State) (k : Msg) (m : BitVec 8) : State :=
  s.updFleet fun f => { f with sent := f.sent ++ f.members.map fun p => (k.code, p, m.toNat) }

/-- This package sends a message to the master, whose number the package does not hold. -/
def sendMaster (s : State) (k : Msg) (m : Nat) : State :=
  s.updFleet fun f => { f with sent := f.sent ++ [(k.code, s.pkg, m)] }

/-- The domain cannot continue (19 R398). -/
def domainFails (s : State) : State :=
  raiseEvent (sendMaster (s.updFleet fun f => { f with domainFail := true }) .domainFail s.fleet.live.toNat) 0x06 s.pkg
    s.fleet.live.toNat

/-! ### Detecting a dead furrow (19 R399) -/

/-- A counter in a list raised, saturating at n bits. -/
def countAt (l : List Nat) (i k n : Nat) : List Nat := updateAt i (fun x => min (x + k) (2 ^ n - 1)) l

/-- A port declares its link on a live furrow dead and reports it. -/
def declareDead (s : State) (f : Nat) : State :=
  if !s.fleet.live.getLsbD f ∨ s.fleet.dead.contains f then s
  else
    let s : State := { s with mgmt := { s.mgmt with deadDecl := countAt s.mgmt.deadDecl f 1 32 } }
    sendMaster (s.updFleet fun x => { x with dead := x.dead ++ [f] }) .report f

/-- FLIT_CRC_FAILURE (19 R399): a flit on furrow arg.id has failed after eight link-level retries; with arg.val from 1 to 8
it has come through with that many retries, which are counted all the same (20 R413). -/
def execFlitCrcFailure (s : State) : Host.Outcome State Fault Refusal :=
  let through := decide (1 ≤ s.arg.val ∧ s.arg.val ≤ 8)
  let n := if through then s.arg.val else 8
  let s : State := { s with mgmt := { s.mgmt with crcRetries := countAt s.mgmt.crcRetries s.arg.id n 64 } }
  .next (if through then s else declareDead s s.arg.id)

/-- FURROW_SILENCE (19 R399) on furrow arg.id. -/
def execFurrowSilence (s : State) : Host.Outcome State Fault Refusal := .next (declareDead s s.arg.id)

/-- PLANE_SWITCH_FAULT (19 R399) of plane switch arg.id. -/
def execPlaneSwitchFault (s : State) : Host.Outcome State Fault Refusal := .next (declareDead s s.arg.id)

/-! ### Quiesce and drain (19 R400, R401, R404) -/

/-- A package begins a quiesce toward a mask, or restarts at its drain toward another. -/
def beginQuiesce (s : State) (t : BitVec 8) : State :=
  s.updFleet fun f =>
    { f with
      target := t
      step := .stopping
      since := if f.step = .idle then s.time else f.since
      drainedFrom := []
      installedFrom := [] }

/-- The furrows that a domain may use (19 R397): a Q2 fits furrows 0 to 3 only. -/
def domainMask (s : State) : BitVec 8 := if s.part = .q2 ∨ s.fleet.q2s ≠ [] then 0x0F else 0xFF

/-- The master starts a quiesce toward a mask, its own package's included. -/
def startQuiesce (s : State) (t : BitVec 8) : State :=
  let t := t &&& domainMask s
  if t = 0 then domainFails s else beginQuiesce (sendAll s .qreq t) t

/-- The mask toward which the master works, or the installed one. -/
def currentMask (s : State) : BitVec 8 := if s.fleet.step = .idle then s.fleet.live else s.fleet.target

/-- Whether the master has a report on a furrow that it has not acted on. -/
def reportDue (s : State) (f : Nat) : Bool := s.fleet.master && !s.fleet.domainFail && (currentMask s).getLsbD f

/-- DEAD_FURROW_REPORT (19 R400, R404): the master receives a report for furrow arg.id. -/
def execDeadFurrowReport (s : State) : Host.Outcome State Fault Refusal :=
  if reportDue s s.arg.id then .next (startQuiesce s (withFurrow (currentMask s) s.arg.id false)) else .next s

/-- What a package makes of a message's mask (19 R404). -/
inductive MaskIs where
  | completed
  | target
  | other
  deriving DecidableEq, Repr

/-- How a mask stands to the package. -/
def maskIs (s : State) (t : BitVec 8) : MaskIs :=
  if s.fleet.step ≠ .idle ∧ t = s.fleet.target then .target
  else if t = s.fleet.live then .completed
  else .other

/-- The mask in arg.val. -/
def argMask (s : State) : BitVec 8 := BitVec.ofNat 8 s.arg.val

/-- QREQ (19 R400, R404): toward the mask arg.val. -/
def execQreq (s : State) : Host.Outcome State Fault Refusal :=
  match maskIs s (argMask s) with
  | .other => .next (beginQuiesce s (argMask s))
  | _ => .next s

/-- Whether an access is a remote atomic, or a contribution at DETL FREE, that is unacknowledged on a dead furrow, and so is
lost (19 R403): it is not sent again, whether or not its home or the switch has performed it. -/
def isLost (s : State) (a : Access) : Bool :=
  a.kind.isAtom && (match a.cells.head? with
    | some pa => (isPeer s pa || (a.place == .switch && a.detl == 0)) && s.fleet.dead.contains (furrowOf s pa)
    | none => false)

/-- Whether an access is out on a live furrow (19 R401): its answer is on its way, or its home may perform it. One that waits
at its core's port for a retained request has not been sent. -/
def outOnLive (s : State) (a : Access) : Bool :=
  !a.spad && !isLost s a && (a.performed || mayPerform s a) &&
    !(s.fleet.accs.any fun k => k.acks.contains a.id)

/-- Whether a package has drained (19 R401): every request on a live furrow is answered, the accumulators of live planes are
written, and every END marker has been delivered that no retained request holds back. -/
def mayDrain (s : State) : Bool :=
  s.fleet.step == .stopping && !(s.flights.any (outOnLive s)) && s.clocks.markers.all (behindMarker s) &&
    s.fleet.accs.all fun k => s.fleet.dead.contains k.plane

/-- Whether the furrow of a granule changes under a mask. -/
def furrowMoves (s : State) (t : BitVec 8) (g : Nat) : Bool :=
  let h := hashOf (hashX (g * 64))
  pmapEntry s.pmap h != pmapEntry (pmapOf t) h

/-- L2 gives up a granule: a dirty one is written back, and a clean one is dropped, so that what HBM holds stands. -/
def dropGranule (s : State) (g : Nat) : State :=
  if s.hbmDirty.contains g then settleHbm s g
  else takeHostBytes s g

/-- The slices write back and drop the granules whose home moves, and the cores their L1 copies of them. -/
def writeBack (s : State) (t : BitVec 8) : State :=
  let moved := (s.hbmDirty ++ s.hbmNew).dedup.filter (furrowMoves s t)
  let s := moved.foldl dropGranule s
  { s with l1 := s.l1.filter fun x => !furrowMoves s t x.granule }

/-- The master notes DRAINED from a package; from every package, it sends INSTALL. -/
def noteDrained (s : State) (p : Nat) : State :=
  let f := s.fleet
  if !f.master ∨ f.drainedFrom.contains p ∨ !f.members.contains p then s
  else
    let s := s.updFleet fun f => { f with drainedFrom := p :: f.drainedFrom }
    if s.fleet.members.all fun q => s.fleet.drainedFrom.contains q then sendAll s .install s.fleet.target else s

/-- The master notes INSTALLED from a package; from every package, it sends RESUME. -/
def noteInstalled (s : State) (p : Nat) : State :=
  let f := s.fleet
  if !f.master ∨ f.installedFrom.contains p ∨ !f.members.contains p then s
  else
    let s := s.updFleet fun f => { f with installedFrom := p :: f.installedFrom }
    if s.fleet.members.all fun q => s.fleet.installedFrom.contains q then sendAll s .resume s.fleet.target else s

/-- DRAIN_COMPLETE (19 R401): the package has drained and sends DRAINED. -/
def execDrainComplete (s : State) : Host.Outcome State Fault Refusal :=
  if mayDrain s then
    let s := (writeBack s s.fleet.target).updFleet fun f => { f with step := .drained }
    .next (noteDrained (sendMaster s .drained s.fleet.target.toNat) s.pkg)
  else .next s

/-- DRAINED (19 R400): the master receives it from package arg.id. A mask that is neither the target nor installed acts as a
QREQ (R404). -/
def execDrained (s : State) : Host.Outcome State Fault Refusal :=
  match maskIs s (argMask s) with
  | .target => .next (noteDrained s s.arg.id)
  | .other => .next (beginQuiesce s (argMask s))
  | .completed => .next s

/-! ### Install (19 R402, R410) -/

/-- The marks of the window elements whose furrow goes fallow (19 R410). -/
def newDamage (s : State) (t : BitVec 8) : List Damage :=
  s.fleet.windows.flatMap fun w =>
    ((List.range 8).filter fun h =>
      let f := pmapEntry s.pmap h
      s.fleet.live.getLsbD f && !t.getLsbD f).map fun h => { wid := w.wid, hash := h }

/-- The events of furrows made fallow or returned (20 R412). -/
def furrowEvents (s : State) (old t : BitVec 8) : State :=
  (List.range 8).foldl (fun s f =>
    if old.getLsbD f ∧ !t.getLsbD f then raiseEvent s 0x04 f t.toNat
    else if !old.getLsbD f ∧ t.getLsbD f then raiseEvent s 0x05 f t.toNat
    else s) s

/-- A context without the stamps of its acquires. -/
def Ctx.noStamps (c : Ctx) : Ctx := { c with readStamp := [], acqStamp := [] }

/-- Every epoch, vector clock and DONE counter is set to 0, and no access or granule carries an older stamp. -/
def zeroClocks (s : State) : State :=
  { s with
    clocks := {}
    flights := s.flights.map fun a => { a with stamp := [] }
    cmds := s.cmds.map fun k => { k with stamp := [] }
    armed := s.armed.map fun a => { a with cmd := { a.cmd with stamp := [] } }
    l1 := s.l1.map fun x => { x with stamp := [] }
    tileOps := s.tileOps.map fun t => { t with stamp := [] }
    ctx := s.ctx.noStamps
    others := s.others.map Ctx.noStamps
    saved := s.saved.map Ctx.noStamps
    gangs := s.gangs.map fun g => { g with barriers := g.barriers.map fun b => { b with stamp := [] } } }

/-- Installs a mask: PMAP, the new homes of press entries, the clocks, and the damage of windows. A plane returned to
service starts with empty staging (19 R405). -/
def install (s : State) (t : BitVec 8) : State :=
  let old := s.fleet.live
  let s : State := { s with flights := s.flights.map fun a => if isLost s a then { a with lost := true } else a }
  let s := s.updFleet fun f =>
    { f with
      damaged := f.damaged ++ newDamage s t
      staged := f.staged.filter fun x => x.spilled || old.getLsbD x.plane || !t.getLsbD x.plane
      accs := f.accs.filter fun k => t.getLsbD k.plane || k.acks.any fun i => s.flights.any fun a => a.id == i }
  let s : State := { s with pmap := pmapOf t }
  let s : State := { s with press := s.press.map fun e => { e with slice := pressSlice s e.addr } }
  furrowEvents (zeroClocks (s.updFleet fun f => { f with live := t, step := .installed })) old t

/-- INSTALL (19 R400, R402) of the mask arg.val; a mask that is neither the target nor installed acts as a QREQ. -/
def execInstall (s : State) : Host.Outcome State Fault Refusal :=
  match maskIs s (argMask s) with
  | .target =>
    if s.fleet.step ≠ .drained ∨
        (s.fleet.master && !(s.fleet.members.all fun q => s.fleet.drainedFrom.contains q)) then .next s
    else
      let s := install s s.fleet.target
      .next (noteInstalled (sendMaster s .installed s.fleet.target.toNat) s.pkg)
  | .other => .next (beginQuiesce s (argMask s))
  | .completed => .next s

/-- INSTALLED (19 R400): the master receives it from package arg.id. A mask that is neither the target nor installed acts as
a QREQ (R404). -/
def execInstalled (s : State) : Host.Outcome State Fault Refusal :=
  match maskIs s (argMask s) with
  | .target => .next (noteInstalled s s.arg.id)
  | .other => .next (beginQuiesce s (argMask s))
  | .completed => .next s

/-! ### Resume (19 R403, 08 R222) -/

/-- A lost remote atomic as it was performed before its response was lost: at the home, or by its entry in a press, which
returns nothing. What a plane switch held for a window is lost with it: its targets keep what they hold (19 R410). -/
def performLost (s : State) (a : Access) : State :=
  match a.kind, a.cells.head? with
  | .atom x, some pa =>
    if a.performed ∨ a.place = .switch then s
    else if a.place = .press then { s with press := s.press ++ [{ pressEntry s a x with dest := none, amo := false }] }
    else (applyAtom s a.who a.stamp pa x).2
  | _, _ => s

/-- A lost remote atomic ends: it may or may not have been performed, its count is released, and ATOMIC_UNKNOWN becomes
due with its tag. -/
def loseAtomic (s : State) (a : Access) : State :=
  let (done, s) := s.free 1
  let s := if done = 1 then performLost s a else s
  let (t, s) : BitVec 16 × State := match a.tag with
    | some t => (BitVec.ofNat 16 t, s)
    | none => s.free 16
  let s := s.updFleet fun f =>
    { f with accs := (f.accs.map fun k =>
        let l := (k.atoms.zip k.acks).filter fun p => p.2 != a.id
        { k with atoms := l.map fun p => p.1, acks := l.map fun p => p.2 }).filter fun k => !k.acks.isEmpty }
  let s := (dropFlight s a.id).updCtx a.who fun c =>
    if a.cls = .l then { c with ocl := c.ocl - 1 } else { c with ocs := c.ocs - 1 }
  deferTrap s a.who { cause := .atomicUnknown, xinfo := t.toNat }

/-- Every request that no home has answered is retained, to be sent again before any other (19 R403). -/
def retainAll (s : State) : State :=
  { s with
    flights := s.flights.map fun a => if a.spad ∨ a.performed then a else { a with replay := true }
    tileOps := s.tileOps.map fun t => if t.spad ∨ t.cells = [] then t else { t with replay := true } }

/-- RESUME (19 R400, R403) of the mask arg.val: lost atomics end, and the ports send again what no home has answered and
release what they hold. -/
def execResume (s : State) : Host.Outcome State Fault Refusal :=
  match maskIs s (argMask s) with
  | .target =>
    if s.fleet.step ≠ .installed ∨
        (s.fleet.master && !(s.fleet.members.all fun q => s.fleet.installedFrom.contains q)) then .next s
    else
      let s := (s.flights.filter fun a => a.lost).foldl loseAtomic s
      .next ((retainAll s).updFleet fun f =>
        { f with step := .idle, dead := f.dead.filter fun x => f.live.getLsbD x, drainedFrom := [], installedFrom := [] })
  | .other => .next (beginQuiesce s (argMask s))
  | .completed => .next s

/-- QUIESCE_TIMEOUT (19 R404): the master's quiesce has not come to RESUME within 1 ms. -/
def execQuiesceTimeout (s : State) : Host.Outcome State Fault Refusal :=
  if s.fleet.master ∧ s.fleet.step ≠ .idle ∧ !s.fleet.domainFail ∧ s.fleet.since + 700000 < s.time then .next (domainFails s)
  else .next s

/-- FALLOW (19 R399, 20 R411) of the furrow in the argument byte. -/
def execFallow (s : State) : Host.Outcome State Fault Refusal :=
  let f := leAt s.arg.data 0 1
  if s.arg.data.length ≠ 1 ∨ s.fpln ≤ f then .next (replyBad s)
  else .next (replyOk (declareDead s f))

/-- RESTORE (19 R405, 20 R411) of the furrow in the argument byte, with the outcome of its plane switch's self-test in
arg.val: the master quiesces toward the mask with it. -/
def execRestore (s : State) : Host.Outcome State Fault Refusal :=
  let f := leAt s.arg.data 0 1
  if s.arg.data.length ≠ 1 ∨ s.fpln ≤ f then .next (replyBad s)
  else if s.arg.val = 0 ∨ !s.fleet.master ∨ s.fleet.domainFail ∨ !(domainMask s).getLsbD f then .next (replyRefused s)
  else if (currentMask s).getLsbD f then .next (replyOk s)
  else .next (replyOk (startQuiesce s (withFurrow (currentMask s) f true)))

end Sys2Proof.Machine
end

