-- ==== Sys2Proof/Machine/Mgmt.lean ====
section
/-! DEFINITION. The management core (20 R411 to R422): its commands, error windows and undervolting, arrays out of
service, the wait-for table, power, and package reset. A command finds its arguments in arg.data, and a signature in
arg.sig; its reply joins Mgmt.replies. -/
namespace Sys2Proof.Machine

/-- Changes the management core's state. -/
def State.updMgmt (s : State) (f : Mgmt → Mgmt) : State := { s with mgmt := f s.mgmt }

/-- A command with exactly n bytes of arguments; any other length is a bad argument. -/
def withArgs (s : State) (n : Nat) (f : List Byte → State) : Host.Outcome State Fault Refusal :=
  if s.arg.data.length = n then .next (f s.arg.data) else .next (replyBad s)

/-! ### Status and counters -/

/-- STATUS (20 R411): the order and widths of the fields are the model's; the save region's size and free part are in the
units of BAR0 (R420). -/
def execStatus (s : State) : Host.Outcome State Fault Refusal :=
  withArgs s 0 fun _ =>
    reply s 0 (toBytes 1 s.mgmt.boot ++ toBytes 8 (caps s).toNat ++ toBytes 8 (firmwareVersion s) ++ toBytes 2 s.mgmt.cap ++
      toBytes 2 s.mgmt.power ++ toBytes 8 s.saveBase ++ toBytes 1 s.mgmt.saveg ++ toBytes 4 (saveFree s / 65536))

/-- COUNTERS (20 R411, R413). -/
def execCounters (s : State) : Host.Outcome State Fault Refusal := withArgs s 0 fun _ => reply s 0 (counterBlock s)

/-- The management core with every counter 0; the state of the arrays stands (20 R413). -/
def Mgmt.clear (m : Mgmt) : Mgmt :=
  { m with
    parityRepaired := 0, regUncorrectable := 0, chkExecuted := 0, chkMismatch := 0, commitPoints := 0, phaseAborts := 0
    crcRetries := List.replicate 8 0, deadDecl := List.replicate 8 0, hbm := List.replicate 8 (0, 0)
    l2 := List.replicate 4 (0, 0)
    arrays := m.arrays.map fun a => { a with window := 0, corrected := 0, uncorrected := 0 } }

/-- CLRCNT (20 R411, R413). -/
def execClrcnt (s : State) : Host.Outcome State Fault Refusal := withArgs s 0 fun _ => replyOk (s.updMgmt Mgmt.clear)

/-- Changes the entry of an array, by its argument. -/
def updArray (s : State) (a : Nat) (f : ArrayCount → ArrayCount) : State :=
  let x := f (s.arrayCount a)
  s.updMgmt fun m => { m with arrays := x :: m.arrays.filter fun y => y.arr != a }

/-- SETPFT (20 R411, R415). -/
def execSetpft (s : State) : Host.Outcome State Fault Refusal :=
  withArgs s 4 fun d =>
    let a := leAt d 0 2
    let t := leAt d 2 2
    if a = 0xFFFF then replyOk ((List.range s.narr).foldl (fun s a => updArray s a fun x => { x with pft := t }) s)
    else if s.narr ≤ a then replyBad s
    else replyOk (updArray s a fun x => { x with pft := t })

/-- The strikes of a die's arrays cleared. -/
def clearStrikes (s : State) (die : Nat) : State :=
  s.updMgmt fun m => { m with arrays := m.arrays.map fun x => if x.arr / 32 = die then { x with strikes := 0 } else x }

/-- SETUV (20 R411, R415): the offset, rounded down to a multiple of 5 mV, lies between 0 and 60 mV. -/
def execSetuv (s : State) : Host.Outcome State Fault Refusal :=
  withArgs s 2 fun d =>
    let die := leAt d 0 1
    let mv := leAt d 1 1 / 5 * 5
    if s.dies ≤ die ∨ 60 < mv then replyBad s
    else replyOk (clearStrikes (s.updMgmt fun m => { m with uv := updateAt die (fun _ => mv) m.uv }) die)

/-! ### Power (20 R422) -/

/-- The greatest cap of the part. -/
def maxCap (s : State) : Nat := if s.part = .q4 then 1800 else 1000

/-- Throttling begins while the measured power exceeds the cap, and ends when it does not. -/
def judgePower (s : State) : State :=
  let high := decide (s.mgmt.cap < s.mgmt.power)
  let s' := s.updMgmt fun m => { m with throttle := high }
  if high ∧ !s.mgmt.throttle then raiseEvent s' 0x07 0 (s.mgmt.power - s.mgmt.cap) else s'

/-- SETPCAP (20 R411, R422). -/
def execSetpcap (s : State) : Host.Outcome State Fault Refusal :=
  withArgs s 2 fun d =>
    let w := leAt d 0 2
    if w < 300 ∨ maxCap s < w then replyRefused s
    else replyOk (judgePower (s.updMgmt fun m => { m with cap := w }))

/-- POWER_OVER_CAP (20 R422): the core measures arg.val watts. -/
def execPowerOverCap (s : State) : Host.Outcome State Fault Refusal :=
  .next (judgePower (s.updMgmt fun m => { m with power := s.arg.val }))

/-- PLDM_SENSOR_READ (20 R411): a reading of sensor arg.id. -/
def execPldmSensorRead (s : State) : Host.Outcome State Fault Refusal :=
  let v := Config.sensor s.arg.id s.freeIx
  .next (reply { s with freeIx := s.freeIx + 1 } 0 (toBytes 8 v))

/-! ### Arrays out of service (20 R415, R416) -/

/-- The logical clusters that a physical cluster hosts, or is about to host. -/
def hosted (s : State) (phys : Nat) : List Nat :=
  (List.range 32).filter fun lc => (remapNext s lc).getLsbD 15 && (remapNext s lc).toNat % 32 == phys

/-- Whether a physical cluster is in service: none of its arrays is out. -/
def inService (s : State) (phys : Nat) : Bool := !(s.mgmt.arrays.any fun a => a.arr / 4 == phys && a.out)

/-- The entry that takes a logical cluster from a physical one: the lowest-numbered cluster of the die that is in service
and hosts exactly one logical cluster, or V = 0. -/
def newEntry (s : State) (phys : Nat) : BitVec 16 :=
  match (List.range 32).find? fun p =>
      p / 8 == phys / 8 && p != phys && inService s p && ((List.range 32).filter fun x => remapOn s x p).length == 1 with
  | some p => BitVec.ofNat 16 (0x8000 + p)
  | none => 0

/-- The management core writes a REMAP entry; the value that it holds already needs no wait. -/
def rewriteRemap (s : State) (lc : Nat) (v : BitVec 16) : State :=
  if (s.granary.remap[lc]?).getD 0 = v then
    { s with granary := { s.granary with remapPending := s.granary.remapPending.filter fun w => w.lc != lc } }
  else writeRemap s lc v

/-- Moves the logical clusters of a physical cluster away, and keeps what their entries held, with what earlier moves have
kept. -/
def moveAway (s : State) (phys : Nat) : State :=
  (hosted s phys).foldl (fun s lc =>
    let old := remapNext s lc
    (rewriteRemap s lc (newEntry s phys)).updMgmt fun m =>
      { m with moved := (phys, lc, old.toNat) :: m.moved }) s

/-- Whether an ARRAYOUT for a physical cluster is ignored. -/
def outIgnored (s : State) (phys : Nat) : Bool :=
  !inService s phys || (hosted s phys).any fun lc => s.granary.remapPending.any fun w => w.lc == lc

/-- Takes an array, and with it its physical cluster, out of service. -/
def takeOut (s : State) (a : Nat) : State :=
  if outIgnored s (a / 4) then s else moveAway (updArray s a fun x => { x with out := true }) (a / 4)

/-- ARRAYOUT (20 R411, R416). -/
def execArrayout (s : State) : Host.Outcome State Fault Refusal :=
  withArgs s 2 fun d => if s.narr ≤ leAt d 0 2 then replyBad s else replyOk (takeOut s (leAt d 0 2))

/-- The moves that are left once the move of a logical cluster away from a physical one has been undone: those before it, and
those of other logical clusters. -/
def unmoved (phys lc : Nat) : List (Nat × Nat × Nat) → List (Nat × Nat × Nat)
  | [] => []
  | x :: l =>
    if x.2.1 ≠ lc then x :: unmoved phys lc l
    else if x.1 = phys then l
    else unmoved phys lc l

/-- Returns an array to service; the moves of its physical cluster are undone once none of its arrays is out, and with a move
those that its logical cluster has made since. -/
def takeIn (s : State) (a : Nat) : State :=
  let s := updArray s a fun x => { x with out := false, strikes := 0 }
  if !inService s (a / 4) then s
  else
    (s.mgmt.moved.filter fun x => x.1 == a / 4).foldl (fun s x =>
      (rewriteRemap s x.2.1 (BitVec.ofNat 16 x.2.2)).updMgmt fun m => { m with moved := unmoved x.1 x.2.1 m.moved }) s

/-- ARRAYIN (20 R411, R416). -/
def execArrayin (s : State) : Host.Outcome State Fault Refusal :=
  withArgs s 2 fun d => if s.narr ≤ leAt d 0 2 then replyBad s else replyOk (takeIn s (leAt d 0 2))

/-- The third strike of an array: it goes out of service, and ARRAYPF names each logical cluster that moved. -/
def strikeOut (s : State) (a : Nat) : State :=
  let lcs := if outIgnored s (a / 4) then [] else hosted s (a / 4)
  let s := takeOut s a
  match lcs with
  | [] => raiseEvent s 0x02 a 0
  | _ => lcs.foldl (fun s lc => raiseEvent s 0x02 a (lc + (remapNext s lc).toNat * 2 ^ 16)) s

/-- Judges one array at the end of a window. -/
def judgeArray (s : State) (a : Nat) : State :=
  let x := s.arrayCount a
  let die := a / 32
  if x.pft ≠ 0 ∧ x.pft < x.window then
    if 0 < (s.mgmt.uv[die]?).getD 0 then
      raiseEvent (updArray (s.updMgmt fun m => { m with uv := updateAt die (fun _ => 0) m.uv }) a
        fun y => { y with strikes := 0 }) 0x01 die x.window
    else
      let s := updArray s a fun y => { y with strikes := y.strikes + 1 }
      if x.strikes + 1 = 3 then strikeOut s a else s
  else updArray s a fun y => { y with strikes := 0 }

/-- Counts the errors that the hardware has corrected in a window and that no step of the model shows: 4 bytes for each
array, then 4 corrected and 4 uncorrected for each of the eight HBM stacks and the four L2s. -/
def countErrors (s : State) (d : List Byte) : State :=
  let s := (List.range s.narr).foldl (fun s a =>
    let n := leAt d (4 * a) 4
    if n = 0 then s else updArray s a fun x => { x with window := satAdd32 x.window n, corrected := satAdd32 x.corrected n }) s
  let add (base : Nat) (i : Nat) (p : Nat × Nat) : Nat × Nat :=
    (min (p.1 + leAt d (base + 8 * i) 4) (2 ^ 64 - 1), min (p.2 + leAt d (base + 8 * i + 4) 4) (2 ^ 64 - 1))
  s.updMgmt fun m => { m with
    hbm := m.hbm.mapIdx (add (4 * s.narr))
    l2 := m.l2.mapIdx (add (4 * s.narr + 64)) }

/-- ERROR_WINDOW_END (20 R415): a window of 700,000,000 cycles has ended; arg.data counts its corrected errors. -/
def execErrorWindowEnd (s : State) : Host.Outcome State Fault Refusal :=
  if s.time < s.mgmt.windowStart + 700000000 then .next s
  else
    let s := (List.range s.narr).foldl judgeArray (countErrors s s.arg.data)
    .next (s.updMgmt fun m => { m with
      windowStart := m.windowStart + 700000000
      windowWall := s.wall
      arrays := m.arrays.map fun x => { x with window := 0 } })

/-! ### KILL (20 R411, 17 R379) -/

/-- KILL: a gang that is being pre-empted is killed once that is over; one of a reported cycle fails with status 0x70
(17 R384). -/
def execKill (s : State) : Host.Outcome State Fault Refusal :=
  withArgs s 2 fun d =>
    let g := leAt d 0 2
    let drop (s : State) : State := s.updMgmt fun m => { m with kills := m.kills.filter (· != g) }
    match s.gang? g with
    | none => replyBad (drop s)
    | some x =>
      if x.run = .preempting then s.updMgmt fun m => { m with kills := g :: m.kills.filter (· != g) }
      else
        let cycle := s.mgmt.reported.any fun w => w.gang == g
        replyOk (endGang (drop s) g (if cycle then 0x40 + Cause.deadlock.code else 0xC0))

/-! ### Reduction windows (19 R408) -/

/-- The HBM of a package of the domain, in bytes (16 R343, 19 R408). -/
def homeSize (s : State) (p : Nat) : Nat :=
  if p = s.pkg then s.hbmSize else if s.fleet.q2s.contains p then 2 ^ 38 else 2 ^ 39

/-- Whether the record of a window keeps to R408, and the window is new and overlaps no other. -/
def windowOk (s : State) (d : List Byte) : Bool :=
  let wid := leAt d 0 2
  let home := leAt d 2 1
  let base := leAt d 8 8
  let len := leAt d 0x10 8
  let spill := leAt d 0x18 8
  let spilllen := leAt d 0x20 8
  decide (wid ≤ 63) && leAt d 3 1 == 1 && leAt d 4 4 == 0 && leAt d 0x28 24 == 0 && s.fleet.members.contains home &&
    base % 2 ^ 21 == 0 && len % 2 ^ 21 == 0 && decide (2 ^ 21 ≤ len ∧ len ≤ 2 ^ 36 ∧ base + len ≤ homeSize s home) &&
    spill % 64 == 0 && spilllen % 32 == 0 && decide (spill < homeSize s home ∧ spill + spilllen ≤ homeSize s home) &&
    s.fleet.windows.all fun w => w.wid != wid && (w.home != home || decide (base + len ≤ w.base ∨ w.base + w.len ≤ base))

/-- WINREG (20 R411, 19 R408). -/
def execWinreg (s : State) : Host.Outcome State Fault Refusal :=
  withArgs s 64 fun d =>
    if !windowOk s d then replyRefused s
    else
      let w : RedWindow := { wid := leAt d 0 2, home := leAt d 2 1, base := leAt d 8 8, len := leAt d 0x10 8,
                             spill := leAt d 0x18 8, spilllen := leAt d 0x20 8 }
      replyOk (s.updFleet fun f => { f with windows := f.windows ++ [w] })

/-- WINDEL (20 R411, 19 R408): all staging of the window is discarded. -/
def execWindel (s : State) : Host.Outcome State Fault Refusal :=
  withArgs s 2 fun d =>
    let wid := leAt d 0 2
    if s.fleet.windows.all fun w => w.wid != wid then replyBad s
    else
      let there (pa : Nat) : Bool := (windowOf s pa).any fun w => w.wid == wid
      replyOk (s.updFleet fun f => { f with
        windows := f.windows.filter fun w => w.wid != wid
        staged := f.staged.filter fun x => !there x.addr
        damaged := f.damaged.filter fun x => x.wid != wid })

/-! ### Keys, firmware and attestation (20 R411, R418, R419) -/

/-- The SETID of a physical cluster's rule table; zeros where it holds none. -/
def setidOf (s : State) (cl : Nat) : List Byte :=
  match s.rules.find? fun t => t.cluster == cl with
  | some t => t.setid
  | none => List.replicate 16 0

/-- The signatures that the identity key has left. -/
def signaturesLeft (s : State) : Nat := 2 ^ 20 - s.mgmt.identityUsed

/-- ATTEST (20 R411, R419): the index is stored before the signature is released. -/
def execAttest (s : State) : Host.Outcome State Fault Refusal :=
  withArgs s 32 fun nonce =>
    if signaturesLeft s = 0 then replyRefused s
    else
      let n := s.mgmt.identityUsed
      let s := s.updMgmt fun m => { m with identityUsed := n + 1 }
      let left := signaturesLeft s
      let msg := nonce ++ toBytes 8 (caps s).toNat ++ toBytes 8 (firmwareVersion s) ++
        shake256 (runningImages s) ++ shake256 ((List.range (8 * s.dies)).flatMap (setidOf s)) ++ toBytes 4 n ++ toBytes 4 left ++ toBytes 8 s.wall
      let s := reply s 0 (msg ++ toBytes 2820 (Config.xmssSign n msg).toNat)
      if left ≤ 4096 then raiseEvent s 0x08 0 left else s

/-- An event as it is returned (20 R412). -/
def MgmtEvent.bytes (e : MgmtEvent) : List Byte :=
  toBytes 1 e.code ++ toBytes 1 0 ++ toBytes 2 e.source ++ toBytes 4 e.arg ++ toBytes 8 e.wall

/-- EVENTS (20 R411, R412). -/
def execEvents (s : State) : Host.Outcome State Fault Refusal :=
  withArgs s 0 fun _ =>
    reply (s.updMgmt fun m => { m with events := m.events.drop 16 }) 0 ((s.mgmt.events.take 16).flatMap MgmtEvent.bytes)

/-- SIGLOW for the firmware key, which a signature of its shows to have 4,096 signatures or fewer left (20 R412; DESIGN
CHOICE, log 74). -/
def firmwareSigLow (s : State) (sig : List Byte) : State :=
  let left := xmssLeft sig
  if left ≤ 4096 then raiseEvent s 0x08 1 left else s

/-- KEYUPD (20 R411): the rule-signing key in arg.data, signed in arg.sig with the firmware key. -/
def execKeyupd (s : State) : Host.Outcome State Fault Refusal :=
  if xmssVerify s.mgmt.fwKey s.arg.data s.arg.sig then
    .next (firmwareSigLow (replyOk (s.updMgmt fun m => { m with ruleKeyNext := some s.arg.data })) s.arg.sig)
  else .next (replyRefused s)

/-- FWUPD (20 R411, R418): the image in arg.data and its signature in arg.sig are staged, the management core's image, or with
arg.id not 0 the sowers' (DESIGN CHOICE, log 74). -/
def execFwupd (s : State) : Host.Outcome State Fault Refusal :=
  let x : Signed := { image := s.arg.data, sig := s.arg.sig }
  .next (replyOk (s.updMgmt fun m => if s.arg.id = 0 then { m with coreStaged := some x } else { m with sowerStaged := some x }))

/-- SETSAVE (20 R411, R420). -/
def execSetsave (s : State) : Host.Outcome State Fault Refusal :=
  withArgs s 1 fun d =>
    let g := leAt d 0 1
    if g < 1 ∨ 64 < g then replyRefused s else replyOk (s.updMgmt fun m => { m with savegNext := g })

/-- SETTIME (20 R411, R421). -/
def execSettime (s : State) : Host.Outcome State Fault Refusal :=
  withArgs s 8 fun d => replyOk { s with wall := leAt d 0 8, wallFrac := 0, wallSet := true }

/-- SLEWTIME (20 R411, R421). -/
def execSlewtime (s : State) : Host.Outcome State Fault Refusal :=
  withArgs s 4 fun d =>
    let r := toSigned 32 (leAt d 0 4)
    if r < -500000 ∨ 500000 < r then replyRefused s else replyOk { s with wallRate := r }

/-! ### The wait-for table (20 R417) -/

/-- The contexts of a gang that have not exited and that satisfy a condition. -/
def gangWaits (s : State) (g : Nat) (p : Ctx → Bool) : List CtxId :=
  ((s.gangCtx g).filter fun c => !c.exited && p c).map fun c => c.id

/-- Whether a token waits for something external: a command that has started or that nothing holds up but the engine, a
command armed on a trigger counter, or an operation of the core's own. n bounds the way through the producers. -/
def tokenExternal (s : State) (w : CtxId) : Nat → Nat → Nat → Bool
  | 0, _, _ => true
  | n + 1, q, gen =>
    let through (deps : List Dep) : Bool :=
      deps.all Dep.isKnown || deps.any fun d => match d with
        | .waiting _ q' gen' => tokenExternal s w n q' gen'
        | .known _ _ => false
    (s.cmds.any fun k => k.who == w && k.q.val == q && k.gen == gen && (k.started || through k.deps)) ||
      (s.armed.any fun a => a.cmd.who == w && a.cmd.q.val == q && a.cmd.gen == gen) ||
      (s.joins.any fun j => j.who == w && j.q.val == q && j.gen == gen && through j.deps) ||
      (s.tileOps.any fun t => t.who == w && t.tok.any fun x => x.1.val == q && x.2 == gen) ||
      s.links.any fun l => l.waiting.any fun x => x.who == w && x.tok.any fun y => y.1.val == q && y.2 == gen

/-- The expected signallers of what a context waits for; none where one of them is external or the table does not hold
the wait. -/
def signallers (s : State) (c : Ctx) : Block → Option (List CtxId)
  | .barrier b false =>
    match s.gang? c.id.gang with
    | none => none
    | some g =>
      let i : Fin 16 := Fin.ofNat 16 b
      let ph := (g.barriers.get i).phase
      if (c.bar.get i).arrph = some ph then some (gangWaits s g.id fun x => (x.bar.get i).arrph != some ph) else none
  | .pressFence r =>
    if (s.gang? c.id.gang).any fun g => decide (g.fenceRounds < r) then
      some (gangWaits s c.id.gang fun x => decide (x.fences < r))
    else none
  | .commit r =>
    if (s.gang? c.id.gang).any fun g => decide (g.commitRounds < r) then
      some (gangWaits s c.id.gang fun x => decide (x.commits < r))
    else none
  | .token q =>
    let t := c.q.get (Fin.ofNat 32 q)
    if t.done ∨ tokenExternal s c.id 64 q t.gen then none else some []
  | _ => none

/-- The entry of a blocked context: its name and every expected signaller; none where it waits for something
external. -/
def waitEntry (s : State) (c : Ctx) : Option (CtxId × List CtxId) :=
  match c.status with
  | .blocked l =>
    let sig := l.map (signallers s c)
    if l = [] ∨ sig.any Option.isNone then none else some (c.id, sig.flatMap fun x => x.getD [])
  | _ => none

/-- The greatest set of entries whose signallers are all members, by removing those that have another, n times. -/
def closedSet : Nat → List (CtxId × List CtxId) → List (CtxId × List CtxId)
  | 0, l => l
  | n + 1, l => closedSet n (l.filter fun e => e.2.all fun w => l.any fun x => x.1 == w)

/-- WAIT_FOR_WALK (20 R417): a set of contexts that is closed at two walks is reported, once. -/
def execWaitForWalk (s : State) : Host.Outcome State Fault Refusal :=
  if s.time < s.mgmt.lastWalk + 7000000 then .next s
  else
    let table := s.allCtx.filterMap (waitEntry s)
    let now := closedSet table.length table
    let stay := now.filter fun e => s.mgmt.lastCycle.contains e.1
    let cycle := (closedSet stay.length stay).map fun e => e.1
    let s' := s.updMgmt fun m => { m with lastWalk := s.time, lastCycle := now.map fun e => e.1, reported := cycle }
    if cycle.all fun w => s.mgmt.reported.contains w then .next s'
    else .next (raiseEvent s' 0x03 (cycle.foldl (fun a w => min a w.gang) 0xFFFF) cycle.length)

/-! ### Package reset (20 R418, R420) -/

/-- Whether the firmware key has signed an image. -/
def imageGood (m : Mgmt) (x : Signed) : Bool := xmssVerify m.fwKey x.image x.sig

/-- The two images that a reset checks in turn (20 R418), the management core's and the sowers': each as staged, or as it
runs. -/
def bootImages (m : Mgmt) : Signed × Signed :=
  (m.coreStaged.getD (m.running false), m.sowerStaged.getD (m.running true))

/-- Whether both checks of a reset hold; a failed one leaves the package in boot stage 1 (20 R418). -/
def bootGood (m : Mgmt) : Bool := imageGood m (bootImages m).1 && imageGood m (bootImages m).2

/-- The management core after a reset of the package (20 R418, R420): the images that have been checked run, and what is fused
or kept over a reset stands. -/
def bootMgmt (m : Mgmt) (p : Part) : Mgmt :=
  let ok := bootGood m
  { (State.resetOf p).mgmt with
    boot := if ok then 5 else 1, saveg := m.savegNext, savegNext := m.savegNext
    ruleKey := m.ruleKeyNext.getD m.ruleKey, fwKey := m.fwKey, identityKey := m.identityKey, identityUsed := m.identityUsed
    fwCore := if ok then m.coreStaged.or m.fwCore else m.fwCore
    fwSower := if ok then m.sowerStaged.or m.fwSower else m.fwSower }

/-- PACKAGE_RESET (20 R418): the state after reset of the same package. It joins its domain's live mask arg.val, where that
is not 0, with the packages in arg.data, of which arg.id is the master and those in arg.sig are Q2s. The master of a domain
with a Q2 then has every package install a mask within 0x0F (19 R397). -/
def execPackageReset (s : State) : Host.Outcome State Fault Refusal :=
  let r : State := State.resetOf s.part
  let full := r.fleet.live
  let live : BitVec 8 := if s.arg.val % 256 = 0 then full else BitVec.ofNat 8 s.arg.val &&& full
  let t : State := { r with
    pkg := s.pkg, freeIx := s.freeIx, nextId := s.nextId, agenda := s.agenda
    pmap := pmapOf live
    fleet := { r.fleet with
      live := live, target := live, master := s.arg.data = [] || s.arg.id == s.pkg
      members := if s.arg.data = [] then [s.pkg] else s.arg.data.map BitVec.toNat
      q2s := s.arg.sig.map BitVec.toNat }
    mgmt := bootMgmt s.mgmt s.part }
  let t := if bootGood s.mgmt ∧ (s.mgmt.coreStaged.isSome ∨ s.mgmt.sowerStaged.isSome) then
      firmwareSigLow t ((s.mgmt.sowerStaged.or s.mgmt.coreStaged).elim [] Signed.sig)
    else t
  .next (if t.fleet.master ∧ live &&& domainMask t ≠ live then startQuiesce t live else t)

end Sys2Proof.Machine
end

