-- ==== Sys2Proof/Machine/Dispatch.lean ====
section
/-! DEFINITION. One arm per constructor: the direct call of its meaning. -/
namespace Sys2Proof.Machine

/-- The meaning of an instruction or event. -/
def exec (i : Instr) (s : State) : Host.Outcome State Fault Refusal :=
  match i with
  | .add d a b w => Sys2Proof.Machine.execAdd d a b w s
  | .sub d a b w => Sys2Proof.Machine.execSub d a b w s
  | .mul d a b w => Sys2Proof.Machine.execMul d a b w s
  | .mulh d a b w => Sys2Proof.Machine.execMulh d a b w s
  | .mulhn d a b w => Sys2Proof.Machine.execMulhn d a b w s
  | .div d a b w => Sys2Proof.Machine.execDiv d a b w s
  | .divn d a b w => Sys2Proof.Machine.execDivn d a b w s
  | .rem d a b w => Sys2Proof.Machine.execRem d a b w s
  | .remn d a b w => Sys2Proof.Machine.execRemn d a b w s
  | .and d a b w => Sys2Proof.Machine.execAnd d a b w s
  | .or d a b w => Sys2Proof.Machine.execOr d a b w s
  | .xor d a b w => Sys2Proof.Machine.execXor d a b w s
  | .andn d a b w => Sys2Proof.Machine.execAndn d a b w s
  | .shl d a b w => Sys2Proof.Machine.execShl d a b w s
  | .shr d a b w => Sys2Proof.Machine.execShr d a b w s
  | .sra d a b w => Sys2Proof.Machine.execSra d a b w s
  | .rotl d a b w => Sys2Proof.Machine.execRotl d a b w s
  | .min d a b w => Sys2Proof.Machine.execMin d a b w s
  | .minn d a b w => Sys2Proof.Machine.execMinn d a b w s
  | .max d a b w => Sys2Proof.Machine.execMax d a b w s
  | .maxn d a b w => Sys2Proof.Machine.execMaxn d a b w s
  | .clz d a w => Sys2Proof.Machine.execClz d a w s
  | .ctz d a w => Sys2Proof.Machine.execCtz d a w s
  | .popc d a w => Sys2Proof.Machine.execPopc d a w s
  | .addImm d a imm => Sys2Proof.Machine.execAddImm d a imm s
  | .mulImm d a imm => Sys2Proof.Machine.execMulImm d a imm s
  | .andImm d a imm => Sys2Proof.Machine.execAndImm d a imm s
  | .orImm d a imm => Sys2Proof.Machine.execOrImm d a imm s
  | .xorImm d a imm => Sys2Proof.Machine.execXorImm d a imm s
  | .andnImm d a imm => Sys2Proof.Machine.execAndnImm d a imm s
  | .shlImm d a sh => Sys2Proof.Machine.execShlImm d a sh s
  | .shrImm d a sh => Sys2Proof.Machine.execShrImm d a sh s
  | .sraImm d a sh => Sys2Proof.Machine.execSraImm d a sh s
  | .rotlImm d a sh => Sys2Proof.Machine.execRotlImm d a sh s
  | .minImm d a imm => Sys2Proof.Machine.execMinImm d a imm s
  | .minnImm d a imm => Sys2Proof.Machine.execMinnImm d a imm s
  | .maxImm d a imm => Sys2Proof.Machine.execMaxImm d a imm s
  | .maxnImm d a imm => Sys2Proof.Machine.execMaxnImm d a imm s
  | .movi d imm => Sys2Proof.Machine.execMovi d imm s
  | .movhi d h lit => Sys2Proof.Machine.execMovhi d h lit s
  | .cmpEq p a b w => Sys2Proof.Machine.execCmpEq p a b w s
  | .cmpNe p a b w => Sys2Proof.Machine.execCmpNe p a b w s
  | .cmpLt p a b w => Sys2Proof.Machine.execCmpLt p a b w s
  | .cmpGe p a b w => Sys2Proof.Machine.execCmpGe p a b w s
  | .cmpLtn p a b w => Sys2Proof.Machine.execCmpLtn p a b w s
  | .cmpGen p a b w => Sys2Proof.Machine.execCmpGen p a b w s
  | .sel d a b p => Sys2Proof.Machine.execSel d a b p s
  | .bfx d a pos lm1 sx => Sys2Proof.Machine.execBfx d a pos lm1 sx s
  | .bfi d a pos lm1 => Sys2Proof.Machine.execBfi d a pos lm1 s
  | .lea d a b sh => Sys2Proof.Machine.execLea d a b sh s
  | .csrr d c => Sys2Proof.Machine.execCsrr d c s
  | .csrw d a c => Sys2Proof.Machine.execCsrw d a c s
  | .csrs d a c => Sys2Proof.Machine.execCsrs d a c s
  | .csrc d a c => Sys2Proof.Machine.execCsrc d a c s
  | .br p neg imm => Sys2Proof.Machine.execBr p neg imm s
  | .jmp imm => Sys2Proof.Machine.execJmp imm s
  | .call imm => Sys2Proof.Machine.execCall imm s
  | .jmpr a => Sys2Proof.Machine.execJmpr a s
  | .callr a => Sys2Proof.Machine.execCallr a s
  | .loopSt sc a imm => Sys2Proof.Machine.execLoopSt sc a imm s
  | .loopBr imm => Sys2Proof.Machine.execLoopBr imm s
  | .pand d a b => Sys2Proof.Machine.execPand d a b s
  | .por d a b => Sys2Proof.Machine.execPor d a b s
  | .pxor d a b => Sys2Proof.Machine.execPxor d a b s
  | .pandn d a b => Sys2Proof.Machine.execPandn d a b s
  | .pnot d a => Sys2Proof.Machine.execPnot d a s
  | .pmov d a => Sys2Proof.Machine.execPmov d a s
  | .wait ld st cp tl => Sys2Proof.Machine.execWait ld st cp tl s
  | .fadd f64 d a b rm => Sys2Proof.Machine.execFadd f64 d a b rm s
  | .fsub f64 d a b rm => Sys2Proof.Machine.execFsub f64 d a b rm s
  | .fmul f64 d a b rm => Sys2Proof.Machine.execFmul f64 d a b rm s
  | .fdiv f64 d a b rm => Sys2Proof.Machine.execFdiv f64 d a b rm s
  | .fsqrt f64 d a rm => Sys2Proof.Machine.execFsqrt f64 d a rm s
  | .fma f64 d a b rm => Sys2Proof.Machine.execFma f64 d a b rm s
  | .fms f64 d a b rm => Sys2Proof.Machine.execFms f64 d a b rm s
  | .fnma f64 d a b rm => Sys2Proof.Machine.execFnma f64 d a b rm s
  | .fmin f64 d a b => Sys2Proof.Machine.execFmin f64 d a b s
  | .fmax f64 d a b => Sys2Proof.Machine.execFmax f64 d a b s
  | .fneg f64 d a => Sys2Proof.Machine.execFneg f64 d a s
  | .fabs f64 d a => Sys2Proof.Machine.execFabs f64 d a s
  | .fcpsgn f64 d a b => Sys2Proof.Machine.execFcpsgn f64 d a b s
  | .fmov f64 d a => Sys2Proof.Machine.execFmov f64 d a s
  | .fcmpEq p a b f64 => Sys2Proof.Machine.execFcmpEq p a b f64 s
  | .fcmpLt p a b f64 => Sys2Proof.Machine.execFcmpLt p a b f64 s
  | .fcmpLe p a b f64 => Sys2Proof.Machine.execFcmpLe p a b f64 s
  | .fcmpUn p a b f64 => Sys2Proof.Machine.execFcmpUn p a b f64 s
  | .fclass d a f64 => Sys2Proof.Machine.execFclass d a f64 s
  | .fcvt d a ot dir rm f64 => Sys2Proof.Machine.execFcvt d a ot dir rm f64 s
  | .frint d a rm f64 => Sys2Proof.Machine.execFrint d a rm f64 s
  | .fexp d a rm f64 => Sys2Proof.Machine.execFexp d a rm f64 s
  | .fexp2 d a rm f64 => Sys2Proof.Machine.execFexp2 d a rm f64 s
  | .flog d a rm f64 => Sys2Proof.Machine.execFlog d a rm f64 s
  | .flog2 d a rm f64 => Sys2Proof.Machine.execFlog2 d a rm f64 s
  | .ferf d a rm f64 => Sys2Proof.Machine.execFerf d a rm f64 s
  | .ferfc d a rm f64 => Sys2Proof.Machine.execFerfc d a rm f64 s
  | .frcp d a rm f64 => Sys2Proof.Machine.execFrcp d a rm f64 s
  | .frsq d a rm f64 => Sys2Proof.Machine.execFrsq d a rm f64 s
  | .frcps d a b rm f64 => Sys2Proof.Machine.execFrcps d a b rm f64 s
  | .frsqs d a b rm f64 => Sys2Proof.Machine.execFrsqs d a b rm f64 s
  | .vadd d a b sat nat mk => Sys2Proof.Machine.execVadd d a b sat nat mk s
  | .vsub d a b sat nat mk => Sys2Proof.Machine.execVsub d a b sat nat mk s
  | .vmul d a b mk => Sys2Proof.Machine.execVmul d a b mk s
  | .vmulh d a b mk => Sys2Proof.Machine.execVmulh d a b mk s
  | .vmulhn d a b mk => Sys2Proof.Machine.execVmulhn d a b mk s
  | .vdiv d a b mk => Sys2Proof.Machine.execVdiv d a b mk s
  | .vdivn d a b mk => Sys2Proof.Machine.execVdivn d a b mk s
  | .vrem d a b mk => Sys2Proof.Machine.execVrem d a b mk s
  | .vremn d a b mk => Sys2Proof.Machine.execVremn d a b mk s
  | .vand d a b mk => Sys2Proof.Machine.execVand d a b mk s
  | .vor d a b mk => Sys2Proof.Machine.execVor d a b mk s
  | .vxor d a b mk => Sys2Proof.Machine.execVxor d a b mk s
  | .vandn d a b mk => Sys2Proof.Machine.execVandn d a b mk s
  | .vshl d a b mk => Sys2Proof.Machine.execVshl d a b mk s
  | .vshr d a b mk => Sys2Proof.Machine.execVshr d a b mk s
  | .vsra d a b mk => Sys2Proof.Machine.execVsra d a b mk s
  | .vrotl d a b mk => Sys2Proof.Machine.execVrotl d a b mk s
  | .vmin d a b mk => Sys2Proof.Machine.execVmin d a b mk s
  | .vminn d a b mk => Sys2Proof.Machine.execVminn d a b mk s
  | .vmax d a b mk => Sys2Proof.Machine.execVmax d a b mk s
  | .vmaxn d a b mk => Sys2Proof.Machine.execVmaxn d a b mk s
  | .vclz d a mk => Sys2Proof.Machine.execVclz d a mk s
  | .vctz d a mk => Sys2Proof.Machine.execVctz d a mk s
  | .vpopc d a mk => Sys2Proof.Machine.execVpopc d a mk s
  | .vfadd d a b rm mk => Sys2Proof.Machine.execVfadd d a b rm mk s
  | .vfsub d a b rm mk => Sys2Proof.Machine.execVfsub d a b rm mk s
  | .vfmul d a b rm mk => Sys2Proof.Machine.execVfmul d a b rm mk s
  | .vfdiv d a b rm mk => Sys2Proof.Machine.execVfdiv d a b rm mk s
  | .vfsqrt d a rm mk => Sys2Proof.Machine.execVfsqrt d a rm mk s
  | .vfma d a b rm mk => Sys2Proof.Machine.execVfma d a b rm mk s
  | .vfms d a b rm mk => Sys2Proof.Machine.execVfms d a b rm mk s
  | .vfnma d a b rm mk => Sys2Proof.Machine.execVfnma d a b rm mk s
  | .vfmin d a b mk => Sys2Proof.Machine.execVfmin d a b mk s
  | .vfmax d a b mk => Sys2Proof.Machine.execVfmax d a b mk s
  | .vfneg d a mk => Sys2Proof.Machine.execVfneg d a mk s
  | .vfabs d a mk => Sys2Proof.Machine.execVfabs d a mk s
  | .vfcpsgn d a b mk => Sys2Proof.Machine.execVfcpsgn d a b mk s
  | .vfmov d a mk => Sys2Proof.Machine.execVfmov d a mk s
  | .vcvt d a cc rm mk => Sys2Proof.Machine.execVcvt d a cc rm mk s
  | .vpack d a cc rm part => Sys2Proof.Machine.execVpack d a cc rm part s
  | .vunpack d a cc part => Sys2Proof.Machine.execVunpack d a cc part s
  | .vmxnorm d a cc rm part => Sys2Proof.Machine.execVmxnorm d a cc rm part s
  | .vmxscale d a cc rm part => Sys2Proof.Machine.execVmxscale d a cc rm part s
  | .vfexp d a rm mk => Sys2Proof.Machine.execVfexp d a rm mk s
  | .vfexp2 d a rm mk => Sys2Proof.Machine.execVfexp2 d a rm mk s
  | .vflog d a rm mk => Sys2Proof.Machine.execVflog d a rm mk s
  | .vflog2 d a rm mk => Sys2Proof.Machine.execVflog2 d a rm mk s
  | .vferf d a rm mk => Sys2Proof.Machine.execVferf d a rm mk s
  | .vferfc d a rm mk => Sys2Proof.Machine.execVferfc d a rm mk s
  | .vfrcp d a rm mk => Sys2Proof.Machine.execVfrcp d a rm mk s
  | .vfrsq d a rm mk => Sys2Proof.Machine.execVfrsq d a rm mk s
  | .vfrcps d a b rm mk => Sys2Proof.Machine.execVfrcps d a b rm mk s
  | .vfrsqs d a b rm mk => Sys2Proof.Machine.execVfrsqs d a b rm mk s
  | .vredFsum d a row rm mk => Sys2Proof.Machine.execVredFsum d a row rm mk s
  | .vredFmin d a row mk => Sys2Proof.Machine.execVredFmin d a row mk s
  | .vredFmax d a row mk => Sys2Proof.Machine.execVredFmax d a row mk s
  | .vredIsum d a row sat nat mk => Sys2Proof.Machine.execVredIsum d a row sat nat mk s
  | .vredImin d a row mk => Sys2Proof.Machine.execVredImin d a row mk s
  | .vredImax d a row mk => Sys2Proof.Machine.execVredImax d a row mk s
  | .vredNmin d a row mk => Sys2Proof.Machine.execVredNmin d a row mk s
  | .vredNmax d a row mk => Sys2Proof.Machine.execVredNmax d a row mk s
  | .vmov d a mk => Sys2Proof.Machine.execVmov d a mk s
  | .vbcast d a mk => Sys2Proof.Machine.execVbcast d a mk s
  | .vextr d a b => Sys2Proof.Machine.execVextr d a b s
  | .mand d a b => Sys2Proof.Machine.execMand d a b s
  | .mor d a b => Sys2Proof.Machine.execMor d a b s
  | .mxor d a b => Sys2Proof.Machine.execMxor d a b s
  | .mandn d a b => Sys2Proof.Machine.execMandn d a b s
  | .mnot d a => Sys2Proof.Machine.execMnot d a s
  | .vcmp d a b cc mk => Sys2Proof.Machine.execVcmp d a b cc mk s
  | .vfcmp d a b cc mk => Sys2Proof.Machine.execVfcmp d a b cc mk s
  | .mpopc d a => Sys2Proof.Machine.execMpopc d a s
  | .vxb d a b mk => Sys2Proof.Machine.execVxb d a b mk s
  | .tzero d => Sys2Proof.Machine.execTzero d s
  | .ttrans d a => Sys2Proof.Machine.execTtrans d a s
  | .tcvt d a rm => Sys2Proof.Machine.execTcvt d a rm s
  | .tscale d a b rm => Sys2Proof.Machine.execTscale d a b rm s
  | .tmov d a => Sys2Proof.Machine.execTmov d a s
  | .tmovFromVector d a b => Sys2Proof.Machine.execTmovFromVector d a b s
  | .tmovToVector d a b => Sys2Proof.Machine.execTmovToVector d a b s
  | .tfill d a => Sys2Proof.Machine.execTfill d a s
  | .tld d a b q sp => Sys2Proof.Machine.execTld d a b q sp s
  | .tst d a b q sp => Sys2Proof.Machine.execTst d a b q sp s
  | .mma k a b pos ta tb sat qt => Sys2Proof.Machine.execMma k a b pos ta tb sat qt s
  | .mmaMx k a b pos qk => Sys2Proof.Machine.execMmaMx k a b pos qk s
  | .mmaSc k a b pos qk => Sys2Proof.Machine.execMmaSc k a b pos qk s
  | .chainBuild k a sp => Sys2Proof.Machine.execChainBuild k a sp s
  | .chainClose k a b rm dst => Sys2Proof.Machine.execChainClose k a b rm dst s
  | .chainStat d a k sp => Sys2Proof.Machine.execChainStat d a k sp s
  | .chainSplice k a pos => Sys2Proof.Machine.execChainSplice k a pos s
  | .chainResume k => Sys2Proof.Machine.execChainResume k s
  | .chainFree k => Sys2Proof.Machine.execChainFree k s
  | .ld d a imm sp sz => Sys2Proof.Machine.execLd d a imm sp sz s
  | .st d a imm sp sz => Sys2Proof.Machine.execSt d a imm sp sz s
  | .vld d a b sp scr mk => Sys2Proof.Machine.execVld d a b sp scr mk s
  | .vst d a b sp scr mk => Sys2Proof.Machine.execVst d a b sp scr mk s
  | .pref a b lvl => Sys2Proof.Machine.execPref a b lvl s
  | .clean a b lvl => Sys2Proof.Machine.execClean a b lvl s
  | .invl a b => Sys2Proof.Machine.execInvl a b s
  | .amoSwap d a b ty => Sys2Proof.Machine.execAmoSwap d a b ty s
  | .amoCas d a b ty => Sys2Proof.Machine.execAmoCas d a b ty s
  | .amoAdd d a b ty => Sys2Proof.Machine.execAmoAdd d a b ty s
  | .amoAnd d a b ty => Sys2Proof.Machine.execAmoAnd d a b ty s
  | .amoOr d a b ty => Sys2Proof.Machine.execAmoOr d a b ty s
  | .amoXor d a b ty => Sys2Proof.Machine.execAmoXor d a b ty s
  | .amoMin d a b ty => Sys2Proof.Machine.execAmoMin d a b ty s
  | .amoMax d a b ty => Sys2Proof.Machine.execAmoMax d a b ty s
  | .amoFadd d a b ty => Sys2Proof.Machine.execAmoFadd d a b ty s
  | .amoFmin d a b ty => Sys2Proof.Machine.execAmoFmin d a b ty s
  | .amoFmax d a b ty => Sys2Proof.Machine.execAmoFmax d a b ty s
  | .redAdd a b ty => Sys2Proof.Machine.execRedAdd a b ty s
  | .redAnd a b ty => Sys2Proof.Machine.execRedAnd a b ty s
  | .redOr a b ty => Sys2Proof.Machine.execRedOr a b ty s
  | .redXor a b ty => Sys2Proof.Machine.execRedXor a b ty s
  | .redMin a b ty => Sys2Proof.Machine.execRedMin a b ty s
  | .redMax a b ty => Sys2Proof.Machine.execRedMax a b ty s
  | .redFadd a b ty => Sys2Proof.Machine.execRedFadd a b ty s
  | .redFmin a b ty => Sys2Proof.Machine.execRedFmin a b ty s
  | .redFmax a b ty => Sys2Proof.Machine.execRedFmax a b ty s
  | .ldAcq d a scope sz => Sys2Proof.Machine.execLdAcq d a scope sz s
  | .stRel d a scope sz => Sys2Proof.Machine.execStRel d a scope sz s
  | .fence scope press => Sys2Proof.Machine.execFence scope press s
  | .barArrive bar => Sys2Proof.Machine.execBarArrive bar s
  | .barWait bar arr => Sys2Proof.Machine.execBarWait bar arr s
  | .barDrop bar => Sys2Proof.Machine.execBarDrop bar s
  | .barTwait d a bar arr => Sys2Proof.Machine.execBarTwait d a bar arr s
  | .flagSet a b scope => Sys2Proof.Machine.execFlagSet a b scope s
  | .flagWait d a b timed scope => Sys2Proof.Machine.execFlagWait d a b timed scope s
  | .flagWaitAny d a b timed scope => Sys2Proof.Machine.execFlagWaitAny d a b timed scope s
  | .trig a b rst scope => Sys2Proof.Machine.execTrig a b rst scope s
  | .arm d a b q => Sys2Proof.Machine.execArm d a b q s
  | .cp q a c0 c1 c2 => Sys2Proof.Machine.execCp q a c0 c1 c2 s
  | .gather q a c0 c1 c2 => Sys2Proof.Machine.execGather q a c0 c1 c2 s
  | .scatter q a c0 c1 c2 => Sys2Proof.Machine.execScatter q a c0 c1 c2 s
  | .collReshard q a c0 c1 c2 => Sys2Proof.Machine.execCollReshard q a c0 c1 c2 s
  | .combine q a c0 c1 c2 => Sys2Proof.Machine.execCombine q a c0 c1 c2 s
  | .tokwait a okOnly => Sys2Proof.Machine.execTokwait a okOnly s
  | .toktest d a => Sys2Proof.Machine.execToktest d a s
  | .tokjoin d a b c => Sys2Proof.Machine.execTokjoin d a b c s
  | .phaseBegin a => Sys2Proof.Machine.execPhaseBegin a s
  | .phaseCommit d => Sys2Proof.Machine.execPhaseCommit d s
  | .chk a b kk => Sys2Proof.Machine.execChk a b kk s
  | .trap code => Sys2Proof.Machine.execTrap code s
  | .hrules d a => Sys2Proof.Machine.execHrules d a s
  | .invr d a b aa => Sys2Proof.Machine.execInvr d a b aa s
  | .detset a b => Sys2Proof.Machine.execDetset a b s
  | .nodeDone a => Sys2Proof.Machine.execNodeDone a s
  | .graphSignal a => Sys2Proof.Machine.execGraphSignal a s
  | .nop => Sys2Proof.Machine.execNop s
  | .exit => Sys2Proof.Machine.execExit s
  | .yield => Sys2Proof.Machine.execYield s
  | .ret => Sys2Proof.Machine.execRet s
  | .eret => Sys2Proof.Machine.execEret s
  | .hflush => Sys2Proof.Machine.execHflush s
  | .bundleReissue => Sys2Proof.Machine.execBundleReissue s
  | .loadReturn => Sys2Proof.Machine.execLoadReturn s
  | .storeAcknowledge => Sys2Proof.Machine.execStoreAcknowledge s
  | .memoryAccessPerform => Sys2Proof.Machine.execMemoryAccessPerform s
  | .endMarkerReceipt => Sys2Proof.Machine.execEndMarkerReceipt s
  | .homeAtomicPerform => Sys2Proof.Machine.execHomeAtomicPerform s
  | .pressEntryArrival => Sys2Proof.Machine.execPressEntryArrival s
  | .pressWindowApply => Sys2Proof.Machine.execPressWindowApply s
  | .remoteAtomicRetry => Sys2Proof.Machine.execRemoteAtomicRetry s
  | .switchContribution => Sys2Proof.Machine.execSwitchContribution s
  | .switchAccumulatorWrite => Sys2Proof.Machine.execSwitchAccumulatorWrite s
  | .combineFold => Sys2Proof.Machine.execCombineFold s
  | .engineCommandStart => Sys2Proof.Machine.execEngineCommandStart s
  | .engineCommandComplete => Sys2Proof.Machine.execEngineCommandComplete s
  | .reshardDigestExchange => Sys2Proof.Machine.execReshardDigestExchange s
  | .reshardChunkRead => Sys2Proof.Machine.execReshardChunkRead s
  | .tokjoinComplete => Sys2Proof.Machine.execTokjoinComplete s
  | .timedWaitExpiry => Sys2Proof.Machine.execTimedWaitExpiry s
  | .fenceSysAcknowledge => Sys2Proof.Machine.execFenceSysAcknowledge s
  | .tldComplete => Sys2Proof.Machine.execTldComplete s
  | .tstComplete => Sys2Proof.Machine.execTstComplete s
  | .tileOpComplete => Sys2Proof.Machine.execTileOpComplete s
  | .arrayWindowStart => Sys2Proof.Machine.execArrayWindowStart s
  | .mmaPromotionComplete => Sys2Proof.Machine.execMmaPromotionComplete s
  | .handoffForm => Sys2Proof.Machine.execHandoffForm s
  | .handoffArrival => Sys2Proof.Machine.execHandoffArrival s
  | .closeAct => Sys2Proof.Machine.execCloseAct s
  | .closeWritten => Sys2Proof.Machine.execCloseWritten s
  | .linkUncorrectableError => Sys2Proof.Machine.execLinkUncorrectableError s
  | .deferredTrapDelivery => Sys2Proof.Machine.execDeferredTrapDelivery s
  | .harrowDecision => Sys2Proof.Machine.execHarrowDecision s
  | .tableWalkComplete => Sys2Proof.Machine.execTableWalkComplete s
  | .invrAcknowledge => Sys2Proof.Machine.execInvrAcknowledge s
  | .contextSlotFree => Sys2Proof.Machine.execContextSlotFree s
  | .sliceSwitch => Sys2Proof.Machine.execSliceSwitch s
  | .registerParityReplay => Sys2Proof.Machine.execRegisterParityReplay s
  | .registerUncorrectable => Sys2Proof.Machine.execRegisterUncorrectable s
  | .errorConsumed => Sys2Proof.Machine.execErrorConsumed s
  | .phaseRestart => Sys2Proof.Machine.execPhaseRestart s
  | .doorbell => Sys2Proof.Machine.execDoorbell s
  | .nopPacket => Sys2Proof.Machine.execNopPacket s
  | .nodePacket => Sys2Proof.Machine.execNodePacket s
  | .graphPacket => Sys2Proof.Machine.execGraphPacket s
  | .detsetPacket => Sys2Proof.Machine.execDetsetPacket s
  | .detsetTakesEffect => Sys2Proof.Machine.execDetsetTakesEffect s
  | .nodeDispatch => Sys2Proof.Machine.execNodeDispatch s
  | .agingIntervalExpiry => Sys2Proof.Machine.execAgingIntervalExpiry s
  | .preempt => Sys2Proof.Machine.execPreempt s
  | .preemptAbandon => Sys2Proof.Machine.execPreemptAbandon s
  | .gangResume => Sys2Proof.Machine.execGangResume s
  | .saveBlockError => Sys2Proof.Machine.execSaveBlockError s
  | .nodeComplete => Sys2Proof.Machine.execNodeComplete s
  | .dualSecondRun => Sys2Proof.Machine.execDualSecondRun s
  | .completionEntryWrite => Sys2Proof.Machine.execCompletionEntryWrite s
  | .remapWrite => Sys2Proof.Machine.execRemapWrite s
  | .remapTakesEffect => Sys2Proof.Machine.execRemapTakesEffect s
  | .resync => Sys2Proof.Machine.execResync s
  | .bar0RegisterWrite => Sys2Proof.Machine.execBar0RegisterWrite s
  | .hostBar2Access => Sys2Proof.Machine.execHostBar2Access s
  | .hostCxlMemAccess => Sys2Proof.Machine.execHostCxlMemAccess s
  | .deadlockDelivery => Sys2Proof.Machine.execDeadlockDelivery s
  | .flitCrcFailure => Sys2Proof.Machine.execFlitCrcFailure s
  | .furrowSilence => Sys2Proof.Machine.execFurrowSilence s
  | .planeSwitchFault => Sys2Proof.Machine.execPlaneSwitchFault s
  | .deadFurrowReport => Sys2Proof.Machine.execDeadFurrowReport s
  | .qreq => Sys2Proof.Machine.execQreq s
  | .drainComplete => Sys2Proof.Machine.execDrainComplete s
  | .drained => Sys2Proof.Machine.execDrained s
  | .install => Sys2Proof.Machine.execInstall s
  | .installed => Sys2Proof.Machine.execInstalled s
  | .resume => Sys2Proof.Machine.execResume s
  | .quiesceTimeout => Sys2Proof.Machine.execQuiesceTimeout s
  | .status => Sys2Proof.Machine.execStatus s
  | .counters => Sys2Proof.Machine.execCounters s
  | .clrcnt => Sys2Proof.Machine.execClrcnt s
  | .setpft => Sys2Proof.Machine.execSetpft s
  | .setuv => Sys2Proof.Machine.execSetuv s
  | .setpcap => Sys2Proof.Machine.execSetpcap s
  | .arrayout => Sys2Proof.Machine.execArrayout s
  | .arrayin => Sys2Proof.Machine.execArrayin s
  | .kill => Sys2Proof.Machine.execKill s
  | .fallow => Sys2Proof.Machine.execFallow s
  | .restore => Sys2Proof.Machine.execRestore s
  | .winreg => Sys2Proof.Machine.execWinreg s
  | .windel => Sys2Proof.Machine.execWindel s
  | .attest => Sys2Proof.Machine.execAttest s
  | .events => Sys2Proof.Machine.execEvents s
  | .keyupd => Sys2Proof.Machine.execKeyupd s
  | .fwupd => Sys2Proof.Machine.execFwupd s
  | .setsave => Sys2Proof.Machine.execSetsave s
  | .settime => Sys2Proof.Machine.execSettime s
  | .slewtime => Sys2Proof.Machine.execSlewtime s
  | .pldmSensorRead => Sys2Proof.Machine.execPldmSensorRead s
  | .errorWindowEnd => Sys2Proof.Machine.execErrorWindowEnd s
  | .waitForWalk => Sys2Proof.Machine.execWaitForWalk s
  | .powerOverCap => Sys2Proof.Machine.execPowerOverCap s
  | .packageReset => Sys2Proof.Machine.execPackageReset s
  | .unassignedEncoding => Sys2Proof.Machine.execUnassignedEncoding s
  | .bundleFetchFault => Sys2Proof.Machine.execBundleFetchFault s
  | .dualShadowError => Sys2Proof.Machine.execDualShadowError s

end Sys2Proof.Machine
end

