-- ==== Sys2Proof/Machine/Bundle.lean ====
section
/-! DEFINITION. The issue of one bundle (03 R86 to R97, 17 R371): its decode-time traps, the execution of its slots
against the context as it stood before them, the trap, block, stall or completion that follows, and the harrow's
replacement of the head (14 R312, R313, R319 to R321). -/
namespace Sys2Proof.Machine

/-- What a bundle issues in one slot: the slot, and the register whose value a harrow replacement attaches as a factor
(14 R318). -/
structure Issued where
  slot : Slot
  fold : Option SReg := none

/-- The state in which a slot of the bundle executes. -/
def atSlot (s : State) (x : Issued) : State :=
  { s with bun := { s.bun with
      slot := x.slot.no, word := x.slot.word, ext := x.slot.ext, dup := x.slot.dup, status := .done, tainted := false
      fold := x.fold.map fun r => BitVec.ofNat 32 (rdS s r).toNat } }

/-- Whether a slot would read a register with an error (17 R381). -/
def readsBad (s : State) (x : Slot) : Bool :=
  s.src.badRegs != [] && (slotNeeds s x).any fun r => s.src.badRegs.contains r

/-- One slot of the bundle, executed: the meaning of its instruction. -/
def runIssued (x : Issued) (s : State) : Host.Outcome State Fault Refusal :=
  let s := atSlot s x
  if readsBad s x.slot then .next ((badTrap s).ended .trapped)
  else match x.slot.ins with
    | none => exec .unassignedEncoding s
    | some i => exec i s

/-! ### The slots of one attempt -/

/-- An attempt to issue a bundle: the state that the slots so far leave, and those that trapped, blocked, halted or
stalled, with the banks that they wait for, and the state in which each slot ran. -/
structure Attempt where
  st : State
  trapped : List Issued := []
  blocked : List Issued := []
  halted : List Issued := []
  stalled : Bool := false
  wants : BitVec 48 := 0
  saw : List (Nat × State) := []
  stop : Option (Host.Outcome State Fault Refusal) := none

/-- A predicate-false slot: a producer whose token is complete leaves it complete with status OK (09 R246). -/
def skipSlot (s : State) (x : Slot) : State :=
  (x.ins.elim [] slotWrites).foldl (fun s r => match r with
    | .q q =>
      let t := s.ctx.q.get q
      if t.done then wrQ s q { t with status := .ok } else s
    | _ => s) s

/-- The registers whose taint reaches all that a slot writes (10 R274): its operands, but for the data of a load or
store, whose taint goes part by part. -/
def taintReads : Instr → List Res
  | .st _ a _ _ _ | .stRel _ a _ _ => [.s a]
  | .vld _ a b _ _ mk | .vst _ a b _ _ mk => [.s a, .s b] ++ maskRead mk
  | .tst _ a b _ _ => [.s a, .s b]
  | i => slotReads i

/-- The taint of what a slot has written (10 R274): its registers and its chain at once, and the accesses and tile
transfers that it has put in flight, which give their registers theirs when they end. -/
def noteTaint (s : State) (x : Slot) : State :=
  if s.src.detl ≠ 2 then s
  else
    let c := s.src
    let hot := s.bun.tainted || (x.ins.elim [] taintReads).any (srcTaint s)
    let mine (w : CtxId) (b n : Nat) : Bool := w == c.id && b == c.bundles && n == x.no
    let later := (s.flights.any fun f => mine f.who f.bundle f.slot) ||
      s.tileOps.any fun t => t.op.moves && mine t.who t.bundle t.slot
    let mark (s : State) (r : Res) : State := match r with
      | .k k => s.updChain c.id.gang k fun y => { y with tainted := y.tainted || hot }
      | r => s.withCtx fun y => y.setTaint (c.phys r) hot
    let s := if later then s else x.writes.foldl mark s
    { s with
      flights := s.flights.map fun f => if mine f.who f.bundle f.slot then { f with tainted := f.tainted || hot } else f
      tileOps := s.tileOps.map fun t => if mine t.who t.bundle t.slot then { t with tainted := t.tainted || hot } else t }

/-- One more slot of an attempt. -/
def attemptSlot (a : Attempt) (x : Issued) : Attempt :=
  if a.stop.isSome then a
  else if !slotOn a.st x.slot then { a with st := skipSlot a.st x.slot }
  else if x.fold.any fun r => readStalls a.st a.st.src (.s r) then { a with stalled := true }
  else
    let a := { a with saw := (x.slot.no, a.st) :: a.saw }
    match runIssued x a.st with
    | .next t =>
      match t.bun.status with
      | .done => { a with st := noteTaint t x.slot }
      | .trapped =>
        { a with
          st := { a.st with bun := { a.st.bun with raised := a.st.bun.raised ||| t.bun.raised } }
          trapped := a.trapped ++ [x] }
      | .blocked => { a with blocked := a.blocked ++ [x] }
      | .stalled => { a with stalled := true, wants := a.wants ||| t.bun.wants }
      | .halted => { a with halted := a.halted ++ [x] }
    | o => { a with stop := some o }

/-- Whether a slot drops from a barrier. -/
def isDrop (x : Issued) : Bool :=
  match x.slot.ins with
  | some (.barDrop _) => true
  | _ => false

/-- Whether a slot waits at a barrier. -/
def isBarWait (x : Issued) : Bool :=
  match x.slot.ins with
  | some (.barWait _ _) | some (.barTwait _ _ _ _) => true
  | _ => false

/-- Slots in the order in which they act: drops come before arrivals (08 R227). -/
def actOrder (l : List Issued) : List Issued := l.filter isDrop ++ l.filter fun x => !isDrop x

/-- The slots of a bundle attempted on a state. Without a control transfer the next bundle is the one behind. -/
def attempt (s : State) (l : List Issued) : Attempt :=
  (actOrder l).foldl attemptSlot { st := s.withCtx fun c => { c with pc := s.src.pc + 16 } }

/-- The slot of the lowest number. -/
def lowestSlot : List Issued → Option Issued
  | [] => none
  | x :: l => match lowestSlot l with
    | some y => if y.slot.no < x.slot.no then some y else some x
    | none => some x

/-! ### How an attempt ends (17 R371) -/

/-- The state between bundles. -/
def State.between (s : State) : State := { s with pre := none, bun := {} }

/-- The waits for banks without those of a context. -/
def dropWaits (w : CtxId) (l : List BankWait) : List BankWait := l.filter fun x => x.who != w

/-- A bundle's first failed attempt to get banks gives it its place among those that wait for them, and it keeps that place
for the banks that a later attempt finds held (13 R299). -/
def noteWait (c : Ctx) (b : BitVec 48) (l : List BankWait) : List BankWait :=
  let mine (w : BankWait) : Bool := w.who == c.id && w.pc == c.pc
  if b = 0 then l
  else if l.any mine then updateFirst mine (fun w => { w with banks := w.banks ||| b }) l
  else dropWaits c.id l ++ [{ who := c.id, pc := c.pc, cl := c.lc, banks := b }]

/-- The bundle does not issue yet (01 R19). -/
def stallBundle (s : State) (b : BitVec 48 := 0) : State :=
  { s.between with bankWaits := noteWait s.src b s.bankWaits }

/-- The state with the memory, translations and free values that a slot of an attempt found, so that it does the same
again. -/
def asSeen (s : State) (a : Attempt) (x : Issued) : State :=
  match a.saw.find? fun p => p.1 == x.slot.no with
  | none => s
  | some p => { s with
      freeIx := p.2.freeIx, tlb := p.2.tlb, walkCache := p.2.walkCache, mem := p.2.mem
      hbmDirty := p.2.hbmDirty, hbmNew := p.2.hbmNew, hbmHost := p.2.hbmHost }

/-- The barrier that a slot names. -/
def barrierNo : Instr → Option Nat
  | .barArrive b | .barWait b _ | .barDrop b | .barTwait _ _ b _ => some b.val
  | _ => none

/-- The bundle takes the trap of a slot, and no slot has an effect (03 R96); at FP_EXCEPTION the flags of all F and V
slots reach FXF (02 R48). A slot that traps only because of a drop in its own bundle takes BARRIER_ERROR. -/
def trapBundle (s : State) (a : Attempt) (x : Issued) : Host.Outcome State Fault Refusal :=
  let raised := a.st.bun.raised
  match runIssued x (asSeen s a x) with
  | .next t =>
    let t := match t.bun.status, x.slot.ins.bind barrierNo with
      | .trapped, _ | _, none => t
      | _, some b => slotTrap (atSlot s x) { cause := .barrierError, xinfo := b }
    let fp := t.ctx.live && t.ctx.trapc.toNat % 64 == Cause.fpException.code && (x.slot.cls == .f || x.slot.cls == .v)
    .next (if fp then { t with ctx := { t.ctx with fxf := t.ctx.fxf ||| raised } } else t).between
  | o => o

/-- A slot of a bundle that blocks: a blocking slot does what it does before it blocks; a barrier wait that need not wait
has arrived, and nothing else of it stands (08 R226). -/
def blockSlot (a : Attempt) (s : State) (x : Issued) : State :=
  if !slotOn s x.slot then s
  else if isBarWait x ∨ a.blocked.any (fun y => y.slot.no == x.slot.no) then
    match runIssued x (asSeen s a x) with
    | .next t =>
      let t := { t with freeIx := max s.freeIx t.freeIx }
      match t.bun.status with
      | .blocked => t
      | .done => { t with ctx := { t.ctx with
          s := s.ctx.s, fxf := s.ctx.fxf, pc := s.src.pc, status := s.ctx.status, running := s.ctx.running } }
      | _ => s
    | _ => s
  else s

/-- The bundle blocks (01 R18): it will reissue from its start. -/
def blockBundle (s : State) (l : List Issued) (a : Attempt) : State := ((actOrder l).foldl (blockSlot a) s).between

/-- Whether a bundle has opened a replay stretch: it holds an ERET that has returned with TRAPX.HRW set (14 R321). -/
def opensStretch (s : State) (l : List Issued) : Bool :=
  testBit s.src.trapx.toNat 10 && l.any fun x => x.slot.ins == some .eret && slotOn s x.slot

/-- The replay stretch after a bundle has issued (14 R321); opened says that the bundle has opened it. -/
def stretchAfter (c0 c : Ctx) (opened : Bool) : Option (Word × Word) :=
  if c.status = .exited then none
  else if c0.harrow.inHandler ∨ opened then c.harrow.stretch
  else c.harrow.stretch.filter fun x =>
    decide (x.1.toNat ≤ c0.pc.toNat) && decide (c0.pc.toNat < x.2.toNat)

/-- Whether the run of a cancelled rewrite goes on behind a bundle (14 R319): up to BL, through the handlers of traps that
are taken in it. -/
def runGoesOn (c0 : Ctx) (origins : List Origin) (last : Word) : Bool :=
  c0.pc != last && (c0.mode == .privileged || (match origins.head? with
    | some o => decide (o.pc.toNat ≤ c0.pc.toNat) && decide (c0.pc.toNat < last.toNat)
    | none => false))

/-- The harrow's state after a bundle has issued: the decision for its head is spent, and at BL the span, or the run of
a cancelled rewrite, is over (14 R313, R319). -/
def harrowAfter (c0 c : Ctx) (opened : Bool) : Harrow :=
  let h := c.harrow
  let spent := h.spanEnd == some c0.pc
  { h with
    decided := none
    delay := none
    vacated := if spent then [] else h.vacated
    spanEnd := if spent then none else h.spanEnd
    cancelled := h.cancelled.filter fun x => runGoesOn c0 x.2.1 x.2.2
    stretch := stretchAfter c0 c opened }

/-- The registers that the slots of a bundle have written, by physical number. -/
def bundleWrites (s : State) (l : List Issued) : List Res :=
  (l.filter fun x => slotOn s x.slot).flatMap fun x => x.slot.writes.map s.src.phys

/-- The bundle completes. -/
def completeBundle (s : State) (l : List Issued) : State :=
  let c0 := s.src
  let w := bundleWrites s l
  ({ s with bankWaits := dropWaits c0.id s.bankWaits }.withCtx fun c =>
    { c with
      bundles := c.bundles + 1
      prog := c.prog.filter fun p => p.pc != c0.pc
      recent := (w :: c.recent).take 16
      badRegs := c.badRegs.filter fun r => !w.contains r
      harrow := harrowAfter c0 c (opensStretch s l) }).between

/-- A context stops for a pre-emption (17 R373). -/
def Ctx.preempted (c : Ctx) : Ctx := Ctx.stopNow { c with rowStop := none }

/-- A tile transfer of the bundle stops at a row boundary (06 R174, R175): no other slot has an effect, and the context
stops before its bundle. -/
def haltBundle (s : State) (a : Attempt) (x : Issued) : Host.Outcome State Fault Refusal :=
  match runIssued x (asSeen s a x) with
  | .next t => .next (t.withCtx Ctx.preempted).between
  | o => o

/-- How an attempt ends: a stall, a halt, the trap of the lowest slot that traps, a block, or completion. A bundle that
both stalls in place and blocks is taken to stall first (DESIGN CHOICE, log 91). -/
def endAttempt (s : State) (l : List Issued) (a : Attempt) : Host.Outcome State Fault Refusal :=
  match a.stop with
  | some o => o
  | none =>
    if a.stalled then .next (stallBundle s a.wants)
    else match a.halted, lowestSlot a.trapped with
      | x :: _, none => haltBundle s a x
      | _, some x => trapBundle s a x
      | [], none => if a.blocked.isEmpty then .next (completeBundle a.st l) else .next (blockBundle s l a)

/-- Slots as they are written. -/
def asWritten (l : List Slot) : List Issued := l.map fun x => { slot := x }

/-- A bundle as it is written. -/
def runPlain (s : State) (l : List Slot) : Host.Outcome State Fault Refusal :=
  endAttempt s (asWritten l) (attempt s (asWritten l))

/-! ### The harrow at the bundle (14 R312, R313, R319) -/

/-- A replacement as it issues in the head's slot (R312, R317). -/
def Issue.issued (x : Issue) (no : Nat) : Issued :=
  let e : Ext := .regs x.ext.1 x.ext.2.1 x.ext.2.2
  { slot := { no := no, word := x.word, ext := e, ins := issueInstr x }, fold := x.fold }

/-- The gang's link without the contributions that a bundle of a context has put there; old is the link as it stood before
them, whose factor comes back unless a later contribution has attached one (14 R318). -/
def Link.retract (l : Link) (w : CtxId) (b : Nat) (old : Option Link) : Link :=
  let keep := l.waiting.filter fun x => !(x.who == w && x.bundle == b)
  if keep.length = l.waiting.length then l
  else
    let n := l.accepted - (l.waiting.length - keep.length)
    { l with
      waiting := keep, accepted := n, state := if n = 0 ∧ l.state = .accumulating then .empty else l.state
      fold := if keep.any fun x => x.fold.isSome then l.fold else old.elim l.fold Link.fold }

/-- What replacement 0 finds in the state in which it is handed over. -/
def undoOf (s : State) (x : Issued) : Undo :=
  let rs := x.slot.ins.elim [] fun i => slotWrites i ++ slotReads i
  let ws := x.slot.ins.elim [] slotWrites
  { who := s.src.id
    tile := ws.findSome? fun r => match r with
      | .t n => if x.slot.word / 2 ^ 26 = 0x25 then none else some (n, s.src.t.get n)
      | _ => none
    vreg := ws.findSome? fun r => match s.src.phys r with
      | .v n => some (n, s.src.v.get n)
      | _ => none
    chain := rs.findSome? fun r => match r with
      | .k k => some (k, s.chain s.src.id.gang k)
      | _ => none
    links := s.links.filter fun l => l.gang == s.src.id.gang }

/-- Puts back the tile, the vector register and the chain that replacement 0 has changed (14 R319). chainOp says that it was
a chain instruction, which may have changed every link of its chain; an MMA has at most made its chain ACTIVE. -/
def putBack (s : State) (u : Undo) (chainOp : Bool) : State :=
  let s := s.withCtx fun c => { c with
    t := u.tile.elim c.t fun p => c.t.set p.1.val p.2 p.1.isLt
    v := u.vreg.elim c.v fun p => c.v.set p.1.val p.2 p.1.isLt }
  match u.chain with
  | none => s
  | some (k, old) =>
    if chainOp then
      let s := s.updChain u.who.gang k fun _ => old
      { s with links := s.links.map fun l =>
          if l.gang = u.who.gang then (u.links.find? fun x => x.id == l.id).getD l else l }
    else s.updChain u.who.gang k fun c =>
      if old.state = .built ∧ c.state = .active ∧
          s.links.all (fun l => l.gang != u.who.gang || l.chain != some k || l.accepted == 0) then { c with state := .built }
      else c

/-- Takes back what replacement 0, handed over in an earlier turn, has done (14 R319): what it has in flight, its counts, its
token, and what it has changed. What replacement 1 waited for and so let end stays where it cannot be put back (DESIGN
CHOICE, log 42). -/
def retract (s : State) (d : Decision) : State :=
  let w := s.ctx.id
  let b := s.ctx.bundles - 1
  let mine (x : CtxId) (n : Nat) : Bool := x == w && n == b
  let n := (s.tileOps.filter fun t => mine t.who t.bundle).length +
    ((s.links.flatMap fun l => l.waiting).filter fun x => mine x.who x.bundle).length
  let toks := ((d.repls.head?.bind issueInstr).elim [] slotWrites).filterMap fun r => match r with
    | .q q => some q
    | _ => none
  let undo := s.undos.find? fun u => u.who == w
  let old (l : Link) : Option Link := undo.bind fun u => u.links.find? fun x => x.gang == l.gang && x.id == l.id
  let s : State := { s with
    tileOps := s.tileOps.filter fun t => !mine t.who t.bundle
    links := s.links.map fun l => l.retract w b (old l)
    undos := s.undos.filter fun u => u.who != w }
  let chainOp := d.repls.head?.any fun x => x.word / 2 ^ 26 == 0x28
  (undo.elim s fun u => putBack s u chainOp).withCtx fun c => { c with
    oct := c.oct - n
    q := toks.foldl (fun v q => v.set q.val ((d.toks[q.val]?).getD (v.get q)) q.isLt) c.q }

/-- The rewrite is cancelled (R319): the bundle issues as written, and so does every bundle up to BL. -/
def cancelRewrite (s : State) (l : List Slot) (d : Decision) (rule : Nat) : Host.Outcome State Fault Refusal :=
  let s := if d.handed then retract s d else s
  let s := s.withCtx fun c => { c with harrow := { c.harrow with
    cancelled := some (rule, d.origins, d.last), decided := some { pc := d.pc } } }
  runPlain { s with pre := some s.ctx } l

/-- The rewritten bundle completes: the matched slots of later bundles are vacated until BL has issued. -/
def completeRewrite (s : State) (l : List Issued) (d : Decision) : State :=
  (completeBundle { s with undos := s.undos.filter fun u => u.who != s.src.id } l).withCtx fun c =>
    if d.last = d.pc then c
    else { c with harrow := { c.harrow with
      spanEnd := some d.last, vacated := d.origins.filter fun o => o.pc != d.pc } }

/-- Replacement 0 is handed over, and the bundle waits for replacement 1, which comes behind it in program order. -/
def handOver (s : State) (x y : Issued) (d : Decision) : State :=
  let needs := y.slot.ins.elim [] fun i => (slotReads i ++ slotWrites i).map s.src.phys
  let t : State := { (attempt s [x]).st with undos := undoOf s x :: s.undos.filter fun u => u.who != s.src.id }
  (t.withCtx fun c =>
    { c with pc := s.src.pc, bundles := c.bundles + 1,
             harrow := { c.harrow with decided := some { d with handed := true, toks := s.src.q.toList, needs := needs } }
      }).between

/-- The state in which replacement 1 is attempted in the turn of replacement 0: what that has put in flight is an earlier
instruction's, and so is the token that it has made incomplete (09 R245). -/
def behindFirst (s : State) : State :=
  { s with
    ctx := { s.ctx with bundles := s.ctx.bundles + 1 }
    pre := s.pre.map fun c => { c with bundles := c.bundles + 1, q := s.ctx.q } }

/-- A bundle whose head is replaced under entry rule (R312, R319). Where replacement 1 must wait, and not for replacement 0,
the bundle waits with it. -/
def runRewritten (s : State) (l : List Slot) (head : Nat) (d : Decision) (rule : Nat) :
    Host.Outcome State Fault Refusal :=
  let others := asWritten (l.filter fun x => x.no != head)
  let repls := d.repls.map fun x => x.issued head
  let first := if d.handed then [] else repls.take 1
  let a := attempt s (others ++ first)
  match a.stop with
  | some o => o
  | none =>
    if a.stalled ∨ !a.halted.isEmpty then .next (stallBundle s a.wants)
    else if !a.trapped.isEmpty then cancelRewrite s l d rule
    else match repls[1]? with
      | none => .next (completeRewrite a.st (others ++ first) d)
      | some y =>
        let b := attemptSlot { a with st := behindFirst a.st } y
        match b.stop with
        | some o => o
        | none =>
          if !b.trapped.isEmpty then cancelRewrite s l d rule
          else if b.stalled then
            (match first with
              | x :: _ =>
                if (attempt s [y]).stalled then .next (stallBundle s b.wants) else .next (handOver s x y d)
              | [] => .next (stallBundle s b.wants))
          else .next (completeRewrite b.st (others ++ repls) d)

/-- A bundle with replacement 0 in place of its head. -/
def asRewritten (l : List Slot) (head : Nat) (d : Decision) : List Issued :=
  asWritten (l.filter fun x => x.no != head) ++ (d.repls.take 1).map fun x => x.issued head

/-- A slot as it issues: a vacated one as a NOP (R312). -/
def vacate (c : Ctx) (x : Slot) : Slot :=
  if c.harrow.vacated.any fun o => o.pc == c.pc && o.slot == x.no then { no := x.no, word := 0, ins := some .nop } else x

/-! ### The bundle -/

/-- Whether a slot takes a decode-time trap (03 R95). -/
def decodeBad (s : State) (x : Slot) : Bool :=
  match x.ins with
  | none => true
  | some i =>
    (decodeTrap s (sigOf s i)).isSome

/-- Whether a slot is a VXB whose pattern register is still owed its value: its check, which a false predicate does not
lift (03 R88), waits for that (05 R146, 08 R209). -/
def patternWaits (s : State) (x : Slot) : Bool :=
  match x.ins with
  | some (.vxb _ _ b _) => readStalls s s.src (.s b)
  | _ => false

/-- The bundle takes the decode-time trap of a slot. -/
def decodeOut (s : State) (x : Slot) : Host.Outcome State Fault Refusal :=
  let s := atSlot s { slot := x }
  match x.ins with
  | none => match exec .unassignedEncoding s with
    | .next t => .next t.between
    | o => o
  | some i => match exec i s with
    | .next t => .next t.between
    | o => o

/-- The state with the array in a window of the context's own core. -/
def inOwnWindow (s : State) : State := s.updArray s.ctx.array fun a => { a with window := s.ctx.lcore % 2 }

/-- The windows of the context's array begin with the first bundle of its gang that issues on one of its cores (06 R171):
one that nothing holds but, it may be, its array window (13 R300; DEDUCED, log 38). -/
def startFor (s : State) (l : List Issued) : State :=
  if windowsBegun s then s
  else
    let t := beginWindows s
    if (attempt (inOwnWindow t) l).stalled then s else t

/-- The windows of the context's array begin with a bundle that issues as written. -/
def startWindows (s : State) (l : List Slot) : State := startFor s (asWritten l)

/-- The state in which what holds a bundle is judged before its harrow delay (13 R301): windows that its issue will begin
do not hold it. -/
def beforeDelay (s : State) : State := if windowsBegun s then s else inOwnWindow (beginWindows s)

/-- A bundle with a T slot, which pays the harrow delay once nothing else holds it as written (13 R301); HARROW_DECISION
ends the delay, and then the bundle issues as decided. -/
def runHead (s : State) (l : List Slot) (head : Nat) : Host.Outcome State Fault Refusal :=
  match s.ctx.harrow.decided.filter fun d => d.pc == s.ctx.pc with
  | some d => match d.rule with
    | none => runPlain (startWindows s l) l
    | some r => runRewritten (startFor s (asRewritten l head d)) l head d r
  | none =>
    let a := attempt (beforeDelay s) (asWritten l)
    match a.stop with
    | some o => o
    | none =>
      if a.stalled then .next (stallBundle s a.wants)
      else .next (s.withCtx fun c => { c with harrow := { c.harrow with delay := some c.pc } }).between

/-- The slots of a fetched bundle, issued by the context in focus. -/
def runBundle (s : State) (l : List Slot) : Host.Outcome State Fault Refusal :=
  let s := s.withCtx Ctx.dropProg
  let s : State := { s with pre := some s.ctx, bun := {} }
  let l := l.map (vacate s.ctx)
  match l.find? fun x => decodeBad s x || patternWaits s x with
  | some x => if decodeBad s x then decodeOut s x else .next (stallBundle s)
  | none => match l.find? fun x => x.cls == .t with
    | none => runPlain (startWindows s l) l
    | some h => if s.ctx.rowStop.isSome then runPlain (startWindows s l) l else runHead s l h.no

/-- The context in focus issues the bundle at its PC: a deferred trap comes first (17 R370); then the fetch, the bundle's
own legality (03 R95), and its slots. -/
noncomputable def issueFocus (s : State) : Host.Outcome State Fault Refusal :=
  let s := s.between
  if deferredDue s.ctx then .next (deliverDeferred s)
  else match fetchBundle s s.ctx s.ctx.pc with
    | (.error _, _) => exec .bundleFetchFault s
    | (.ok ws, s) =>
      match parseBundle decode ws with
      | none => .next (boundaryTrap s { cause := .illegalBundle, xinfo := ws.getD 0 0 }).between
      | some l => runBundle s l

/-- A bundle of a context that a pre-emption finds with a tile transfer in execution (17 R373): the transfer stops at a row
boundary, or else the context stops before its bundle. -/
def orStop (s : State) (o : Host.Outcome State Fault Refusal) : Host.Outcome State Fault Refusal :=
  match o with
  | .next t =>
    if s.ctx.rowStop.isNone ∨ (t.ctx.live ∧ t.ctx.id = s.ctx.id ∧ t.ctx.rowStop.isNone) then .next t
    else .next (s.between.withCtx Ctx.preempted)
  | o => o

/-- The context in focus issues the bundle at its PC. -/
noncomputable def issueBundle (s : State) : Host.Outcome State Fault Refusal := orStop s (issueFocus s)

end Sys2Proof.Machine
end

