-- ==== Sys2Proof/Machine/Turn.lean ====
section
/-! DEFINITION. What happens next (DESIGN CHOICE, log 1): time, the order of contexts on a core (01 R18, R20), the events that become due
by themselves, and the turn that the package takes. -/
namespace Sys2Proof.Machine

/-! ### Time (03 R85, 20 R421) -/

/-- WALLNS and its fraction, in units of 1/(7 * 10^9) ns, after some cycles of the 700 MHz clock. -/
def advanceWall (s : State) (cycles : Nat) : State :=
  if !s.wallSet then s
  else
    let f := s.wallFrac + (cycles : Int) * 10 * (1000000000 + s.wallRate)
    { s with wall := (s.wall + f.toNat / 7000000000) % 2 ^ 64, wallFrac := f.toNat % 7000000000 }

/-- TIME advances by one cycle at least; how many more is not architected (13 R289, DESIGN CHOICE, log 7). The windows of the arrays
follow it (06 R171), and timed flag waits note what has held until now (08 R228). -/
def tick (s : State) : State :=
  let s := noteStopped (noteFlags s)
  let n := 1 + Config.extraCycles s.freeIx
  let s := advanceWall s n
  rollWindows { s with time := s.time + n, freeIx := s.freeIx + 1 }

/-- An outcome after whose next state time advances. -/
def ticked : Host.Outcome State Fault Refusal → Host.Outcome State Fault Refusal
  | .next s => .next (tick s)
  | o => o

/-! ### The contexts of a core (01 R18 to R20) -/

/-- The core of a context within its logical cluster. -/
def Ctx.core (c : Ctx) : Nat := c.lc * 12 + c.lcore

/-- The place of a context in the ring of its core's slots, counted from the slot after the one that ran last. R18 does not
say where the ring of a core that has run nothing begins: at slot 0 (DESIGN CHOICE, log 16). -/
def ringPlace (s : State) (c : Ctx) : Nat :=
  let last := ((s.lastRun.find? fun x => x.1 == c.core).map fun x => x.2).getD 3
  (c.slotNo + 7 - last) % 4

/-- Whether a context stops before its next bundle: its gang is being pre-empted or aborts a phase, and it stands neither in
a harrow span (14 R313) nor in a tile transfer that stops at a row boundary (17 R373, R382). -/
def stopping (s : State) (c : Ctx) : Bool :=
  !c.inSpan && c.rowStop.isNone && (s.gang? c.id.gang).any fun g => g.run == .preempting || g.aborting

/-- Whether a context may issue a bundle now: it runs, or no context of its core runs and it is the first ready one in the
ring. -/
def mayIssue (s : State) (c : Ctx) : Bool :=
  let peers := s.allCtx.filter fun x => x.core == c.core && x.id != c.id
  c.live && c.status == .ready && slicedIn s c && !stopping s c &&
    (c.running || (peers.all fun x => !x.running && (x.status != .ready || decide (ringPlace s c ≤ ringPlace s x))))

/-- The context that issues next when nothing else is due: the one in focus, or the first of the others that may. -/
def nextToIssue (s : State) : Option CtxId :=
  if mayIssue s s.ctx then some s.ctx.id else (s.others.find? (mayIssue s)).map Ctx.id

/-- The context in focus becomes the running one of its core. -/
def startRunning (s : State) : State :=
  let s := s.withCtx fun c => { c with running := true }
  { s with lastRun := (s.ctx.core, s.ctx.slotNo) :: s.lastRun.filter fun x => x.1 != s.ctx.core }

/-- After a bundle the focus moves on to another context that may issue, so that every core has its turn; the one that
has issued goes to the end. -/
def moveOn (s : State) : State :=
  match s.others.find? (mayIssue s) with
  | none => s
  | some c =>
    { s with
      ctx := c
      others := (s.others.filter fun x => x.id != c.id) ++ (if s.ctx.live then [s.ctx] else []) }

/-- After a bundle: time advances and the focus moves on. -/
def afterIssue : Host.Outcome State Fault Refusal → Host.Outcome State Fault Refusal
  | .next s => .next (moveOn (tick s))
  | o => o

/-! ### Events that become due by themselves -/

/-- The steps without an encoding. -/
def isEvent : Instr → Bool
  | .bundleReissue | .loadReturn | .storeAcknowledge | .memoryAccessPerform | .endMarkerReceipt | .homeAtomicPerform |
    .pressEntryArrival | .pressWindowApply | .remoteAtomicRetry | .switchContribution | .switchAccumulatorWrite |
    .combineFold | .engineCommandStart | .engineCommandComplete | .reshardDigestExchange | .reshardChunkRead |
    .tokjoinComplete | .timedWaitExpiry | .fenceSysAcknowledge | .tldComplete | .tstComplete | .tileOpComplete |
    .arrayWindowStart | .mmaPromotionComplete | .handoffForm | .handoffArrival | .closeAct | .closeWritten |
    .linkUncorrectableError | .deferredTrapDelivery | .harrowDecision | .tableWalkComplete | .invrAcknowledge |
    .contextSlotFree | .sliceSwitch | .registerParityReplay | .registerUncorrectable | .errorConsumed |
    .phaseRestart | .doorbell | .nopPacket | .nodePacket | .graphPacket | .detsetPacket | .detsetTakesEffect |
    .nodeDispatch | .agingIntervalExpiry | .preempt | .preemptAbandon | .gangResume | .saveBlockError |
    .nodeComplete | .dualSecondRun | .completionEntryWrite | .remapWrite | .remapTakesEffect | .resync |
    .bar0RegisterWrite | .hostBar2Access | .hostCxlMemAccess | .deadlockDelivery | .flitCrcFailure | .furrowSilence |
    .planeSwitchFault | .deadFurrowReport | .qreq | .drainComplete | .drained | .install | .installed | .resume |
    .quiesceTimeout | .status | .counters | .clrcnt | .setpft | .setuv | .setpcap | .arrayout | .arrayin | .kill |
    .fallow | .restore | .winreg | .windel | .attest | .events | .keyupd | .fwupd | .setsave | .settime | .slewtime |
    .pldmSensorRead | .errorWindowEnd | .waitForWalk | .powerOverCap | .packageReset | .unassignedEncoding |
    .bundleFetchFault | .dualShadowError => true
  | _ => false

/-- An event of the package with the numbers that it acts on. -/
abbrev Due := Instr × Arg

/-- The next step of an access in flight (08 R208, R209, R216, R217, R221). -/
def flightEvents (s : State) : List Due :=
  s.flights.filterMap fun f =>
    let a : Arg := { id := f.id }
    if f.performed then some (if f.cls = .l then .loadReturn else .storeAcknowledge, a)
    else if !mayPerform s f then none
    else match f.kind, f.place with
      | .atom _, .home => some (.homeAtomicPerform, a)
      | .atom _, .press => some (.pressEntryArrival, a)
      | .atom _, .switch => some (.switchContribution, a)
      | _, _ => some (.memoryAccessPerform, a)

/-- END markers (10 R269). -/
def markerEvents (s : State) : List Due :=
  s.clocks.markers.map fun m => (.endMarkerReceipt, { id := m.id, val := m.slice })

/-- Tile instructions in flight (07 R185, R187). -/
def tileEvents (s : State) : List Due :=
  s.tileOps.map fun t => (match t.op with
    | .load _ _ _ => .tldComplete
    | .store _ _ _ => .tstComplete
    | _ => .tileOpComplete, { id := t.id })

/-- Links: promotions, hand-offs formed and hand-offs in transit (06 R157, R158, R162). -/
def linkEvents (s : State) : List Due :=
  s.links.filterMap fun l =>
    let a : Arg := { gang := l.gang, id := l.id }
    if !l.waiting.isEmpty then some (.mmaPromotionComplete, a)
    else if l.inTransit then some (.handoffArrival, a)
    else if l.state = .complete then some (.handoffForm, a)
    else none

/-- Armed closes (06 R160, R161). -/
def closeEvents (s : State) : List Due :=
  s.gangs.flatMap fun g => (g.chains.toList.mapIdx fun i c => (i, c)).filterMap fun p =>
    match p.2.close with
    | none => none
    | some x => some (if x.acting then .closeWritten else .closeAct, { gang := g.id, id := p.1 })

/-- Whether every rank of a reshard stands in this package. -/
def allHere (s : State) (k : Cmd) : Bool := k.reshard?.all fun b => b.ranks.all fun r => r.1 == s.pkg

/-- Engine commands (09 R235 to R244); a reshard with ranks elsewhere waits for what their packages send. -/
def cmdEvents (s : State) : List Due :=
  s.cmds.flatMap fun k =>
    let a : Arg := { id := k.id }
    if !k.started then
      (if k.ready then [(.engineCommandStart, a)] else []) ++
        (if k.reshard?.isSome && k.stage == 0 && allHere s k then [(.reshardDigestExchange, a)] else [])
    else match k.body with
      | .reshard _ =>
        if k.stage = 0 then (if allHere s k then [(.reshardDigestExchange, a)] else [])
        else [(.reshardChunkRead, a)] ++ (if allHere s k || k.fault.isSome then [(.engineCommandComplete, a)] else [])
      | .combine _ => [(.combineFold, a), (.engineCommandComplete, a)]
      | _ => [(.engineCommandComplete, a)]

/-- TOKJOINs, press windows, switch accumulators, walks and INVRs. -/
def memoryEvents (s : State) : List Due :=
  (s.joins.map fun j => (.tokjoinComplete, { id := j.id })) ++
    (s.gangs.filterMap fun g => if g.windows.isEmpty then none else some (.pressWindowApply, { gang := g.id })) ++
    (s.fleet.accs.map fun k => (.switchAccumulatorWrite, { val := k.addr })) ++
    (s.walks.map fun w => (.tableWalkComplete, { id := w.id })) ++
    s.invals.map fun v => (.invrAcknowledge, { id := v.id })

/-- Contexts that may go on, or leave their slots (04 R121, 01 R18, 08 R224, R228). -/
def contextEvents (s : State) : List Due :=
  s.allCtx.flatMap fun c =>
    let a : Arg := { gang := c.id.gang, gix := c.id.gix }
    (if c.poisoned then [(.errorConsumed, a)] else []) ++ match c.status with
    | .exited => if slotFreeable c then [(.contextSlotFree, a)] else []
    | .blocked l =>
      (if l.contains .fenceSys then [(.fenceSysAcknowledge, a)] else []) ++
        (if l.any (blockExpired s c) then [(.timedWaitExpiry, a)] else []) ++
        (if mayWake s c then [(.bundleReissue, a)] else [])
    | .ready => if decisionDue c then [(.harrowDecision, a)] else []
    | _ => []

/-- Whether a gang is being killed. -/
def Gang.dying (g : Gang) : Bool :=
  match g.run with
  | .killing _ => true
  | _ => false

/-- Gangs: their ends, second runs, phase aborts and pre-emptions (01 R27, 17 R373, R382, R385). -/
def gangEvents (s : State) : List Due :=
  s.gangs.flatMap fun g =>
    let a : Arg := { gang := g.id }
    (if g.dying || ended s g then [(.nodeComplete, a), (.dualSecondRun, a)] else []) ++
      (if g.aborting then [(.phaseRestart, a)] else []) ++
      (if g.run = .preempting then [(.preempt, a), (.preemptAbandon, a)] else [])

/-- Work queues (16 R347, R348, R352, R357). -/
def queueEvents (s : State) : List Due :=
  s.granary.queues.flatMap fun q =>
    let a : Arg := { id := q.id }
    (if q.detWait.isSome || !q.insns.isEmpty then [(.detsetTakesEffect, a)] else []) ++
      (if q.en && !q.err && q.head != q.tail then
        [(.nopPacket, a), (.nodePacket, a), (.graphPacket, a), (.detsetPacket, a)] else []) ++
      (if q.events.isEmpty then [] else [(.completionEntryWrite, a)])

/-- The granary: dispatch, resumption, aging, pre-emption, REMAP and RESYNC (01 R28, 16 R350, R358, 17 R372). -/
def granaryEvents (s : State) : List Due :=
  let ns := s.granary.nodes.filter (inReadySet s)
  (if ns.isEmpty then [] else [(.nodeDispatch, ({} : Arg)), (.gangResume, ({} : Arg))]) ++
    (ns.map fun n => (.agingIntervalExpiry, { id := n.id })) ++
    (if ns.isEmpty then [] else [(.preempt, { gang := 65536 })]) ++
    (s.granary.remapPending.map fun w => (.remapTakesEffect, { id := w.lc })) ++
    (if s.granary.go then [(.resync, { id := 1 })] else [])

/-- The quiesce protocol, for the messages that this package sends itself (19 R400, R404). -/
def fleetEvents (s : State) : List Due :=
  let a : Arg := { val := s.fleet.target.toNat, id := s.pkg }
  (s.fleet.dead.filterMap fun f => if reportDue s f then some (.deadFurrowReport, { id := f }) else none) ++
    (match s.fleet.step with
      | .idle => []
      | .stopping => [(.drainComplete, a)]
      | .draining => []
      | .drained => if s.fleet.master then [(.install, a)] else []
      | .installed => if s.fleet.master then [(.resume, a)] else []) ++
    (if s.fleet.step ≠ .idle && s.fleet.master then [(.quiesceTimeout, ({} : Arg))] else [])

/-- Issue windows and time slices (06 R171, 01 R16). -/
def coreEvents (s : State) : List Due :=
  (s.arrays.filterMap fun a => if windowDue s a then some (.arrayWindowStart, { id := a.id }) else none) ++
    (((s.allCtx.filter Ctx.sliced).map Ctx.pc8).dedup.filterMap fun p =>
      if (switchDue s p).isSome then some (.sliceSwitch, { id := p }) else none)

/-- The management core: waiting kills, error windows and the wait-for walk (20 R411, R415, R417). -/
def mgmtEvents (s : State) : List Due :=
  (s.mgmt.kills.map fun g => (.kill, { data := toBytes 2 g })) ++
    (if s.mgmt.windowStart + 700000000 ≤ s.time then [(.errorWindowEnd, ({} : Arg))] else []) ++
    (if s.mgmt.lastWalk + 7000000 ≤ s.time then [(.waitForWalk, ({} : Arg))] else [])

/-- The events that may be due, in the order in which they are looked at. -/
def dueEvents (s : State) : List Due :=
  flightEvents s ++ (markerEvents s ++ (tileEvents s ++ (linkEvents s ++ (closeEvents s ++ (cmdEvents s ++
    (memoryEvents s ++ (contextEvents s ++ (gangEvents s ++ (queueEvents s ++ (granaryEvents s ++ (fleetEvents s ++
    (coreEvents s ++ mgmtEvents s))))))))))))

/-- Whether an event changes the package now, free values apart. -/
def effective (s : State) (d : Due) : Bool :=
  let s : State := { s with arg := d.2 }
  match exec d.1 s with
  | .next t => { t with freeIx := s.freeIx } != s
  | _ => false

/-- The event that happens next by itself. -/
def nextInternal (s : State) : Option Due := (dueEvents s).find? (effective s)

/-! ### Turns -/

/-- An event happens. A turn that names an instruction of a bundle as an event does nothing. -/
def happen (s : State) (d : Due) : Host.Outcome State Fault Refusal :=
  if isEvent d.1 then ticked (exec d.1 { s with arg := d.2 }) else .next (tick s)

/-- A context issues its bundle. -/
noncomputable def issueOf (s : State) (w : CtxId) : Host.Outcome State Fault Refusal :=
  afterIssue (issueBundle (startRunning (focusOn s w)))

/-- A turn that the agenda names. A context that may not issue does nothing. -/
noncomputable def takeTurn (s : State) : Turn → Host.Outcome State Fault Refusal
  | .event i a => happen s (i, a)
  | .issue w => if (s.ctx? w).any (mayIssue s) then issueOf s w else .next (tick s)

/-- The turn of a package with an empty agenda: the next event, else the next bundle, else only time. -/
noncomputable def ownTurn (s : State) : Host.Outcome State Fault Refusal :=
  match nextInternal s with
  | some d => happen s d
  | none => match nextToIssue s with
    | some w => issueOf s w
    | none => .next (tick s)

/-! ### A program put in place (DESIGN CHOICE, log 15) -/

/-- Where the bundle of withFetchWord stands, and its page tables: three levels that map 1 GiB at 0 to itself. -/
def bootText : Nat := 0x2000

/-- The page tables of withFetchWord. -/
def bootTables (m : Memory) : Memory :=
  ((m.setBytes 0x10000 (toBytes 8 0x11001)).setBytes 0x11000 (toBytes 8 0x12001)).setBytes 0x12000 (toBytes 8 0xF3)

/-- Whether a word is an instruction of a V-core alone (01 R11). -/
def vectorWord (w : Nat) : Bool := w / 2 ^ 26 == 0x14 || (w / 2 ^ 26 == 0x1B && decide (w / 64 % 32 < 8))

/-- The class of a word that stands in a bundle without a header. -/
noncomputable def wordClass (w : Nat) : SlotClass :=
  match decode w .none with
  | .ok i => slotClass i
  | .error _ => mapClass w

/-- The context that issues the word: the only one of a gang of one cluster. -/
def bootCtx (w : Nat) : Ctx :=
  { live := true, lcore := if vectorWord w then 8 else 0, pcore := if vectorWord w then 8 else 0
    pc := BitVec.ofNat 64 bootText, ptbase := 0x10000, nbv := 1
    harrow := { decided := some { pc := BitVec.ofNat 64 bootText } } }

/-- The gang of the context. -/
def bootGang : Gang :=
  { id := 0, n := 1, nbv := 1, clusters := [{ gcl := 0, lc := 0 }], ptbase := 0x10000
    barriers := Vector.replicate 16 { e := 1 } }

/-- The package with a word placed as the next bundle: in slot 3 for class C, else in slot 0, with NOPs beside it. -/
noncomputable def placeWord (s : State) (w : Nat) : State :=
  let slot := if wordClass w = .c then 3 else 0
  { s with
    ctx := bootCtx w, others := [], agenda := [], gangs := [bootGang]
    mem := (bootTables s.mem).setBytes (bootText + 4 * slot) (toBytes 4 w) }

end Sys2Proof.Machine
end

