-- ==== Sys2Proof/Machine/Step.lean ====
section
/-! DEFINITION. One step of the package, and a word put where the step fetches. -/
namespace Sys2Proof.Machine

/-- One turn: the first that the agenda names, else the package's own. -/
noncomputable def step (s : State) : Host.Outcome State Fault Refusal :=
  match s.agenda with
  | t :: l => takeTurn { s with agenda := l } t
  | [] => ownTurn s

/-- The package with the instruction of w placed where the next step fetches (DESIGN CHOICE, log 15): a gang with one context, whose
bundle holds it. An instruction has 32 bits. -/
noncomputable def State.withFetchWord (s : State) (nbits w : Nat) : State :=
  if nbits = 32 then placeWord s (w % 2 ^ 32) else s

end Sys2Proof.Machine
end

