-- ==== Sys2Proof/Safety.lean ====
section
/-! DEFINITION. What counts as a safe run: the machine goes on, and what it holds stays in form. -/
namespace Sys2Proof.Machine

/-- The package goes on: its step answers a next state. -/
def Runs (s : State) : Prop := ∃ t, step s = .next t

/-- The memories are in canonical form: global memory as the homes hold it, the scratchpads, and what HBM holds where L2 is
newer. -/
def State.memOk (s : State) : Bool := s.mem.wf && s.spad.wf && s.hbmHost.wf

/-- The hard-wired registers of a context hold what they read (03 R65): s0 holds 0 and p0 holds 1. -/
def Ctx.wired (c : Ctx) : Bool := c.s.get 0 == 0 && c.p.getLsbD 0

/-- Bundle addresses of a context are multiples of 16 (03 R86). -/
def Ctx.pcAligned (c : Ctx) : Bool := c.pc.toNat % 16 == 0

/-- A slot that issues: it takes no decode-time trap (03 R95: its fields keep to their limits, the mode and the unit
allow it) and no register that it names is owed a value by an operation in flight (13 R290). -/
def Issues (i : Instr) (s : State) : Prop := decodeTrap s (sigOf s i) = none ∧ regStall s (sigOf s i) = false

/-- The state in which the body of a slot runs: operands are read from the context as it stood before the bundle
(03 R92), and pc stands at the next bundle. -/
def begun (s : State) : State := { s with pre := some s.src, ctx := { s.ctx with pc := s.src.pc + 16 } }

/-- The state after a slot that is done, whose body left t. -/
def finished (s t : State) : State := { t with pre := s.pre }.ended .done

/-- The state after a slot that takes a trap (03 R79 to R81, 17 R368). -/
def trapped (s : State) (t : TrapInfo) : State :=
  { slotTrap { s with pre := some s.src } t with pre := s.pre }.ended .trapped

/-- The state after a slot that blocks (01 R18), whose body left t. -/
def blocked (s t : State) (why : Block) : State := { blockOn t why with pre := s.pre }.ended .blocked

/-- Nothing is in flight that could owe a register its value: no access, press entry, tile instruction, contribution
or armed close. -/
def Quiet (s : State) : Prop :=
  s.flights = [] ∧ s.press = [] ∧ s.tileOps = [] ∧ (∀ l ∈ s.links, l.waiting = []) ∧
    ∀ g ∈ s.gangs, ∀ k ∈ g.chains.toList, k.close = none

/-- The byte at a global address. -/
def State.byteAt (s : State) (a : Nat) : Byte := s.mem.get a

/-- The byte at a scratchpad address. -/
def State.spadAt (s : State) (a : Nat) : Byte := s.spad.get a

end Sys2Proof.Machine
end

