-- ==== Sys2Proof/Certificates/Slice0/Obligations.lean ====
section
/-! DEFINITION. The statements for the provers. Each says which rules of the spec it formalises; helpers stand in
Sys2Proof.Claim. -/

namespace Sys2Proof.Claim
open Sys2Proof.Machine

/-- The slot issues, is done, and all that changes is what its body leaves: exec answers the next state. -/
def Does (i : Instr) (s t : State) : Prop := exec i s = .next (finished s t)

/-- The slot is done and writes v to scalar register d; nothing else changes but pc. -/
def Puts (i : Instr) (s : State) (d : SReg) (v : Word) : Prop := Does i s (wrS (begun s) d v)

/-- The slot is done and writes b to predicate d; nothing else changes but pc. -/
def PutsP (i : Instr) (s : State) (d : PReg) (b : Bool) : Prop := Does i s (wrP (begun s) d b)

/-- The slot takes a trap. -/
def Traps (i : Instr) (s : State) (t : TrapInfo) : Prop := exec i s = .next (trapped s t)

/-- An operation on the operands that 04 R98 gives for a width: the whole registers, or their low words with the
32-bit result extended from bit 31 for a signed kind and with zeros for the others. -/
def byWidth (w32 signed : Bool) (f : (n : Nat) → BitVec n → BitVec n → BitVec n) (a b : Word) : Word :=
  if w32 then
    if signed then (f 32 (a.setWidth 32) (b.setWidth 32)).signExtend 64
    else (f 32 (a.setWidth 32) (b.setWidth 32)).setWidth 64
  else f 64 a b

/-- A register-register instruction writes f of its operands to D in every state in which it issues. -/
def Alu (mk : SReg → SReg → SReg → Bool → Instr) (signed : Bool) (f : (n : Nat) → BitVec n → BitVec n → BitVec n) :
    Prop :=
  ∀ (d a b : SReg) (w : Bool) (s : State), Issues (mk d a b w) s →
    Puts (mk d a b w) s d (byWidth w signed f (rdS s a) (rdS s b))

/-- A relation between the operands that 04 R98 gives for a width. -/
def relByWidth (w32 : Bool) (f : (n : Nat) → BitVec n → BitVec n → Bool) (a b : Word) : Bool :=
  if w32 then f 32 (a.setWidth 32) (b.setWidth 32) else f 64 a b

/-- A comparison writes its relation to the predicate. -/
def Cmp (mk : PReg → SReg → SReg → Bool → Instr) (f : (n : Nat) → BitVec n → BitVec n → Bool) : Prop :=
  ∀ (p : PReg) (a b : SReg) (w : Bool) (s : State), Issues (mk p a b w) s →
    PutsP (mk p a b w) s p (relByWidth w f (rdS s a) (rdS s b))

/-- An immediate form writes f of A and the literal to D. -/
def AluImm (mk : SReg → SReg → Int → Instr) (f : Word → Word → Word) : Prop :=
  ∀ (d a : SReg) (imm : Int) (s : State), Issues (mk d a imm) s →
    Puts (mk d a imm) s d (f (rdS s a) (BitVec.ofInt 64 imm))

/-- A count of the bits of A: over the width w, the count r that q allows is written to D. -/
def Count (mk : SReg → SReg → Bool → Instr) (q : (n : Nat) → BitVec n → Nat → Prop) : Prop :=
  ∀ (d a : SReg) (w : Bool) (s : State), Issues (mk d a w) s →
    ∃ r, (if w then q 32 ((rdS s a).setWidth 32) r else q 64 (rdS s a) r) ∧ Puts (mk d a w) s d (BitVec.ofNat 64 r)

/-- A transfer to a target (04 R114): pc takes it where it is a legal bundle address, else the slot traps. t is what the
slot leaves beside. -/
def Goes (i : Instr) (s t : State) (target : Word) : Prop :=
  (target.toNat % 16 = 0 → target.toNat / 2 ^ 56 = 0 → Does i s (t.withCtx fun c => { c with pc := target })) ∧
    (target.toNat % 16 ≠ 0 → Traps i s { cause := .align, faddr := target.toNat % 2 ^ 56 }) ∧
    (target.toNat % 16 = 0 → target.toNat / 2 ^ 56 ≠ 0 →
      Traps i s { cause := .accessFault, faddr := target.toNat % 2 ^ 56 })

/-- The target of a relative transfer (04 R111, R112). -/
def target (s : State) (imm : Int) : Word := s.src.pc + BitVec.ofInt 64 (imm * 16)

end Sys2Proof.Claim

open Sys2Proof Sys2Proof.Machine Sys2Proof.Claim

/-- The words that the chapters write out decode to the instructions they stand for (R103, R117, R118, R120 and the
examples of 04 to 09). -/
def Obligations.WrittenWordsDecode : Prop :=
  decode 0x00000000 .none = .ok .nop ∧ decode 0x00000040 .none = .ok .exit ∧ decode 0x00000080 .none = .ok .yield ∧
    decode 0x108189AB .none = .ok (.movhi 4 1 0x89AB) ∧ decode 0x2C640003 .none = .ok (.loopSt 3 4 3) ∧
    decode 0x2FFFFFFF .none = .ok (.loopBr (-1)) ∧ decode 0x34040820 .none = .ok (.wait 0 64 32 16) ∧
    decode 0x44853150 .none = .ok (.fma true 4 5 6 .rdn) ∧ decode 0xB0850106 .none = .ok (.ld 4 5 16 false 6) ∧
    decode 0xD0000020 .none = .ok (.fence 4 false) ∧ decode 0xD400004E .none = .ok (.barWait 3 true) ∧
    decode 0x38000000 .none = .error .illegalInstr ∧ decode 0xFC000000 .none = .error .illegalBundle

/-- The fate of a reserved major opcode, 0x3E included, is ILLEGAL_INSTR, under every header that adds nothing to the
slot; a header in slots 1 to 3 makes the bundle illegal (R86, R93, R95). -/
def Obligations.ReservedMajorsRefused : Prop :=
  (∀ w : Nat, w < 2 ^ 32 →
    [0x0E, 0x0F, 0x16, 0x17, 0x1F, 0x21, 0x22, 0x23, 0x29, 0x2A, 0x2B, 0x33, 0x37, 0x3D, 0x3E].contains (w / 2 ^ 26) →
    ∀ x : Ext, (x = .none ∨ x = .imm 0 ∨ x = .regs false false false) → decode w x = .error .illegalInstr) ∧
  ∀ (w0 w1 w2 w3 : Nat), (isHeader w1 ∨ isHeader w2 ∨ isHeader w3) → parseBundle decode [w0, w1, w2, w3] = none

/-- For every encodable instruction of majors 0x00 to 0x15 (scalar, control, CSR and floating-point) the decoder reads
back the instruction that the encoder wrote, with every operand at every value the encoding admits (R87, R93). -/
def Sys2Proof.Claim.ScalarAndFloatRoundTrip : Prop :=
  ∀ i : Instr, isEvent i = false → i.encodable = true → encodeWord i / 2 ^ 26 ≤ 0x15 →
    decode (encode i).1 (encode i).2 = .ok i

/-- The same for majors 0x18 to 0x28: vector, mask, crossbar, tile, matrix and chain instructions (R87, R93). -/
def Sys2Proof.Claim.VectorAndTileRoundTrip : Prop :=
  ∀ i : Instr, isEvent i = false → i.encodable = true → 0x18 ≤ encodeWord i / 2 ^ 26 → encodeWord i / 2 ^ 26 ≤ 0x28 →
    decode (encode i).1 (encode i).2 = .ok i

/-- The same for majors 0x2C to 0x3C: memory, synchronisation, engine, token, phase and system instructions (R87,
R93). -/
def Obligations.MemoryAndSystemRoundTrip : Prop :=
  ∀ i : Instr, isEvent i = false → i.encodable = true → 0x2C ≤ encodeWord i / 2 ^ 26 →
    decode (encode i).1 (encode i).2 = .ok i

namespace Sys2Proof.Claim
open Sys2Proof.Machine

/-- A NOP in a slot. -/
def nopSlot (n : Nat) : Slot := { no := n, word := 0, ins := some .nop }

/-- The state in which the issue of a context's bundle begins: the agenda's turn is taken and the context is in focus. -/
noncomputable def issuing (s : State) (rest : List Turn) (w : CtxId) : State :=
  (startRunning (focusOn { s with agenda := rest } w)).between

/-- A bundle of three NOPs and a slot 3 that holds i. -/
def lastSlotBundle (word : Nat) (i : Instr) : List Slot :=
  [nopSlot 0, nopSlot 1, nopSlot 2, { no := 3, word := word, ins := some i }]

/-- The state in which a fetched bundle issues: what a wait at another bundle left behind goes (08 R226), and the windows
of the context's array begin where this is the first bundle of its gang there (06 R171). -/
def atIssue (s : State) (l : List Slot) : State :=
  startWindows { s.withCtx Ctx.dropProg with pre := some s.ctx.dropProg, bun := {} } l

/-- The state in which the instruction of slot 3 runs after three NOPs: operands are read from the context as it stood
before the bundle, and pc stands at the next bundle. -/
def atLastSlot (s : State) (word : Nat) (i : Instr) : State :=
  let t := atIssue s (lastSlotBundle word i)
  { t with ctx := { t.ctx with pc := t.ctx.pc + 16 }, bun := { slot := 3, word := word } }

end Sys2Proof.Claim

/-- A turn that issues the bundle of a context runs the decoded instruction: where no deferred trap waits and the bytes
at pc decode to three NOPs and a slot 3 that holds i, the step is exec of i, at the state with pc moved past the bundle,
then the note of taint (nothing but at level TAINT), the bundle's completion, the advance of time and the move of focus.
Left to other statements: barrier drops (which act before the NOPs), class T (the harrow looks first), determinism level
TAINT, and a context that a pre-emption has told to stop. -/
def Obligations.StepRunsTheDecodedInstruction : Prop :=
  ∀ (s s1 t : State) (rest : List Turn) (w : CtxId) (word : Nat) (i : Instr),
    s.agenda = .issue w :: rest →
    (({ s with agenda := rest } : State).ctx? w).any (mayIssue { s with agenda := rest }) = true →
    deferredDue (issuing s rest w).ctx = false → (issuing s rest w).ctx.rowStop = none →
    fetchBundle (issuing s rest w) (issuing s rest w).ctx (issuing s rest w).ctx.pc = (.ok [0, 0, 0, word], s1) →
    parseBundle decode [0, 0, 0, word] = some (lastSlotBundle word i) →
    s1.ctx.harrow.vacated = [] → s1.ctx.badRegs = [] → s1.ctx.detl ≠ 2 →
    slotClass i ≠ .t → (∀ b, i ≠ .barDrop b) →
    decodeTrap (atLastSlot s1 word i) (sigOf (atLastSlot s1 word i) i) = none →
    exec i (atLastSlot s1 word i) = .next t → t.bun.status = .done →
    step s = .next (moveOn (tick (completeBundle (noteTaint t { no := 3, word := word, ins := some i })
      (asWritten (lastSlotBundle word i)))))

/-- A turn that names a step without an encoding runs its meaning on the turn's arguments, and time advances; TIME moves
on by at least one cycle. -/
def Obligations.StepRunsTheNamedEvent : Prop :=
  ∀ (s t : State) (rest : List Turn) (i : Instr) (a : Arg),
    s.agenda = .event i a :: rest → isEvent i = true → exec i { s with agenda := rest, arg := a } = .next t →
    step s = .next (tick t) ∧ t.time < (tick t).time

/-- Memory, the scratchpads and what HBM holds where L2 is newer stay in canonical form (DESIGN CHOICE, log 3: addresses rising, no
listed byte that equals what an unlisted one reads): every step keeps it, from every state that has it, whatever turn it
takes. -/
def Obligations.StepKeepsMemoryForm : Prop :=
  ∀ s t : State, s.memOk = true → step s = .next t → t.memOk = true

/-- The package after reset has that form. -/
def Obligations.ResetHasMemoryForm : Prop := State.reset.memOk = true ∧ Sys2Proof.core.reset = State.reset

/-- What reset leaves, as far as the rules give it: TIME and WALLNS 0, no gang and no access in flight, PMAP the identity,
REMAP entry LC valid and naming the cluster of its own number, FPM and FXF 0, PIPE, PASS and ROTB 0, VSHAPE of 4-byte
elements in one row, HPERM with HEN alone, the trap record and OCNT 0, every token complete (R25, R46, R47, R69 to R71,
R78 to R82, R84, R85, R350). -/
def Obligations.ResetLeavesStatedValues : Prop :=
  let s := State.reset
  s.time = 0 ∧ s.wall = 0 ∧ s.gangs = [] ∧ s.flights = [] ∧ s.pmap = 0xFAC688 ∧ s.granary.queues = [] ∧
    (∀ lc, lc < 32 → s.granary.remap[lc]? = some (BitVec.ofNat 16 (0x8000 + lc))) ∧
    s.ctx.live = false ∧ csrRead s s.ctx 0x010 = 0 ∧ csrRead s s.ctx 0x011 = 0 ∧ csrRead s s.ctx 0x014 = 1 ∧
    csrRead s s.ctx 0x020 = 2 ∧ csrRead s s.ctx 0x030 = 0 ∧ csrRead s s.ctx 0x031 = 0 ∧ csrRead s s.ctx 0x032 = 0 ∧
    csrRead s s.ctx 0x060 = 0 ∧ csrRead s s.ctx 0x070 = 0 ∧ csrRead s s.ctx 0x071 = 0 ∧ csrRead s s.ctx 0x072 = 0 ∧
    csrRead s s.ctx 0x073 = 0 ∧ csrRead s s.ctx 0x075 = 0 ∧ csrRead s s.ctx 0x090 = 0xFAC688 ∧
    ∀ q : QReg, (s.ctx.q.get q).done = true ∧ (s.ctx.q.get q).status = .ok

/-- A slot's decode-time traps, in their order: a field outside the limits of its instruction or an element size that it
does not allow traps with ILLEGAL_INSTR; else a privileged form, or a write of an RWP CSR, in user mode with PRIVILEGED;
else an instruction of an absent unit or of the wrong core kind with UNIMPLEMENTED; XINFO is the word (R95). -/
def Sys2Proof.Claim.DecodeTimeTrapsInOrder : Prop :=
  ∀ (i : Instr) (s : State), isEvent i = false →
    let w := encodeWord i
    let legal := i.limits && elemSizeOk (w / 2 ^ 26) (w / 64 % 32) s.src.ew
    let out (c : Cause) : Host.Outcome State Fault Refusal :=
      .next ((slotTrap s { cause := c, xinfo := s.bun.word }).ended .trapped)
    (legal = false → exec i s = out .illegalInstr) ∧
    (legal = true → slotPrivileged i = true → s.src.mode = .user → exec i s = out .privilegedInstr) ∧
    (legal = true → (slotPrivileged i = false ∨ s.src.mode = .privileged) →
      unitPresent s (w / 2 ^ 26) (w / 64 % 32) w = false → exec i s = out .unimplemented)

/-- Where nothing is in flight, no register is owed a value, and an instruction issues as soon as its fields keep to
their limits, the mode and the unit allow it and its element size and crossbar pattern are legal (R95, R290). -/
def Sys2Proof.Claim.QuietSlotIssues : Prop :=
  ∀ (i : Instr) (s : State), Quiet s → i.limits = true →
    elemSizeOk (encodeWord i / 2 ^ 26) (encodeWord i / 64 % 32) s.src.ew = true →
    (slotPrivileged i = false ∨ s.src.mode = .privileged) →
    unitPresent s (encodeWord i / 2 ^ 26) (encodeWord i / 64 % 32) (encodeWord i) = true →
    (∀ d a b m, i = .vxb d a b m → xbOk (rdS s b).toNat = true) → Issues i s

/-- Taking a trap in user mode with a handler: CAUSE, PM = 0 and FADDR in TRAPC, the bundle's address in TRAPPC, the slot
and XINFO in TRAPX, TRAPO 0 where no rewrite was cancelled; the mode becomes privileged and PC the handler; no other
register of the context and nothing else of the package changes (R79 to R81, R368). -/
def Sys2Proof.Claim.TrapRecordsAndEntersHandler : Prop :=
  ∀ (s : State) (info : TrapInfo), s.pre = none → s.ctx.mode = .user → s.ctx.tvec ≠ 0 → s.ctx.harrow.cancelled = none →
    info.xinfo < 2 ^ 32 → s.bun.slot < 4 →
    let t := slotTrap s info
    t.ctx.trapc.toNat % 64 = info.cause.code ∧ t.ctx.trapc.getLsbD 7 = false ∧ t.ctx.trapc.getLsbD 6 = false ∧
      t.ctx.trapc.toNat / 256 = info.faddr % 2 ^ 56 ∧
      t.ctx.trappc.toNat = s.ctx.pc.toNat % 2 ^ 56 / 16 * 16 ∧
      t.ctx.trapx.toNat % 4 = s.bun.slot ∧ t.ctx.trapx.toNat / 2 ^ 32 = info.xinfo ∧ t.ctx.trapo = 0 ∧
      t = { s with ctx := { s.ctx with
        trapc := t.ctx.trapc, trappc := t.ctx.trappc, trapx := t.ctx.trapx, trapo := t.ctx.trapo,
        mode := .privileged, pc := s.ctx.tvec, harrow := t.ctx.harrow } }

/-- A trap without a handler, or in privileged mode, ends the gang instead: the gang is being killed with status
0x40 + cause, no context of it stays, and no trap register of another context changes. TRAP in privileged mode gives
0x40 + CODE for a cause code and 0x78 for any other (R369). -/
def Sys2Proof.Claim.UnhandledTrapEndsTheGang : Prop :=
  ∀ (s : State) (info : TrapInfo) (code : Option Nat), (s.ctx.tvec = 0 ∨ s.ctx.mode = .privileged) →
    let t := slotTrap s info code
    (∀ g, s.gang? s.ctx.id.gang = some g → g.run = .running →
      (t.gang? s.ctx.id.gang).map Gang.run = some (.killing (match code with
        | some k => if s.src.mode = .privileged then (if causeCodes.contains k then 0x40 + k else 0x78)
          else 0x40 + info.cause.code
        | none => 0x40 + info.cause.code))) ∧
    t.gangCtx s.ctx.id.gang = [] ∧
    (∀ c ∈ s.others, c.id.gang ≠ s.ctx.id.gang → c ∈ t.others) ∧ t.mem = s.mem ∧ t.spad = s.spad

/-- TRAP takes SOFTWARE: it issues in every mode and its only effect is the trap; ERET goes to TRAPPC.BPC, in privileged
mode with the mode of TRAPC.PM and in user mode staying there, with the trap record unchanged; HFLUSH only flushes the
window (R254). -/
def Obligations.TrapEretAndFlush : Prop :=
  (∀ (code : Fin 32768) (s : State), Issues (.trap code) s →
    exec (.trap code) s = .next (({ slotTrap { s with pre := some s.src } { cause := .software } (some code.val) with
      pre := s.pre } : State).ended .trapped)) ∧
  (∀ s : State, Issues .eret s → ∃ t, exec .eret s = .next t ∧ t.ctx.pc = s.ctx.trappc ∧
    t.ctx.mode = (if s.ctx.mode = .privileged ∧ s.ctx.trapc.getLsbD 7 = true then .privileged else .user) ∧
    t.ctx.trapc = s.ctx.trapc ∧ t.ctx.trappc = s.ctx.trappc ∧ t.ctx.trapx = s.ctx.trapx ∧ t.ctx.trapo = s.ctx.trapo ∧
    t.ctx.s = s.ctx.s ∧ t.ctx.p = s.ctx.p ∧ t.mem = s.mem) ∧
  ∀ s : State, Issues .hflush s → Does .hflush s (flushHarrow (begun s))

/-- An instruction that only computes on registers leaves everything else: where a slot of class S or F other than
CHK, or NOP, is done, memory, the scratchpads, the other contexts, the gangs and all that is in flight stand as before,
and so does every scalar register and predicate that is not among those it writes. CSR writes have their own
statements. -/
def Obligations.RegisterInstructionsLeaveTheRest : Prop :=
  ∀ (i : Instr) (s t : State), isEvent i = false → (slotClass i = .s ∨ slotClass i = .f ∨ i = .nop) →
    (∀ a b k, i ≠ .chk a b k) → (∀ d a c, i ≠ .csrw d a c ∧ i ≠ .csrs d a c ∧ i ≠ .csrc d a c) →
    exec i s = .next t → t.bun.status = .done →
    t = { s with ctx := { s.ctx with s := t.ctx.s, p := t.ctx.p, fxf := t.ctx.fxf, pc := s.src.pc + 16 }, bun := t.bun } ∧
      (∀ r : SReg, r ≠ 0 → Res.s r ∉ slotWrites i → t.ctx.s.get (s.src.physS r) = s.ctx.s.get (s.src.physS r)) ∧
      ∀ r : PReg, r ≠ 0 → Res.p r ∉ slotWrites i → t.ctx.p.getLsbD r.val = s.ctx.p.getLsbD r.val

/-- ADD, SUB and MUL write a + b, a - b and the low w bits of a × b modulo 2^w; AND, OR, XOR and ANDN work bit by bit.
Under .32 the result of the first three is sign-extended and that of the others zero-extended (R98, R99). -/
def Sys2Proof.Claim.AddSubMulAndLogicResults : Prop :=
  Alu .add true (fun _ x y => x + y) ∧ Alu .sub true (fun _ x y => x - y) ∧ Alu .mul true (fun _ x y => x * y) ∧
    Alu .and false (fun _ x y => x &&& y) ∧ Alu .or false (fun _ x y => x ||| y) ∧
    Alu .xor false (fun _ x y => x ^^^ y) ∧ Alu .andn false (fun _ x y => x &&& ~~~y)

/-- MULH and MULHN write the high w bits of the 2w-bit product, of signed and of natural operands; SHL, SHR, SRA and ROTL
shift or rotate by b mod w (R99). -/
def Sys2Proof.Claim.HighProductAndShiftResults : Prop :=
  Alu .mulh true (fun n x y => (x.signExtend (2 * n) * y.signExtend (2 * n)).extractLsb' n n) ∧
    Alu .mulhn false (fun n x y => (x.setWidth (2 * n) * y.setWidth (2 * n)).extractLsb' n n) ∧
    Alu .shl true (fun n x y => x <<< (y.toNat % n)) ∧ Alu .shr false (fun n x y => x >>> (y.toNat % n)) ∧
    Alu .sra true (fun n x y => x.sshiftRight (y.toNat % n)) ∧
    Alu .rotl false (fun n x y => x.rotateLeft (y.toNat % n))

/-- DIV, REM, DIVN and REMN write the quotient truncated toward zero and its remainder, which has the sign of a. With
b = 0 the quotient is all ones and the remainder a; the least number divided by -1 gives itself, remainder 0. None traps
(R99, R100). -/
def Obligations.DivisionResultsWithLimitCases : Prop :=
  Alu .div true (fun n x y => if y = 0 then BitVec.allOnes n else x.sdiv y) ∧
    Alu .rem true (fun _ x y => if y = 0 then x else x.srem y) ∧
    Alu .divn false (fun n x y => if y = 0 then BitVec.allOnes n else x / y) ∧
    Alu .remn false (fun _ x y => if y = 0 then x else x % y) ∧
    (∀ (d a b : SReg) (s : State), rdS s a = BitVec.intMin 64 → rdS s b = -1 →
      (Issues (.div d a b false) s → Puts (.div d a b false) s d (BitVec.intMin 64)) ∧
        (Issues (.rem d a b false) s → Puts (.rem d a b false) s d 0))

/-- MIN, MAX, MINN and MAXN write the lesser or greater operand; CLZ, CTZ and POPC count leading zeros, trailing zeros
and ones of a, and the first two give w for 0 (R99). -/
def Sys2Proof.Claim.MinMaxAndCountResults : Prop :=
  Alu .min true (fun _ x y => if x.sle y then x else y) ∧ Alu .max true (fun _ x y => if x.sle y then y else x) ∧
    Alu .minn false (fun _ x y => if x ≤ y then x else y) ∧ Alu .maxn false (fun _ x y => if x ≤ y then y else x) ∧
    Count .clz (fun n x r => r ≤ n ∧ (∀ i, n - r ≤ i → x.getLsbD i = false) ∧ (r < n → x.getLsbD (n - 1 - r) = true)) ∧
    Count .ctz (fun n x r => r ≤ n ∧ (∀ i, i < r → x.getLsbD i = false) ∧ (r < n → x.getLsbD r = true)) ∧
    Count .popc (fun n x r => r = ((List.range n).filter x.getLsbD).length)

/-- The immediate forms do the 64-bit operation with the literal sign-extended, zero-extended for MINN and MAXN, or a
shift amount of 0 to 63 (R101). -/
def Sys2Proof.Claim.ImmediateFormResults : Prop :=
  AluImm .addImm (· + ·) ∧ AluImm .mulImm (· * ·) ∧ AluImm .andImm (· &&& ·) ∧ AluImm .orImm (· ||| ·) ∧
    AluImm .xorImm (· ^^^ ·) ∧ AluImm .andnImm (fun x y => x &&& ~~~y) ∧
    AluImm .minImm (fun x y => if x.sle y then x else y) ∧ AluImm .maxImm (fun x y => if x.sle y then y else x) ∧
    ∀ (d a : SReg) (n : Nat) (sh : Fin 64) (s : State),
      (Issues (.minnImm d a n) s → Puts (.minnImm d a n) s d (if (rdS s a).toNat ≤ n then rdS s a else BitVec.ofNat 64 n)) ∧
      (Issues (.maxnImm d a n) s → Puts (.maxnImm d a n) s d (if (rdS s a).toNat ≤ n then BitVec.ofNat 64 n else rdS s a)) ∧
      (Issues (.shlImm d a sh) s → Puts (.shlImm d a sh) s d (rdS s a <<< sh.val)) ∧
      (Issues (.shrImm d a sh) s → Puts (.shrImm d a sh) s d (rdS s a >>> sh.val)) ∧
      (Issues (.sraImm d a sh) s → Puts (.sraImm d a sh) s d ((rdS s a).sshiftRight sh.val)) ∧
      (Issues (.rotlImm d a sh) s → Puts (.rotlImm d a sh) s d ((rdS s a).rotateLeft sh.val))

/-- MOVI writes the sign-extended literal, MOVHI one 16-bit lane of D, SEL one of two registers, LEA the sum of A and B
shifted; BFX extracts a field, extended either way, and BFI replaces one; all other bits of D keep their value, that of its
original's D in a duplicate (log 101) (R102, R103, R105 to R107). -/
def Sys2Proof.Claim.MoveSelectAndFieldResults : Prop :=
  (∀ (d : SReg) (imm : Int) (s : State), Issues (.movi d imm) s → Puts (.movi d imm) s d (BitVec.ofInt 64 imm)) ∧
    (∀ (d : SReg) (h : Fin 4) (lit : Fin 65536) (s : State), Issues (.movhi d h lit) s →
      ∃ v, Puts (.movhi d h lit) s d v ∧ v.extractLsb' (16 * h.val) 16 = BitVec.ofNat 16 lit.val ∧
        ∀ i, i < 16 * h.val ∨ 16 * h.val + 16 ≤ i → v.getLsbD i = (rdS s (oldS s d)).getLsbD i) ∧
    (∀ (d a b : SReg) (p : PReg) (s : State), Issues (.sel d a b p) s →
      Puts (.sel d a b p) s d (if rdP s p then rdS s a else rdS s b)) ∧
    (∀ (d a b : SReg) (sh : Fin 8) (s : State), Issues (.lea d a b sh) s →
      Puts (.lea d a b sh) s d (rdS s a + rdS s b <<< sh.val)) ∧
    (∀ (d a : SReg) (pos lm1 : Fin 64) (sx : Bool) (s : State), Issues (.bfx d a pos lm1 sx) s →
      Puts (.bfx d a pos lm1 sx) s d
        (if sx then ((rdS s a).extractLsb' pos.val (lm1.val + 1)).signExtend 64
          else ((rdS s a).extractLsb' pos.val (lm1.val + 1)).setWidth 64)) ∧
    ∀ (d a : SReg) (pos lm1 : Fin 64) (s : State), Issues (.bfi d a pos lm1) s →
      ∃ v, Puts (.bfi d a pos lm1) s d v ∧
        ∀ i, i < 64 → v.getLsbD i =
          if pos.val ≤ i ∧ i < pos.val + lm1.val + 1 then (rdS s a).getLsbD (i - pos.val)
          else (rdS s (oldS s d)).getLsbD i

/-- A comparison writes 1 to its predicate if the relation holds, else 0, on the operands of its width; the predicate
operations write AND, OR, XOR, AND NOT, NOT and a copy; a write to p0 changes nothing but pc (R104, R110). -/
def Obligations.CompareAndPredicateResults : Prop :=
  Cmp .cmpEq (fun _ x y => x == y) ∧ Cmp .cmpNe (fun _ x y => x != y) ∧ Cmp .cmpLt (fun _ x y => x.slt y) ∧
    Cmp .cmpGe (fun _ x y => y.sle x) ∧ Cmp .cmpLtn (fun _ x y => x.ult y) ∧ Cmp .cmpGen (fun _ x y => y.ule x) ∧
    (∀ (d a b : PReg) (s : State),
      (Issues (.pand d a b) s → PutsP (.pand d a b) s d (rdP s a && rdP s b)) ∧
      (Issues (.por d a b) s → PutsP (.por d a b) s d (rdP s a || rdP s b)) ∧
      (Issues (.pxor d a b) s → PutsP (.pxor d a b) s d (rdP s a != rdP s b)) ∧
      (Issues (.pandn d a b) s → PutsP (.pandn d a b) s d (rdP s a && !rdP s b)) ∧
      (Issues (.pnot d a) s → PutsP (.pnot d a) s d (!rdP s a)) ∧
      (Issues (.pmov d a) s → PutsP (.pmov d a) s d (rdP s a))) ∧
    ∀ (i : Instr) (s : State) (b : Bool), PutsP i s 0 b → Does i s (begun s)

/-- s0 reads 0 and p0 reads 1 in every state, whatever the file holds; a slot that writes s0 leaves all but pc as it
stood (R65). -/
def Obligations.HardWiredRegisters : Prop :=
  ∀ (i : Instr) (s : State) (v : Word), rdS s 0 = 0 ∧ rdP s 0 = true ∧ (Puts i s 0 v → Does i s (begun s))

/-- BR goes to BA + imm × 16 where its predicate, complemented by N, is 1, and otherwise only past its bundle; JMP, CALL,
JMPR, CALLR and RET go to their targets, CALL and CALLR with s31 := BA + 16 after A is read. A target that is not a
multiple of 16 traps with ALIGN and one above bit 55 with ACCESS_FAULT, FADDR the target, and s31 is then as it was
(R111 to R114). -/
def Sys2Proof.Claim.BranchesAndCallsTransfer : Prop :=
  (∀ (p : PReg) (neg : Bool) (imm : Int) (s : State), Issues (.br p neg imm) s →
    if rdP s p = neg then Does (.br p neg imm) s (begun s) else Goes (.br p neg imm) s (begun s) (target s imm)) ∧
  (∀ (imm : Int) (s : State),
    (Issues (.jmp imm) s → Goes (.jmp imm) s (begun s) (target s imm)) ∧
    (Issues (.call imm) s → Goes (.call imm) s (wrS (begun s) 31 (s.src.pc + 16)) (target s imm))) ∧
  ∀ (a : SReg) (s : State),
    (Issues (.jmpr a) s → Goes (.jmpr a) s (begun s) (rdS s a)) ∧
    (Issues (.callr a) s → Goes (.callr a) s (wrS (begun s) 31 (s.src.pc + 16)) (rdS s a)) ∧
    (Issues .ret s → Goes .ret s (begun s) (rdS s 31))

/-- LOOP.ST sets ROTB to 0, PIPE.SC to SC, p9 to p15 to 0, and with a count n of 1 or more PASS to
min(n + SC - 1, 2^64 - 1) and p8 to 1; with n = 0 it sets PASS and p8 to 0 and goes to its label. p0 to p7 stay (R116). -/
def Sys2Proof.Claim.LoopStartSetsPassesAndStages : Prop :=
  ∀ (sc : Fin 16) (a : SReg) (imm : Int) (s : State), Issues (.loopSt sc a imm) s →
    ∃ p : BitVec 16, (∀ i, i < 8 → p.getLsbD i = s.ctx.p.getLsbD i) ∧ (∀ i, 9 ≤ i → p.getLsbD i = false) ∧
      p.getLsbD 8 = (rdS s a != 0) ∧
      (rdS s a ≠ 0 → Does (.loopSt sc a imm) s ((begun s).withCtx fun c => { c with
        rbs := 0, rbv := 0, sc := sc.val, p := p,
        pass := BitVec.ofNat 64 (min ((rdS s a).toNat + sc.val - 1) (2 ^ 64 - 1)) })) ∧
      (rdS s a = 0 → Goes (.loopSt sc a imm) s ((begun s).withCtx fun c => { c with
        rbs := 0, rbv := 0, sc := sc.val, p := p, pass := 0 }) (target s imm))

/-- LOOP.BR with PASS = 0 only goes on. Otherwise it decrements PASS and both rotation bases, moves each of p8 to p14 up
by one, sets p8 while PASS is at least max(PIPE.SC, 1), and goes to its label while PASS is not 0 (R115, R117). -/
def Sys2Proof.Claim.LoopBranchAdvancesRotation : Prop :=
  ∀ (imm : Int) (s : State), Issues (.loopBr imm) s →
    (s.src.pass = 0 → Does (.loopBr imm) s (begun s)) ∧
    (s.src.pass ≠ 0 → ∃ p : BitVec 16,
      (∀ i, i < 8 → p.getLsbD i = s.ctx.p.getLsbD i) ∧
      p.getLsbD 8 = decide (max s.src.sc 1 ≤ s.src.pass.toNat - 1) ∧
      (∀ i, 8 ≤ i → i < 15 → p.getLsbD (i + 1) = s.ctx.p.getLsbD i) ∧
      let t := (begun s).withCtx fun c => { c with
        pass := s.src.pass - 1, rbs := (s.ctx.rbs + 31) % 32, rbv := (s.ctx.rbv + 15) % 16, p := p }
      (s.src.pass = 1 → Does (.loopBr imm) s t) ∧
      (s.src.pass ≠ 1 → Goes (.loopBr imm) s t (target s imm)))

/-- The physical number of a rotating scalar name moves up by one with each advance: after LOOP.BR's advance the register
that was s(32 + i) is s(33 + i), and so for v(16 + i) (R115). -/
def Sys2Proof.Claim.AdvanceRenamesRotatingRegisters : Prop :=
  ∀ (c : Ctx) (p8 : Bool) (i : Nat), c.rbs < 32 → c.rbv < 16 →
    (i < 31 → (advance c p8).physS (Fin.ofNat 64 (33 + i)) = c.physS (Fin.ofNat 64 (32 + i))) ∧
    ((advance c p8).physS (Fin.ofNat 64 32) = c.physS (Fin.ofNat 64 63)) ∧
    (i < 15 → (advance c p8).physV (Fin.ofNat 32 (17 + i)) = c.physV (Fin.ofNat 32 (16 + i))) ∧
    ((advance c p8).physV (Fin.ofNat 32 16) = c.physV (Fin.ofNat 32 31)) ∧
    (i < 32 → (advance c p8).physS (Fin.ofNat 64 i) = c.physS (Fin.ofNat 64 i))

namespace Sys2Proof.Claim
open Sys2Proof.Machine

/-- What a write of v leaves in a writable CSR that holds its own fields: reserved bits stay 0 and reserved RM and SC
values are stored as 0 (02 R47, 03 R69 to R71, R79 to R83). -/
def stored (a : Nat) (v : Word) : Option Word :=
  match a with
  | 0x010 => some (if 5 ≤ v.toNat % 8 then v &&& 0x3F00 else v &&& 0x3F07)
  | 0x014 => some (v &&& 0x7)
  | 0x020 => some (v &&& 0x73)
  | 0x030 => some v
  | 0x031 => some (if 9 ≤ v.toNat % 16 then 0 else v &&& 0xF)
  | 0x032 => some (v &&& 0x1F0F)
  | 0x070 => some (v &&& 0xFFFFFFFFFFFFFFBF)
  | 0x071 => some (v &&& 0x00FFFFFFFFFFFFF0)
  | 0x072 => some (v &&& 0xFFFFFFFF0007FC03)
  | 0x073 => some v
  | 0x074 => some (v &&& 0x00FFFFFFFFFFFFF0)
  | 0x075 => some v
  | 0x080 => some (v &&& 0xFFFF)
  | 0x081 => some (v &&& 0x000FFFFFFFFFF000)
  | _ => none

end Sys2Proof.Claim

/-- CSRR, CSRW, CSRS and CSRC write the value before the bundle to D, and the last three store A, old OR A, and old AND
NOT A; a write of the TCFG of an undeclared tile traps with TILE_SHAPE and the tile's number (R73, R108). -/
def Sys2Proof.Claim.CsrInstructionsReadThenStore : Prop :=
  ∀ (d a : SReg) (c : Fin 4096) (s : State),
    let old := csrRead s s.src c.val
    let t := wrS (begun s) d old
    let undeclared (n : TReg) : Prop := tcfgTile c.val = some n ∧ s.src.ntiles ≤ n.val
    (Issues (.csrr d c) s → Does (.csrr d c) s t) ∧
    ((∀ n, ¬undeclared n) →
      (Issues (.csrw d a c) s → Does (.csrw d a c) s (csrStore t c.val (rdS s a))) ∧
      (Issues (.csrs d a c) s → Does (.csrs d a c) s (csrStore t c.val (old ||| rdS s a))) ∧
      (Issues (.csrc d a c) s → Does (.csrc d a c) s (csrStore t c.val (old &&& ~~~(rdS s a))))) ∧
    ∀ n, undeclared n →
      (Issues (.csrw d a c) s → Traps (.csrw d a c) s { cause := .tileShape, xinfo := n.val }) ∧
      (Issues (.csrs d a c) s → Traps (.csrs d a c) s { cause := .tileShape, xinfo := n.val }) ∧
      (Issues (.csrc d a c) s → Traps (.csrc d a c) s { cause := .tileShape, xinfo := n.val })

/-- A CSR keeps of a written value the bits that its map gives it, and reads them back: reserved bits read 0, RM 5 to 7
and SC 9 to 15 are stored as 0. A write of FXF is ORed with what the bundle's slots raise. A write of ALTW acts by its low
four bits alone, WIN 5 to 7 being stored as 0; it waits for the next window of the core's array, which takes it, the odd core's
before the even one's. A write of a read-only CSR changes nothing (R6, R46, R47, R69 to R71, R76, R77, R79 to R83, R92). -/
def Sys2Proof.Claim.CsrFieldsStoreTheirBits : Prop :=
  ∀ (s : State) (a : Nat) (v : Word),
    (∀ w, stored a v = some w → csrRead (csrWrite s a v) (csrWrite s a v).ctx a = w) ∧
    (a = 0x011 → (csrWrite s a v).ctx.fxf = v.setWidth 6 ||| s.bun.raised) ∧
    (a = 0x050 → csrWrite s a v = csrWrite s a (v &&& 0xF) ∧
      let t := csrWrite s a v
      let set : BitVec 4 := if 5 ≤ v.toNat % 8 then v.setWidth 4 &&& 8 else v.setWidth 4
      let unit (u : State) (n : Nat) := u.arrays.find? fun x => x.id == n
      t = { s with arrays := t.arrays } ∧ (∀ n, altwOf t n = altwOf s n ∧ (n ≠ s.src.array → unit t n = unit s n)) ∧
      ∃ x, unit t s.src.array = some x ∧ (if s.src.lcore % 2 = 0 then x.nextEven else x.nextOdd) = some set) ∧
    (∀ x : ArrayUnit, (nextWindow s x).altw = match x.nextOdd, x.nextEven with
      | some odd, _ => odd
      | none, some even => even
      | none, none => x.altw) ∧
    ([0x000, 0x001, 0x002, 0x012, 0x013, 0x060, 0x090, 0x0A0, 0x0A1].contains a → csrWrite s a v = s)

/-- A write of TCFGn stores its fields, and stores PACT as 0 while PACT is 1; the tile's bytes do not change (R72, R73,
R175). -/
def Sys2Proof.Claim.TileShapeWriteStoresFields : Prop :=
  ∀ (s : State) (n : TReg) (v : Word), s.ctx.stopTok.get n = none →
    let t := csrWrite s (0x040 + n.val) v
    t.ctx.tcfg.get n =
      (if (s.ctx.tcfg.get n).getLsbD 41 then v &&& 0x000001FF3FFFFF1F else v &&& 0x000003FF3FFFFF1F) ∧
    (∀ m : TReg, m ≠ n → t.ctx.tcfg.get m = s.ctx.tcfg.get m) ∧ t.ctx.t = s.ctx.t ∧ t.mem = s.mem

namespace Sys2Proof.Claim
open Sys2Proof.Machine

/-- The end of a slot that raises flags fl and, without a trap, leaves t (02 R48): with no enabled flag among them it is
done and FXF takes them; else the bundle takes FP_EXCEPTION, FXF takes the flags, and no register changes. -/
def FpEnds (i : Instr) (s t : State) (fl : Flags) : Prop :=
  (enabledFlags s fl = 0 → Does i s (raise t fl)) ∧
  (enabledFlags s fl ≠ 0 → ∃ u, exec i s = .next u ∧ u.bun.status = .trapped ∧ u.mem = s.mem ∧
    (s.ctx.tvec ≠ 0 → s.ctx.mode = .user → s.src.harrow.cancelled = none → s.bun.slot < 4 →
      u.ctx.s = s.ctx.s ∧ u.ctx.p = s.ctx.p ∧ u.ctx.v = s.ctx.v ∧ u.ctx.m = s.ctx.m ∧ u.ctx.q = s.ctx.q ∧
      u.ctx.pc = s.ctx.tvec ∧ u.ctx.trapc.toNat % 64 = 0x08 ∧ u.ctx.trapx.toNat / 2 ^ 32 = (enabledFlags s fl).toNat ∧
      u.ctx.fxf = s.ctx.fxf ||| fl))

/-- A floating-point slot whose result is r: D takes its bits with zeros above them. -/
def FpPuts (i : Instr) (s : State) (d : SReg) (r : FR) : Prop :=
  Issues i s → FpEnds i s (wrS (begun s) d (BitVec.ofNat 64 r.bits)) r.flags

/-- A sign operation: D takes bits without a flag, even of a NaN (02 R50, 05 R124). -/
def Copies (i : Instr) (s : State) (d : SReg) (v : Word) : Prop :=
  Issues i s → Does i s (raise (wrS (begun s) d v) 0)

/-- The value of an encoding as a rational number; none for a NaN or an infinity. -/
def valueOf (f : Fmt) (w : Nat) : Option ℚ :=
  match f.unpack w with
  | .fin n m e => some ((if n then -1 else 1) * (m : ℚ) * (2 : ℚ) ^ e)
  | _ => none

/-- The rational number of a sign, a mantissa and an exponent. -/
def rational (neg : Bool) (m : Nat) (e : Int) : ℚ := (if neg then -1 else 1) * (m : ℚ) * (2 : ℚ) ^ e

end Sys2Proof.Claim

/-- Every rounding floating-point instruction writes its result, of bits [31:0] or the whole of its operands, to D with
zeros above it and raises the result's flags; where FPM enables one of them the bundle takes FP_EXCEPTION and only FXF
changes; FMA, FMS and FNMA of a duplicate read its original's D (log 101) (R48, R123, R124, R130, R131). What the results
are is said by O21, O22 and O23; of FEXP to FERFC these give the special cases and the far ends alone, and what lies between
is left to the enclosures of the model. -/
def Sys2Proof.Claim.FloatSlotsWriteOrTrap : Prop :=
  ∀ (x : Bool) (d a b : SReg) (rm : Rm) (s : State),
    let f := if x then Fmt.f64 else Fmt.f32
    let m := rmMode rm s
    let A := rdF s x a
    let B := rdF s x b
    let D := rdF s x (oldS s d)
    FpPuts (.fadd x d a b rm) s d (fadd f m A B) ∧ FpPuts (.fsub x d a b rm) s d (fsub f m A B) ∧
      FpPuts (.fmul x d a b rm) s d (fmul f m A B) ∧ FpPuts (.fdiv x d a b rm) s d (fdiv f m A B) ∧
      FpPuts (.fma x d a b rm) s d (fma f m A B D) ∧ FpPuts (.fms x d a b rm) s d (fms f m A B D) ∧
      FpPuts (.fnma x d a b rm) s d (fnma f m A B D) ∧ FpPuts (.fsqrt x d a rm) s d (fsqrt f m A) ∧
      FpPuts (.fmin x d a b) s d (fminmax f false A B) ∧ FpPuts (.fmax x d a b) s d (fminmax f true A B) ∧
      FpPuts (.frint d a rm x) s d (frint f m A) ∧
      FpPuts (.fexp d a rm x) s d (exactFn .exp f m A) ∧ FpPuts (.fexp2 d a rm x) s d (exactFn .exp2 f m A) ∧
      FpPuts (.flog d a rm x) s d (exactFn .log f m A) ∧ FpPuts (.flog2 d a rm x) s d (exactFn .log2 f m A) ∧
      FpPuts (.ferf d a rm x) s d (exactFn .erf f m A) ∧ FpPuts (.ferfc d a rm x) s d (exactFn .erfc f m A) ∧
      FpPuts (.frcp d a rm x) s d (frcp f A) ∧ FpPuts (.frsq d a rm x) s d (frsq f A) ∧
      FpPuts (.frcps d a b rm x) s d (newton f m 2 false A B) ∧ FpPuts (.frsqs d a b rm x) s d (newton f m 3 true A B)

/-- FNEG inverts the sign bit of A, FABS clears it, FCPSGN takes that of B, FMOV copies A, none raising a flag even for a
NaN; FCLASS writes one bit by the class of A; FCVT writes the converted value, sign-extended for i8 to i32 and with zeros
above it for every other type (R50, R124, R127, R129). -/
def Sys2Proof.Claim.SignClassAndConvertSlots : Prop :=
  (∀ (d a b : SReg) (s : State),
    Copies (.fneg true d a) s d (rdS s a ^^^ 0x8000000000000000) ∧
    Copies (.fabs true d a) s d (rdS s a &&& 0x7FFFFFFFFFFFFFFF) ∧
    Copies (.fcpsgn true d a b) s d (rdS s a &&& 0x7FFFFFFFFFFFFFFF ||| rdS s b &&& 0x8000000000000000) ∧
    Copies (.fmov true d a) s d (rdS s a) ∧
    Copies (.fneg false d a) s d ((rdS s a ^^^ 0x80000000) &&& 0xFFFFFFFF) ∧
    Copies (.fabs false d a) s d (rdS s a &&& 0x7FFFFFFF) ∧
    Copies (.fcpsgn false d a b) s d (rdS s a &&& 0x7FFFFFFF ||| rdS s b &&& 0x80000000) ∧
    Copies (.fmov false d a) s d (rdS s a &&& 0xFFFFFFFF)) ∧
  (∀ (d a : SReg) (x : Bool) (s : State), Issues (.fclass d a x) s →
    Puts (.fclass d a x) s d (BitVec.ofNat 64 (2 ^ fclassify (fpFmt x) (rdF s x a)))) ∧
  ∀ (d a : SReg) (ot : Fin 16) (dir : Bool) (rm : Rm) (x : Bool) (s : State), Issues (.fcvt d a ot dir rm x) s →
    let side : NumTy := .fp (fpFmt x)
    let src := if dir then otType ot.val else side
    let dst := if dir then side else otType ot.val
    let r := convertNum src dst (rmMode rm s) s.src.nbv ((rdS s a).toNat % 2 ^ src.width)
    FpEnds (.fcvt d a ot dir rm x) s (wrS (begun s) d (holdNum dst r.bits)) r.flags

/-- The four comparisons write p := 1 when a = b with the zeros equal, a < b, a ≤ b, and either is a NaN; a NaN gives 0
to the first three. EQ and UN raise NV for a signalling NaN alone, LT and LE for any NaN (R126). -/
def Sys2Proof.Claim.FloatComparesRelateValues : Prop :=
  ∀ (p : PReg) (a b : SReg) (x : Bool) (s : State),
    let f := fpFmt x
    let A := rdF s x a
    let B := rdF s x b
    let nan := f.isNan A || f.isNan B
    let ends (i : Instr) (r : Bool) (fl : Flags) : Prop := Issues i s → FpEnds i s (wrP (begun s) p r) fl
    (∀ u v, valueOf f A = some u → valueOf f B = some v →
      ends (.fcmpEq p a b x) (decide (u = v)) 0 ∧ ends (.fcmpLt p a b x) (decide (u < v)) 0 ∧
      ends (.fcmpLe p a b x) (decide (u ≤ v)) 0 ∧ ends (.fcmpUn p a b x) false 0) ∧
    (nan = true →
      ends (.fcmpEq p a b x) false (nvIf (f.isSig A || f.isSig B)) ∧ ends (.fcmpLt p a b x) false flagNV ∧
      ends (.fcmpLe p a b x) false flagNV ∧ ends (.fcmpUn p a b x) true (nvIf (f.isSig A || f.isSig B))) ∧
    (f.isInf A = true → f.isInf B = true → ends (.fcmpEq p a b x) (A == B) 0) ∧
    ∀ u, f.isInf A = true → valueOf f B = some u →
      ends (.fcmpLt p a b x) (f.unpack A == .inf true) 0 ∧ ends (.fcmpUn p a b x) false 0

/-- Rounding is correct: where the result does not overflow it is a value of the format that no other value of the
format betters: the nearest for RNE (the even one of two) and RMM (of two the one away from zero), the greatest not above for
RDN, the least not below for RUP, the one of greatest magnitude not beyond for RTZ; NX is raised exactly when it differs from
the exact value (R43, R44). -/
def Obligations.RoundingIsCorrect : Prop :=
  ∀ (f : Fmt) (rm : Rnd) (neg : Bool) (m : Nat) (e : Int), (f = .f32 ∨ f = .f64) →
    let v := rational neg m e
    let r := f.round rm neg m e
    r.flags &&& flagOF = 0 → ∃ w, valueOf f r.bits = some w ∧
      (r.flags &&& flagNX = 0 ↔ w = v) ∧
      (rm = .rtz → |w| ≤ |v| ∧ ∀ x y, valueOf f x = some y → |y| ≤ |v| → |y| ≤ |w|) ∧
      (rm = .rdn → w ≤ v ∧ ∀ x y, valueOf f x = some y → y ≤ v → y ≤ w) ∧
      (rm = .rup → v ≤ w ∧ ∀ x y, valueOf f x = some y → v ≤ y → w ≤ y) ∧
      (rm = .rne ∨ rm = .rmm → ∀ x y, valueOf f x = some y → |w - v| ≤ |y - v|) ∧
      (rm = .rne → ∀ x y, valueOf f x = some y → y ≠ w → |w - v| = |y - v| → r.bits % 2 = 0) ∧
      (rm = .rmm → ∀ x y, valueOf f x = some y → y ≠ w → |w - v| = |y - v| → |y| < |w|)

/-- FADD, FSUB, FMUL, FMA, FMS and FNMA of finite operands round the exact sum, difference, product, or product and
addend, once, wherever that exact value is not zero (R44, R124). -/
def Sys2Proof.Claim.SumsAndProductsRoundOnce : Prop :=
  ∀ (f : Fmt) (rm : Rnd) (a b d : Nat) (u v w : ℚ), (f = .f32 ∨ f = .f64) →
    valueOf f a = some u → valueOf f b = some v → valueOf f d = some w →
    let rounds (r : FR) (x : ℚ) : Prop := x ≠ 0 → ∃ neg m e, rational neg m e = x ∧ r = f.round rm neg m e
    rounds (fadd f rm a b) (u + v) ∧ rounds (fsub f rm a b) (u - v) ∧ rounds (fmul f rm a b) (u * v) ∧
      rounds (fma f rm a b d) (u * v + w) ∧ rounds (fms f rm a b d) (u * v - w) ∧ rounds (fnma f rm a b d) (w - u * v)

namespace Sys2Proof.Claim
open Sys2Proof.Machine

/-- r is the real number x rounded into a format (02 R43, R44): where OF is raised, x lies beyond every finite value; else r
is a value of the format that no other betters under the mode, and NX says whether it differs from x. -/
def RoundedTo (f : Fmt) (rm : Rnd) (x : ℝ) (r : FR) : Prop :=
  let isValue (y : ℝ) : Prop := ∃ n q, valueOf f n = some q ∧ y = (q : ℝ)
  (r.flags &&& flagOF ≠ 0 → ∀ y, isValue y → |y| < |x|) ∧
  (r.flags &&& flagOF = 0 → ∃ q w, valueOf f r.bits = some q ∧ w = (q : ℝ) ∧ (r.flags &&& flagNX = 0 ↔ w = x) ∧
    (rm = .rtz → |w| ≤ |x| ∧ ∀ y, isValue y → |y| ≤ |x| → |y| ≤ |w|) ∧
    (rm = .rdn → w ≤ x ∧ ∀ y, isValue y → y ≤ x → y ≤ w) ∧
    (rm = .rup → x ≤ w ∧ ∀ y, isValue y → x ≤ y → w ≤ y) ∧
    (rm = .rne ∨ rm = .rmm → ∀ y, isValue y → |w - x| ≤ |y - x|) ∧
    (rm = .rne → ∀ y, isValue y → y ≠ w → |w - x| = |y - x| → r.bits / 2 ^ f.low % 2 = 0) ∧
    (rm = .rmm → ∀ y, isValue y → y ≠ w → |w - x| = |y - x| → |y| < |w|))

/-- k is the rational number v rounded to an integer (02 R43, R55, 05 R130). -/
def RoundedInt (rm : Rnd) (v : ℚ) (k : ℤ) : Prop :=
  match rm with
  | .rdn => k = ⌊v⌋
  | .rup => k = ⌈v⌉
  | .rtz => k = if 0 ≤ v then ⌊v⌋ else ⌈v⌉
  | .rne => |(k : ℚ) - v| ≤ 1 / 2 ∧ (|(k : ℚ) - v| = 1 / 2 → k % 2 = 0)
  | .rmm => |(k : ℚ) - v| ≤ 1 / 2 ∧ (|(k : ℚ) - v| = 1 / 2 → |v| < |(k : ℚ)|)

/-- a is x rounded to 13 significant bits, ties to even, with an unbounded exponent (02 R59). -/
def Rounded13 (x a : ℝ) : Prop :=
  ∃ (n : ℕ) (k : ℤ), 2 ^ 12 * (2 : ℝ) ^ k ≤ |x| ∧ |x| < 2 ^ 13 * (2 : ℝ) ^ k ∧ |a| = n * (2 : ℝ) ^ k ∧ 0 ≤ a * x ∧
    2 * |a - x| ≤ (2 : ℝ) ^ k ∧ (2 * |a - x| = (2 : ℝ) ^ k → n % 2 = 0)

/-- The exact value v clamped to the w-bit range of a signed or natural type, with SAT when the clamp changes it
(05 R136). -/
def clamped (w : Nat) (nat : Bool) (v : Int) : FR :=
  let lo : Int := if nat then 0 else -(2 ^ (w - 1))
  let hi : Int := if nat then 2 ^ w - 1 else 2 ^ (w - 1) - 1
  { bits := (BitVec.ofInt w (max lo (min hi v))).toNat, flags := if v < lo ∨ hi < v then flagSAT else 0 }

/-- The integer that an element holds. -/
def valueI {w : Nat} (nat : Bool) (x : BitVec w) : Int := if nat then x.toNat else x.toInt

/-- The floating-point element formats (02 R34). -/
def allFmts : List Fmt := [.f64, .f32, .e8m10, .bf16, .f16, .e4m3, .e5m2, .e3m2, .e2m3, .e2m1]

end Sys2Proof.Claim

/-- FDIV and FSQRT of finite operands round the exact quotient and root once; FRINT gives the integer that the mode picks,
with the sign of its operand, and NX exactly when it differs; FRCP and FRSQ round to the format, ties to even, the reciprocal
and the reciprocal root as rounded to 13 significant bits; FRCPS and FRSQS round 2 - a × b and (3 - a × b) / 2 once, and give
2.0 and 1.5 without a flag for a product of an infinity and a zero (R43, R44, R59, R60, R61, R124, R130). -/
def Sys2Proof.Claim.QuotientsRootsAndEstimates : Prop :=
  ∀ (f : Fmt) (rm : Rnd) (a b : Nat) (u : ℚ), (f = .f32 ∨ f = .f64) → valueOf f a = some u →
    (∀ v, valueOf f b = some v → v ≠ 0 → RoundedTo f rm (((u / v : ℚ) : ℝ)) (fdiv f rm a b)) ∧
    (0 ≤ u → RoundedTo f rm (Real.sqrt (u : ℝ)) (fsqrt f rm a)) ∧
    (∃ k : ℤ, RoundedInt rm u k ∧ valueOf f (frint f rm a).bits = some (k : ℚ) ∧
      (frint f rm a).bits.testBit f.signPos = a.testBit f.signPos ∧
      (frint f rm a).flags = if (k : ℚ) = u then 0 else flagNX) ∧
    (u ≠ 0 → ∃ x, Rounded13 ((u : ℝ)⁻¹) x ∧ RoundedTo f .rne x (frcp f a)) ∧
    (0 < u → ∃ x, Rounded13 ((Real.sqrt (u : ℝ))⁻¹) x ∧ RoundedTo f .rne x (frsq f a)) ∧
    (u < 0 → frsq f a = f.nanR flagNV) ∧
    (u = 0 → (∃ n, frcp f a = f.infR n flagDZ) ∧ ∃ n, frsq f a = f.infR n flagDZ) ∧
    (∀ v, valueOf f b = some v → RoundedTo f rm ((2 - u * v : ℚ) : ℝ) (newton f rm 2 false a b) ∧
      RoundedTo f rm (((3 - u * v) / 2 : ℚ) : ℝ) (newton f rm 3 true a b)) ∧
    ∀ n, f.unpack b = .inf n → u = 0 → ∀ p, p = (a, b) ∨ p = (b, a) →
      valueOf f (newton f rm 2 false p.1 p.2).bits = some 2 ∧ (newton f rm 2 false p.1 p.2).flags = 0 ∧
      valueOf f (newton f rm 3 true p.1 p.2).bits = some (3 / 2) ∧ (newton f rm 3 true p.1 p.2).flags = 0

/-- The exact functions, where R58 gives their value: at infinities, zeros and NaNs; FEXP2 of an integer is the power
rounded, FLOG and FLOG2 of 1 are +0, FLOG2 of a power of two is its exponent, and of a negative number both are invalid. At
the far ends: from 2^12 up FEXP and FEXP2 overflow, and from -2^12 down, as FERFC from 28 up, their result lies below every
subnormal; FERF from 16 up rounds a number just below 1 (R44, R45, R57, R58). -/
def Sys2Proof.Claim.ExactFunctionsAtTheirEnds : Prop :=
  ∀ (f : Fmt) (rm : Rnd) (a : Nat), (f = .f32 ∨ f = .f64) →
    let is (r : FR) (q : ℚ) : Prop := valueOf f r.bits = some q ∧ r.flags = 0
    let tiny (r : FR) : Prop := r = { bits := if rm = .rup then 1 else 0, flags := flagUF ||| flagNX }
    (∀ fn sig, f.unpack a = .nan sig → exactFn fn f rm a = f.nanR (nvIf sig)) ∧
    (f.unpack a = .inf false → exactFn .exp f rm a = f.infR false ∧ exactFn .exp2 f rm a = f.infR false ∧
      exactFn .log f rm a = f.infR false ∧ exactFn .log2 f rm a = f.infR false ∧ is (exactFn .erf f rm a) 1 ∧
      exactFn .erfc f rm a = { bits := 0 }) ∧
    (f.unpack a = .inf true → exactFn .exp f rm a = { bits := 0 } ∧ exactFn .exp2 f rm a = { bits := 0 } ∧
      exactFn .log f rm a = f.nanR flagNV ∧ exactFn .log2 f rm a = f.nanR flagNV ∧ is (exactFn .erf f rm a) (-1) ∧
      is (exactFn .erfc f rm a) 2) ∧
    ∀ u, valueOf f a = some u →
      (u = 0 → is (exactFn .exp f rm a) 1 ∧ is (exactFn .exp2 f rm a) 1 ∧ is (exactFn .erfc f rm a) 1 ∧
        exactFn .log f rm a = f.infR true flagDZ ∧ exactFn .log2 f rm a = f.infR true flagDZ ∧
        ∃ n, exactFn .erf f rm a = { bits := f.pack n 0 } ∧ n = a.testBit f.signPos) ∧
      (∀ n : ℤ, u = n → RoundedTo f rm ((2 : ℝ) ^ n) (exactFn .exp2 f rm a)) ∧
      (u = 1 → exactFn .log f rm a = { bits := 0 } ∧ exactFn .log2 f rm a = { bits := 0 }) ∧
      (∀ n : ℤ, u = (2 : ℚ) ^ n → is (exactFn .log2 f rm a) n) ∧
      (u < 0 → exactFn .log f rm a = f.nanR flagNV ∧ exactFn .log2 f rm a = f.nanR flagNV) ∧
      (2 ^ 12 ≤ u → exactFn .exp f rm a = { bits := f.overflow rm false, flags := flagOF ||| flagNX } ∧
        exactFn .exp2 f rm a = { bits := f.overflow rm false, flags := flagOF ||| flagNX }) ∧
      (u ≤ -(2 ^ 12) → tiny (exactFn .exp f rm a) ∧ tiny (exactFn .exp2 f rm a)) ∧
      (28 ≤ u → tiny (exactFn .erfc f rm a)) ∧
      (16 ≤ u → let r := exactFn .erf f rm a
        r.flags = flagNX ∧ valueOf f r.bits = some (if rm = .rtz ∨ rm = .rdn then 1 - 1 / 2 ^ (f.fbits + 1) else 1))

/-- What a conversion between element types gives: of a finite value to a floating-point format the value rounded, one
that overflows an FP8, FP6 or FP4 format being replaced as R54 says; of a NaN and an infinity what R53 and R54 say; to an
integer type the rounded integer, clamped with NV where it lies outside the type; of an integer to a floating-point format the
integer rounded, to an integer type the integer clamped with SAT (a negative one to a natural type gives 0: log 102), and to
BIN1 its sign. FCLASS numbers the class of its operand (R53, R54, R55, R56, R127). -/
def Sys2Proof.Claim.ConversionsAndClasses : Prop :=
  (∀ (f g : Fmt) (rm : Rnd) (nbv w : Nat), f ∈ allFmts → g ∈ allFmts →
    let r := convertNum (.fp f) (.fp g) rm nbv w
    (∀ u, valueOf f w = some u → RoundedTo g rm (u : ℝ) r ∧
      (r.flags &&& flagOF ≠ 0 → r = if g.narrow = false then { bits := g.overflow rm (u < 0), flags := flagOF ||| flagNX }
        else if (g = .e4m3 ∨ g = .e5m2) ∧ nbv = 1 then g.nanR (flagOF ||| flagNX)
        else { bits := g.pack (u < 0) g.maxCode, flags := flagOF ||| flagNX ||| flagSAT })) ∧
    (∀ sig, f.unpack w = .nan sig → r = if g ∈ [Fmt.e3m2, .e2m3, .e2m1] then { bits := 0, flags := flagNV }
      else g.nanR (nvIf sig)) ∧
    ∀ n, f.unpack w = .inf n → r = if g ∈ [Fmt.e4m3, .e3m2, .e2m3, .e2m1] then { bits := g.pack n g.maxCode, flags := flagSAT }
      else g.infR n) ∧
  (∀ (f : Fmt) (c : Nat) (t : IntTy) (rm : Rnd) (nbv w : Nat), f ∈ allFmts → numTyOf c = some (.int t) →
    let r := convertNum (.fp f) (.int t) rm nbv w
    let lo : Int := if t.signed then -(2 ^ (t.width - 1)) else 0
    let hi : Int := if t.signed then 2 ^ (t.width - 1) - 1 else 2 ^ t.width - 1
    let put (v : Int) (fl : Flags) : FR := { bits := (BitVec.ofInt t.width v).toNat, flags := fl }
    (∀ u k, valueOf f w = some u → RoundedInt rm u k → r = put (max lo (min hi k))
      (if k < lo ∨ hi < k then flagNV else if (k : ℚ) = u then 0 else flagNX)) ∧
    (∀ sig, f.unpack w = .nan sig → r = put 0 flagNV) ∧
    ∀ n, f.unpack w = .inf n → r = put (if n then lo else hi) flagNV) ∧
  (∀ (c : Nat) (t : IntTy) (rm : Rnd) (nbv w : Nat), numTyOf c = some (.int t) →
    let x := valueI (!t.signed) (BitVec.ofNat t.width w)
    (∀ g, g ∈ allFmts → RoundedTo g rm ((x : ℚ) : ℝ) (convertNum (.int t) (.fp g) rm nbv w) ∧
      (x = 0 → convertNum (.int t) (.fp g) rm nbv w = { bits := 0 })) ∧
    (∀ c' t', numTyOf c' = some (.int t') → convertNum (.int t) (.int t') rm nbv w = clamped t'.width (!t'.signed) x) ∧
    convertNum (.int t) .bin rm nbv w = { bits := if 0 ≤ x then 1 else 0 }) ∧
  (∀ (f : Fmt) (rm : Rnd) (nbv w : Nat), f ∈ allFmts → convertNum (.fp f) .bin rm nbv w =
    if f.isNan w then { bits := 1, flags := flagNV } else { bits := if (w / 2 ^ f.low).testBit f.signPos then 0 else 1 }) ∧
  ∀ (f : Fmt) (a : Nat), (f = .f32 ∨ f = .f64) →
    let neg := a.testBit f.signPos
    let least : ℚ := 2 ^ (1 - (f.bias : Int))
    (∀ sig, f.unpack a = .nan sig → fclassify f a = if sig then 8 else 9) ∧
    (f.isInf a = true → fclassify f a = if neg then 0 else 7) ∧
    ∀ u, valueOf f a = some u →
      (u = 0 → fclassify f a = if neg then 3 else 4) ∧
      (u ≠ 0 → |u| < least → fclassify f a = if neg then 2 else 5) ∧
      (least ≤ |u| → fclassify f a = if neg then 1 else 6)

/-- The special cases of FP32 and FP64: a NaN operand gives the canonical NaN, with NV only for a signalling one; two
infinities of opposite signs in a sum, 0 × ∞, 0 / 0, ∞ / ∞ and the root of a negative number give the canonical NaN and
NV; an infinity of one sign stays; a finite number over zero gives an infinity and DZ; -0 keeps its sign under the root
(R50, R51, R124, R125). -/
def Sys2Proof.Claim.FloatSpecialCases : Prop :=
  ∀ (f : Fmt) (rm : Rnd) (a b : Nat), (f = .f32 ∨ f = .f64) →
    let sig := f.isSig a || f.isSig b
    (f.isNan a = true ∨ f.isNan b = true →
      fadd f rm a b = f.nanR (nvIf sig) ∧ fsub f rm a b = f.nanR (nvIf sig) ∧ fmul f rm a b = f.nanR (nvIf sig) ∧
        fdiv f rm a b = f.nanR (nvIf sig)) ∧
    (∀ n, f.unpack a = .inf n → f.unpack b = .inf (!n) → fadd f rm a b = f.nanR flagNV) ∧
    (∀ n, f.unpack a = .inf n → f.unpack b = .inf n →
      fadd f rm a b = f.infR n ∧ fsub f rm a b = f.nanR flagNV ∧ fdiv f rm a b = f.nanR flagNV) ∧
    (∀ n k e, f.unpack a = .inf n → f.unpack b = .fin k 0 e → fmul f rm a b = f.nanR flagNV) ∧
    (∀ n k m e, f.unpack a = .inf n → f.unpack b = .fin k m e →
      fadd f rm a b = f.infR n ∧ fdiv f rm a b = f.infR (n != k)) ∧
    (∀ n k e x, f.unpack a = .fin n 0 e → f.unpack b = .fin k 0 x → fdiv f rm a b = f.nanR flagNV) ∧
    (∀ n k m e x, f.unpack a = .fin n m e → m ≠ 0 → f.unpack b = .fin k 0 x →
      fdiv f rm a b = f.infR (n != k) flagDZ) ∧
    (∀ m e, f.unpack a = .fin true m e → fsqrt f rm a =
      if m = 0 then { bits := f.pack true 0 } else f.nanR flagNV) ∧
    (f.isNan a = true → fsqrt f rm a = f.nanR (nvIf (f.isSig a)) ∧ f.isNan (f.nanR).bits = true)

/-- FMIN and FMAX return the other operand for one NaN and the canonical NaN for two, raise NV only for a signalling
NaN, put -0 below +0, and otherwise return the operand of the lesser or greater value; FRINT leaves zeros and infinities
and never raises OF or UF (R52, R130). -/
def Sys2Proof.Claim.MinMaxAndRoundToIntegral : Prop :=
  ∀ (f : Fmt) (rm : Rnd) (a b : Nat), (f = .f32 ∨ f = .f64) → a < 2 ^ f.width → b < 2 ^ f.width →
    (f.isNan a = true → f.isNan b = true → fminmax f true a b = f.nanR (nvIf (f.isSig a || f.isSig b))) ∧
    (f.isNan a = true → f.isNan b = false → (fminmax f false a b).bits = b ∧ (fminmax f true a b).bits = b) ∧
    (f.isNan a = false → f.isNan b = true → (fminmax f false a b).bits = a ∧ (fminmax f true a b).bits = a) ∧
    (∀ u v, valueOf f a = some u → valueOf f b = some v →
      (u < v → (fminmax f false a b) = { bits := a } ∧ (fminmax f true a b) = { bits := b }) ∧
      (v < u → (fminmax f false a b) = { bits := b } ∧ (fminmax f true a b) = { bits := a })) ∧
    fminmax f false (f.pack false 0) (f.pack true 0) = { bits := f.pack true 0 } ∧
    fminmax f true (f.pack true 0) (f.pack false 0) = { bits := f.pack false 0 } ∧
    (frint f rm a).flags &&& (flagOF ||| flagUF) = 0 ∧
    (f.isInf a = true → frint f rm a = { bits := a }) ∧
    ∀ n e, f.unpack a = .fin n 0 e → frint f rm a = { bits := a }

namespace Sys2Proof.Claim
open Sys2Proof.Machine

/-- Element j of w bits of a vector register (05 R132). -/
def elem (v : BitVec 16384) (w j : Nat) : BitVec w := v.extractLsb' (w * j) w

/-- An element-wise slot over n elements of w bits (05 R134): an active element takes the bits of f, an inactive one keeps
the old value, the sidecar stays, and the flags raised are those of the active elements. -/
def VecMaps (i : Instr) (s : State) (d : VIdx) (mk : MReg) (w n : Nat) (f : Nat → FR) : Prop :=
  Issues i s → ∃ (e : BitVec 16384) (fl : Flags),
    (∀ j, j < n → elem e w j = if active s mk j then BitVec.ofNat w (f j).bits else elem (rdV s d).elems w j) ∧
    (∀ b, fl.getLsbD b = true ↔ ∃ j, j < n ∧ active s mk j = true ∧ (f j).flags.getLsbD b = true) ∧
    FpEnds i s (wrVElems (begun s) d e) fl

/-- An element-wise slot in the element size of VSHAPE, of the elements of A and B. -/
def VecOf (mk : VIdx → VIdx → VIdx → MReg → Instr) (f : (w : Nat) → BitVec w → BitVec w → FR) : Prop :=
  ∀ (d a b : VIdx) (m : MReg) (s : State),
    let w := 8 * s.src.ebytes
    VecMaps (mk d a b m) s d m w s.src.elems fun j => f w (elem (rdV s a).elems w j) (elem (rdV s b).elems w j)

/-- The same of A alone. -/
def VecOf1 (mk : VIdx → VIdx → MReg → Instr) (f : (w : Nat) → BitVec w → FR) : Prop :=
  ∀ (d a : VIdx) (m : MReg) (s : State),
    let w := 8 * s.src.ebytes
    VecMaps (mk d a m) s d m w s.src.elems fun j => f w (elem (rdV s a).elems w j)

/-- A vector result without a flag. -/
def plain {w : Nat} (x : BitVec w) : FR := { bits := x.toNat }

/-- An element-wise floating-point slot in the format of VSHAPE.EW: g of the format, the mode and the elements of A, B and
the old D, the original's in a duplicate (log 101). -/
def VecFp (mk : VIdx → VIdx → VIdx → Rm → MReg → Instr) (g : Fmt → Rnd → Nat → Nat → Nat → FR) : Prop :=
  ∀ (d a b : VIdx) (rm : Rm) (m : MReg) (s : State),
    let w := 8 * s.src.ebytes
    VecMaps (mk d a b rm m) s d m w s.src.elems fun j =>
      g (if s.src.ew = 3 then .f64 else .f32) (rmMode rm s) (elem (rdV s a).elems w j).toNat
        (elem (rdV s b).elems w j).toNat (elem (rdV s (oldV s d)).elems w j).toNat

/-- The same of A alone. -/
def VecFp1 (mk : VIdx → VIdx → Rm → MReg → Instr) (g : Fmt → Rnd → Nat → FR) : Prop :=
  ∀ (d a : VIdx) (rm : Rm) (m : MReg) (s : State),
    let w := 8 * s.src.ebytes
    VecMaps (mk d a rm m) s d m w s.src.elems fun j =>
      g (if s.src.ew = 3 then .f64 else .f32) (rmMode rm s) (elem (rdV s a).elems w j).toNat

/-- The elements that a reduction sees (05 R143): those of width w from lo, absent where the mask leaves them. -/
def items (s : State) (a : VIdx) (m : MReg) (w lo n : Nat) : List (Option Nat) :=
  (List.range n).map fun i => if active s m (lo + i) then some (elem (rdV s a).elems w (lo + i)).toNat else none

/-- A reduction (05 R143): without ROW, red over all elements goes to scalar D, sign-extended or with zeros above it; with
ROW, red over the elements of row j goes to element j of vector D and every other element stays, as its original's D holds it
in a duplicate (log 101). -/
def Reduces (i : Bool → Instr) (s : State) (d : SReg) (a : VIdx) (m : MReg) (sx : Bool)
    (red : Nat → List (Option Nat) → FR) : Prop :=
  let w := 8 * s.src.ebytes
  let rows := 2 ^ s.src.rowl2
  let cols := s.src.elems / rows
  (Issues (i false) s →
    let r := red 64 (items s a m w 0 s.src.elems)
    FpEnds (i false) s
      (wrS (begun s) d (if sx then (BitVec.ofNat w r.bits).signExtend 64 else BitVec.ofNat 64 r.bits)) r.flags) ∧
  (Issues (i true) s → rows ≤ s.src.elems →
    let r (j : Nat) := red w (items s a m w (j * cols) cols)
    ∃ (e : BitVec 16384) (fl : Flags),
      (∀ j, j < s.src.elems →
        elem e w j = if j < rows then BitVec.ofNat w (r j).bits else elem (rdV s (oldV s (lowV d))).elems w j) ∧
      (∀ b, fl.getLsbD b = true ↔ ∃ j, j < rows ∧ (r j).flags.getLsbD b = true) ∧
      FpEnds (i true) s (wrVElems (begun s) (lowV d) e) fl)

end Sys2Proof.Claim

/-- The vector integer operations apply the scalar ones to each active element, modulo 2^w for the element width w of
VSHAPE; VADD and VSUB with S clamp the exact result to the signed or natural range and raise SAT when the clamp changes
it. Inactive elements keep their value and the sidecar is unchanged (R99, R100, R134, R136). -/
def Sys2Proof.Claim.VectorIntegerResults : Prop :=
  VecOf (fun d a b m => .vadd d a b false false m) (fun _ x y => plain (x + y)) ∧
    VecOf (fun d a b m => .vsub d a b false false m) (fun _ x y => plain (x - y)) ∧
    (∀ nat, VecOf (fun d a b m => .vadd d a b true nat m)
      (fun w x y => clamped w nat (valueI nat x + valueI nat y))) ∧
    (∀ nat, VecOf (fun d a b m => .vsub d a b true nat m)
      (fun w x y => clamped w nat (valueI nat x - valueI nat y))) ∧
    VecOf .vmul (fun _ x y => plain (x * y)) ∧
    VecOf .vmulh (fun n x y => plain ((x.signExtend (2 * n) * y.signExtend (2 * n)).extractLsb' n n)) ∧
    VecOf .vmulhn (fun n x y => plain ((x.setWidth (2 * n) * y.setWidth (2 * n)).extractLsb' n n)) ∧
    VecOf .vdiv (fun n x y => plain (if y = 0 then BitVec.allOnes n else x.sdiv y)) ∧
    VecOf .vdivn (fun n x y => plain (if y = 0 then BitVec.allOnes n else x / y)) ∧
    VecOf .vrem (fun _ x y => plain (if y = 0 then x else x.srem y)) ∧
    VecOf .vremn (fun _ x y => plain (if y = 0 then x else x % y)) ∧
    VecOf .vand (fun _ x y => plain (x &&& y)) ∧ VecOf .vor (fun _ x y => plain (x ||| y)) ∧
    VecOf .vxor (fun _ x y => plain (x ^^^ y)) ∧ VecOf .vandn (fun _ x y => plain (x &&& ~~~y)) ∧
    VecOf .vshl (fun n x y => plain (x <<< (y.toNat % n))) ∧ VecOf .vshr (fun n x y => plain (x >>> (y.toNat % n))) ∧
    VecOf .vsra (fun n x y => plain (x.sshiftRight (y.toNat % n))) ∧
    VecOf .vrotl (fun n x y => plain (x.rotateLeft (y.toNat % n))) ∧
    VecOf .vmin (fun _ x y => plain (if x.sle y then x else y)) ∧
    VecOf .vmax (fun _ x y => plain (if x.sle y then y else x)) ∧
    VecOf .vminn (fun _ x y => plain (if x ≤ y then x else y)) ∧
    VecOf .vmaxn (fun _ x y => plain (if x ≤ y then y else x)) ∧
    VecOf1 .vclz (fun n x => { bits := leadingZeros n x.toNat }) ∧
    VecOf1 .vctz (fun n x => { bits := trailingZeros n x.toNat }) ∧
    VecOf1 .vpopc (fun n x => { bits := ((List.range n).filter x.getLsbD).length })

/-- The vector floating-point operations apply the scalar ones to each active element, FP32 or FP64 by VSHAPE.EW; VFMA,
VFMS and VFNMA read the old element of D, in a duplicate its original's (log 101); the sign operations copy bits without a
flag (R134, R137, R138). -/
def Sys2Proof.Claim.VectorFloatResults : Prop :=
  VecFp .vfadd (fun f r x y _ => fadd f r x y) ∧ VecFp .vfsub (fun f r x y _ => fsub f r x y) ∧
    VecFp .vfmul (fun f r x y _ => fmul f r x y) ∧ VecFp .vfdiv (fun f r x y _ => fdiv f r x y) ∧
    VecFp .vfma fma ∧ VecFp .vfms fms ∧ VecFp .vfnma fnma ∧ VecFp1 .vfsqrt fsqrt ∧
    VecFp (fun d a b _ m => .vfmin d a b m) (fun f _ x y _ => fminmax f false x y) ∧
    VecFp (fun d a b _ m => .vfmax d a b m) (fun f _ x y _ => fminmax f true x y) ∧
    VecFp .vfrcps (fun f r x y _ => newton f r 2 false x y) ∧ VecFp .vfrsqs (fun f r x y _ => newton f r 3 true x y) ∧
    VecFp1 .vfrcp (fun f _ x => frcp f x) ∧ VecFp1 .vfrsq (fun f _ x => frsq f x) ∧
    VecFp1 .vfexp (exactFn .exp) ∧ VecFp1 .vfexp2 (exactFn .exp2) ∧ VecFp1 .vflog (exactFn .log) ∧
    VecFp1 .vflog2 (exactFn .log2) ∧ VecFp1 .vferf (exactFn .erf) ∧ VecFp1 .vferfc (exactFn .erfc) ∧
    VecOf1 .vfneg (fun w x => plain (x ^^^ BitVec.intMin w)) ∧
    VecOf1 .vfabs (fun w x => plain (x &&& ~~~(BitVec.intMin w))) ∧ VecOf1 .vfmov (fun _ x => plain x) ∧
    VecOf .vfcpsgn (fun w x y => plain (x &&& ~~~(BitVec.intMin w) ||| y &&& BitVec.intMin w))

/-- VCVT converts each active element between two types of one width; VPACK converts the wide elements of A to narrow
ones of part PART of D and leaves the others (those of its original's D in a duplicate: log 101); VUNPACK converts the narrow elements of part PART of A to wide ones; VMXSCALE
reads part PART of A with the scale of its block, a scale 0xFF giving the canonical NaN without a flag (R139 to R142). -/
def Sys2Proof.Claim.VectorConversionResults : Prop :=
  (∀ (d a : VIdx) (cc : Fin 32) (rm : Rm) (m : MReg) (s : State),
    let dst := (cvTypes cc.val).1
    let w := dst.width
    VecMaps (.vcvt d a cc rm m) s d m w (16384 / w) fun j =>
      convertNum (cvTypes cc.val).2 dst (rmMode rm s) s.src.nbv (elem (rdV s a).elems w j).toNat) ∧
  (∀ (d a : VIdx) (cc : Fin 32) (rm : Rm) (part : Fin 8) (s : State), Issues (.vpack d a cc rm part) s →
    let wide := (pcTypes cc.val).1
    let narrow := (pcTypes cc.val).2
    let n := 16384 / wide.width
    let r (j : Nat) := convertNum wide narrow (rmMode rm s) s.src.nbv (elem (rdV s a).elems wide.width j).toNat
    ∃ (e : BitVec 16384) (fl : Flags),
      (∀ j, j < 16384 / narrow.width → elem e narrow.width j =
        if part.val * n ≤ j ∧ j < part.val * n + n then BitVec.ofNat narrow.width (r (j - part.val * n)).bits
        else elem (rdV s (oldV s d)).elems narrow.width j) ∧
      (∀ b, fl.getLsbD b = true ↔ ∃ j, j < n ∧ (r j).flags.getLsbD b = true) ∧
      FpEnds (.vpack d a cc rm part) s (wrVElems (begun s) d e) fl) ∧
  (∀ (d a : VIdx) (cc : Fin 32) (part : Fin 8) (s : State), Issues (.vunpack d a cc part) s →
    let wide := (pcTypes cc.val).1
    let narrow := (pcTypes cc.val).2
    let n := 16384 / wide.width
    let r (j : Nat) := convertNum narrow wide .rne s.src.nbv
      (elem (rdV s a).elems narrow.width (part.val * n + j)).toNat
    ∃ (e : BitVec 16384) (fl : Flags),
      (∀ j, j < n → elem e wide.width j = BitVec.ofNat wide.width (r j).bits) ∧
      (∀ b, fl.getLsbD b = true ↔ ∃ j, j < n ∧ (r j).flags.getLsbD b = true) ∧
      FpEnds (.vunpack d a cc part) s (wrVElems (begun s) d e) fl) ∧
  ∀ (d a : VIdx) (cc : Fin 32) (rm : Rm) (part : Fin 8) (s : State) (t : NumTy) (emax : Int),
    Issues (.vmxscale d a cc rm part) s → mxElem (xcFormat cc.val) = some (t, emax) →
    let x (j : Nat) := ((rdV s a).side.extractLsb' (8 * ((part.val * 512 + j) / 32)) 8).toNat
    let r (j : Nat) := mxScale t (rmMode rm s) (x j) (elem (rdV s a).elems t.width (part.val * 512 + j)).toNat
    (∀ j, x j = 0xFF → r j = { bits := 0x7FC00000 }) ∧
    ∃ (e : BitVec 16384) (fl : Flags),
      (∀ j, j < 512 → elem e 32 j = BitVec.ofNat 32 (r j).bits) ∧
      (∀ b, fl.getLsbD b = true ↔ ∃ j, j < 512 ∧ (r j).flags.getLsbD b = true) ∧
      FpEnds (.vmxscale d a cc rm part) s (wrVElems (begun s) d e) fl

/-- VMXNORM writes, for each block of 32 FP32 elements, its scale and its 32 converted elements into part PART of D and
leaves every other element and sidecar byte (of its original's D in a duplicate: log 101); the worked block of R142 gives scale 0x78 and elements 0x7C, 0xEC and 0x55
with NX, and scaling it back 3.0, -0.75 and 0.1015625 (R142). -/
def Sys2Proof.Claim.MxNormWritesScaledBlocks : Prop :=
  (∀ (d a : VIdx) (cc : Fin 32) (rm : Rm) (part : Fin 8) (s : State) (t : NumTy) (emax : Int),
    Issues (.vmxnorm d a cc rm part) s → mxElem (xcFormat cc.val) = some (t, emax) →
    let blk (j : Nat) := mxNorm t emax (rmMode rm s) s.src.nbv
      ((List.range 32).map fun i => Fmt.f32.unpack (elem (rdV s a).elems 32 (32 * j + i)).toNat)
    ∃ (v : VReg) (fl : Flags),
      (∀ k, k < 16384 / t.width → elem v.elems t.width k =
        if part.val * 512 ≤ k ∧ k < part.val * 512 + 512 then
          BitVec.ofNat t.width (((blk ((k - part.val * 512) / 32)).2.1)[(k - part.val * 512) % 32]?.getD 0)
        else elem (rdV s (oldV s d)).elems t.width k) ∧
      (∀ k, k < 128 → v.side.extractLsb' (8 * k) 8 =
        if part.val * 16 ≤ k ∧ k < part.val * 16 + 16 then BitVec.ofNat 8 (blk (k - part.val * 16)).1
        else (rdV s (oldV s d)).side.extractLsb' (8 * k) 8) ∧
      (∀ b, fl.getLsbD b = true ↔ ∃ j, j < 16 ∧ (blk j).2.2.getLsbD b = true) ∧
      FpEnds (.vmxnorm d a cc rm part) s (wrV (begun s) d v) fl) ∧
  mxNorm (.fp .e4m3) 8 .rne 2
      ([0x40400000, 0xBF400000, 0x3DCCCCCD].map Fmt.f32.unpack ++ List.replicate 29 (Fmt.f32.unpack 0)) =
    (0x78, [0x7C, 0xEC, 0x55] ++ List.replicate 29 0, flagNX) ∧
  (mxScale (.fp .e4m3) .rne 0x78 0x7C = { bits := 0x40400000 } ∧
    mxScale (.fp .e4m3) .rne 0x78 0xEC = { bits := 0xBF400000 } ∧
    mxScale (.fp .e4m3) .rne 0x78 0x55 = { bits := 0x3DD00000 })

/-- The reductions: FSUM, FMIN and FMAX in the architected tree; ISUM forms the exact sum and wraps or saturates it once,
to 64 bits or with ROW to the element width; the integer extremes compare as signed or natural values and give their
empty values over no element (R62, R143). -/
def Sys2Proof.Claim.ReductionResults : Prop :=
  ∀ (d : SReg) (a : VIdx) (sat nat : Bool) (rm : Rm) (m : MReg) (s : State),
    let w := 8 * s.src.ebytes
    let f := if s.src.ew = 3 then Fmt.f64 else Fmt.f32
    let val (x : Nat) : Int := valueI nat (BitVec.ofNat w x)
    Reduces (fun row => .vredFsum d a row rm m) s d a m false (fun _ l => fpSum f (rmMode rm s) s.src.nbv l) ∧
    Reduces (fun row => .vredFmin d a row m) s d a m false (fun _ l => fpMinMax f false l) ∧
    Reduces (fun row => .vredFmax d a row m) s d a m false (fun _ l => fpMinMax f true l) ∧
    Reduces (fun row => .vredIsum d a row sat nat m) s d a m false (fun wr l =>
      let v := ((l.filterMap id).map val).sum
      if sat then clamped wr nat v else { bits := (BitVec.ofInt wr v).toNat }) ∧
    Reduces (fun row => .vredImin d a row m) s d a m true (fun _ l => iextreme .min w (2 ^ (w - 1) - 1) l) ∧
    Reduces (fun row => .vredImax d a row m) s d a m true (fun _ l => iextreme .max w (2 ^ (w - 1)) l) ∧
    Reduces (fun row => .vredNmin d a row m) s d a m false (fun _ l => iextreme .minn w (2 ^ w - 1) l) ∧
    Reduces (fun row => .vredNmax d a row m) s d a m false (fun _ l => iextreme .maxn w 0 l)

namespace Sys2Proof.Claim
open Sys2Proof.Machine

/-- Two positions of a reduction combined: an absent one gives way to the other (02 R62). -/
def joined {α : Type} (f : α → α → α) : Option α → Option α → Option α
  | none, y => y
  | x, none => x
  | some x, some y => some (f x y)

/-- node(level, i) of 02 R62 over positions x. -/
def node {α : Type} (f : α → α → α) (x : Nat → Option α) : Nat → Nat → Option α
  | 0, i => x i
  | level + 1, i => joined f (node f x level (2 * i)) (node f x level (2 * i + 1))

/-- The positions of a list of elements, some of them absent. -/
def positions {α : Type} (l : List (Option α)) (i : Nat) : Option α := (l[i]?).join

end Sys2Proof.Claim

/-- The architected tree: with P = 2^k the smallest power of two not below the number of elements, a reduction at NBV = 2 is
node(k, 0); at NBV = 1, with P of 4 at least, each group of four positions is folded from its lowest present element upward
and the groups are combined by the tree. FSUM over finite elements combines by the rounded sum, each rounding raising its
flags, and gives +0 over none; an infinity of one sign, infinities of both and a NaN among the elements follow the rules of
a sum over all of them; FMIN and FMAX combine by their scalar forms and give the infinity over none. The worked example of
R63 gives 0x3F800002 at NBV = 2 and 0x3F800000 at NBV = 1 (R51, R52, R62, R63). -/
def Sys2Proof.Claim.ReductionsFollowTheTree : Prop :=
  (∀ (f : FR → FR → FR) (l : List (Option FR)) (k : Nat), k ≤ 32 → l.length ≤ 2 ^ k → (k = 0 ∨ 2 ^ (k - 1) < l.length) →
    treeReduce f l = node f (positions l) k 0) ∧
  (∀ (f : FR → FR → FR) (l : List (Option FR)) (k : Nat), 2 ≤ k → k ≤ 32 → l.length ≤ 2 ^ k →
    (k = 2 ∨ 2 ^ (k - 1) < l.length) →
    let group (g : Nat) : Option FR := ((List.range 4).map fun j => positions l (4 * g + j)).foldl (joined f) none
    groupReduce f l = node f group (k - 2) 0) ∧
  (∀ (f : Fmt) (rm : Rnd) (nbv : Nat) (l : List (Option Nat)), (f = .f32 ∨ f = .f64) →
    let present (p : FVal → Prop) : Prop := ∃ w, some w ∈ l ∧ p (f.unpack w)
    let step (a b : FR) : FR :=
      { bits := (fadd f rm a.bits b.bits).bits, flags := a.flags ||| b.flags ||| (fadd f rm a.bits b.bits).flags }
    let start := l.map fun x => x.map fun w => ({ bits := w } : FR)
    let anyNan := ∃ sig, present fun v => v = .nan sig
    let bothInf := present (fun v => v = .inf false) ∧ present fun v => v = .inf true
    ((∀ w, some w ∈ l → ∃ n m e, f.unpack w = .fin n m e) →
      fpSum f rm nbv l = ((if nbv = 1 then groupReduce step start else treeReduce step start).getD { bits := 0 })) ∧
    (anyNan ∨ bothInf → (fpSum f rm nbv l).bits = (f.nanR 0).bits ∧
      ((fpSum f rm nbv l).flags = flagNV ∨ (fpSum f rm nbv l).flags = 0) ∧
      ((fpSum f rm nbv l).flags = flagNV ↔ bothInf ∨ present fun v => v = .nan true)) ∧
    (¬anyNan → ¬bothInf → ∀ n, (present fun v => v = .inf n) → fpSum f rm nbv l = f.infR n)) ∧
  (∀ (f : Fmt) (maxi : Bool) (l : List (Option Nat)), (f = .f32 ∨ f = .f64) →
    let step (a b : FR) : FR := { bits := (fminmax f maxi a.bits b.bits).bits,
                                  flags := a.flags ||| b.flags ||| (fminmax f maxi a.bits b.bits).flags }
    ((∀ w, some w ∉ l) → fpMinMax f maxi l = f.infR maxi) ∧
    ∀ w, some w ∈ l → (∀ v, some v ∈ l → f.isNan v = false) →
      some (fpMinMax f maxi l) = treeReduce step (l.map fun x => x.map fun w => ({ bits := w } : FR))) ∧
  let xs : List (Option Nat) := [0x3F800000, 0x33800000, 0x33800000, 0x33800000, 0x33800000, 0, 0, 0].map some
  fpSum .f32 .rne 2 xs = { bits := 0x3F800002, flags := flagNX } ∧
    fpSum .f32 .rne 1 xs = { bits := 0x3F800000, flags := flagNX }

/-- Every reduction that issues, with no exception enabled in FPM, is done: exec answers the next state, in which only D,
a scalar register or with ROW a vector register, and the flags have changed, and pc stands at the next bundle (R48,
R143). -/
def Sys2Proof.Claim.ReductionsAreDone : Prop :=
  ∀ (d : SReg) (a : VIdx) (row sat nat : Bool) (rm : Rm) (m : MReg) (s : State) (i : Instr),
    i ∈ [Instr.vredFsum d a row rm m, .vredFmin d a row m, .vredFmax d a row m, .vredIsum d a row sat nat m,
      .vredImin d a row m, .vredImax d a row m, .vredNmin d a row m, .vredNmax d a row m] →
    Issues i s → s.src.enables = 0 →
    ∃ t, exec i s = .next t ∧ t.bun.status = .done ∧ t.ctx.pc = s.src.pc + 16 ∧ t.ctx.p = s.ctx.p ∧ t.ctx.m = s.ctx.m ∧
      t.ctx.t = s.ctx.t ∧ t.ctx.q = s.ctx.q ∧ t.mem = s.mem ∧ t.spad = s.spad ∧
      (row = false → t.ctx.v = s.ctx.v ∧ ∀ r, r ≠ s.src.physS d → t.ctx.s.get r = s.ctx.s.get r) ∧
      (row = true → t.ctx.s = s.ctx.s ∧ ∀ r, r ≠ s.src.physV (lowV d) → t.ctx.v.get r = s.ctx.v.get r)

/-- The extreme over a list is one of the elements present and no element present lies beyond it; over none it is the
empty value (R62, R143). -/
def Sys2Proof.Claim.IntegerExtremesBoundTheirElements : Prop :=
  ∀ (w empty : Nat) (l : List (Option Nat)), (∀ x, some x ∈ l → x < 2 ^ w) →
    (l.filterMap id = [] → ∀ op, (iextreme op w empty l).bits = empty) ∧
    (l.filterMap id ≠ [] →
      (some (iextreme .minn w empty l).bits ∈ l ∧ ∀ x, some x ∈ l → (iextreme .minn w empty l).bits ≤ x) ∧
      (some (iextreme .maxn w empty l).bits ∈ l ∧ ∀ x, some x ∈ l → x ≤ (iextreme .maxn w empty l).bits) ∧
      (some (iextreme .min w empty l).bits ∈ l ∧ ∀ x, some x ∈ l →
        (BitVec.ofNat w (iextreme .min w empty l).bits).toInt ≤ (BitVec.ofNat w x).toInt) ∧
      (some (iextreme .max w empty l).bits ∈ l ∧ ∀ x, some x ∈ l →
        (BitVec.ofNat w x).toInt ≤ (BitVec.ofNat w (iextreme .max w empty l).bits).toInt))

/-- VMOV copies elements, with MK = 0 the sidecar too; VBCAST writes the low bits of a scalar to each active element;
VEXTR reads element k, 0 beyond the last; VXB sends source lane s of each group of 16 to lane sB[4s+3:4s], and a pattern
that names a lane twice traps with ILLEGAL_SCHEDULE (R144, R146). -/
def Sys2Proof.Claim.VectorMovesAndCrossbar : Prop :=
  (∀ (d a : VIdx) (s : State), Issues (.vmov d a 0) s → Does (.vmov d a 0) s (wrV (begun s) d (rdV s a))) ∧
  (∀ (d a : VIdx) (m : MReg) (s : State), m ≠ 0 →
    let w := 8 * s.src.ebytes
    VecMaps (.vmov d a m) s d m w s.src.elems fun j => plain (elem (rdV s a).elems w j)) ∧
  (∀ (d : VIdx) (a : SReg) (m : MReg) (s : State),
    let w := 8 * s.src.ebytes
    VecMaps (.vbcast d a m) s d m w s.src.elems fun _ => plain ((rdS s a).setWidth w)) ∧
  (∀ (d : SReg) (a : VIdx) (b : SReg) (s : State), Issues (.vextr d a b) s →
    let w := 8 * s.src.ebytes
    Puts (.vextr d a b) s d (if (rdS s b).toNat < s.src.elems then
      (elem (rdV s a).elems w (rdS s b).toNat).setWidth 64 else 0)) ∧
  ∀ (d a : VIdx) (b : SReg) (m : MReg) (s : State),
    let w := 8 * s.src.ebytes
    let dst (k : Nat) : Nat := ((rdS s b).extractLsb' (4 * k) 4).toNat
    let inverse (src : Nat → Nat) : Prop := ∀ k, k < 16 → src (dst k) = k
    ((∀ j k, j < 16 → k < 16 → dst j = dst k → j = k) → ∃ src, inverse src ∧
      VecMaps (.vxb d a b m) s d m w s.src.elems fun j =>
        plain (elem (rdV s a).elems w (16 * (j / 16) + src (j % 16)))) ∧
    (∀ j k, j < k → k < 16 → dst j = dst k → Quiet s →
      exec (.vxb d a b m) s = .next ((slotTrap s { cause := .illegalSchedule, xinfo := s.bun.word }).ended .trapped) ∨
        unitPresent s 0x20 (encodeWord (.vxb d a b m) / 64 % 32) (encodeWord (.vxb d a b m)) = false)

/-- MAND, MOR, MXOR, MANDN and MNOT work on all 2048 bits; VCMP and VFCMP write the bit of each active element and leave
the others, and all from n upward; MPOPC counts the ones among the first n bits (R145). -/
def Sys2Proof.Claim.MaskResults : Prop :=
  (∀ (d a b : MReg) (s : State),
    (Issues (.mand d a b) s → Does (.mand d a b) s (wrM (begun s) d (rdM s a &&& rdM s b))) ∧
    (Issues (.mor d a b) s → Does (.mor d a b) s (wrM (begun s) d (rdM s a ||| rdM s b))) ∧
    (Issues (.mxor d a b) s → Does (.mxor d a b) s (wrM (begun s) d (rdM s a ^^^ rdM s b))) ∧
    (Issues (.mandn d a b) s → Does (.mandn d a b) s (wrM (begun s) d (rdM s a &&& ~~~(rdM s b)))) ∧
    (Issues (.mnot d a) s → Does (.mnot d a) s (wrM (begun s) d (~~~(rdM s a))))) ∧
  (∀ (d : SReg) (a : MReg) (s : State), Issues (.mpopc d a) s →
    Puts (.mpopc d a) s d (BitVec.ofNat 64 ((List.range s.src.elems).filter (rdM s a).getLsbD).length)) ∧
  ∀ (d : MReg) (a b : VIdx) (cc : Fin 8) (mk : MReg) (s : State),
    let w := 8 * s.src.ebytes
    let x (j : Nat) := elem (rdV s a).elems w j
    let y (j : Nat) := elem (rdV s b).elems w j
    let rel (j : Nat) : Bool := match cc.val with
      | 0 => x j == y j
      | 1 => x j != y j
      | 2 => (x j).slt (y j)
      | 3 => (y j).sle (x j)
      | 4 => (x j).ult (y j)
      | _ => (y j).ule (x j)
    let f := if s.src.ew = 3 then Fmt.f64 else Fmt.f32
    let ends (i : Instr) (r : Nat → Bool × Flags) : Prop := Issues i s → ∃ (e : BitVec 2048) (fl : Flags),
      (∀ j, e.getLsbD j = if j < s.src.elems ∧ active s mk j = true then (r j).1 else (rdM s d).getLsbD j) ∧
      (∀ b, fl.getLsbD b = true ↔ ∃ j, j < s.src.elems ∧ active s mk j = true ∧ (r j).2.getLsbD b = true) ∧
      FpEnds i s (wrM (begun s) d e) fl
    ends (.vcmp d a b cc mk) (fun j => (rel j, 0)) ∧
      ends (.vfcmp d a b cc mk) (fun j => fcompare f cc.val (x j).toNat (y j).toNat)

namespace Sys2Proof.Claim
open Sys2Proof.Machine

/-- The bytes of an access resolve to l, and nothing makes the slot wait: its counter is below its limit, its banks are
free, its port is not held (04 R119, 08 R207, 10 R259, 19 R406). -/
def Ready (s : State) (sp : Bool) (n : Need) (q : QClass) (vas : List Nat) (l : List Pa) : Prop :=
  (resolve s sp n vas).1 = .ok l ∧ countFull s q = false ∧
    if sp then banksBusy s s.src.lc (banksOf (l.map Pa.pa)) = false else portHeld s (l.map Pa.pa) = false

/-- The slot is done and puts one access in flight, which want describes: it is of this bundle and slot, takes the next
issuer sequence and a count, and is performed in none of its granules. No register, no memory and no other context
changes; where the host has written behind L2, the walk of its page may show what it wrote (10 R260). -/
def Launches (i : Instr) (s : State) (want : Access → Prop) : Prop :=
  ∃ t f, Does i s t ∧ f ∈ t.flights ∧ want f ∧ f.who = s.src.id ∧ f.bundle = s.src.bundles ∧ f.slot = s.bun.slot ∧
    f.seq = s.ctx.seq ∧ f.todo = granulesOf f.cells ∧ t.ctx.seq = s.ctx.seq + 1 ∧
    t.ctx.ocl = s.ctx.ocl + (if f.cls = .l then 1 else 0) ∧ t.ctx.ocs = s.ctx.ocs + (if f.cls = .l then 0 else 1) ∧
    t.ctx.s = s.ctx.s ∧ t.ctx.p = s.ctx.p ∧ t.ctx.v = s.ctx.v ∧ t.ctx.m = s.ctx.m ∧ t.ctx.t = s.ctx.t ∧
    t.ctx.q = s.ctx.q ∧ t.ctx.fxf = s.ctx.fxf ∧ t.ctx.pc = s.src.pc + 16 ∧ (s.hbmNew = [] → t.mem = s.mem) ∧
    t.spad = s.spad ∧ t.others = s.others

/-- The register that a load of n bytes writes when its data returns. -/
def loadDest (s : State) (d : SReg) (n : Nat) (signed : Bool) : LoadDest :=
  if d = 0 then .none else .scalar (s.src.physS d) n (if signed then .sign else .zero)

/-- A scalar load at an address: misaligned it traps, else it goes in flight. -/
def LoadsAt (i : Instr) (s : State) (d : SReg) (sz : Fin 8) (sp : Bool) (addr : Nat) (acq : Option (Fin 8)) : Prop :=
  let n := 2 ^ (sz.val % 4)
  Issues i s →
    (addr % n ≠ 0 → Traps i s { cause := .align, faddr := addr % 2 ^ 56 }) ∧
    ∀ l, addr % n = 0 → Ready (begun s) sp .read .l (byteRange addr n) l →
      Launches i s fun f => f.kind = .load ∧ f.cls = .l ∧ f.spad = sp ∧ f.va = addr ∧ f.cells = l.map Pa.pa ∧
        f.dest = loadDest s d n (4 ≤ sz.val) ∧ f.acq = acq

/-- A scalar store at an address: the bytes that it will write are the low bytes of D. A release of scope mod waits at the
port, and its context does not, while its die's epoch runs too far ahead (10 R269, item 6). -/
def StoresAt (i : Instr) (s : State) (d : SReg) (sz : Fin 8) (sp : Bool) (addr : Nat) (rel : Option (Fin 8)) : Prop :=
  let n := 2 ^ (sz.val % 4)
  Issues i s →
    (addr % n ≠ 0 → Traps i s { cause := .align, faddr := addr % 2 ^ 56 }) ∧
    ∀ l, addr % n = 0 → Ready (begun s) sp .write .s (byteRange addr n) l →
      Launches i s fun f => (∃ data, f.kind = .store data ∧ data.length = n ∧
          ofBytes data = (rdS s d).toNat % 2 ^ (8 * n)) ∧
        f.cls = .s ∧ f.spad = sp ∧ f.va = addr ∧ f.cells = l.map Pa.pa ∧ f.rel = rel ∧
        f.relHeld = (decide (rel = some 3) && epochHeld s s.src.pdie)

end Sys2Proof.Claim

/-- LD, ST, LD.ACQ and ST.REL: a misaligned address traps with ALIGN and FADDR the address formed; else the access goes
in flight on the translated bytes of sA + sext(imm) (of sA for the ordered forms), a load owing D its extended bytes, a
store holding the low bytes of D; the register is not written before the data returns (R207, R208, R210, R223). -/
def Sys2Proof.Claim.LoadsAndStoresGoInFlight : Prop :=
  ∀ (d a : SReg) (imm : Int) (sp : Bool) (sz scope : Fin 8) (s : State),
    let addr := (rdS s a + BitVec.ofInt 64 imm).toNat
    LoadsAt (.ld d a imm sp sz) s d sz sp addr none ∧
    StoresAt (.st d a imm sp sz) s d sz sp addr none ∧
    LoadsAt (.ldAcq d a scope sz) s d sz false (rdS s a).toNat (some scope) ∧
    StoresAt (.stRel d a scope sz) s d sz false (rdS s a).toNat (some scope)

/-- VLD and VST of elements: base and stride are multiples of the element size or the slot traps with ALIGN and FADDR the
base; the bytes are those of the active elements, row r at the base plus r strides, and no others. With SCR they move the
128 bytes of the sidecar, at a multiple of 128; that another base traps with ALIGN is the model's reading (log 76, DEDUCED and
unsafe: R211 gives ILLEGAL_INSTR to a breach for which it names no ALIGN) (R211). -/
def Sys2Proof.Claim.VectorLoadsAndStoresGoInFlight : Prop :=
  ∀ (d : VIdx) (a b : SReg) (sp : Bool) (mk : MReg) (s : State),
    let base := (rdS s a).toNat
    let cols := s.src.elems / 2 ^ s.src.rowl2
    let stride := if b = 0 then cols * s.src.ebytes else (rdS s b).toNat
    let cells := vecCells (begun s) base stride mk
    let bad := base % s.src.ebytes ≠ 0 ∨ stride % s.src.ebytes ≠ 0
    let align : TrapInfo := { cause := .align, faddr := base % 2 ^ 56 }
    (∀ x j, (x, j) ∈ cells ↔ ∃ r c i, r < 2 ^ s.src.rowl2 ∧ c < cols ∧ i < s.src.ebytes ∧
      active s mk (r * cols + c) = true ∧ x = (base + r * stride + c * s.src.ebytes + i) % 2 ^ 64 ∧
      j = (r * cols + c) * s.src.ebytes + i) ∧
    (Issues (.vld d a b sp false mk) s → (bad → Traps (.vld d a b sp false mk) s align) ∧
      ∀ l, ¬bad → Ready (begun s) sp .read .l (cells.map Prod.fst) l →
        Launches (.vld d a b sp false mk) s fun f => f.kind = .load ∧ f.cls = .l ∧ f.spad = sp ∧
          f.cells = l.map Pa.pa ∧ f.dest = .vector (s.src.physV d) (cells.map Prod.snd)) ∧
    (Issues (.vst d a b sp false mk) s → (bad → Traps (.vst d a b sp false mk) s align) ∧
      ∀ l, ¬bad → Ready (begun s) sp .write .s (cells.map Prod.fst) l →
        Launches (.vst d a b sp false mk) s fun f => f.cls = .s ∧ f.spad = sp ∧ f.cells = l.map Pa.pa ∧
          f.kind = .store (cells.map fun p => (rdV s d).elems.extractLsb' (8 * p.2) 8)) ∧
    (Issues (.vld d a b sp true mk) s → (base % 128 ≠ 0 → Traps (.vld d a b sp true mk) s align) ∧
      ∀ l, base % 128 = 0 → Ready (begun s) sp .read .l (byteRange base 128) l →
        Launches (.vld d a b sp true mk) s fun f => f.kind = .load ∧ f.spad = sp ∧ f.cells = l.map Pa.pa ∧
          f.dest = .sidecar (s.src.physV d)) ∧
    (Issues (.vst d a b sp true mk) s → (base % 128 ≠ 0 → Traps (.vst d a b sp true mk) s align) ∧
      ∀ l, base % 128 = 0 → Ready (begun s) sp .write .s (byteRange base 128) l →
        Launches (.vst d a b sp true mk) s fun f => f.spad = sp ∧ f.cells = l.map Pa.pa ∧
          ∃ data, f.kind = .store data ∧ data.length = 128 ∧ ofBytes data = (rdV s d).side.toNat)

namespace Sys2Proof.Claim
open Sys2Proof.Machine

/-- The bytes of an atomic's TYPE (08 R214). -/
def typeBytes (ty : Fin 8) : Nat := if ty = 0 ∨ ty = 2 ∨ ty = 4 then 4 else 8

/-- Where an atomic is performed (08 R216). -/
def placeOf (s : State) (op : AtomOp) (pa : Nat) : AtomPlace :=
  if inWindow s pa then .switch
  else if (op = .fadd ∨ op = .fmin ∨ op = .fmax) ∧ s.src.detl ≠ 0 then .press else .home

/-- An AMO, with the destination d, or a RED. -/
def AtomAt (i : Instr) (d : Option SReg) (a b : SReg) (op : AtomOp) (ty : Fin 8) (s : State) : Prop :=
  let n := typeBytes ty
  let addr := (rdS s a).toNat
  let q : QClass := if d.isSome then .l else .s
  Issues i s →
    (addr % n ≠ 0 → Traps i s { cause := .align, faddr := addr % 2 ^ 56 }) ∧
    ∀ p l, addr % n = 0 → Ready (begun s) false (if d.isSome then .amo else .red) q (byteRange addr n) (p :: l) →
      (d.isSome → inWindow s p.pa = true → Traps i s { cause := .accessFault, faddr := addr % 2 ^ 56 }) ∧
      ((d = none ∨ inWindow s p.pa = false) → Launches i s fun f =>
        (∃ x, f.kind = .atom x ∧ x.op = op ∧ x.ty.bytes = n ∧ x.val = rdS s b ∧ ∀ r, d = some r → x.cmp = rdS s r) ∧
        f.cls = q ∧ f.spad = false ∧ f.cells = (p :: l).map Pa.pa ∧ f.place = placeOf s op p.pa ∧
        ∀ r, d = some r → f.dest = loadDest s r n (ty.val = 0))

end Sys2Proof.Claim

/-- The eleven AMO and the nine RED operations go in flight on the aligned word at sA with the operand sB (and, for CAS,
D as it stood before the bundle): an AMO counts in OCL and owes D the old value, sign-extended for i32 alone; a RED counts
in OCS. A floating-point operation above DETL FREE is performed at the press, one in a registered window at the switch,
and every other at home; an AMO to a window traps with ACCESS_FAULT (R207, R208, R214, R215, R216, R221). -/
def Sys2Proof.Claim.AtomicsGoInFlight : Prop :=
  ∀ (d a b : SReg) (ty : Fin 8) (s : State),
    AtomAt (.amoSwap d a b ty) (some d) a b .swap ty s ∧ AtomAt (.amoCas d a b ty) (some d) a b .cas ty s ∧
    AtomAt (.amoAdd d a b ty) (some d) a b .add ty s ∧ AtomAt (.amoAnd d a b ty) (some d) a b .and ty s ∧
    AtomAt (.amoOr d a b ty) (some d) a b .or ty s ∧ AtomAt (.amoXor d a b ty) (some d) a b .xor ty s ∧
    AtomAt (.amoMin d a b ty) (some d) a b .min ty s ∧ AtomAt (.amoMax d a b ty) (some d) a b .max ty s ∧
    AtomAt (.amoFadd d a b ty) (some d) a b .fadd ty s ∧ AtomAt (.amoFmin d a b ty) (some d) a b .fmin ty s ∧
    AtomAt (.amoFmax d a b ty) (some d) a b .fmax ty s ∧
    AtomAt (.redAdd a b ty) none a b .add ty s ∧ AtomAt (.redAnd a b ty) none a b .and ty s ∧
    AtomAt (.redOr a b ty) none a b .or ty s ∧ AtomAt (.redXor a b ty) none a b .xor ty s ∧
    AtomAt (.redMin a b ty) none a b .min ty s ∧ AtomAt (.redMax a b ty) none a b .max ty s ∧
    AtomAt (.redFadd a b ty) none a b .fadd ty s ∧ AtomAt (.redFmin a b ty) none a b .fmin ty s ∧
    AtomAt (.redFmax a b ty) none a b .fmax ty s

/-- The new value of an atomic that finds x and whose operand is v, at the width of its type: SWAP, CAS, ADD modulo 2^w,
the bitwise operations, MIN and MAX signed for the i types, and the floating-point operations with one rounding; the
value returned is extended with the sign for i32 and with zeros else (R215, R216). -/
def Sys2Proof.Claim.AtomicResultsFollowTheirTable : Prop :=
  (∀ (a : Atom) (x : Nat), x < 2 ^ (8 * a.ty.bytes) →
    let w := 8 * a.ty.bytes
    let v : BitVec w := a.val.setWidth w
    let y : BitVec w := BitVec.ofNat w x
    let le (p q : BitVec w) : Bool := if a.ty = .i32 ∨ a.ty = .i64 then p.sle q else p.ule q
    let r : BitVec w := BitVec.ofNat w (a.apply x).1
    (a.op = .swap → r = v) ∧ (a.op = .cas → r = if y = a.cmp.setWidth w then v else y) ∧
    (a.op = .add → r = y + v) ∧ (a.op = .and → r = y &&& v) ∧ (a.op = .or → r = y ||| v) ∧ (a.op = .xor → r = y ^^^ v) ∧
    (a.op = .min → r = if le y v then y else v) ∧ (a.op = .max → r = if le y v then v else y) ∧
    (a.op = .fadd → a.apply x = ((fadd a.ty.fmt .rne x v.toNat).bits, (fadd a.ty.fmt .rne x v.toNat).flags)) ∧
    (a.op = .fmin → a.apply x = ((fminmax a.ty.fmt false x v.toNat).bits, (fminmax a.ty.fmt false x v.toNat).flags)) ∧
    (a.op = .fmax → a.apply x = ((fminmax a.ty.fmt true x v.toNat).bits, (fminmax a.ty.fmt true x v.toNat).flags)) ∧
    (¬(a.op = .fadd ∨ a.op = .fmin ∨ a.op = .fmax) → (a.apply x).2 = 0)) ∧
  ∀ x : BitVec 32, extendBytes .sign 4 x.toNat = x.signExtend 64 ∧ extendBytes .zero 4 x.toNat = x.setWidth 64

/-- PREF, CLEAN and INVL: a length above 2^21 traps with ILLEGAL_INSTR; PREF takes no address trap and changes no register,
no memory and no count; CLEAN and INVL of an empty range do nothing, and else go in flight on the 64 bytes of every
granule that meets the range, in OCS (R208, R212). -/
def Sys2Proof.Claim.MaintenanceCoversItsGranules : Prop :=
  ∀ (a b : SReg) (lvl : Fin 8) (s : State),
    let n := (rdS s b).toNat
    let bases := granuleBases (rdS s a).toNat n
    let illegal : TrapInfo := { cause := .illegalInstr, xinfo := s.bun.word }
    (∀ x, x ∈ bases ↔ x % 64 = 0 ∧ ∃ i, i < n ∧ x = ((rdS s a).toNat + i) / 64 * 64 % 2 ^ 64) ∧
    (Issues (.pref a b lvl) s → (2 ^ 21 < n → Traps (.pref a b lvl) s illegal) ∧
      (n ≤ 2 ^ 21 → ∃ t, Does (.pref a b lvl) s t ∧ t.ctx = (begun s).ctx ∧ t.mem = s.mem ∧ t.spad = s.spad ∧
        t.flights = s.flights ∧ t.others = s.others)) ∧
    (Issues (.clean a b lvl) s → (2 ^ 21 < n → Traps (.clean a b lvl) s illegal) ∧
      (n = 0 → Does (.clean a b lvl) s (begun s)) ∧
      ∀ l, 0 < n → n ≤ 2 ^ 21 → Ready (begun s) false .write .s bases l →
        Launches (.clean a b lvl) s fun f => f.kind = .clean (lvl = 1) ∧ f.cls = .s ∧
          f.cells = l.flatMap fun p => (List.range 64).map fun i => p.pa + i) ∧
    (Issues (.invl a b) s → (2 ^ 21 < n → Traps (.invl a b) s illegal) ∧ (n = 0 → Does (.invl a b) s (begun s)) ∧
      ∀ l, 0 < n → n ≤ 2 ^ 21 → Ready (begun s) false .write .s bases l →
        Launches (.invl a b) s fun f => f.kind = .invl ∧ f.cls = .s ∧
          f.cells = l.flatMap fun p => (List.range 64).map fun i => p.pa + i)

/-- The address traps of an access and its waits. An address with bits above 55 takes ACCESS_FAULT, one whose walk finds
no leaf PAGE_FAULT, and a leaf without the permission, a target that is reserved, or a page in HBM that reaches into the save
region ACCESS_FAULT; every other access has the address of its leaf; a scratchpad offset from 0xC00000 up, or in a bank that
the gang does not hold, SPAD_RANGE. The first failing byte, in ascending order, is reported. With 64 accesses of its class
outstanding, a slot of LD or ST stalls (R119, R207, R361, R362, R420). -/
def Sys2Proof.Claim.AddressTrapsAndCountStalls : Prop :=
  (∀ (s : State) (x : Xl) (n : Need) (va : Nat),
    let fresh := s.tlb = [] ∧ s.walkCache = [] ∧ s.hbmNew = []
    (2 ^ 56 ≤ va → (xlate s x n va).1 = .error .accessFault) ∧
    (va < 2 ^ 56 → fresh → walkRoot s x.root va = none → (xlate s x n va).1 = .error .pageFault) ∧
    (∀ l, va < 2 ^ 56 → fresh → walkRoot s x.root va = some l →
      (leafPermits x.priv n l.entry = false ∨ paKind s (leafPa l va) = .reserved → (xlate s x n va).1 = .error .accessFault) ∧
      (leafPermits x.priv n l.entry = true → paKind s (leafPa l va) ≠ .reserved →
        let saved := paKind s (leafPa l va) = .hbm ∧ s.saveBase < paNorm s (leafPa l (va / l.size * l.size)) + l.size
        (saved → (xlate s x n va).1 = .error .accessFault) ∧
        (¬saved → (xlate s x n va).1 = .ok
          { pa := paNorm s (leafPa l va), rwn := l.entry.testBit 9, va := va
            page := some { lo := va / l.size * l.size, size := l.size,
                           asid := if l.entry.testBit 8 then none else some x.asid } })))) ∧
  (∀ (cl : Nat) (held : BitVec 48) (pre post : List Nat) (o : Nat),
    (∀ y ∈ pre, y < 0xC00000 ∧ held.getLsbD (y / 262144) = true) →
    (0xC00000 ≤ o ∨ held.getLsbD (o / 262144) = false) →
    spadAll cl held (pre ++ o :: post) = .error { cause := .spadRange, faddr := o % 2 ^ 56 }) ∧
  ∀ (d a : SReg) (imm : Int) (sp : Bool) (sz : Fin 8) (s : State),
    let n := 2 ^ (sz.val % 4)
    let addr := (rdS s a + BitVec.ofInt 64 imm).toNat
    (∀ t, Issues (.ld d a imm sp sz) s → addr % n = 0 → (resolve (begun s) sp .read (byteRange addr n)).1 = .error t →
      Traps (.ld d a imm sp sz) s t) ∧
    (∀ t, Issues (.st d a imm sp sz) s → addr % n = 0 → (resolve (begun s) sp .write (byteRange addr n)).1 = .error t →
      Traps (.st d a imm sp sz) s t) ∧
    (∀ l, Issues (.ld d a imm sp sz) s → addr % n = 0 → (resolve (begun s) sp .read (byteRange addr n)).1 = .ok l →
      64 ≤ s.ctx.ocl → exec (.ld d a imm sp sz) s = .next (s.ended .stalled)) ∧
    ∀ l, Issues (.st d a imm sp sz) s → addr % n = 0 → (resolve (begun s) sp .write (byteRange addr n)).1 = .ok l →
      64 ≤ s.ctx.ocs → exec (.st d a imm sp sz) s = .next (s.ended .stalled)

namespace Sys2Proof.Claim
open Sys2Proof.Machine

/-- The event acts: exec answers the next state t. -/
def Acts (i : Instr) (s t : State) : Prop := exec i s = .next t

/-- A granule that the host has not written behind L2 (10 R260). -/
def homeNewest (s : State) (g : Nat) : Prop := s.hbmNew.contains g = false

/-- The turn brings no access of another package, and is not that in which a store reaches only its L1 (10 R257). -/
def NoPeer (s : State) : Prop := s.arg.write = none ∧ s.arg.sig = [] ∧ s.arg.val2 ≠ 1

/-- The access is in flight still, with granule g done. -/
def didGranule (t : State) (a : Access) (g : Nat) : Prop :=
  ∃ f, t.flight? a.id = some f ∧ f.todo = a.todo.filter (· != g) ∧ f.kind = a.kind ∧ f.dest = a.dest ∧ f.who = a.who

/-- The byte of a store at an address, where it writes one: that of its last cell there that it does not leave to another
slot of its bundle. -/
def storeByte (a : Access) (data : List Byte) (x : Nat) : Option Byte :=
  (((a.cells.zip data).filter fun p => p.1 == x && !a.skip.contains p.1).getLast?).map Prod.snd

end Sys2Proof.Claim

/-- MEMORY_ACCESS_PERFORM performs an access that may be performed in a granule that it still has to do. A store leaves its
bytes in exactly the addresses that it names there, and every other byte as it was; a load leaves memory as it was, and
above DETL FREE it takes the bytes that stand there: from the scratchpad, and from the home where it is LD.ACQ, or where its
L1 has no copy of the granule and shows no store; FLAG.SET of a flag that has not arrived sets its bit and enters
it in ORDER behind those that have, and one that has arrived changes nothing; TRIG adds to, or sets, the counter's 4
bytes; CLEAN and INVL change no byte (R208, R210, R213, R230, R232, R257, R263). -/
def Obligations.AccessesPerformTheirGranule : Prop :=
  ∀ (s : State) (a : Access), s.memOk = true → s.flight? s.arg.id = some a → mayPerform s a = true →
    s.arg.val ∈ a.openTodo s → s.arg.val < 2 ^ 56 → homeNewest s s.arg.val → NoPeer s →
    let g := s.arg.val
    let ev : Instr := .memoryAccessPerform
    (∀ data, a.kind = .store data → ∃ t, Acts ev s t ∧ didGranule t a g ∧
      (∀ x, t.byteAt x = if a.spad = false ∧ x / 64 = g then (storeByte a data x).getD (s.byteAt x) else s.byteAt x) ∧
      ∀ x, t.spadAt x = if a.spad = true ∧ x / 64 = g then (storeByte a data x).getD (s.spadAt x) else s.spadAt x) ∧
    (a.kind = .load → ∃ t, Acts ev s t ∧ didGranule t a g ∧ (∀ x, t.byteAt x = s.byteAt x) ∧
      (∀ x, t.spadAt x = s.spadAt x) ∧
      (a.spad = true → a.detl ≠ 0 → ∃ f, t.flight? a.id = some f ∧
        f.data = List.zipWith (fun x old => if x / 64 = g then s.spadAt x else old) a.cells a.data) ∧
      let noCopy := (∀ f ∈ s.flights, f.l1 = none) ∧
        ∀ c, s.anyCtx? a.who = some c → ∀ x ∈ s.l1, x.at (l1Place s c) = true → x.granule ≠ g
      (a.spad = false → a.detl ≠ 0 → a.acq ≠ none ∨ noCopy → ∃ f, t.flight? a.id = some f ∧
        f.data = List.zipWith (fun x old => if x / 64 = g then s.byteAt x else old) a.cells a.data)) ∧
    (∀ i, a.kind = .flagSet i → i < 64 → ∃ t, Acts ev s t ∧ didGranule t a g ∧
      (∀ x, x / 64 ≠ g → t.byteAt x = s.byteAt x) ∧
      let old := leAt (granuleBytes s g) 0 8
      let order := leAt (granuleBytes s g) 16 48
      let k := ((List.range 64).filter old.testBit).length
      leAt (granuleBytes t g) 0 8 = old ||| 2 ^ i ∧
        leAt (granuleBytes t g) 16 48 =
          (if old.testBit i then order else order - order / 2 ^ (6 * k) % 64 * 2 ^ (6 * k) + i * 2 ^ (6 * k))) ∧
    (∀ rst v pa l, a.kind = .trig rst v → a.cells = pa :: l → pa / 64 = g → pa % 4 = 0 → pa < 2 ^ 63 →
      ∃ t, performAccess s a g = t ∧ (rst = false → Acts ev s t) ∧
        t.mem.le pa 4 = (if rst then v.toNat else (s.mem.le pa 4 + v.toNat) % 2 ^ 32) ∧
        ∀ x, x < pa ∨ pa + 4 ≤ x → t.byteAt x = s.byteAt x) ∧
    (a.kind = .invl ∨ (∃ m, a.kind = .clean m) → ∃ t, Acts ev s t ∧ didGranule t a g ∧
      (∀ x, t.byteAt x = s.byteAt x) ∧ ∀ x, t.spadAt x = s.spadAt x)

/-- HOME_ATOMIC_PERFORM applies an atomic that may be performed at its home to the aligned word that it names: the word
takes the new value, the old one is what an AMO will return, the flags go to the gang's remote flag set, and no other byte
changes. LOAD_RETURN then writes the register, a scalar one in its extension, of a vector register the bytes that VLD names
and no others, or its sidecar, and releases OCL; it writes nothing where the context has exited. STORE_ACKNOWLEDGE releases
OCS; END_MARKER_RECEIPT raises the slice's count for the marker's die by one once nothing that goes before the marker is on
its way (the model's reading of what does: log 111) (R208, R209, R211, R215, R216, R269). -/
def Obligations.AtomicsPerformAndAccessesReturn : Prop :=
  (∀ (s : State) (a : Access) (x : Atom) (pa : Nat) (l : List Nat), s.memOk = true → s.flight? s.arg.id = some a → a.kind = .atom x →
    a.place = .home → mayPerform s a = true → a.todo = [pa / 64] → a.cells = pa :: l → pa % x.ty.bytes = 0 →
    pa < 2 ^ 63 → homeNewest s (pa / 64) →
    let old := s.mem.le pa x.ty.bytes
    ∃ t, Acts .homeAtomicPerform s t ∧ t.mem.le pa x.ty.bytes = (x.apply old).1 % 2 ^ (8 * x.ty.bytes) ∧
      (∀ y, y < pa ∨ pa + x.ty.bytes ≤ y → t.byteAt y = s.byteAt y) ∧ (∀ y, t.spadAt y = s.spadAt y) ∧
      (∃ f, t.flight? a.id = some f ∧ f.todo = [] ∧ ofBytes f.data = old) ∧
      (t.gang? a.who.gang).map Gang.rflags = (s.gang? a.who.gang).map fun g => g.rflags ||| (x.apply old).2) ∧
  (∀ (s : State) (a : Access) (c : Ctx), s.flight? s.arg.id = some a → a.todo = [] → s.ctx? a.who = some c →
    (a.cls = .l → ∃ t, Acts .loadReturn s t ∧ t.flight? a.id = none ∧ t.mem = s.mem ∧ t.spad = s.spad ∧
      ∃ c', t.ctx? a.who = some c' ∧ c'.ocl = c.ocl - 1 ∧ c'.ocs = c.ocs ∧ c'.p = c.p ∧ c'.pc = c.pc ∧
        (c.status = .exited → c'.s = c.s ∧ c'.v = c.v) ∧
        (∀ r n e, c.status ≠ .exited → a.dest = .scalar r n e →
          c'.s = c.s.set r.val (extendBytes e n (ofBytes a.data)) r.isLt ∧ c'.v = c.v) ∧
        (∀ r offs, c.status ≠ .exited → a.dest = .vector r offs → offs.Nodup → a.data.length = offs.length →
          (∀ o ∈ offs, o < 2048) → c'.s = c.s ∧ (c'.v.get r).side = (c.v.get r).side ∧ (∀ x, x ≠ r → c'.v.get x = c.v.get x) ∧
          ∀ j, j < 2048 → (c'.v.get r).elems.extractLsb' (8 * j) 8 =
            (((offs.zip a.data).find? fun p => p.1 == j).map Prod.snd).getD ((c.v.get r).elems.extractLsb' (8 * j) 8)) ∧
        ∀ r, c.status ≠ .exited → a.dest = .sidecar r →
          c'.s = c.s ∧ (c'.v.get r).side = BitVec.ofNat 1024 (ofBytes a.data) ∧ (c'.v.get r).elems = (c.v.get r).elems ∧
          ∀ x, x ≠ r → c'.v.get x = c.v.get x) ∧
    (a.cls = .s → ∃ t, Acts .storeAcknowledge s t ∧ t.flight? a.id = none ∧ t.mem = s.mem ∧ t.spad = s.spad ∧
      ∃ c', t.ctx? a.who = some c' ∧ c' = { c with ocs := c.ocs - 1 })) ∧
  ∀ (s : State) (m : Marker), s.clocks.markers.find? (fun m => m.id == s.arg.id && m.slice == s.arg.val) = some m →
    behindMarker s m = false →
    Acts .endMarkerReceipt s { s with clocks := { s.clocks with
      done := updateAt m.slice (updateAt m.die fun e => e + 1) s.clocks.done
      markers := s.clocks.markers.erase m } }

namespace Sys2Proof.Claim
open Sys2Proof.Machine

/-- The bundle of the slot blocks on why: the context, which was ready, leaves its core, and its pc stays at the bundle. No
register and no byte of memory changes. -/
def Blocks (i : Instr) (s : State) (why : Block) : Prop :=
  ∃ t, exec i s = .next t ∧ t.bun.status = .blocked ∧ t.ctx.pc = s.src.pc ∧ t.ctx.running = false ∧
    (s.ctx.status = .ready → t.ctx.status = .blocked [why]) ∧ t.ctx.s = s.ctx.s ∧ t.ctx.p = s.ctx.p ∧ t.mem = s.mem ∧
    t.spad = s.spad

/-- The slot is done, and among the context's registers it has changed the scalar registers to r alone; memory stands. -/
def DoneWith (i : Instr) (s : State) (r : Vector Word 64) (t : State) : Prop :=
  Does i s t ∧ t.ctx.s = r ∧ t.ctx.p = s.ctx.p ∧ t.ctx.v = s.ctx.v ∧ t.ctx.m = s.ctx.m ∧ t.ctx.t = s.ctx.t ∧
    t.ctx.pc = s.src.pc + 16 ∧ t.mem = s.mem ∧ t.spad = s.spad

/-- The barrier of a gang. -/
def barAt (s : State) (g : Nat) (b : Fin 16) : Option Barrier := (s.gang? g).map fun x => x.barriers.get b

/-- What a barrier with phase, E and arrivals becomes when its arrival count is a under expected count e: complete, it
enters its next phase. -/
def settles (k : Barrier) (e a : Nat) (k' : Barrier) : Prop :=
  k'.e = e ∧ if 0 < e ∧ a = e then k'.phase = k.phase + 1 ∧ k'.arrivals = 0 else k'.phase = k.phase ∧ k'.arrivals = a

end Sys2Proof.Claim

/-- NOP changes nothing but pc. YIELD leaves the core where another context of it is ready. EXIT ends the context: it is
dropped from every barrier and no register or memory changes. WAIT goes on exactly when each count, as it stood before the
bundle, is at most its limit, and blocks otherwise (R18, R118, R120, R121, R122). -/
def Sys2Proof.Claim.NopYieldExitAndWait : Prop :=
  ∀ s : State,
    (Issues .nop s → Does .nop s (begun s)) ∧
    (Issues .yield s → Does .yield s
      (if ∃ c ∈ s.others, c.live = true ∧ c.status = .ready ∧ c.lc = s.ctx.lc ∧ c.lcore = s.ctx.lcore then
        (begun s).withCtx fun c => { c with running := false } else begun s)) ∧
    (Issues .exit s → s.ctx.live = true → ∃ t, Does .exit s t ∧ t.ctx.status = .exited ∧ t.ctx.running = false ∧
      (∀ b : Fin 16, (t.ctx.bar.get b).dropped = true) ∧ t.ctx.s = s.ctx.s ∧ t.ctx.p = s.ctx.p ∧ t.ctx.ocl = s.ctx.ocl ∧
      t.ctx.ocs = s.ctx.ocs ∧ t.flights = s.flights ∧ t.mem = s.mem ∧ t.spad = s.spad) ∧
    ∀ (ld st : Fin 128) (cp : Fin 64) (tl : Fin 32), Issues (.wait ld st cp tl) s →
      let met := s.src.ocl ≤ ld.val ∧ s.src.ocs ≤ st.val ∧ s.src.occ ≤ cp.val ∧ s.src.oct ≤ tl.val
      (met → Does (.wait ld st cp tl) s (begun s)) ∧
      (¬met → Blocks (.wait ld st cp tl) s (.counts ld.val st.val cp.val tl.val))

/-- FENCE without P, of a scope below sys, completes at issue and changes no register and no memory; wider than ctx it puts
the accesses of its own bundle behind it. FENCE.sys blocks its bundle until every live furrow has acknowledged it, and a press fence counts
once, and blocks until its round is reached and no closed press window is left to apply (R224). -/
def Sys2Proof.Claim.FencesOrderAndWait : Prop :=
  ∀ (scope : Fin 8) (press : Bool) (s : State), Issues (.fence scope press) s →
    let i : Instr := .fence scope press
    let here (f : Access) : Bool := f.who == s.src.id && f.bundle == s.src.bundles
    (findProg (begun s) = none → scope.val < 4 → press = false → ∃ t, DoneWith i s s.ctx.s t ∧
      t.ctx.fenceNo = s.ctx.fenceNo + (if scope.val = 0 then 0 else 1) ∧
      t.flights = s.flights.map fun f =>
        if here f = true ∧ scope.val ≠ 0 then { f with fenceNo := s.ctx.fenceNo + 1 } else f) ∧
    (findProg (begun s) = none → scope.val = 4 → press = false → Blocks i s .fenceSys) ∧
    (findProg (begun s) = none → press = true → ∃ t, exec i s = .next t ∧ t.ctx.fences = s.ctx.fences + 1 ∧
      t.ctx.s = s.ctx.s ∧ t.mem = s.mem ∧ t.spad = s.spad ∧
      (t.bun.status = .done ∨ t.bun.status = .blocked ∧ t.ctx.pc = s.src.pc)) ∧
    ∀ p, findProg (begun s) = some p →
      let reached := ∀ g, s.gang? s.src.id.gang = some g → p.round ≤ g.fenceRounds ∧ g.windows = []
      ((press = true → reached) → (scope.val = 4 → p.met = true) → ∃ t, DoneWith i s s.ctx.s t ∧
        t.ctx.fences = s.ctx.fences) ∧
      (press = true → ¬reached → Blocks i s (.pressFence p.round)) ∧
      (press = false → scope.val = 4 → p.met = false → Blocks i s .fenceSys)

/-- BAR.ARRIVE and BAR.DROP. A dropped context, and an arrival where the context has already arrived in the phase, take
BARRIER_ERROR with the barrier in XINFO. An arrival is counted; a drop lowers E and withdraws the context's arrival; where
the arrivals then reach E > 0 the phase completes: the next begins with no arrival and the same E (R80, R226). An arrival
stalls while its die's epoch runs too far ahead of a slice (the model's choice, log 95). -/
def Sys2Proof.Claim.BarriersCountArrivalsAndDrops : Prop :=
  ∀ (b : Fin 16) (s : State) (g : Gang), s.gang? s.ctx.id.gang = some g → s.ctx.live = true →
    let k := g.barriers.get b
    let me := s.ctx.bar.get b
    let err : TrapInfo := { cause := .barrierError, xinfo := b.val }
    let others (t : State) : Prop := (∀ c, c ≠ b → barAt t s.ctx.id.gang c = some (g.barriers.get c)) ∧
      ∀ c, c ≠ b → t.ctx.bar.get c = s.ctx.bar.get c
    (Issues (.barArrive b) s → epochHeld s s.src.pdie = true →
      exec (.barArrive b) s = .next (s.ended .stalled)) ∧
    (Issues (.barArrive b) s → epochHeld s s.src.pdie = false →
      ((me.dropped = true ∨ me.arrph = some k.phase) → Traps (.barArrive b) s err) ∧
      (me.dropped = false → me.arrph ≠ some k.phase → ∃ t k', DoneWith (.barArrive b) s s.ctx.s t ∧
        barAt t s.ctx.id.gang b = some k' ∧ settles k k.e (k.arrivals + 1) k' ∧
        (t.ctx.bar.get b).arrph = some k.phase ∧ (t.ctx.bar.get b).dropped = false ∧ others t)) ∧
    (Issues (.barDrop b) s →
      (me.dropped = true → Traps (.barDrop b) s err) ∧
      (me.dropped = false → ∃ t k', DoneWith (.barDrop b) s s.ctx.s t ∧ barAt t s.ctx.id.gang b = some k' ∧
        settles k (k.e - 1) (if me.arrph = some k.phase then k.arrivals - 1 else k.arrivals) k' ∧
        (t.ctx.bar.get b).dropped = true ∧ (t.ctx.bar.get b).arrph = me.arrph ∧ others t))

/-- BAR.WAIT and BAR.TWAIT, issued without an arrival to make (ARR = 0, or a reissue). A context that has dropped or has
never arrived takes BARRIER_ERROR. Where its phase is over and no press window waits, the wait returns (BAR.TWAIT with 0
where the phase completed no later than the expiry cycle); else it blocks, but a timed wait with L = 0, or whose expiry
cycle has passed, or whose phase completed later, writes 1. With ARR = 1 at first issue the arrival is made and counted
whether or not the slot then blocks (R226, R228). -/
def Sys2Proof.Claim.BarrierWaitsReturnWhenThePhaseIsOver : Prop :=
  ∀ (b : Fin 16) (arr : Bool) (d a : SReg) (s : State) (g : Gang), s.gang? s.ctx.id.gang = some g → s.ctx.id = s.src.id →
    let k := g.barriers.get b
    let me := s.ctx.bar.get b
    let err : TrapInfo := { cause := .barrierError, xinfo := b.val }
    let wait : Instr := .barWait b arr
    let twait : Instr := .barTwait d a b arr
    let limit := (rdS s a).toNat
    let expiry := match findProg (begun s) with
      | some p => p.expiry.getD s.time
      | none => s.time + limit
    let no := me.dropped = true ∨ me.arrph = none
    let past := me.arrph ≠ some k.phase
    let result (v : Word) : Vector Word 64 := (wrS (begun s) d v).ctx.s
    ((arr = false ∨ (findProg (begun s)).isSome = true) →
      (Issues wait s → (no → Traps wait s err) ∧
        (¬no → past → g.windows = [] → ∃ t, DoneWith wait s s.ctx.s t) ∧
        (¬no → ¬(past ∧ g.windows = []) → Blocks wait s (.barrier b.val false))) ∧
      (Issues twait s → (no → Traps twait s err) ∧
        (¬no → past → k.completedAt ≤ expiry → g.windows = [] → ∃ t, DoneWith twait s (result 0) t) ∧
        (¬no → past → k.completedAt ≤ expiry → g.windows ≠ [] → Blocks twait s (.barrier b.val true)) ∧
        (¬no → past → expiry < k.completedAt → ∃ t, DoneWith twait s (result 1) t) ∧
        (¬no → ¬past → (limit = 0 ∨ expiry < s.time) → ∃ t, DoneWith twait s (result 1) t) ∧
        (¬no → ¬past → limit ≠ 0 → s.time ≤ expiry → Blocks twait s (.barrier b.val true)))) ∧
    (findProg (begun s) = none → me.dropped = false → me.arrph ≠ some k.phase → epochHeld s s.src.pdie = false →
      Issues (.barWait b true) s → ∃ t k', exec (.barWait b true) s = .next t ∧ barAt t s.ctx.id.gang b = some k' ∧
        settles k k.e (k.arrivals + 1) k' ∧ t.ctx.s = s.ctx.s ∧ t.mem = s.mem ∧ t.spad = s.spad ∧
        ((k.e = k.arrivals + 1 ∧ g.windows = [] ∧ pressBusy s s.ctx.id.gang = false) → t.bun.status = .done) ∧
        (k.e ≠ k.arrivals + 1 → t.bun.status = .blocked ∧ t.ctx.pc = s.src.pc))

namespace Sys2Proof.Claim
open Sys2Proof.Machine

/-- Whether FLAG.WAIT.ANY may choose flag i: it is in the mask and has arrived, and it is local where any such flag is
(08 R230). -/
def mayChoose (arrived here mask i : Nat) : Prop :=
  i < 64 ∧ arrived.testBit i = true ∧ mask.testBit i = true ∧
    (here.testBit i = true ∨ ∀ j, j < 64 → ¬(arrived.testBit j = true ∧ mask.testBit j = true ∧ here.testBit j = true))

end Sys2Proof.Claim

/-- FLAG.SET and TRIG go in flight as releases at SCOPE on their object. A flag wait reads its 64-byte object, and traps with
ALIGN at an address that is no multiple of 64: a mask of 0 returns at once; FLAG.WAIT returns when every flag of the mask has arrived, FLAG.WAIT.ANY when one has, with the flag that
its rule chooses: local before others, the earliest in ORDER. Otherwise the slot blocks, and a timed wait with L = 0 writes
its timeout value (R207, R229, R230, R231). -/
def Obligations.FlagsAndTriggers : Prop :=
  ∀ (d a b : SReg) (timed rst : Bool) (scope : Fin 8) (s : State),
    let addr := (rdS s a).toNat
    let mask := (rdS s b).toNat
    let limit := (rdS s d).toNat
    let align : TrapInfo := { cause := .align, faddr := addr % 2 ^ 56 }
    let ones : Word := BitVec.allOnes 64
    let result (v : Word) : Vector Word 64 := (wrS (begun s) d v).ctx.s
    (Issues (.flagSet a b scope) s → (addr % 64 ≠ 0 → Traps (.flagSet a b scope) s align) ∧
      ∀ l, addr % 64 = 0 → Ready (begun s) false .write .s (byteRange addr 64) l →
        Launches (.flagSet a b scope) s fun f => f.kind = .flagSet (mask % 64) ∧ f.cls = .s ∧ f.rel = some scope ∧
          f.cells = l.map Pa.pa) ∧
    (Issues (.trig a b rst scope) s → (addr % 4 ≠ 0 → Traps (.trig a b rst scope) s align) ∧
      ∀ l, addr % 4 = 0 → Ready (begun s) false .write .s (byteRange addr 4) l →
        Launches (.trig a b rst scope) s fun f => f.kind = .trig rst ((rdS s b).setWidth 32) ∧ f.cls = .s ∧
          f.rel = some scope ∧ f.cells = l.map Pa.pa) ∧
    (Issues (.flagWait d a b timed scope) s → addr % 64 ≠ 0 → Traps (.flagWait d a b timed scope) s align) ∧
    (Issues (.flagWaitAny d a b timed scope) s → addr % 64 ≠ 0 → Traps (.flagWaitAny d a b timed scope) s align) ∧
    ∀ (p : Pa) (l : List Pa), addr % 64 = 0 → (resolve (begun s) false .read (byteRange addr 64)).1 = .ok (p :: l) →
      readHeld (begun s) false (((p :: l).map Pa.pa).take 16) true = false → s.hbmNew = [] →
      findProg (begun s) = none →
      let obj := granuleBytes s (p.pa / 64)
      let arrived := leAt obj 0 8
      let order := leAt obj 16 48
      let all := arrived &&& mask = mask
      let any := mask = 0 ∨ arrived &&& mask ≠ 0
      (Issues (.flagWait d a b timed scope) s →
        (all → ∃ t, DoneWith (.flagWait d a b timed scope) s (if timed then result 0 else s.ctx.s) t) ∧
        (¬all → timed = true → limit = 0 → ∃ t, DoneWith (.flagWait d a b timed scope) s (result 1) t) ∧
        (¬all → (timed = false ∨ limit ≠ 0) →
          Blocks (.flagWait d a b timed scope) s (.flag p.pa mask false timed))) ∧
      (Issues (.flagWaitAny d a b timed scope) s →
        (mask = 0 → ∃ t, DoneWith (.flagWaitAny d a b timed scope) s (result ones) t) ∧
        (arrived &&& mask ≠ 0 → ∃ t i, DoneWith (.flagWaitAny d a b timed scope) s (result (BitVec.ofNat 64 i)) t ∧
          mayChoose arrived (leAt obj 8 8) mask i ∧
          (flagConsistent arrived order = true → ∃ k, k < 64 ∧ order / 2 ^ (6 * k) % 64 = i ∧
            ∀ k', k' < k → ¬mayChoose arrived (leAt obj 8 8) mask (order / 2 ^ (6 * k') % 64))) ∧
        (¬any → timed = true → limit = 0 → ∃ t, DoneWith (.flagWaitAny d a b timed scope) s (result ones) t) ∧
        (¬any → (timed = false ∨ limit ≠ 0) →
          Blocks (.flagWaitAny d a b timed scope) s (.flag p.pa mask true timed)))

namespace Sys2Proof.Claim
open Sys2Proof.Machine

/-- The token that a field names, as it stood before the bundle (09 R245). -/
def depOfField (s : State) (x : Nat × QReg) : Dep :=
  if (rdQ s x.2).done then .known x.1 (rdQ s x.2).status else .waiting x.1 x.2.val (rdQ s x.2).gen

/-- The tokens that fields name: one equal to the token produced names none (09 R233, R247). -/
def depsOf (s : State) (q : QReg) (l : List (Nat × QReg)) : List Dep :=
  (l.filter fun x => x.2 != q).map (depOfField s)

/-- The tokens that an engine instruction consumes: C0 and C1 equal to QP name none, and C2 names the token that it
holds (09 R233). -/
def engineDeps (s : State) (q c0 c1 : QReg) (c2 : Option QReg) : List Dep :=
  depsOf s q [(0, c0), (1, c1)] ++ (c2.map fun c => depOfField s (2, c)).toList

/-- No register but token q, and no memory, changes; q is incomplete. -/
def OnlyToken (s t : State) (q : QReg) : Prop :=
  (t.ctx.q.get q).done = false ∧ (∀ r, r ≠ q → t.ctx.q.get r = s.ctx.q.get r) ∧ t.ctx.s = s.ctx.s ∧ t.ctx.p = s.ctx.p ∧
    t.ctx.v = s.ctx.v ∧ t.ctx.t = s.ctx.t ∧ t.ctx.pc = s.src.pc + 16 ∧ t.mem = s.mem ∧ t.spad = s.spad

/-- An engine instruction: the token produced must be complete, or it takes TOKEN_ERROR; a misaligned block takes ALIGN; a
block of another kind ILLEGAL_INSTR; a full queue blocks; else the command that the block describes is queued with its
consumed tokens, counts in OCC, and its token is incomplete. The queue is that of the engine of the physical cluster or die
(log 97). -/
def EngineAt (i : Instr) (k : CmdKind) (q : QReg) (a : SReg) (deps : List Dep) (s : State) : Prop :=
  let addr := (rdS s a).toNat
  Issues i s → s.hbmNew = [] →
    ((rdQ s q).done = false → Traps i s { cause := .tokenError, xinfo := q.val }) ∧
    ((rdQ s q).done = true →
      (addr % 16 ≠ 0 → Traps i s { cause := .align, faddr := addr % 2 ^ 56 }) ∧
      (∀ b s1, readRecord (begun s) false addr 16 k.size = .ok b s1 → leAt b 0 1 ≠ k.code →
        Traps i s { cause := .illegalInstr, xinfo := s.bun.word }) ∧
      ∀ body banks s1, readBlock (begun s) k addr = .ok body banks s1 → s.ctx.occ < 32 →
        banksBusy s1 s.src.lc banks = false →
        let unit := s.src.engineUnit body.engine
        (queueFull s1 body.engine unit = true → Blocks i s (.engineQueue body.engine unit)) ∧
        (queueFull s1 body.engine unit = false → ∃ t c, Does i s t ∧ OnlyToken s t q ∧ c ∈ t.cmds ∧
          t.cmds.map Cmd.id = s.cmds.map Cmd.id ++ [c.id] ∧ c.body = body ∧ c.banks = banks ∧ c.who = s.src.id ∧ c.q = q ∧ c.gen = (t.ctx.q.get q).gen ∧
          c.started = false ∧ c.unit = unit ∧ c.place = (if body.engine = 2 then s.src.ldie else s.src.lc) ∧ c.deps = deps ∧ t.ctx.occ = s.ctx.occ + 1))

/-- The token of a context is complete with a status. -/
def TokenIs (t : State) (w : CtxId) (q : QReg) (st : TokStatus) : Prop :=
  ∃ c, t.ctx? w = some c ∧ (c.q.get q).done = true ∧ (c.q.get q).status = st

/-- The token of a context is incomplete, owed by its producer gen. -/
def TokenOwed (s : State) (w : CtxId) (q : QReg) (gen : Nat) : Prop :=
  ∃ c, s.ctx? w = some c ∧ (c.q.get q).done = false ∧ (c.q.get q).gen = gen

/-- A byte of global memory, or of the scratchpad. -/
def byteOf (s : State) (sp : Bool) (x : Nat) : Byte := if sp then s.spadAt x else s.byteAt x

/-- Furrows carry every access: no quiesce is under way, no furrow is dead, and no request is retained (19 R399, R403,
R406). -/
def Carried (s : State) : Prop :=
  s.fleet.step = .idle ∧ s.fleet.dead = [] ∧ (∀ f ∈ s.flights, f.replay = false) ∧ ∀ t ∈ s.tileOps, t.replay = false

/-- Only the destinations of moves change, and where no destination is a source or another destination, each takes its
source's value. -/
def Moved (s t : State) (ssp dsp : Bool) (ms : List Move) : Prop :=
  let dst := ms.flatMap fun m => m.dst.map Pa.pa
  let src := ms.flatMap fun m => m.src.map Pa.pa
  (∀ x, x ∉ dst → byteOf t dsp x = byteOf s dsp x) ∧ (∀ x, byteOf t (!dsp) x = byteOf s (!dsp) x) ∧
    (dst.Nodup → (ssp = dsp → ∀ x ∈ dst, x ∉ src) →
      ∀ m ∈ ms, ∀ p ∈ m.src.zip m.dst, byteOf t dsp p.2.pa = byteOf s ssp p.1.pa)

/-- The last turn of a command of moves: where its accesses all translate, it makes its moves and the token completes OK;
where an access fails, the token completes FAULT with its cause and address, and no byte changes outside the destinations of
the moves that the command may reach. -/
def MovesAs (s : State) (k : Cmd) (ssp dsp : Bool) (ms reach : List Move) (fault : Option TrapInfo) : Prop :=
  ∃ t, exec .engineCommandComplete s = .next t ∧ t.cmd? k.id = none ∧
    (∀ f, fault = some f → TokenIs t k.who k.q (.fault f.cause.code f.faddr) ∧
      (∀ x, (x ∉ reach.flatMap fun m => m.dst.map Pa.pa) → byteOf t dsp x = byteOf s dsp x) ∧
      ∀ x, byteOf t (!dsp) x = byteOf s (!dsp) x) ∧
    (fault = none → TokenIs t k.who k.q .ok ∧ Moved s t ssp dsp ms)

end Sys2Proof.Claim

/-- CP, GATHER, SCATTER, COLL.RESHARD and COMBINE at issue (R80, R233, R234, R235, R245). -/
def Sys2Proof.Claim.EngineInstructionsQueueTheirCommand : Prop :=
  ∀ (q : QReg) (a : SReg) (c0 c1 : QReg) (c2 : Option QReg) (s : State),
    EngineAt (.cp q a c0 c1 c2) .copy q a (engineDeps s q c0 c1 c2) s ∧
    EngineAt (.gather q a c0 c1 c2) .gather q a (engineDeps s q c0 c1 c2) s ∧
    EngineAt (.scatter q a c0 c1 c2) .scatter q a (engineDeps s q c0 c1 c2) s ∧
    EngineAt (.collReshard q a c0 c1 c2) .reshard q a (engineDeps s q c0 c1 c2) s ∧
    EngineAt (.combine q a c0 c1 c2) .combine q a (engineDeps s q c0 c1 c2) s

/-- TOKWAIT returns when the token is complete, with OK = 1 takes TOKEN_ERROR at another status, and blocks while it is
incomplete. TOKTEST writes the token's state; TOKJOIN makes its token incomplete and consumes the tokens that it names. ARM
registers the command of its block on the counter, or queues it at once where (c - T) mod 2^32 < 2^31 (R231, R247,
R248). -/
def Sys2Proof.Claim.TokensAndArm : Prop :=
  ∀ (q qa qb qc : QReg) (d a b : SReg) (ok : Bool) (s : State),
    (Issues (.tokwait qa ok) s →
      ((rdQ s qa).done = true → (ok = false ∨ (rdQ s qa).status = .ok) → ∃ t, DoneWith (.tokwait qa ok) s s.ctx.s t) ∧
      ((rdQ s qa).done = true → ok = true → (rdQ s qa).status ≠ .ok →
        Traps (.tokwait qa ok) s { cause := .tokenError, xinfo := qa.val }) ∧
      ((rdQ s qa).done = false → Blocks (.tokwait qa ok) s (.token qa.val))) ∧
    (Issues (.toktest d qa) s → ∃ t v, DoneWith (.toktest d qa) s (wrS (begun s) d (BitVec.ofNat 64 v)).ctx.s t ∧
      ((rdQ s qa).done = false → v = 0) ∧
      ((rdQ s qa).done = true → (rdQ s qa).status = .ok → v = 1) ∧
      ((rdQ s qa).done = true → (rdQ s qa).status = .cancelled → v = 2) ∧
      ∀ c x, (rdQ s qa).done = true → (rdQ s qa).status = .fault c x → c < 64 → x < 2 ^ 56 →
        v = 3 + c * 4 + x * 256) ∧
    (Issues (.tokjoin q qa qb qc) s →
      ((rdQ s q).done = false → Traps (.tokjoin q qa qb qc) s { cause := .tokenError, xinfo := q.val }) ∧
      ((rdQ s q).done = true → ∃ t j, Does (.tokjoin q qa qb qc) s t ∧ OnlyToken s t q ∧ t.joins = s.joins ++ [j] ∧
        j.who = s.src.id ∧ j.q = q ∧ j.gen = (t.ctx.q.get q).gen ∧ j.deps = depsOf s q [(0, qa), (1, qb), (2, qc)])) ∧
    (Issues (.arm d a b q) s →
      let ctr := (rdS s a).toNat
      let blk := (rdS s d).toNat
      ((rdQ s q).done = false → Traps (.arm d a b q) s { cause := .tokenError, xinfo := q.val }) ∧
      ((rdQ s q).done = true → blk % 16 ≠ 0 → Traps (.arm d a b q) s { cause := .align, faddr := blk % 2 ^ 56 }) ∧
      ((rdQ s q).done = true → blk % 16 = 0 → ctr % 4 ≠ 0 →
        Traps (.arm d a b q) s { cause := .align, faddr := ctr % 2 ^ 56 }) ∧
      ∀ p l s1 hdr s2 k body banks s3, (rdQ s q).done = true → blk % 16 = 0 → ctr % 4 = 0 → s.hbmNew = [] →
        armFaults (begun s) ctr blk (armSize (begun s) blk) = (.ok (p :: l), s1) →
        readRecord s1 false blk 16 16 = .ok hdr s2 → armKind (leAt hdr 0 1) = some k →
        readBlock s1 k blk = .ok body banks s3 → s.ctx.occ < 32 → banksBusy s3 s.src.lc banks = false →
        (s3.armed.filter fun x => pressSlice s3 x.counter == pressSlice s3 p.pa).length < 64 →
        readHeld s3 false [p.pa] true = false →
        let threshold : BitVec 32 := (rdS s b).setWidth 32
        ∃ t c, Does (.arm d a b q) s t ∧ OnlyToken s t q ∧ t.ctx.occ = s.ctx.occ + 1 ∧ c.body = body ∧
          c.who = s.src.id ∧ c.q = q ∧ c.deps = [] ∧
          if (BitVec.ofNat 32 (s.mem.le p.pa 4) - threshold).toNat < 2 ^ 31 then c ∈ t.cmds
          else ∃ x ∈ t.armed, x.cmd = c ∧ x.counter = p.pa ∧ x.threshold = threshold)

/-- ENGINE_COMMAND_START starts a command whose consumed tokens all completed OK, once the accesses that its instruction
releases to it have been performed and not before, and cancels one that consumed another status. In its last turn a running
copy, gather or scatter moves every byte of its block that it has not yet moved and completes; in an earlier turn of a copy,
which the event names (log 20), the bytes up to that turn's end move and the command stays. TOKJOIN_COMPLETE completes its token: FAULT
with the lowest-numbered faulting field's cause and address, else CANCELLED, else OK (R235 to R239, R248, R264). -/
def Sys2Proof.Claim.CommandsStartMoveAndComplete : Prop :=
  (∀ (s : State) (k : Cmd), s.cmd? s.arg.id = some k → k.started = false → k.cancel = false →
    (∀ d ∈ k.deps, ∃ f st, d = .known f st) →
    ((∀ d ∈ k.deps, ∃ f, d = .known f .ok) → k.released s = false → Acts .engineCommandStart s s) ∧
    ((∀ d ∈ k.deps, ∃ f, d = .known f .ok) → k.released s = true → ∃ t, Acts .engineCommandStart s t ∧
      t.cmd? k.id = some { k with started := true } ∧ t.ctx = s.ctx ∧ t.others = s.others ∧ t.mem = s.mem ∧
      t.spad = s.spad) ∧
    ((∃ d ∈ k.deps, ∀ f, d ≠ .known f .ok) → TokenOwed s k.who k.q k.gen → ∃ t, Acts .engineCommandStart s t ∧
      t.cmd? k.id = none ∧ TokenIs t k.who k.q .cancelled ∧ t.mem = s.mem ∧ t.spad = s.spad)) ∧
  (∀ (s : State) (k : Cmd), s.memOk = true → s.hbmNew = [] → Carried s → s.cmd? s.arg.id = some k →
    k.started = true → TokenOwed s k.who k.q k.gen →
    (∀ c, k.body = .copy c → s.arg.val = 0 →
      let left := c.part k.stage c.total
      let m := rowMoves k c.ssp c.dsp left s
      MovesAs s k c.ssp c.dsp m.1 (reachable k c.ssp c.dsp left m.2.2).1 m.2.1) ∧
    (∀ c, k.body = .copy c → c.turnEnd k.stage s.arg.val ≠ c.total →
      let m := rowMoves k c.ssp c.dsp (c.part k.stage (c.turnEnd k.stage s.arg.val)) s
      m.2.1 = none → ∃ t, Acts .engineCommandComplete s t ∧
        t.cmd? k.id = some { k with stage := c.turnEnd k.stage s.arg.val } ∧ Moved s t c.ssp c.dsp m.1) ∧
    ∀ g, k.body = .gather g → s.arg.val = 0 →
      let left := (List.range g.count).drop k.stage
      let m := elemMoves k g left s
      MovesAs s k (if g.scatter then g.dnsp else g.bsp) (if g.scatter then g.bsp else g.dnsp) m.1
        (elemReachable k g left m.2.2).1 m.2.1) ∧
  ∀ (s : State) (j : Join), s.joins.find? (fun x => x.id == s.arg.id) = some j →
    (∀ d ∈ j.deps, ∃ f st, d = .known f st) → TokenOwed s j.who j.q j.gen → ∃ t st, Acts .tokjoinComplete s t ∧
      TokenIs t j.who j.q st ∧ t.mem = s.mem ∧ t.spad = s.spad ∧ (∀ x ∈ t.joins, x.id ≠ j.id) ∧
      ((∀ d ∈ j.deps, ∃ f, d = .known f .ok) → st = .ok) ∧
      ((∃ f, Dep.known f .cancelled ∈ j.deps) → (∀ f c x, Dep.known f (.fault c x) ∉ j.deps) → st = .cancelled) ∧
      ∀ l r f c x, j.deps = l ++ Dep.known f (.fault c x) :: r → (∀ f c x, Dep.known f (.fault c x) ∉ l) → st = .fault c x

/-- RESHARD_DIGEST_EXCHANGE lets the ranks of one collective go on when their digests agree, and otherwise takes every one
of them away with no byte written; RESHARD_CHUNK_READ with TRIGBASE 0 reads the whole source shard. COMBINE_FOLD folds the
staged contributions of the next element in source order into it and empties its staging; an element with none is
unchanged. A COMBINE that has folded every element completes OK (R242, R243, R244). -/
def Sys2Proof.Claim.ReshardsAndCombinesProceed : Prop :=
  (∀ (s : State) (k : Cmd) (b : ReshardBlock) (l : List Cmd), s.cmd? s.arg.id = some k → k.body = .reshard b →
    k.stage = 0 → s.fleet.step = .idle → localRanks s k 0 = some l →
    let same := s.arg.val = 0 ∧ ∀ c ∈ l, ∃ x, c.body = .reshard x ∧ x.digest = b.digest
    (same → ∃ t, Acts .reshardDigestExchange s t ∧ (∀ c ∈ l, (t.cmd? c.id).map Cmd.stage = some 1) ∧ t.mem = s.mem ∧
      t.ctx = s.ctx) ∧
    (¬same → ∃ t, Acts .reshardDigestExchange s t ∧ (∀ c ∈ l, t.cmd? c.id = none) ∧ t.mem = s.mem ∧ t.spad = s.spad)) ∧
  (∀ (s s1 : State) (k : Cmd) (b : ReshardBlock) (p : List Pa), s.hbmNew = [] → Carried s → s.cmd? s.arg.id = some k →
    s.arg.val = 0 → k.body = .reshard b → k.stage = 1 → k.started = true → k.fault = none →
    leAt b.bytes 0x48 8 = 0 →
    xlateAll k.xl .read (byteRange (leAt b.bytes 0x30 8) (shardBytes b.bytes 0x20)) none s = (.ok p, s1) →
    ∃ t, Acts .reshardChunkRead s t ∧ (t.cmd? k.id).map Cmd.shard = some (k.shard ++ p.map fun x => s.byteAt x.pa) ∧
      (t.cmd? k.id).map Cmd.stage = some 2 ∧ t.mem = s.mem) ∧
  ∀ (s s1 : State) (k : Cmd) (c : CombineBlock), s.memOk = true → s.hbmNew = [] → Carried s → s.cmd? s.arg.id = some k →
    k.body = .combine c → k.started = true → k.fault = none →
    (∀ p, k.stage < c.count → combineDamaged s k c = [] →
      s.arg.sig = [] → xlate s k.xl .combine ((c.addr + k.stage * c.ty.bytes) % 2 ^ 64) = (.ok p, s1) →
      p.pa < 2 ^ 63 →
      let l := (s.fleet.staged.filter fun x => x.addr == p.pa).foldr insertStaged []
      l.Perm (s.fleet.staged.filter fun x => x.addr == p.pa) ∧ l.Pairwise (fun x y => stagedBefore y x = false) ∧
      ∃ t, Acts .combineFold s t ∧ (t.cmd? k.id).map Cmd.stage = some (k.stage + 1) ∧
        t.fleet.staged = s.fleet.staged.filter (fun x => x.addr != p.pa) ∧ (l = [] → t.mem = s.mem) ∧
        (l ≠ [] → t.mem.le p.pa c.ty.bytes =
          (foldStaged c (s.mem.le p.pa c.ty.bytes) l).1 % 2 ^ (8 * c.ty.bytes)) ∧
        ∀ x, x < p.pa ∨ p.pa + c.ty.bytes ≤ x → t.byteAt x = s.byteAt x) ∧
    (k.stage = c.count → TokenOwed s k.who k.q k.gen → ∃ t, Acts .engineCommandComplete s t ∧
      TokenIs t k.who k.q .ok ∧ t.cmd? k.id = none ∧ t.mem = s.mem)

namespace Sys2Proof.Claim
open Sys2Proof.Machine

/-- The offset of the input buffer that a context has after it has committed (09 R250, R251). -/
def nextBuffer (c : Ctx) : Nat :=
  match c.phase with
  | none => 0
  | some f => if c.parity then f.bufa else f.bufb

/-- Whether the n bytes at a scratchpad offset lie in banks of a set (09 R250). -/
def bytesHeld (held : BitVec 48) (off n : Nat) : Prop :=
  ∀ i, i < n → off + i < 0xC00000 ∧ held.getLsbD ((off + i) / 262144) = true

end Sys2Proof.Claim

/-- PHASE.BEGIN opens a phase from a record that keeps its rules, with the bundle behind it as restart point and the
registers as checkpoint; a record that breaks one takes ILLEGAL_INSTR, a misaligned one ALIGN. PHASE.COMMIT stalls while
the context has anything outstanding, blocks until every context of the gang has committed as often, and then writes the
offset of the new input buffer and inverts the parity (R250, R251). -/
def Sys2Proof.Claim.PhasesBeginAndCommit : Prop :=
  ∀ (a d : SReg) (s : State), s.hbmNew = [] →
    let addr := (rdS s a).toNat
    let illegal : TrapInfo := { cause := .illegalInstr, xinfo := s.bun.word }
    (Issues (.phaseBegin a) s → (addr % 16 ≠ 0 → Traps (.phaseBegin a) s { cause := .align, faddr := addr % 2 ^ 56 }) ∧
      ∀ r s1, readRecord (begun s) false addr 16 32 = .ok r s1 →
        let len := leAt r 8 4
        let held := gangBanks s s.src.id.gang s.src.lc
        let keeps := 1 ≤ len ∧ len ≤ 4 * 2 ^ 20 ∧ leAt r 0xC 4 = 0 ∧ leAt r 0x18 8 = 0 ∧
          bytesHeld held (leAt r 0x10 4) len ∧ bytesHeld held (leAt r 0x14 4) len
        (¬keeps → Traps (.phaseBegin a) s illegal) ∧
        (keeps → ∃ t f, DoneWith (.phaseBegin a) s s.ctx.s t ∧ t.ctx.phase = some f ∧ f.src = leAt r 0 8 ∧ f.len = len ∧
          f.bufa = leAt r 0x10 4 ∧ f.bufb = leAt r 0x14 4 ∧ f.restart = s.src.pc + 16 ∧ f.chk.s = s.ctx.s ∧
          f.chk.p = s.ctx.p ∧ f.chk.pass = s.ctx.pass ∧ f.chk.fpm = s.ctx.fpm ∧ f.chk.fxf = s.ctx.fxf ∧
          f.chk.vshape = s.ctx.vshape ∧ f.chk.rbs = s.ctx.rbs ∧ f.chk.rbv = s.ctx.rbv ∧ f.chk.sc = s.ctx.sc)) ∧
    ∀ g, s.gang? s.src.id.gang = some g → s.ctx.id = s.src.id → Issues (.phaseCommit d) s →
      let quiet := s.src.ocl = 0 ∧ s.src.ocs = 0 ∧ s.src.occ = 0 ∧ s.src.oct = 0
      let peers := (s.gangCtx s.src.id.gang).filter fun c => !c.exited
      let result (v : Nat) : Vector Word 64 := (wrS (begun s) d (BitVec.ofNat 64 v)).ctx.s
      (¬quiet → exec (.phaseCommit d) s = .next (s.ended .stalled)) ∧
      (quiet → findProg (begun s) = none → s.ctx.live = true → s.ctx.exited = false → s.ctx.commits = g.commitRounds →
        ((∀ c ∈ peers, c.id = s.ctx.id ∨ g.commitRounds < c.commits) →
          (∀ c ∈ s.others, c.live = true → c.id ≠ s.ctx.id) → ∃ t,
          DoneWith (.phaseCommit d) s (result (nextBuffer s.ctx)) t ∧ t.ctx.phase = none ∧
          t.ctx.parity = (if s.ctx.phase.isSome then !s.ctx.parity else s.ctx.parity) ∧
          t.ctx.commits = s.ctx.commits + 1) ∧
        ((∃ c ∈ s.others, c.live = true ∧ c.exited = false ∧ c.id.gang = s.src.id.gang ∧ c.commits ≤ g.commitRounds) →
          Blocks (.phaseCommit d) s (.commit (s.ctx.commits + 1)))) ∧
      ∀ p, quiet → findProg (begun s) = some p →
        (p.round ≤ g.commitRounds → ∃ t, DoneWith (.phaseCommit d) s (result s.ctx.commitVal) t) ∧
        (g.commitRounds < p.round → Blocks (.phaseCommit d) s (.commit p.round))

/-- CHK goes on where its two scalar registers, vector registers with their sidecars, or predicates are equal bit for bit,
and takes CHECK_MISMATCH otherwise; each CHK and each mismatch is counted, saturating at 2^64 - 1 (R252, R413). -/
def Sys2Proof.Claim.ChkComparesBitForBit : Prop :=
  ∀ (a b : SReg) (k : Fin 4) (s : State), Issues (.chk a b k) s →
    let same := (k = 0 → rdS s a = rdS s b) ∧ (k = 1 → rdV s (lowV a) = rdV s (lowV b)) ∧
      (1 < k.val → rdP s (lowP a) = rdP s (lowP b))
    let up (n : Nat) : Nat := if n + 1 < 2 ^ 64 then n + 1 else 2 ^ 64 - 1
    (same → Does (.chk a b k) s
      { begun s with mgmt := { s.mgmt with chkExecuted := up s.mgmt.chkExecuted } }) ∧
    (¬same → exec (.chk a b k) s = .next (trapped { s with
      ctx := { s.ctx with pc := s.src.pc }
      mgmt := { s.mgmt with chkExecuted := up s.mgmt.chkExecuted, chkMismatch := up s.mgmt.chkMismatch } }
      { cause := .checkMismatch }))

/-- HRULES writes 2 for a misaligned image or one of bad format and 1 for a bad signature, and the rules stay; else it
replaces the rule table of the cluster and writes 0. INVR queues its invalidation behind a FENCE.sys, blocks, and returns
once it is acknowledged. DETSET queues a change of level at the tail of its queue, and takes ILLEGAL_INSTR where other bits
of its operands are set; NODE.DONE ORs its value into the gang's DONEVAL; GRAPH.SIGNAL posts one KIND-2 entry once the
context's earlier writes are performed, and stalls before that (R254, R322, R324, R357, R365). -/
def Obligations.SystemInstructions : Prop :=
  ∀ (a b d : SReg) (aa : Bool) (s : State), s.hbmNew = [] →
    let x := (rdS s a).toNat
    let y := (rdS s b).toNat
    let result (v : Word) : Vector Word 64 := (wrS (begun s) d v).ctx.s
    (Issues (.hrules d a) s →
      (x % 16 ≠ 0 → ∃ t, DoneWith (.hrules d a) s (result 2) t ∧ t.rules = s.rules) ∧
      ∀ h s1, x % 16 = 0 → readRecord (begun s) false x 1 64 = .ok h s1 →
        (imageHeaderOk s h = false → ∃ t, DoneWith (.hrules d a) s (result 2) t ∧ t.rules = s.rules) ∧
        ∀ img s2, imageHeaderOk s h = true →
          readRecord (begun s) false x 1 (0x40 + 128 * leAt h 6 2 + 2500) = .ok img s2 →
          let n := leAt h 6 2
          let entries := allSome ((List.range n).map fun i => parseEntry (sliceBytes img (0x40 + 128 * i) 128))
          let good := xmssVerify s.mgmt.ruleKey (img.take (0x40 + 128 * n)) (img.drop (0x40 + 128 * n))
          (entries = none → ∃ t, DoneWith (.hrules d a) s (result 2) t ∧ t.rules = s.rules) ∧
          (∀ l, entries = some l → good = false → ∃ t, DoneWith (.hrules d a) s (result 1) t ∧ t.rules = s.rules) ∧
          (∀ l, entries = some l → good = true → ∃ t r, DoneWith (.hrules d a) s (result 0) t ∧
            t.rules.find? (fun r => r.cluster == s.src.pc8) = some r ∧ r.setid = sliceBytes img 0x10 16 ∧
            r.entries.take n = l ∧ (∀ e ∈ r.entries.drop n, e = none) ∧
            ∀ c, c ≠ s.src.pc8 → t.rules.find? (fun r => r.cluster == c) = s.rules.find? fun r => r.cluster == c)) ∧
    (Issues (.invr d a b aa) s →
      (findProg (begun s) = none → Blocks (.invr d a b aa) s (.invr s.nextId) ∧
        ∃ t v, exec (.invr d a b aa) s = .next t ∧ t.invals = s.invals ++ [v] ∧ v.id = s.nextId ∧ v.who = s.src.id ∧
          v.lo = x ∧ v.len = y ∧ v.asid = (if aa then none else some ((rdS s d).toNat % 2 ^ 16)) ∧ v.points = false) ∧
      ∀ p, findProg (begun s) = some p →
        ((∀ v ∈ s.invals, v.id ≠ p.round) → Does (.invr d a b aa) s (begun s)) ∧
        ((∃ v ∈ s.invals, v.id = p.round) → Blocks (.invr d a b aa) s (.invr p.round))) ∧
    (Issues (.detset a b) s →
      (2 ^ 16 ≤ x ∨ 4 ≤ y → Traps (.detset a b) s { cause := .illegalInstr, xinfo := s.bun.word }) ∧
      (x < 2 ^ 16 → y < 4 → ∃ t, DoneWith (.detset a b) s s.ctx.s t ∧
        t.queue x = { s.queue x with insns := (s.queue x).insns ++ [((s.queue x).tail, y)] } ∧
        ∀ r, r ≠ x → t.queue r = s.queue r)) ∧
    (Issues (.nodeDone a) s → ∃ t, DoneWith (.nodeDone a) s s.ctx.s t ∧
      t.gang? s.src.id.gang = (s.gang? s.src.id.gang).map fun g =>
        { g with doneVal := g.doneVal ||| (rdS s a).setWidth 32 }) ∧
    (Issues (.graphSignal a) s → ∀ g n, s.gang? s.src.id.gang = some g → s.node? g.node = some n →
      (releaseHeld (begun s) = true ∨ 256 ≤ (s.queue n.queue).events.length →
        exec (.graphSignal a) s = .next (s.ended .stalled)) ∧
      (releaseHeld (begun s) = false → (s.queue n.queue).events.length < 256 → ∃ t st,
        DoneWith (.graphSignal a) s s.ctx.s t ∧ st < 256 ∧
        (t.queue n.queue).events = (s.queue n.queue).events ++ [entryBytes 2 st n.index n.tag x s.time]))

namespace Sys2Proof.Claim
open Sys2Proof.Machine

/-- A whole-tile instruction: with 16 tile operations outstanding it stalls; where its tiles keep the rules it goes in
flight as op, with the shapes that its tiles had before the bundle, and counts in OCT, and no register and no memory
changes; where they do not it takes TILE_SHAPE at the tile that bad names. -/
def TileIssue (i : Instr) (s : State) (ok : Prop) (op : TileOp) (bad : TReg → Prop) : Prop :=
  Issues i s →
    (16 ≤ s.ctx.oct → exec i s = .next (s.ended .stalled)) ∧
    (s.ctx.oct < 16 → (ok → ∃ t f, DoneWith i s s.ctx.s t ∧ t.tileOps = s.tileOps ++ [f] ∧ f.op = op ∧
        f.who = s.src.id ∧ f.tok = none ∧ (∀ n, op.tileOut = some n → f.cd = s.src.tcfg.get n) ∧
        (∀ n, op.tileIn = some n → f.ca = s.src.tcfg.get n) ∧ t.ctx.oct = s.ctx.oct + 1 ∧ t.ctx.tcfg = s.ctx.tcfg) ∧
      (¬ok → ∃ n, bad n ∧ Traps i s { cause := .tileShape, xinfo := n.val }))

/-- A tile's shape, where it is declared and valid (01 R24, 03 R73). -/
def shapeIs (s : State) (n : TReg) (h : Shape) : Prop := s.src.shape? n = some h

/-- A tile's shape, where it also suits its scale sidecar (07 R177). -/
def sideIs (s : State) (n : TReg) (h : Shape) : Prop := s.src.sideShape? n = some h

/-- Whether a shape's format is an SC code, as 02 R40 numbers them. -/
def scaleFormat (h : Shape) : Prop := h.isSc = true

end Sys2Proof.Claim

/-- TZERO, TFILL, TMOV, TTRANS, TCVT and TSCALE at issue: the tiles must be declared and of valid shape, and keep the
conditions of their rule: equal images for TMOV between tiles, a row below ROWS for its vector forms, transposed shapes of
one format for TTRANS, equal rows and columns and no SC code for TCVT, one format of codes 0 to 9 and one shape for TSCALE
(R119, R178, R180, R181, R182, R183, R184). -/
def Sys2Proof.Claim.WholeTileInstructionsIssue : Prop :=
  ∀ (d a : TReg) (v : VIdx) (x : SReg) (rm : Rm) (s : State),
    let row := (rdS s x).toNat
    let either (n : TReg) : Prop := n = d ∨ n = a
    TileIssue (.tzero d) s (∃ h, sideIs s d h) (.zero d) (fun n => n = d) ∧
    TileIssue (.tfill d x) s (∃ h, shapeIs s d h) (.fill d (rdS s x)) (fun n => n = d) ∧
    TileIssue (.tmov d a) s (∃ h k, sideIs s d h ∧ sideIs s a k ∧ h.rows * h.rs = k.rows * k.rs) (.mov d a) either ∧
    TileIssue (.tmovFromVector d v x) s (∃ h, shapeIs s d h ∧ row < h.rows)
      (.fromVector d (rdV s v).elems row) (fun n => n = d) ∧
    TileIssue (.tmovToVector v a x) s (∃ h, shapeIs s a h ∧ row < h.rows) (.toVector (s.src.physV v) a row)
      (fun n => n = a) ∧
    TileIssue (.ttrans d a) s (∃ h k, shapeIs s d h ∧ shapeIs s a k ∧ h.fmt = k.fmt ∧ h.rows = k.cols ∧ h.cols = k.rows ∧
      k.isMx = false ∧ k.isSc = false) (.trans d a) either ∧
    TileIssue (.tcvt d a rm) s (∃ h k, sideIs s d h ∧ sideIs s a k ∧ ¬scaleFormat h ∧ ¬scaleFormat k ∧ h.rows = k.rows ∧
      h.cols = k.cols) (.cvt d a (rmCode rm s.src)) either ∧
    TileIssue (.tscale d a x rm) s (∃ h k, shapeIs s d h ∧ shapeIs s a k ∧ h.fmt = k.fmt ∧ h.rows = k.rows ∧
      h.cols = k.cols ∧ k.fmt ≤ 9) (.scale d a (rdS s x) (rmCode rm s.src)) either

/-- TLD and TST of the scratchpad are done at issue where fewer than 16 tile operations are outstanding, the token is
complete, the tile's shape is valid and suits its sidecar, PACT is 0, base and pitch are multiples of 4, every byte lies in
the gang's banks, no bank of the cluster is reserved and the context is not being pre-empted: the transfer is in flight,
counted in OCT, its token incomplete, and no other register and no byte of memory has changed. TLD_COMPLETE and
TST_COMPLETE of all the rows of a transfer that may move then end it: the token is complete with status OK, the count
released, and of the registers TLD_COMPLETE changes its tile alone and TST_COMPLETE none (R119, R186, R187, R188, R245). -/
def Sys2Proof.Claim.TileTransfersIssueAndEnd : Prop :=
  (∀ (n : TReg) (a b : SReg) (q : QReg) (s : State) (h : Shape) (i : Instr),
    i = .tld n a b q true ∨ i = .tst n a b q true → Issues i s → s.ctx.oct < 16 → (rdQ s q).done = true → sideIs s n h →
    (s.src.tcfg.get n).getLsbD 41 = false → s.src.rowStop = none → banksBusy (begun s) s.src.lc (BitVec.allOnes 48) = false →
    let base := (rdS s a).toNat
    let pitch := if b = 0 then h.pitch else (rdS s b).toNat
    base % 4 = 0 → pitch % 4 = 0 →
    (∀ r j, r < h.rows → j < h.irs → let o := (base + r * pitch + j) % 2 ^ 64
      o < 0xC00000 ∧ (gangBanks s s.src.id.gang s.src.lc).getLsbD (o / 262144) = true) →
    ∃ t f, exec i s = .next t ∧ t.bun.status = .done ∧ t.ctx.pc = s.src.pc + 16 ∧ t.tileOps = s.tileOps ++ [f] ∧
      f.who = s.src.id ∧ (∃ g, f.tok = some (q, g)) ∧ (t.ctx.q.get q).done = false ∧ t.ctx.oct = s.ctx.oct + 1 ∧
      t.ctx.t = s.ctx.t ∧ t.ctx.s = s.ctx.s ∧ t.ctx.v = s.ctx.v ∧ t.ctx.p = s.ctx.p ∧ t.mem = s.mem ∧ t.spad = s.spad) ∧
  ∀ (s : State) (f : TileFlight) (c : Ctx) (q : QReg) (g : Nat) (n : TReg) (rows : List (Nat × Nat × List Nat)) (sp : Bool),
    s.tileOp? s.arg.id = some f → s.ctx? f.who = some c → f.who = c.id → rowsFree s f (cellsNow s f) = true →
    f.tok = some (q, g) → (c.q.get q).done = false → (c.q.get q).gen = g → s.arg.val = 0 →
    let ends (c' : Ctx) : Prop := c'.oct = c.oct - 1 ∧ (c'.q.get q).done = true ∧ (c'.q.get q).status = .ok ∧
      c'.s = c.s ∧ c'.v = c.v ∧ c'.p = c.p ∧ c'.pc = c.pc
    (f.op = .load n rows sp → ∃ t c', Acts .tldComplete s t ∧ t.ctx? f.who = some c' ∧ t.tileOp? f.id = none ∧ ends c' ∧
      ∀ m, m ≠ n → c'.t.get m = c.t.get m) ∧
    (f.op = .store n rows sp → ∃ t c', Acts .tstComplete s t ∧ t.ctx? f.who = some c' ∧ t.tileOp? f.id = none ∧ ends c' ∧
      c'.t = c.t)

namespace Sys2Proof.Claim
open Sys2Proof.Machine

/-- The element of a tile of a shape at a row and a column. -/
def tileElem (c : Ctx) (n : TReg) (h : Shape) (r j : Nat) : Option Nat := ((c.t.get n).elems h r)[j]?

/-- Byte i of a tile's image. -/
def imageByte (c : Ctx) (n : TReg) (i : Nat) : Nat := (c.t.get n).bytes.toNat / 2 ^ (8 * i) % 256

/-- What a whole-tile operation leaves: TILE_OP_COMPLETE writes it, changes no tile but d and no other register, and
releases the count. -/
def TileResult (s : State) (c : Ctx) (d : Option TReg) (p : Ctx → Prop) : Prop :=
  ∃ t c', Acts .tileOpComplete s t ∧ t.ctx? c.id = some c' ∧ c'.oct = c.oct - 1 ∧ p c' ∧ c'.s = c.s ∧ c'.p = c.p ∧
    c'.tcfg = c.tcfg ∧ (∀ n, d ≠ some n → c'.t.get n = c.t.get n) ∧ t.mem = s.mem ∧ t.spad = s.spad

end Sys2Proof.Claim

/-- What the whole-tile operations write, in the shapes that their tiles had before the bundle, element by element or byte by
byte of the image: zeros; the low bits of the scalar (for E8M10 with bits 12 to 0 cleared); the other tile's image and
sidecar; up to 2,048 bytes from or to a vector register from the row on; the transpose; the converted value of each element,
of an MX tile with its block's scale, or into an MX tile the elements and scale of each block of 32; and its product with
the scale, rounded once (R92, R181, R182, R183, R184, R185). An operation of replacement 0 of a rewrite waits for replacement
1, which can still undo it, unless that touches its tiles (R319). -/
def Obligations.TileOperationsWriteTheirResults : Prop :=
  ∀ (s : State) (f : TileFlight) (c : Ctx), s.tileOp? s.arg.id = some f → s.ctx? f.who = some c → c.fpm = 0 →
    unsettled s f.who f.bundle f.op.touches = false →
    let hd := f.hd
    let ha := f.ha
    let size (h : Shape) : Nat := h.rows * h.rs
    (∀ d, f.op.tileOut = some d → hd.valid = true) → (∀ a, f.op.tileIn = some a → ha.valid = true) →
    (∀ d, f.op = .zero d → TileResult s c (some d) fun c' =>
      (∀ i, i < size hd → imageByte c' d i = 0) ∧ (c'.t.get d).scales = 0) ∧
    (∀ d v, f.op = .fill d v → TileResult s c (some d) fun c' => (c'.t.get d).scales = (c.t.get d).scales ∧
      ∀ r j, r < hd.rows → j < hd.cols → tileElem c' d hd r j =
        some (if hd.fmt = 2 then v.toNat % 2 ^ 32 - v.toNat % 2 ^ 13 else v.toNat % 2 ^ hd.width)) ∧
    (∀ d a, f.op = .mov d a → size hd = size ha → TileResult s c (some d) fun c' =>
      (∀ i, i < size hd → imageByte c' d i = imageByte c a i) ∧ (c'.t.get d).scales = (c.t.get a).scales) ∧
    (∀ d v r, f.op = .fromVector d v r → r < hd.rows → TileResult s c (some d) fun c' =>
      (∀ i, i < 2048 → r * hd.rs + i < size hd → imageByte c' d (r * hd.rs + i) = v.toNat / 2 ^ (8 * i) % 256) ∧
      ∀ i, i < size hd → (i < r * hd.rs ∨ r * hd.rs + 2048 ≤ i) → imageByte c' d i = imageByte c d i) ∧
    (∀ d a r, f.op = .toVector d a r → r < ha.rows → TileResult s c none fun c' =>
      (∀ i, i < 2048 → (c'.v.get d).elems.toNat / 2 ^ (8 * i) % 256 =
        if r * ha.rs + i < size ha then imageByte c a (r * ha.rs + i) else 0) ∧
      (c'.v.get d).side = (c.v.get d).side ∧ ∀ n, n ≠ d → c'.v.get n = c.v.get n) ∧
    (∀ d a, f.op = .trans d a → hd.fmt = ha.fmt → hd.rows = ha.cols → hd.cols = ha.rows →
      TileResult s c (some d) fun c' => ∀ r j, r < ha.rows → j < ha.cols →
        tileElem c' d hd j r = tileElem c a ha r j) ∧
    (∀ d a rm dst, f.op = .cvt d a rm → numTyOf hd.fmt = some dst → mxElem hd.fmt = none →
      hd.rows = ha.rows → hd.cols = ha.cols →
      (∀ src, numTyOf ha.fmt = some src → TileResult s c (some d) fun c' => ∀ r j, r < ha.rows → j < ha.cols →
        tileElem c' d hd r j =
          (tileElem c a ha r j).map fun w => (convertNum src dst (Rnd.ofCode rm) c.nbv w).bits % 2 ^ hd.width) ∧
      (numTyOf ha.fmt = none → TileResult s c (some d) fun c' => ∀ r j, r < ha.rows → j < ha.cols →
        let x := ((c.t.get a).scaleRow ha r) / 2 ^ (8 * (j / 32)) % 256
        tileElem c' d hd r j = (tileElem c a ha r j).map fun w =>
          (ofValTo dst (Rnd.ofCode rm) c.nbv (elemValue ha.fmt x w)).bits % 2 ^ hd.width)) ∧
    (∀ d a rm m emax, f.op = .cvt d a rm → mxElem hd.fmt = some (m, emax) → hd.cols % 32 = 0 →
      hd.rows = ha.rows → hd.cols = ha.cols →
      let blk (r b : Nat) := mxNorm m emax (Rnd.ofCode rm) c.nbv (((rowValues (c.t.get a) ha r).drop (32 * b)).take 32)
      TileResult s c (some d) fun c' => ∀ r, r < ha.rows →
        (∀ j, j < ha.cols → tileElem c' d hd r j = ((blk r (j / 32)).2.1[j % 32]?).map (· % 2 ^ hd.width)) ∧
        ∀ b, b < ha.cols / 32 → (c'.t.get d).scaleRow hd r / 2 ^ (8 * b) % 256 = (blk r b).1 % 256) ∧
    ∀ d a v rm ft, f.op = .scale d a v rm → numTyOf ha.fmt = some (.fp ft) → hd = ha →
      let y := if ha.fmt = 0 then Fmt.f64.unpack v.toNat else Fmt.f32.unpack (v.toNat % 2 ^ 32)
      TileResult s c (some d) fun c' => ∀ r j, r < ha.rows → j < ha.cols → tileElem c' d hd r j =
        (tileElem c a ha r j).map fun w => (scaleElem ft (Rnd.ofCode rm) c.nbv (ft.unpack w) y).bits % 2 ^ hd.width

namespace Sys2Proof.Claim
open Sys2Proof.Machine

/-- TLD and TST at issue, where no pre-emption stops them: each row from PROG on, which is 0 unless PACT is 1, lies at the
base plus its number times the pitch. With 16 tile operations outstanding, or a bank of its rows held, the slot stalls. The
checks then come in their order. Where every row passes, the rows go in flight, with the shape that the tile had before the
bundle, and the token is incomplete; where the first row of the tile fails, the slot takes that trap and nothing moves; where
a later row fails, the slot takes its trap with PACT 1 and PROG that row. -/
def TileMoveAt (i : Instr) (load : Bool) (n : TReg) (a b : SReg) (q : QReg) (sp : Bool) (s : State) : Prop :=
  let base := (rdS s a).toNat
  let cfg := s.src.tcfg.get n
  let pact : Bool := decide (n.val < s.src.ntiles) && cfg.getLsbD 41
  let cont : Bool := pact && s.src.stopTok.get n == some q.val
  let first := if pact then cfg.toNat / 2 ^ 32 % 512 else 0
  let pitch (h : Shape) : Nat := if b = 0 then h.pitch else (rdS s b).toNat
  let todo (h : Shape) : List Nat := (List.range h.rows).drop first
  let banks (h : Shape) : BitVec 48 :=
    banksOf (((todo h).flatMap fun r => byteRange ((base + r * pitch h) % 2 ^ 64) h.irs).filter fun x => x < 0xC00000)
  let free := sp = false ∨ ∀ h, sideIs s n h → banksBusy (begun s) s.src.lc (banks h) = false
  let owed := cont = true ∨ (rdQ s q).done = true
  Issues i s →
    (16 ≤ s.ctx.oct → exec i s = .next (s.ended .stalled)) ∧
    (s.ctx.oct < 16 → free →
      (cont = false → (rdQ s q).done = false → Traps i s { cause := .tokenError, xinfo := q.val }) ∧
      (owed → (∀ h, ¬sideIs s n h) → Traps i s { cause := .tileShape, xinfo := n.val }) ∧
      ∀ h, sideIs s n h → owed →
        (base % 4 ≠ 0 ∨ pitch h % 4 ≠ 0 → Traps i s { cause := .align, faddr := base % 2 ^ 56 }) ∧
        ∀ rows pages bad s1, base % 4 = 0 → pitch h % 4 = 0 → s.src.rowStop = none →
          checkRows sp load base (pitch h) h.irs (todo h) (begun s) = (rows, pages, bad, s1) →
          let op : TileOp := if load then .load n rows sp else .store n rows sp
          let probe := Machine.flightOf s1 s1.nextId op none 0 cont
          (∀ t, bad = some (0, t) → Traps i s t) ∧
          (∀ r t, bad = some (r, t) → 0 < r → rowsFree s1 probe probe.cells = true →
            ∃ u, exec i s = .next u ∧ u.bun.status = .trapped ∧
              (s.ctx.tvec ≠ 0 → s.ctx.mode = .user → s.src.harrow.cancelled = none → s.bun.slot < 4 →
                u.ctx.pc = s.ctx.tvec ∧ (u.ctx.tcfg.get n).getLsbD 41 = true ∧
                (u.ctx.tcfg.get n).toNat / 2 ^ 32 % 512 = r)) ∧
          (bad = none → (sp = false → portHeld s1 (rows.flatMap fun x => x.2.2) = false) →
            ∃ t f, Does i s t ∧ t.tileOps = s.tileOps ++ [f] ∧ f.op = op ∧
              rows.map (fun x => (x.1, x.2.1)) = (todo h).map (fun r => (r, (base + r * pitch h) % 2 ^ 64)) ∧
              f.who = s.src.id ∧ f.pages = pages.dedup ∧ (∃ g, f.tok = some (q, g)) ∧ (if load then f.cd else f.ca) = cfg ∧ f.cont = pact ∧
              (cont = false → (t.ctx.q.get q).done = false) ∧ t.ctx.tcfg = s.ctx.tcfg ∧ t.ctx.oct = s.ctx.oct + 1 ∧
              t.ctx.t = s.ctx.t ∧ t.ctx.s = s.ctx.s ∧ (s.hbmNew = [] → t.mem = s.mem) ∧ t.spad = s.spad))

/-- The transfer of a TLD or TST has ended: its count is released and its token complete with status OK, and one that
continued a stopped transfer has cleared PACT and PROG of its tile (06 R175). -/
def TransferEnds (c c' : Ctx) (f : TileFlight) (n : TReg) (q : QReg) : Prop :=
  c'.oct = c.oct - 1 ∧ (c'.q.get q).done = true ∧ (c'.q.get q).status = .ok ∧
    (f.cont = true → (c'.tcfg.get n).getLsbD 41 = false ∧ (c'.tcfg.get n).toNat / 2 ^ 32 % 512 = 0) ∧
    (f.cont = false → c'.tcfg = c.tcfg)

/-- The transfer of a TLD or TST goes on with the rows that it has not moved: it still counts, and its token stays as it
was. -/
def TransferGoesOn (c c' : Ctx) (t : State) (f : TileFlight) (op : TileOp) (q : QReg) : Prop :=
  c'.oct = c.oct ∧ c'.q.get q = c.q.get q ∧ c'.tcfg = c.tcfg ∧ ∃ f', t.tileOp? f.id = some f' ∧ f'.op = op

end Sys2Proof.Claim

/-- TLD and TST issue as their rules say, and complete. TLD_COMPLETE moves rows of the transfer, all that are left or fewer,
into their tile: of the scratchpad, the bytes that stand there, the scales behind the elements; it changes no memory, no
other tile and no scalar register. TST_COMPLETE writes exactly the bytes of its rows' images, and changes no register. With
the last row the token is complete with status OK and the count released (R92, R175, R186, R187, R188, R245). -/
def Obligations.TileLoadsAndStores : Prop :=
  (∀ (n : TReg) (a b : SReg) (q : QReg) (sp : Bool) (s : State),
    TileMoveAt (.tld n a b q sp) true n a b q sp s ∧ TileMoveAt (.tst n a b q sp) false n a b q sp s) ∧
  ∀ (s : State) (f : TileFlight) (c : Ctx) (q : QReg) (g : Nat), s.memOk = true → s.hbmNew = [] →
    s.tileOp? s.arg.id = some f → s.ctx? f.who = some c → f.who = c.id → rowsFree s f (cellsNow s f) = true →
    f.tok = some (q, g) → (c.q.get q).done = false → (c.q.get q).gen = g →
    (∀ n rows sp, f.op = .load n rows sp → ∃ t c', Acts .tldComplete s t ∧ t.ctx? f.who = some c' ∧ t.mem = s.mem ∧
      t.spad = s.spad ∧ c'.s = c.s ∧ (∀ m, m ≠ n → c'.t.get m = c.t.get m) ∧
      let k := if s.arg.val = 0 then rows.length else s.arg.val
      (rows.length ≤ k → TransferEnds c c' f n q) ∧
      (k < rows.length → TransferGoesOn c c' t f (.load n (rows.drop k) sp) q) ∧
      (f.hd.valid = true → f.hd.sideOk = true → sp = true → (rows.map Prod.fst).Nodup → (∀ x ∈ rows, x.1 < f.hd.rows) →
        ∀ r va cells, (r, va, cells) ∈ rows.take k → cells.length = f.hd.irs →
          (c'.t.get n).rowImage f.hd r = cells.map s.spadAt)) ∧
    (∀ n rows sp, f.op = .store n rows sp → ∃ t c', Acts .tstComplete s t ∧ t.ctx? f.who = some c' ∧ c'.s = c.s ∧
      c'.t = c.t ∧
      let k := if s.arg.val = 0 then rows.length else s.arg.val
      let dst := (rows.take k).flatMap fun r => r.2.2
      (rows.length ≤ k → TransferEnds c c' f n q) ∧
      (k < rows.length → TransferGoesOn c c' t f (.store n (rows.drop k) sp) q) ∧
      (∀ x, byteOf t (!sp) x = byteOf s (!sp) x) ∧ (∀ x, x ∉ dst → byteOf t sp x = byteOf s sp x) ∧
      (dst.Nodup → ∀ r va cells, (r, va, cells) ∈ rows.take k →
        ∀ p ∈ cells.zip ((c.t.get n).rowImage f.ha r), byteOf t sp p.1 = p.2))

namespace Sys2Proof.Claim
open Sys2Proof.Machine

/-- CHAIN_STATE with the chain and its state in XINFO (03 R80). -/
def chainState (s : State) (k : KReg) : TrapInfo :=
  { cause := .chainState, xinfo := k.val + (s.chain s.src.id.gang k).state.code * 256 }

/-- An instruction that takes LINK_FAULT: XINFO holds the chain in bits 12 to 8. -/
def LinkFaults (i : Instr) (s : State) (k : KReg) : Prop :=
  ∃ (n u : Nat), n < 256 ∧ exec i s = .next (({ slotTrap { begun s with freeIx := u }
    { cause := .linkFault, xinfo := n + k.val * 256 } with pre := s.pre } : State).ended .trapped)

/-- A contribution of a kind from two tiles: with the stalls of its rule past, the checks of 07 R179 come in their order,
and an accepted one waits at its link with its operands as they stood, counts there and in OCT, and makes the chain
ACTIVE. -/
def MmaAt (i : Instr) (kind : MmaKind) (k : KReg) (a b : TReg) (pos : Fin 32) (ta tb sat : Bool) (q : Option QReg)
    (s : State) : Prop :=
  let g := s.src.id.gang
  let ch := s.chain g k
  let local? (h : Hop) : Bool := h.link / 2 == s.src.array && !soloOther s
  Issues i s →
    ((16 ≤ s.ctx.oct ∨ windowOpen s = false) → exec i s = .next (s.ended .stalled)) ∧
    (s.ctx.oct < 16 → windowOpen s = true →
      (∀ r, q = some r → (rdQ s r).done = false → Traps i s { cause := .tokenError, xinfo := r.val }) ∧
      ((∀ r, q = some r → (rdQ s r).done = true) →
        (∀ n, mmaShape s kind k a b pos.val ta tb = some n → Traps i s { cause := .tileShape, xinfo := n.val }) ∧
        (mmaShape s kind k a b pos.val ta tb = none →
          (ch.state = .idle ∨ ch.state = .closed ∨ ch.hops.length ≤ pos.val → Traps i s (chainState s k)) ∧
          (ch.state = .frozen → pos.val < ch.hops.length → LinkFaults i s k) ∧
          ∀ h l, ch.state = .built ∨ ch.state = .active → ch.hops[pos.val]? = some h → s.link? g h.link = some l →
            (h.count ≤ l.accepted → Traps i s (chainState s k)) ∧
            (l.accepted < h.count → local? h = false →
              Traps i s { cause := .linkNotLocal, xinfo := h.link + k.val * 256 }) ∧
            (l.accepted < h.count → local? h = true → ∃ t l' x, Does i s t ∧ t.link? g h.link = some l' ∧
              l'.accepted = l.accepted + 1 ∧ l'.waiting = l.waiting ++ [x] ∧ l'.promoted = l.promoted ∧ l'.own = l.own ∧
              l'.state = (if l.state = .empty then .accumulating else l.state) ∧ (t.chain g k).state = .active ∧
              (t.chain g k).hops = ch.hops ∧ t.ctx.oct = s.ctx.oct + 1 ∧ x.who = s.src.id ∧ x.kind = kind ∧
              x.a = rdT s a ∧ x.b = rdT s b ∧ x.ca = s.src.tcfg.get a ∧ x.cb = s.src.tcfg.get b ∧ x.sat = sat ∧
              x.ta = ta ∧ x.tb = tb ∧ (∀ r, q = some r → (t.ctx.q.get r).done = false) ∧
              (∀ r, q ≠ some r → t.ctx.q.get r = s.ctx.q.get r) ∧ t.ctx.s = s.ctx.s ∧ t.ctx.t = s.ctx.t ∧ t.mem = s.mem ∧
              t.spad = s.spad))))

end Sys2Proof.Claim

/-- MMA, MMA.MX and MMA.SC at issue: MMA with QT = 0 names no token and with QT = 1 to 7 names q(24 + QT); the other two
name q31 with QK = 1 (R157, R163, R165, R179, R190, R192, R193). -/
def Sys2Proof.Claim.ContributionsIssue : Prop :=
  ∀ (k : KReg) (a b : TReg) (pos : Fin 32) (ta tb sat qk : Bool) (qt : Fin 8) (s : State),
    MmaAt (.mma k a b pos ta tb sat qt) .plain k a b pos ta tb sat
      (if qt = 0 then none else some (Fin.ofNat 32 (24 + qt.val))) s ∧
    MmaAt (.mmaMx k a b pos qk) .mx k a b pos false false false (if qk then some 31 else none) s ∧
    MmaAt (.mmaSc k a b pos qk) .sc k a b pos false false false (if qk then some 31 else none) s

/-- CHAIN.BUILD, once the banks of its descriptor are free, of an IDLE or CLOSED chain from a descriptor that keeps its
rules makes it BUILT, its links EMPTY (or COMPLETE where c is 0) and named by it; of another chain, or from another
descriptor, it takes CHAIN_STATE. CHAIN.CLOSE, into a tile or into scratchpad, arms a close and makes the chain ACTIVE.
CHAIN.STAT writes state, cause and H to D, and with an address stores the record;
CHAIN.SPLICE puts a spare in a faulted link's place; CHAIN.RESUME returns a frozen chain to the state it left; CHAIN.FREE
makes it IDLE, and stalls while its close writes (R163, R165, R167, R198, R199, R200, R201, R202, R203, R204). -/
def Sys2Proof.Claim.ChainInstructions : Prop :=
  ∀ (k : KReg) (a b d : SReg) (sp dst : Bool) (rm : Rm) (pos : Fin 32) (s : State) (x : Gang),
    s.hbmNew = [] → s.gang? s.src.id.gang = some x →
    let g := s.src.id.gang
    let ch := x.chains.get k
    let addr := (rdS s a).toNat
    let alone (t : State) : Prop := ∀ j, j ≠ k → t.chain g j = s.chain g j
    let held (b : BitVec 48) : Prop := sp = true ∧ banksBusy (begun s) s.src.lc b = true
    (Issues (.chainBuild k a sp) s →
      ¬held (recordBanks addr (16 + 16 * min 32 (s.spad.get (s.src.lc * 0xC00000 + addr + 1)).toNat)) →
      (ch.state = .built ∨ ch.state = .active ∨ ch.state = .frozen → Traps (.chainBuild k a sp) s (chainState s k)) ∧
      ∀ hd s0 r s1, ch.state = .idle ∨ ch.state = .closed → readRecord (begun s) sp addr 16 16 = .ok hd s0 →
        1 ≤ leAt hd 1 1 → leAt hd 1 1 ≤ 32 → readRecord (begun s) sp addr 16 (16 + 16 * leAt hd 1 1) = .ok r s1 →
        (parseChain r = none → Traps (.chainBuild k a sp) s (chainState s k)) ∧
        ∀ m n isat hops, parseChain r = some (m, n, isat, hops) →
          (linksOk s x k hops = false → Traps (.chainBuild k a sp) s (chainState s k)) ∧
          (linksOk s x k hops = true → ∃ t, DoneWith (.chainBuild k a sp) s s.ctx.s t ∧ alone t ∧
            t.chain g k = { state := .built, m := m, n := n, isat := isat, hops := hops } ∧
            ∀ h ∈ hops, ∃ l, t.link? g h.link = some l ∧ l.chain = some k ∧ l.accepted = 0 ∧ l.promoted = 0 ∧
              l.own = {} ∧ l.state = if h.count = 0 then .complete else .empty)) ∧
    (Issues (.chainClose k a b rm dst) s → dst = false → s.ctx.oct < 16 →
      let n := lowTile a
      let v := (rdS s b).toNat
      let isInt := ch.state ≠ .idle ∧ ∃ h ∈ ch.hops, h.fmt.isFp = false
      let shape := ∃ h, s.src.shape? n = some h ∧ (ch.state = .idle ∨ h.rows = ch.m ∧ h.cols = ch.n) ∧
        (h.fmt ≤ 0x0F ∨ h.fmt = 0x18 ∨ h.fmt = 0x19)
      let keeps := v < 2 ^ 32 ∧ (isInt → v = 0) ∧ shape
      (¬keeps → Traps (.chainClose k a b rm dst) s { cause := .tileShape, xinfo := n.val }) ∧
      (keeps → (ch.state = .idle ∨ ch.state = .closed) → Traps (.chainClose k a b rm dst) s (chainState s k)) ∧
      (keeps → ch.state = .frozen → LinkFaults (.chainClose k a b rm dst) s k) ∧
      (keeps → (ch.state = .built ∨ ch.state = .active) → ch.close.isSome → Traps (.chainClose k a b rm dst) s (chainState s k)) ∧
      (keeps → (ch.state = .built ∨ ch.state = .active) → ch.close = none → ∃ t c,
        DoneWith (.chainClose k a b rm dst) s s.ctx.s t ∧ alone t ∧ (t.chain g k).state = .active ∧
        (t.chain g k).close = some c ∧ c.gix = s.src.id.gix ∧ c.dst = .tile n ∧ c.rm = rmCode rm s.src ∧
        c.oscale = BitVec.ofNat 32 v ∧ c.acting = false ∧ c.cfg = s.src.tcfg.get n ∧ t.ctx.oct = s.ctx.oct + 1)) ∧
    (Issues (.chainClose k a b rm dst) s → dst = true → s.ctx.oct < 16 →
      let v := (rdS s b).toNat
      let fmt := v / 2 ^ 32 % 32
      let isInt := ch.state ≠ .idle ∧ ∃ h ∈ ch.hops, h.fmt.isFp = false
      let keeps := v < 2 ^ 37 ∧ (isInt → v % 2 ^ 32 = 0) ∧ (fmt ≤ 0x0F ∨ fmt = 0x18 ∨ fmt = 0x19)
      let span := byteRange addr (closeSpan fmt ch.m ch.n)
      let live := ch.state = .built ∨ ch.state = .active
      (ch.state ≠ .idle → banksBusy (begun s) s.src.lc (banksOf (span.filter fun x => x < 0xC00000)) = false) →
      (¬keeps → Traps (.chainClose k a b rm dst) s { cause := .tileShape, xinfo := 0 }) ∧
      (keeps → (ch.state = .idle ∨ ch.state = .closed) → Traps (.chainClose k a b rm dst) s (chainState s k)) ∧
      (keeps → ch.state = .frozen → LinkFaults (.chainClose k a b rm dst) s k) ∧
      (keeps → live → ch.close.isSome → Traps (.chainClose k a b rm dst) s (chainState s k)) ∧
      (keeps → live → ch.close = none → addr % 4 ≠ 0 →
        Traps (.chainClose k a b rm dst) s { cause := .align, faddr := addr % 2 ^ 56 }) ∧
      (∀ t, keeps → live → ch.close = none → addr % 4 = 0 → (resolve (begun s) true .write span).1 = .error t →
        Traps (.chainClose k a b rm dst) s t) ∧
      (∀ l, keeps → live → ch.close = none → addr % 4 = 0 → (resolve (begun s) true .write span).1 = .ok l → ∃ t c,
        DoneWith (.chainClose k a b rm dst) s s.ctx.s t ∧ alone t ∧ (t.chain g k).state = .active ∧
        (t.chain g k).close = some c ∧ c.gix = s.src.id.gix ∧ c.dst = .spad s.src.lc addr ∧ c.ofmt = fmt ∧
        c.rm = rmCode rm s.src ∧ c.oscale = BitVec.ofNat 32 v ∧ c.acting = false ∧ t.ctx.oct = s.ctx.oct + 1)) ∧
    (Issues (.chainStat d a k sp) s →
      let word := ch.state.code + (if ch.state = .frozen then ch.cause.code * 8 else 0) +
        (if ch.state = .idle then 0 else ch.hops.length * 32)
      let rec_ := statRecord s g ch
      (a = 0 → ∃ t, DoneWith (.chainStat d a k sp) s (wrS (begun s) d (BitVec.ofNat 64 word)).ctx.s t) ∧
      (a ≠ 0 → 64 ≤ s.ctx.ocs ∨ held (recordBanks addr rec_.length) →
        exec (.chainStat d a k sp) s = .next (s.ended .stalled) ∨ ∃ b, exec (.chainStat d a k sp) s =
          .next ({ s with bun := { s.bun with wants := b } }.ended .stalled)) ∧
      (a ≠ 0 → s.ctx.ocs < 64 → ¬held (recordBanks addr rec_.length) → addr % 16 ≠ 0 → Traps (.chainStat d a k sp) s { cause := .align, faddr := addr % 2 ^ 56 }) ∧
      ∀ l, a ≠ 0 → addr % 16 = 0 → Ready (begun s) sp .write .s (byteRange addr rec_.length) l → ∃ t f,
        DoneWith (.chainStat d a k sp) s (wrS (begun s) d (BitVec.ofNat 64 word)).ctx.s t ∧ f ∈ t.flights ∧
        f.kind = .store rec_ ∧ f.cells = l.map Pa.pa ∧ t.ctx.ocs = s.ctx.ocs + 1) ∧
    (Issues (.chainSplice k a pos) s → ch.hops.length ≤ pos.val → Traps (.chainSplice k a pos) s (chainState s k)) ∧
    (Issues (.chainSplice k a pos) s → ∀ h, ch.hops[pos.val]? = some h →
      let ok := addr < 256 ∧ ch.state = .frozen ∧ ch.cause = .fault ∧
        (∃ l, s.link? g h.link = some l ∧ l.state = .faulted) ∧ spliceOk s x k h addr = true
      (¬ok → Traps (.chainSplice k a pos) s (chainState s k)) ∧
      (ok → ∃ t l, DoneWith (.chainSplice k a pos) s s.ctx.s t ∧ alone t ∧ (t.chain g k).state = .frozen ∧
        (t.chain g k).hops = ch.hops.set pos.val { h with link := addr } ∧ t.link? g h.link = none ∧
        t.link? g addr = some l ∧ l.chain = some k ∧ l.accepted = 0 ∧ l.spare = false)) ∧
    (Issues (.chainResume k) s →
      let ok := ch.state = .frozen ∧ ch.cause = .fault ∧
        ∀ h ∈ ch.hops, ∀ l, s.link? g h.link = some l → l.state ≠ .faulted
      (¬ok → Traps (.chainResume k) s (chainState s k)) ∧
      (ok → ∃ t, DoneWith (.chainResume k) s s.ctx.s t ∧ alone t ∧ (t.chain g k).state = ch.left ∧
        (t.chain g k).hops = ch.hops)) ∧
    (Issues (.chainFree k) s →
      ((∃ c, ch.close = some c ∧ c.acting = true) → exec (.chainFree k) s = .next (s.ended .stalled)) ∧
      ((∀ c, ch.close = some c → c.acting = false) → ∃ t, DoneWith (.chainFree k) s s.ctx.s t ∧ alone t ∧
        (t.chain g k).state = .idle ∧ ∀ l ∈ t.links, l.gang = g → l.chain ≠ some k))

/-- A close that is armed in a BUILT or ACTIVE chain whose links have all formed their partials begins with CLOSE_ACT, and
CLOSE_WRITTEN of one that has begun and goes to a tile ends it: the chain is CLOSED and the close is gone.
ARRAY_WINDOW_START of an array whose present window has ended begins another (R159, R160, R171). -/
def Sys2Proof.Claim.ClosesAndWindowsAct : Prop :=
  (∀ (s : State) (x : Gang) (k : KReg) (arm : CloseArm) (h : Hop) (l : Link) (y : Plane) (n : TReg),
    s.gang? s.arg.gang = some x → k = Fin.ofNat 32 s.arg.id → (x.chains.get k).close = some arm →
    ((x.chains.get k).state = .built ∨ (x.chains.get k).state = .active) → (x.chains.get k).hops.getLast? = some h →
    s.link? s.arg.gang h.link = some l → l.partialOut = some y → allFormed s s.arg.gang (x.chains.get k) = true →
    (∃ t, Acts .closeAct s t ∧ (t.chain s.arg.gang k).close = some { arm with acting := true } ∧ t.mem = s.mem) ∧
    (∀ c, arm.acting = true → arm.dst = .tile n → s.ctx? { gang := s.arg.gang, gix := arm.gix } = some c → c.fpm = 0 →
      ∃ t, Acts .closeWritten s t ∧ (t.chain s.arg.gang k).state = .closed ∧ (t.chain s.arg.gang k).close = none ∧
        t.mem = s.mem)) ∧
  ∀ (s : State) (a : ArrayUnit), s.arrays.find? (fun a => a.id == s.arg.id) = some a → windowDue s a = true →
    ∃ t b, Acts .arrayWindowStart s t ∧ t.arrays.find? (fun a => a.id == s.arg.id) = some b ∧ a.window < b.window

/-- A chain's own steps. MMA_PROMOTION_COMPLETE adds the oldest contribution at a link to its plane, counts it, and makes the
link COMPLETE at its count; HANDOFF_FORM of a COMPLETE link that has its inbound partial and whose cluster is sliced in, or
that is the head, forms the partial and the link is SENT; HANDOFF_ARRIVAL puts it into the next link's inbound buffer, which
a partial already there keeps; LINK_UNCORRECTABLE_ERROR faults a link that is not DONE, which loses what it held, and freezes its chain (R157, R158, R162,
R163, R166, R167). -/
def Sys2Proof.Claim.ChainsPromoteAndHandOff : Prop :=
  ∀ (s : State) (x : Gang) (l : Link) (k : KReg) (p : Nat) (h : Hop), s.gang? s.arg.gang = some x →
    s.link? s.arg.gang s.arg.id = some l → l.chain = some k → (x.chains.get k).hopOf l.id = some (p, h) →
    let c := x.chains.get k
    let g := s.arg.gang
    let live := c.state = .built ∨ c.state = .active
    (∀ y rest, l.waiting = y :: rest → unsettled s y.who y.bundle [.t y.regs.1, .t y.regs.2] = false → ∃ t l', Acts .mmaPromotionComplete s t ∧ t.link? g l.id = some l' ∧
      l'.own = (promote c h y l.own).1 ∧ l'.waiting = rest ∧ l'.promoted = l.promoted + 1 ∧
      l'.state = (if l.promoted + 1 = h.count then .complete else l.state) ∧
      (t.chain g k).flags = c.flags ||| (promote c h y l.own).2 ∧ t.mem = s.mem ∧ t.spad = s.spad) ∧
    (live → l.state = .complete → (p = 0 ∨ l.inbound.isSome = true ∧ clusterIn s (l.id / 8) = true) → s.fleet.step = .idle →
      ∃ t l', Acts .handoffForm s t ∧
      t.link? g l.id = some l' ∧ l'.state = .sent ∧ l'.partialOut = some (formPartial c p h l).1 ∧
      l'.inTransit = decide (p + 1 < c.hops.length) ∧ (t.chain g k).flags = c.flags ||| (formPartial c p h l).2 ∧
      t.mem = s.mem) ∧
    (∀ y n r, l.partialOut = some y → l.inTransit = true → c.hops[p + 1]? = some n → s.link? g n.link = some r →
      n.link ≠ l.id → r.state ≠ .faulted → ∃ t r' l', Acts .handoffArrival s t ∧ t.link? g n.link = some r' ∧
        r'.inbound = (if r.inbound.isSome then r.inbound else some y) ∧ r'.own = r.own ∧ r'.state = r.state ∧
        t.link? g l.id = some l' ∧ l'.inTransit = false ∧ l'.partialOut = some y ∧ t.mem = s.mem) ∧
    (l.state ≠ .done → x.run ≠ .preempted →
      s.links.find? (fun y => y.id == s.arg.id && (s.gang? y.gang).any fun g => g.run != .preempted) = some l →
      ∃ t l', Acts .linkUncorrectableError s t ∧ t.link? g l.id = some l' ∧ l'.state = .faulted ∧ l'.waiting = [] ∧
        l'.own = {} ∧ l'.inbound = none ∧ l'.partialOut = none ∧ (t.chain g k).state = .frozen ∧
        (live → (t.chain g k).cause = .fault ∧ (t.chain g k).left = c.state) ∧ t.mem = s.mem ∧ t.spad = s.spad)

/-- CLOSE_ACT and CLOSE_WRITTEN of a chain whose links have formed their partials: the close begins; then its destination,
a tile of the shape that it had at arming or rows of the scratchpad, holds, in each element of the region, the converted
value of the tail's cell, the chain is CLOSED with its links DONE, and FXF of the closing context takes the chain's flags; a
close waits for the stores of its context that precede it to the banks it writes. ARRAY_WINDOW_START begins the window that holds the present cycle (R159,
R160, R161, R171, R261, R272). -/
def Obligations.ClosesWriteTheirDestination : Prop :=
  (∀ (s : State) (x : Gang) (k : KReg) (arm : CloseArm) (h : Hop) (l : Link) (y : Plane) (c : Ctx) (n : TReg),
    s.gang? s.arg.gang = some x → k = Fin.ofNat 32 s.arg.id → (x.chains.get k).close = some arm →
    ((x.chains.get k).state = .built ∨ (x.chains.get k).state = .active) → (x.chains.get k).hops.getLast? = some h →
    s.link? s.arg.gang h.link = some l → l.partialOut = some y → allFormed s s.arg.gang (x.chains.get k) = true →
    let ch := x.chains.get k
    let g := s.arg.gang
    (∃ t, Acts .closeAct s t ∧ (t.chain g k).close = some { arm with acting := true } ∧ t.links = s.links ∧
      t.mem = s.mem ∧ t.ctx = s.ctx) ∧
    (closeWaits s g ch = true → Acts .closeWritten s s) ∧
    (arm.acting = true → arm.dst = .tile n → s.ctx? { gang := g, gix := arm.gix } = some c → c.fpm = 0 →
      let sh := Shape.ofWord arm.cfg
      let rows := closeRows ch h arm c.nbv y
      ∃ t c', Acts .closeWritten s t ∧ (t.chain g k).state = .closed ∧ (t.chain g k).close = none ∧
        (t.chain g k).written = true ∧ t.ctx? { gang := g, gix := arm.gix } = some c' ∧ c'.oct = c.oct - 1 ∧
        c'.fxf = c.fxf ||| (ch.flags ||| orFlags (rows.flatten.map FR.flags)) ∧ c'.s = c.s ∧ t.mem = s.mem ∧
        t.spad = s.spad ∧ (∀ z ∈ t.links, z.gang = g → z.chain = some k → z.state = .done) ∧
        (∀ m, m ≠ n → c'.t.get m = c.t.get m) ∧
        (sh.valid = true → sh.rows = ch.m → sh.cols = ch.n → sh.fmt = arm.ofmt → ∀ r w, rows[r]? = some w → r < sh.rows →
          ∀ j, j < sh.cols → tileElem c' n sh r j = (w[j]?).map fun e => e.bits % 2 ^ sh.width)) ∧
    (∀ cl off, arm.acting = true → arm.dst = .spad cl off → s.ctx? { gang := g, gix := arm.gix } = some c → c.fpm = 0 →
      s.memOk = true → cl < 32 → off + closeSpan arm.ofmt ch.m ch.n ≤ 0xC00000 → closeWaits s g ch = false →
      let rows := closeRows ch h arm c.nbv y
      let place (i b : Nat) : Nat := cl * 0xC00000 + off + i * closePitch arm.ofmt ch.n + b
      let len := ceilDiv (fmtWidth arm.ofmt * ch.n) 8
      ∃ t c', Acts .closeWritten s t ∧ (t.chain g k).state = .closed ∧ (t.chain g k).close = none ∧
        (t.chain g k).written = true ∧ t.ctx? { gang := g, gix := arm.gix } = some c' ∧ c'.oct = c.oct - 1 ∧
        c'.fxf = c.fxf ||| (ch.flags ||| orFlags (rows.flatten.map FR.flags)) ∧ c'.s = c.s ∧ c'.t = c.t ∧ t.mem = s.mem ∧
        (∀ z ∈ t.links, z.gang = g → z.chain = some k → z.state = .done) ∧
        (∀ i w b, rows[i]? = some w → b < len →
          t.spadAt (place i b) = BitVec.ofNat 8 (joinElems (fmtWidth arm.ofmt) (w.map FR.bits) / 2 ^ (8 * b))) ∧
        ∀ a, (∀ i b, i < rows.length → b < len → a ≠ place i b) → t.spadAt a = s.spadAt a)) ∧
  ∀ (s : State) (a : ArrayUnit), s.arrays.find? (fun a => a.id == s.arg.id) = some a → windowDue s a = true →
    let len := windowCycles a.nextSetting
    ∃ t b, Acts .arrayWindowStart s t ∧ t.arrays.find? (fun a => a.id == s.arg.id) = some b ∧ a.window < b.window ∧
      b.altw = a.nextSetting ∧ b.nextEven = none ∧ b.nextOdd = none ∧ b.start ≤ s.time ∧ s.time < b.start + len ∧
      t.mem = s.mem ∧ t.ctx = s.ctx

namespace Sys2Proof.Claim
open Sys2Proof.Machine

/-- The queue of a context gains a deferred record as R370 has it: in a free record of the eight while enough stay free
for the causes that have none, else in the newest record of its cause. -/
def defers (s t : State) (w : CtxId) (cause : Cause) (faddr : Nat) : Prop :=
  ∀ c, s.ctx? w = some c → c.deferred = [] → ∃ c', t.ctx? w = some c' ∧
    c'.deferred = [{ trapc := BitVec.ofNat 64 (cause.code + faddr % 2 ^ 56 * 256), trapx := 0 }]

/-- Memory and the scratchpads hold the same bytes. -/
def sameBytes (s t : State) : Prop := t.mem = s.mem ∧ t.spad = s.spad

/-- The word of an atomic takes the value that the atomic makes of it, and no other byte changes. -/
def appliesAt (s t : State) (pa : Nat) (x : Atom) : Prop :=
  t.mem.le pa x.ty.bytes = (x.apply (s.mem.le pa x.ty.bytes)).1 % 2 ^ (8 * x.ty.bytes) ∧
    (∀ y, y < pa ∨ pa + x.ty.bytes ≤ y → t.byteAt y = s.byteAt y) ∧ t.spad = s.spad

/-- An atomic in flight that may be performed where place says. -/
def AtomDue (s : State) (a : Access) (x : Atom) (pa : Nat) (place : AtomPlace) : Prop :=
  s.flight? s.arg.id = some a ∧ a.kind = .atom x ∧ a.place = place ∧ a.cells.head? = some pa ∧ mayPerform s a = true

/-- The condition of a blocked context's one wait is over. -/
def Wakes (s : State) (c : Ctx) (ready : Prop) : Prop :=
  (ready → ∃ t, Acts .bundleReissue s t ∧ sameBytes s t ∧ t.ctx? c.id = some { c with status := .ready }) ∧
    (¬ ready → Acts .bundleReissue s s)

end Sys2Proof.Claim

/-- PRESS_ENTRY_ARRIVAL enters a press atomic under its key where the holding buffer has a free entry; a RED is then
performed, and an AMO waits for its value. Where the buffer is full, the entries of one gang are spilled, which writes no
byte outside the run in its spill area; where no gang's spill area can hold its run, or the press of another package has
rejected the atomic, it is rejected and its issuer's ACCESS_FAULT is deferred. PRESS_WINDOW_APPLY takes the oldest closed window of a gang once all
its atomics have been entered and no quiesce is under way, and applies the entries that it holds in key order, those of
other gangs and windows staying; applying an entry performs its atomic at its word (R217 to R219, R406). -/
def Sys2Proof.Claim.PressesEnterAndApplyWindows : Prop :=
  (∀ (s : State) (a : Access) (x : Atom) (pa : Nat), AtomDue s a x pa .press → revoking s a.id = false →
    let slice := pressSlice s pa
    let held := heldEntries s slice
    let enters (press : List PressEntry) (t : State) : Prop := ∃ e, t.press = press ++ [e] ∧
      e.who = a.who ∧ e.seq = a.seq ∧ e.addr = pa ∧ e.atom = x ∧ e.slice = slice ∧ e.spilled = false ∧
      e.amo = (a.cls == .l) ∧ t.gangs = s.gangs ∧ (a.cls = .l → t.flight? a.id = none) ∧
      (a.cls = .s → ∃ f, t.flight? a.id = some f ∧ f.performed = true ∧ f.who = a.who)
    let rejected : Prop := ∃ t, Acts .pressEntryArrival s t ∧ t.press = s.press ∧ t.flight? a.id = none ∧
      sameBytes s t ∧ defers s t a.who .accessFault a.va
    (64 ≤ slice → s.arg.val = 0 → ∃ t, Acts .pressEntryArrival s t ∧ enters s.press t ∧ sameBytes s t) ∧
    (64 ≤ slice → s.arg.val ≠ 0 → rejected) ∧
    (slice < 64 → held.length < 16 → ∃ t, Acts .pressEntryArrival s t ∧ enters s.press t ∧ sameBytes s t) ∧
    (slice < 64 → 16 ≤ held.length → spillGang s held = none → rejected) ∧
    ∀ g y, slice < 64 → 16 ≤ held.length → spillGang s held = some g → s.gang? g = some y → ∃ t,
      Acts .pressEntryArrival s t ∧ t.spad = s.spad ∧
      enters (s.press.map fun e => if e.slice = slice ∧ e.who.gang = g then { e with spilled := true } else e) t ∧
      let n := 32 * (held.filter fun e => e.who.gang == g).length
      let spill : Xl := { priv := true, asid := y.asid.toNat % 2 ^ 16, root := y.ptbase.toNat, tlbs := [],
                          cache := 300 + slice }
      ∀ l u, s.memOk = true → s.hbmNew = [] →
        xlateAll spill .write (byteRange (y.spill + spillUsed s g) n) none { s with freeIx := s.freeIx + 1 } = (.ok l, u) →
        ∀ b, b ∉ l.map Pa.pa → t.byteAt b = s.byteAt b) ∧
  (∀ (s : State) (g : Gang) (w : Window) (rest : List Window), s.gang? s.arg.gang = some g → g.windows = w :: rest →
    windowReady s g.id w = true → s.fleet.step = .idle →
    (∀ e ∈ s.press, e.who.gang = g.id → w.holds e.who.gix e.seq ≠ none) →
    let mine (e : PressEntry) : Bool := e.who.gang == g.id && w.holds e.who.gix e.seq == some true
    ∃ now : List PressEntry, now.Perm (s.press.filter mine) ∧ now.Pairwise (fun a b => b.before a = false) ∧
      Acts .pressWindowApply s (now.foldl applyEntry
        (({ s with press := s.press.filter fun e => !mine e } : State).updGang g.id fun y => { y with windows := rest }))) ∧
  ∀ (s : State) (e : PressEntry), s.memOk = true → s.hbmNew = [] → e.addr % e.atom.ty.bytes = 0 → e.addr < 2 ^ 63 →
    appliesAt s (applyEntry s e) e.addr e.atom ∧ (applyEntry s e).press = s.press ∧
      ∀ g, s.gang? e.who.gang = some g → ((applyEntry s e).gang? e.who.gang).map Gang.rflags =
        some (g.rflags ||| (e.atom.apply (s.mem.le e.addr e.atom.ty.bytes)).2)

/-- A contribution to a reduction window lands, at DETL 1 and above, in its source's staging slot, memory unchanged, and at
DETL FREE joins the accumulator of its element; with neither staging nor spill room it is rejected.
SWITCH_ACCUMULATOR_WRITE performs an accumulated contribution at its word and acknowledges it; a retry of a remote atomic
is invisible (R220, R221, R409). -/
def Sys2Proof.Claim.SwitchesStageAndMerge : Prop :=
  (∀ (s : State) (a : Access) (x : Atom) (pa : Nat), s.arg.sig = [] → AtomDue s a x pa .switch →
    (∀ k ∈ s.fleet.accs, a.id ∉ k.acks) →
    let plane := furrowOf s pa
    (1 ≤ a.detl → ∀ spilled, stagePlace s plane pa = some spilled → ∃ t y f, Acts .switchContribution s t ∧
      sameBytes s t ∧ t.fleet.staged = s.fleet.staged ++ [y] ∧ y.addr = pa ∧ y.pkg = s.pkg ∧ y.gang = a.who.gang ∧
      y.gix = a.who.gix ∧ y.seq = a.seq ∧ y.atom = x ∧ y.plane = plane ∧ y.spilled = spilled ∧
      t.flight? a.id = some f ∧ f.performed = true) ∧
    (1 ≤ a.detl → stagePlace s plane pa = none → ∃ t, Acts .switchContribution s t ∧ sameBytes s t ∧
      t.fleet = s.fleet ∧ t.flight? a.id = none ∧ defers s t a.who .accessFault a.va) ∧
    (a.detl = 0 → s.fleet.accs = [] → ∃ t k, Acts .switchContribution s t ∧ sameBytes s t ∧ t.flights = s.flights ∧
      t.fleet.accs = [k] ∧ k.addr = pa ∧ k.plane = plane ∧ k.atoms = [x] ∧ k.acks = [a.id])) ∧
  (∀ (s : State) (k : SwitchAcc) (x : Atom) (i : Nat) (a : Access), s.memOk = true → s.hbmNew = [] →
    s.fleet.accs.find? (fun k => k.addr == s.arg.val && planeSends s k.plane) = some k → k.atoms = [x] → k.acks = [i] → s.flight? i = some a →
    k.addr % x.ty.bytes = 0 → k.addr < 2 ^ 63 → ∃ t f, Acts .switchAccumulatorWrite s t ∧ appliesAt s t k.addr x ∧
      t.fleet.accs = s.fleet.accs.erase k ∧ t.flight? i = some f ∧ f.performed = true) ∧
  ∀ s : State, Acts .remoteAtomicRetry s s

/-- BUNDLE_REISSUE makes a blocked context ready as soon as what its bundle waits for has come, and not before: counts at
or below their limits, a complete token, a flag set that the wait names, a completed commit round, an acknowledged INVR,
engine-queue room. TIMED_WAIT_EXPIRY does it for a timed wait whose expiry cycle has passed, and FENCE_SYS_ACKNOWLEDGE
marks a FENCE.sys once every earlier access has been performed and acknowledged and no quiesce is under way (R18, R118,
R224, R228, R248, R251, R406). -/
def Sys2Proof.Claim.BlockedContextsWakeWhenTheirWaitIsOver : Prop :=
  (∀ (s : State) (c : Ctx) (b : Block), s.ctx? s.argCtx = some c → c.status = .blocked [b] →
    (∀ l t p k, b = .counts l t p k → Wakes s c (c.ocl ≤ l ∧ c.ocs ≤ t ∧ c.occ ≤ p ∧ c.oct ≤ k)) ∧
    (∀ q : QReg, b = .token q.val → Wakes s c ((c.q.get q).done = true)) ∧
    (∀ pa m any, b = .flag pa m any false → Wakes s c
      (m = 0 ∨ if any then leAt (granuleBytes s (pa / 64)) 0 8 &&& m ≠ 0 else leAt (granuleBytes s (pa / 64)) 0 8 &&& m = m)) ∧
    (∀ r g, b = .commit r → s.gang? c.id.gang = some g → Wakes s c (r ≤ g.commitRounds)) ∧
    (∀ r g, b = .pressFence r → s.gang? c.id.gang = some g → Wakes s c (r ≤ g.fenceRounds ∧ g.windows = [])) ∧
    (∀ i, b = .invr i → Wakes s c (∀ v ∈ s.invals, v.id ≠ i)) ∧
    (∀ e place, b = .engineQueue e place → Wakes s c (queueFull s e place = false)) ∧
    (∀ n g, b = .barrier n false → s.gang? c.id.gang = some g →
      Wakes s c ((c.bar.get (Fin.ofNat 16 n)).arrph ≠ some (g.barriers.get (Fin.ofNat 16 n)).phase ∧ g.windows = []))) ∧
  (∀ (s : State) (c : Ctx) (b : Block) (p : Progress) (e : Nat), s.ctx? s.argCtx = some c → c.status = .blocked [b] →
    ((∃ n, b = .barrier n true) ∨ ∃ pa m any, b = .flag pa m any true) → p ∈ c.prog → p.pc = c.pc → p.expiry = some e →
    p.met = false → e < s.time → ∃ t c' q, Acts .timedWaitExpiry s t ∧ sameBytes s t ∧ t.ctx? c.id = some c' ∧
      c'.status = .ready ∧ c'.pc = c.pc ∧ c'.s = c.s ∧ q ∈ c'.prog ∧ q.pc = c.pc ∧ q.expired = true) ∧
  ∀ (s : State) (c : Ctx) (l : List Block) (p : Progress), s.ctx? s.argCtx = some c → c.status = .blocked l →
    l.contains .fenceSys = true → p ∈ c.prog → p.pc = c.pc → p.expiry = none →
    (fenceClear s c = true → s.fleet.step = .idle → ∃ t c', Acts .fenceSysAcknowledge s t ∧ sameBytes s t ∧
      t.ctx? c.id = some c' ∧ c'.status = c.status ∧ c'.s = c.s ∧ blockDone t c' .fenceSys = true) ∧
    (fenceClear s c = false ∨ s.fleet.step ≠ .idle → Acts .fenceSysAcknowledge s s)

/-- TABLE_WALK_COMPLETE fills the TLBs of its core and cluster with the leaf that the walk finds, where the walk cache holds
no older entry, and with nothing where it finds none or where an INVR's invalidation point has passed since it began. INVR_ACKNOWLEDGE first, once the issuer's
earlier accesses have drained, drops each TLB entry whose page meets the range and whose ASID matches, and then, once
what was translated through them has drained, ends the INVR (R361, R364 to R366). -/
def Sys2Proof.Claim.WalksFillAndInvrDropsTranslations : Prop :=
  (∀ (s : State) (w : Walk), s.walks.find? (fun w => w.id == s.arg.id) = some w →
    let fresh := s.walkCache = [] ∧ s.hbmNew = []
    ∃ t, Acts .tableWalkComplete s t ∧ t.walks = s.walks.filter (fun x => x.id != w.id) ∧ (s.hbmNew = [] → sameBytes s t) ∧
    t.flights = s.flights ∧ (w.stale = true → t.tlb = s.tlb) ∧ (fresh → walkRoot s w.root w.va = none → t.tlb = s.tlb) ∧
    ∀ l, fresh → w.stale = false → walkRoot s w.root w.va = some l → ∀ k place, (k, place) = (0, w.core) ∨ (k, place) = (1, w.cl) →
      ∃ e ∈ t.tlb, e.kind = k ∧ e.place = place ∧ e.page = w.va / l.size ∧ e.size = l.size ∧ e.leaf = l.entry ∧
        e.asid = if l.entry.testBit 8 then none else some w.asid) ∧
  ∀ (s : State) (v : Invalidation), s.invals.find? (fun v => v.id == s.arg.id) = some v →
    (v.points = false → (∀ c, s.ctx? v.who = some c → fenceClear s c = true) → s.fleet.step = .idle →
      ∃ t u, Acts .invrAcknowledge s t ∧ sameBytes s t ∧ (∀ k ∈ t.walkCache, k ∈ s.walkCache ∧ dropsWalkCopy v k = false) ∧
        t.invals.find? (fun v => v.id == s.arg.id) = some u ∧
        u.points = true ∧ u.who = v.who ∧
        t.tlb = s.tlb.filter fun e => !(decide (0 < v.len) && decide (e.page * e.size < v.lo + v.len) &&
          decide (v.lo < (e.page + 1) * e.size) && (v.asid.isNone || e.asid.isNone || e.asid == v.asid))) ∧
    (v.points = true → v.waits.all (drained s) = true →
      Acts .invrAcknowledge s { s with invals := s.invals.filter fun x => x.id != v.id }) ∧
    (v.points = true → v.waits.all (drained s) = false → Acts .invrAcknowledge s s)

/-- DEFERRED_TRAP_DELIVERY takes the waiting record of the lowest cause code, the earliest of equal ones, at the bundle boundary: TRAPC and TRAPX from
the record, TRAPPC the bundle that it precedes, SLOT 0, privileged mode, PC the handler; the record leaves the queue. A
queue that keeps a free record for every cause without one stays so, and always holds a record of each cause that has
become due (R370). -/
def Sys2Proof.Claim.DeferredTrapsQueueAndDeliver : Prop :=
  (∀ s : State, s.ctx.live = true → s.ctx.id = s.argCtx → deferredDue s.ctx = true → s.ctx.tvec ≠ 0 →
    ∃ t d before after, Acts .deferredTrapDelivery s t ∧ s.ctx.deferred = before ++ d :: after ∧
      (∀ e ∈ before, d.code < e.code) ∧ (∀ e ∈ after, d.code ≤ e.code) ∧
      t = { s with ctx := { s.ctx with
        deferred := before ++ after, trapc := d.trapc, trapx := d.trapx, trapo := 0,
        trappc := BitVec.ofNat 64 (s.ctx.pc.toNat % 2 ^ 56 / 16 * 16), mode := .privileged, pc := s.ctx.tvec,
        harrow := t.ctx.harrow } }) ∧
  ∀ (q : List Deferred) (d : Deferred), d.code ∈ deferredCauses → q.length ≤ 8 → absentCauses q ≤ 8 - q.length →
    let r := enqueueDeferred q d
    r.length ≤ 8 ∧ absentCauses r ≤ 8 - r.length ∧ (∃ e ∈ r, e.code = d.code) ∧ ∀ e ∈ q, ∃ f ∈ r, f.code = e.code

/-- CONTEXT_SLOT_FREE frees the slot of an exited context with nothing outstanding; SLICE_SWITCH turns a time-sliced
physical cluster over to its other logical cluster, where that has a ready context, no contribution waits on the one
that runs, none of its bundles stands between two replacements, and it has none ready or has had its 32,768 cycles: its
contexts, the running marks among them, stand as they did; HARROW_DECISION ends the harrow delay of a context and settles
once, for the head in the bundle at PC, which entry of the cluster's table applies (R16, R18, R20, R121, R301, R308). -/
def Sys2Proof.Claim.SlotsSlicesAndHarrowDecide : Prop :=
  (∀ (s : State) (c : Ctx), s.ctx? s.argCtx = some c → c.status = .exited → c.ocl = 0 → c.ocs = 0 → c.occ = 0 → c.oct = 0 →
    (s.ctx.live = true ∧ s.ctx.id = s.argCtx → Acts .contextSlotFree s { s with ctx := { s.ctx with live := false } }) ∧
    (s.ctx.live = false ∨ s.ctx.id ≠ s.argCtx → ∃ t, Acts .contextSlotFree s t ∧ t.ctx? s.argCtx = none ∧
      t = { s with others := t.others } ∧ ∀ d ∈ s.others, d.id ≠ s.argCtx → d ∈ t.others)) ∧
  (∀ (s : State) (a b since : Nat), sharing s s.arg.id = [a, b] ∨ sharing s s.arg.id = [b, a] → a ≠ b →
    sliceOf s s.arg.id = (a, since) → hasReady s b = true → (∀ l ∈ s.links, l.id / 8 = a → l.waiting = []) →
    (∀ c ∈ s.allCtx, c.lc = a → ∀ d, c.harrow.decided = some d → d.handed = false) →
    hasReady s a = false ∨ since + 32768 ≤ s.time →
    ∃ t, Acts .sliceSwitch s t ∧ sliceOf t s.arg.id = (b, s.time) ∧ t = { s with granary := t.granary } ∧
      (∀ p, p ≠ s.arg.id → (t.granary.slices.find? fun x => x.1 == p) = s.granary.slices.find? fun x => x.1 == p)) ∧
  ∀ (s : State) (c : Ctx), s.ctx? s.argCtx = some c →
    (c.harrow.delay ≠ some c.pc → Acts .harrowDecision s s) ∧
    (c.harrow.delay = some c.pc → ∃ t d, Acts .harrowDecision s t ∧
      t = s.updCtx c.id (fun x => { x with harrow := { x.harrow with decided := some d, delay := none } }) ∧
      d.pc = c.pc ∧ (s.rules.find? (fun x => x.cluster == c.pc8) = none → d.rule = none) ∧
      ∀ i, d.rule = some i → ∃ x e, s.rules.find? (fun x => x.cluster == c.pc8) = some x ∧
        x.entries[i]? = some (some e) ∧ e.minNbv ≤ c.nbv ∧ permitted c e.cls = true ∧
        d.origins.length = e.elems.length ∧ d.repls.length = e.repls.length)

namespace Sys2Proof.Claim
open Sys2Proof.Machine

/-- A gang is ended with a status: a gang that was not being killed is, no context of it stays, and memory stands. -/
def Ends (ev : Instr) (s : State) (g : Nat) (status : Nat) : Prop :=
  ∃ t, Acts ev s t ∧ t.gangCtx g = [] ∧ sameBytes s t ∧ (∀ c ∈ t.saved, c.id.gang ≠ g) ∧
    (∀ c ∈ s.others, c.id.gang ≠ g → c ∈ t.others) ∧
    ∀ x, s.gang? g = some x → (∀ k, x.run ≠ .killing k) → (t.gang? g).map Gang.run = some (.killing status)

/-- Nothing changes but the trap record, mode, pc and harrow window of the context in focus, which enters its handler for a
cause at a bundle boundary, SLOT 0. -/
def EntersAtBoundary (s t : State) (cause : Cause) (faddr : Nat) : Prop :=
  t.ctx.trapc.toNat % 64 = cause.code ∧ t.ctx.trapc.toNat / 256 = faddr % 2 ^ 56 ∧ t.ctx.trapc.getLsbD 7 = false ∧
    t.ctx.trappc.toNat = s.ctx.pc.toNat % 2 ^ 56 / 16 * 16 ∧ t.ctx.trapx.toNat % 4 = 0 ∧ t.ctx.mode = .privileged ∧
    t.ctx.pc = s.ctx.tvec ∧ t.ctx.s = s.ctx.s ∧ t.ctx.p = s.ctx.p ∧ t.ctx.v = s.ctx.v ∧ sameBytes s t

end Sys2Proof.Claim

/-- A word of no assigned encoding traps with ILLEGAL_INSTR and the word in XINFO. A bundle that cannot be fetched traps at
the boundary before it, behind the deferred traps that are due there: ACCESS_FAULT beyond 2^56 or on a page without execute permission, PAGE_FAULT where no leaf
translates, FADDR the address (R95, R114, R207, R361, R362, R370). -/
def Sys2Proof.Claim.IllegalWordsAndUnfetchedBundlesTrap : Prop :=
  (∀ s : State, s.ctx.live = true → decode s.bun.word s.bun.ext = .error .illegalInstr →
    Acts .unassignedEncoding s
      ((slotTrap s { cause := .illegalInstr, xinfo := s.bun.word }).ended .trapped)) ∧
  (∀ (s s1 : State) (e : TrapInfo), s.ctx.live = true → s.ctx.status = .ready → deferredDue s.ctx = false →
    fetchBundle s s.ctx s.ctx.pc = (.error e, s1) → s.ctx.tvec ≠ 0 → s.ctx.mode = .user →
    ∃ t, Acts .bundleFetchFault s t ∧ EntersAtBoundary s t e.cause e.faddr) ∧
  ∀ (s : State) (c : Ctx) (pc : Word), s.tlb = [] → s.walkCache = [] → s.hbmNew = [] →
    let va := pc.toNat
    (2 ^ 56 ≤ va → (fetchBundle s c pc).1 = .error { cause := .accessFault, faddr := va % 2 ^ 56 }) ∧
    (va < 2 ^ 56 → walkRoot s c.ptbase.toNat va = none →
      (fetchBundle s c pc).1 = .error { cause := .pageFault, faddr := va % 2 ^ 56 }) ∧
    ∀ l, va < 2 ^ 56 → walkRoot s c.ptbase.toNat va = some l →
      (leafPermits (c.mode == .privileged) .fetch l.entry = false →
        (fetchBundle s c pc).1 = .error { cause := .accessFault, faddr := va % 2 ^ 56 }) ∧
      (leafPermits (c.mode == .privileged) .fetch l.entry = true → paKind s (leafPa l va) = .hbm →
        paNorm s (leafPa l (va / l.size * l.size)) + l.size ≤ s.saveBase →
        (fetchBundle s c pc).1 = .ok (bundleWords (s.mem.bytes (paNorm s (leafPa l va)) 16)))

/-- A parity error is repaired from the last 16 bundles of its context, and only counted; one whose producer has left them,
and an uncorrectable one, leaves the register bad and every other register as it was. A slot that reads a bad register, its
predicate among them, takes REGISTER_UNCORRECTABLE as it issues; one that reads none runs its instruction (R381, R413,
R414). -/
def Sys2Proof.Claim.RegisterErrorsReplayOrTrap : Prop :=
  (∀ (s : State) (c : Ctx), s.ctx? s.argCtx = some c → (∃ l ∈ c.recent, s.arg.reg ∈ l) →
    ∃ n, Acts .registerParityReplay s { s with mgmt := { s.mgmt with parityRepaired := n } } ∧
      n = if s.mgmt.parityRepaired + 1 < 2 ^ 64 then s.mgmt.parityRepaired + 1 else 2 ^ 64 - 1) ∧
  (∀ (s : State) (c : Ctx) (ev : Instr), s.ctx? s.argCtx = some c →
    ev = .registerParityReplay ∧ (∀ l ∈ c.recent, s.arg.reg ∉ l) ∨
      ev = .registerUncorrectable →
    ∃ t c', Acts ev s t ∧ sameBytes s t ∧ t.ctx? s.argCtx = some c' ∧ s.arg.reg ∈ c'.badRegs ∧ c'.pc = c.pc ∧
      (∀ r ∈ c.badRegs, r ∈ c'.badRegs) ∧ (∀ i, s.arg.reg ≠ .s i → c'.s.get i = c.s.get i) ∧
      (∀ i, s.arg.reg ≠ .v i → c'.v.get i = c.v.get i) ∧ ∀ i, s.arg.reg ≠ .p i → c'.p.getLsbD i.val = c.p.getLsbD i.val) ∧
  ∀ (s : State) (x : Issued),
    let on := xor (rdP s x.slot.pred) x.slot.neg = true
    let reads (r : Res) : Prop := (x.slot.pred ≠ 0 ∧ r = .p x.slot.pred) ∨
      (on ∧ ∃ i a, x.slot.ins = some i ∧ a ∈ slotReads i ∧ s.src.phys a = r)
    ((∃ r ∈ s.src.badRegs, reads r) → x.slot.no < 4 → s.ctx.tvec ≠ 0 → s.ctx.mode = .user →
      ∃ t, runIssued x s = .next t ∧ t.bun.status = .trapped ∧ t.ctx.trapc.toNat % 64 = 0x29 ∧
        t.ctx.trappc.toNat = s.src.pc.toNat % 2 ^ 56 / 16 * 16 ∧ t.ctx.trapx.toNat % 4 = x.slot.no ∧
        t.ctx.mode = .privileged ∧ t.ctx.pc = s.ctx.tvec ∧ t.ctx.s = s.ctx.s ∧ t.ctx.badRegs = s.ctx.badRegs ∧
        sameBytes s t) ∧
    ((∀ r ∈ s.src.badRegs, ¬reads r) → ∀ i, x.slot.ins = some i → runIssued x s = exec i (atSlot s x))

/-- ERROR_CONSUMED kills the gang with status 0x68 where the consumer has no open phase, a phase has aborted three times
already, or, while the gang aborts, in the recopy or where the consumer has no open phase; another consumer changes nothing
while the gang aborts; else the gang begins to abort: its ready contexts stop, one whose tile transfer the event names at the
row that it names, and no queued command of it stays (R382, R383). -/
def Sys2Proof.Claim.ErrorsAbortPhasesOrKill : Prop :=
  (∀ (s : State) (c : Ctx) (g : Gang), s.ctx? s.argCtx = some c → s.gang? s.arg.gang = some g →
    (g.aborting = true → s.arg.val ≠ 0 ∨ c.phase = none → Ends .errorConsumed s g.id 0x68) ∧
    (g.aborting = true → s.arg.val = 0 → c.phase ≠ none →
      Acts .errorConsumed s (s.updCtx c.id fun x => { x with poisoned := false })) ∧
    (g.aborting = false → c.phase = none ∨ (∃ x ∈ s.gangCtx g.id, ∃ f, x.phase = some f ∧ 3 ≤ f.aborts) →
      Ends .errorConsumed s g.id 0x68) ∧
    (g.aborting = false → c.phase ≠ none → (∀ x ∈ s.gangCtx g.id, ∀ f, x.phase = some f → f.aborts < 3) →
      ∃ t, Acts .errorConsumed s t ∧ sameBytes s t ∧ (t.gang? g.id).map Gang.aborting = some true ∧
        (∀ k ∈ t.cmds, k.who.gang = g.id → k.started = true) ∧
        ∀ w x, w.gang = g.id → s.ctx? w = some x → x.status = .ready → x.inSpan = false →
          (∀ p ∈ rowStops s.arg.data, p.1 ≠ w.gix) ∨ x.running = false →
          ∃ y, t.ctx? w = some y ∧ y.status = .stopped [] ∧ y.running = false ∧ y.pc = x.pc ∧ y.s = x.s))

/-- PHASE_RESTART, once the gang has come to rest, drops every arrival, and puts each context with an open phase back to its
checkpoint at its restart point with its parity unchanged, no register that the checkpoint holds being in error; that its mode stays is the model's reading (DEDUCED, log 45)
(R382). -/
def Sys2Proof.Claim.PhaseRestartReturnsToTheCheckpoint : Prop :=
  ∀ (s : State) (g : Gang), s.gang? s.arg.gang = some g → g.aborting = true → s.hbmNew = [] →
    abortReady (s.updGangCtx g.id fun c => if c.rowStop.isSome then c else c.stopNow) g = true →
    (∀ c ∈ s.gangCtx g.id, c.phase ≠ none ∨ c.status = .exited) →
    ∃ t, Acts .phaseRestart s t ∧ t.mem = s.mem ∧ (t.gang? g.id).map Gang.aborting = some false ∧
      (∀ x, t.gang? g.id = some x → x.windows = [] ∧ ∀ b : Fin 16, (x.barriers.get b).arrivals = 0) ∧
      (∀ e ∈ t.press, e.who.gang ≠ g.id) ∧
      ∀ w c f, w.gang = g.id → s.ctx? w = some c → c.status ≠ .exited → c.phase = some f →
        ∃ y, t.ctx? w = some y ∧ y.status = .ready ∧ y.pc = f.restart ∧ y.parity = c.parity ∧
          y.phase = some { f with aborts := f.aborts + 1 } ∧ y.s = f.chk.s ∧ y.p = f.chk.p ∧ y.pass = f.chk.pass ∧
          y.fpm = f.chk.fpm ∧ y.fxf = f.chk.fxf ∧ y.vshape = f.chk.vshape ∧ y.sc = f.chk.sc ∧ y.rbs = f.chk.rbs ∧
          y.rbv = f.chk.rbv ∧ y.v = c.v ∧ y.mode = c.mode ∧
          ∀ r ∈ y.badRegs, r ∈ c.badRegs ∧ (∀ i, r ≠ .s i) ∧ ∀ i, r ≠ .p i

/-- DEADLOCK_DELIVERY takes DEADLOCK precisely at the blocked bundle of a context on a reported cycle, an arrival of that
bundle withdrawn without marking the context DROPPED; and an uncorrectable error in a DETL DUAL shadow, or in a save block, fails the node with REGISTER_UNCORRECTABLE's status 0x69 (R378, R384, R420). -/
def Sys2Proof.Claim.DeadlockAndSavedDataErrors : Prop :=
  (∀ (s : State) (b : Block), s.ctx.live = true → s.ctx.id.gang = s.arg.gang → s.ctx.id ∈ s.mgmt.reported →
    (∀ c ∈ s.others, c.id ∉ s.mgmt.reported) → s.ctx.status = .blocked [b] → s.ctx.tvec ≠ 0 → s.ctx.mode = .user →
    ∃ t, Acts .deadlockDelivery s t ∧ EntersAtBoundary s t .deadlock 0 ∧ t.ctx.status = .ready ∧
      s.ctx.id ∉ t.mgmt.reported ∧
      ∀ (n : Fin 16) (timed : Bool) (g : Gang), b = .barrier n.val timed → s.gang? s.ctx.id.gang = some g →
        (s.ctx.bar.get n).arrph = some (g.barriers.get n).phase → (∃ p ∈ s.ctx.prog, p.pc = s.ctx.pc ∧ p.bar = some n.val) →
        (t.ctx.bar.get n).arrph = none ∧ (t.ctx.bar.get n).dropped = (s.ctx.bar.get n).dropped ∧
          (t.gang? s.ctx.id.gang).map (fun x => (x.barriers.get n).arrivals) = some ((g.barriers.get n).arrivals - 1)) ∧
  (∀ (s : State) (g : Gang), s.gang? s.arg.gang = some g → g.detl = 3 →
    Ends .dualShadowError s g.id 0x69) ∧
  ∀ (s : State) (g : Gang), s.gang? s.arg.gang = some g → g.run = .preempting ∨ g.run = .preempted →
    Ends .saveBlockError s g.id 0x69

namespace Sys2Proof.Claim
open Sys2Proof.Machine

/-- Memory differs only in that bytes d stand from an address on. -/
def wrote (s t : State) (pa : Nat) (d : List Byte) : Prop :=
  ∀ x, t.byteAt x = if pa ≤ x ∧ x < pa + d.length then d.getD (x - pa) 0 else s.byteAt x

/-- The device reads what homes hold, and the descriptor of the queue has one name. -/
def DescPlain (s : State) (q : Nat) : Prop :=
  s.memOk = true ∧ s.hbmNew = [] ∧ descAt s q 64 ≤ 2 ^ 63 ∧ ∀ i, i < 64 → paNorm s (descAt s q i) = descAt s q i

/-- The packet at the head of a queue, which the device may take (16 R347). -/
def HeadIs (s : State) (q : Nat) (d : List Byte) : Prop :=
  let x := s.queue q
  (headPacket s q).1 = d ∧ x.en = true ∧ x.err = false ∧ x.head ≠ x.tail ∧ detsetAtHead x = false ∧ s.granary.go = false ∧
    (leAt d 1 1 % 2 = 1 → ∀ p ∈ s.granary.packets, p.queue ≠ q)

/-- HEAD passes the packet, in the device and in the descriptor, and no other byte of memory changes. -/
def HeadMoves (s t : State) (q : Nat) : Prop :=
  (t.queue q).head = (s.queue q).head + 1 ∧ wrote s t (descAt s q 0x28) (toBytes 4 ((s.queue q).head + 1).toNat)

end Sys2Proof.Claim

/-- A doorbell of a function that sees the queue is kept; with EN clear in the descriptor the queue is off; a queue enabled
again starts with HEAD and TAIL 0 and the descriptor's level; a doorbell that moves TAIL forward within the ring moves it,
one beyond sets ERR, in the descriptor too, and moves nothing, and one that is stale, 0 or 2^31 and more ahead, changes
neither (R344, R346). -/
def Sys2Proof.Claim.DoorbellsMoveTailOrSetErr : Prop :=
  ∀ (s : State) (q : Nat), q = s.arg.id → q < 65536 → seesQueue s s.arg.gix q = true → s.mgmt.boot = 5 → DescPlain s q →
    let v : BitVec 32 := BitVec.ofNat 32 s.arg.val
    let d := (devRead s (descAt s q 0) 64).1
    let x := s.queue q
    let size := leAt d 8 4
    ∃ t, Acts .doorbell s t ∧ t.granary.doorbells.find? (fun y => y.1 == q) = some (q, v) ∧
      (leAt d 0xF 1 % 2 = 0 → (t.queue q).en = false ∧ t.mem = s.mem) ∧
      (leAt d 0xF 1 % 2 = 1 → x.en = true → x.err = false → (v - x.tail).toNat = 0 ∨ 2 ^ 31 ≤ (v - x.tail).toNat →
        t.queue q = x ∧ t.mem = s.mem) ∧
      (leAt d 0xF 1 % 2 = 1 → x.en = true → x.err = false → 0 < (v - x.tail).toNat → (v - x.tail).toNat < 2 ^ 31 →
        ((v - x.tail).toNat + (x.tail - x.head).toNat ≤ size → t.queue q = { x with tail := v } ∧ t.mem = s.mem) ∧
        (size < (v - x.tail).toNat + (x.tail - x.head).toNat → t.queue q = { x with err := true } ∧
          wrote s t (descAt s q 0xF) (toBytes 1 (desc s q 0xF 1 ||| 2)))) ∧
      (leAt d 0xF 1 % 2 = 1 → x.en = false → 0 < v.toNat → v.toNat ≤ size → v.toNat < 2 ^ 31 →
        (t.queue q).en = true ∧ (t.queue q).err = false ∧ (t.queue q).head = 0 ∧ (t.queue q).tail = v ∧
          (t.queue q).detl = leAt d 0xE 1 % 4 ∧ wrote s t (descAt s q 0x28) [0, 0, 0, 0])

/-- Packets are taken at HEAD. A NOP only moves HEAD and, with CMP, posts a KIND-3 entry with its TAG; an unknown type sets
ERR; a NODE packet whose record reads and fits admits one ready node at the higher of the record's and the queue's level,
and one whose header does not translate posts a rejection with reason 5, and its KIND-3 entry counts one failed node; a
DETSET packet holds the queue for its level (R347, R348, R351, R353, R356, R357). -/
def Sys2Proof.Claim.PacketsAreTakenAtHead : Prop :=
  ∀ (s : State) (q : Nat) (d : List Byte), q = s.arg.id → DescPlain s q → HeadIs s q d →
    let cmp := leAt d 1 1 / 2 % 2 = 1
    let tag : BitVec 64 := BitVec.ofNat 64 (leAt d 0x10 8)
    let asid : Word := BitVec.ofNat 64 (desc s q 0xC 2)
    let root : Word := BitVec.ofNat 64 (desc s q 0x10 8 % 2 ^ 52 / 2 ^ 12 * 2 ^ 12)
    let fresh := (∀ n ∈ s.granary.nodes, n.id < s.nextId ∧ n.packet < s.nextId) ∧
      ∀ p ∈ s.granary.packets, p.packet < s.nextId
    (leAt d 0 1 = 0 → ∃ t, Acts .nopPacket s t ∧ HeadMoves s t q ∧
      (¬cmp → (t.queue q).events = (s.queue q).events) ∧
      (cmp → ∃ n, (t.queue q).events = (s.queue q).events ++ [entryBytes 3 n 0 tag 0 s.time])) ∧
    (4 ≤ leAt d 0 1 → ∃ t, Acts .nopPacket s t ∧ t.queue q = { s.queue q with err := true } ∧
      wrote s t (descAt s q 0xF) (toBytes 1 (desc s q 0xF 1 ||| 2))) ∧
    (leAt d 0 1 = 3 → ∃ t, Acts .detsetPacket s t ∧ HeadMoves s t q ∧ (t.queue q).detWait = some (leAt d 2 1 % 4)) ∧
    (leAt d 0 1 = 1 → admitted s < 16384 →
      (∀ r crec s1, readNode s asid root (leAt d 8 8) = (.ok r, crec, s1) → max r.detl (s.queue q).detl ≠ 3 →
        fitsEmpty s r ((imageOf s asid r.text).elim 0 ImageRec.mask) = true → fresh →
        ∃ t n, Acts .nodePacket s t ∧ HeadMoves s t q ∧ t.granary.nodes = s.granary.nodes ++ [n] ∧ n.queue = q ∧
          n.index = 0 ∧ n.tag = tag ∧ n.rec? = some r ∧ n.state = .ready s.time ∧
          n.cls = r.prio ∧ n.level = max r.detl (s.queue q).detl ∧ n.asid = asid ∧ n.ptbase = root ∧ n.crec = crec ∧
          ∃ p, t.granary.packets = s.granary.packets ++ [p] ∧ p.queue = q ∧ p.packet = n.packet ∧ p.tag = tag ∧
            p.cmp = decide cmp) ∧
      ((devLoad s asid root (leAt d 8 8) 64).1 = none → fresh → ∃ t, Acts .nodePacket s t ∧ HeadMoves s t q ∧
        t.granary.nodes = s.granary.nodes ∧ t.granary.packets = s.granary.packets ∧
        (cmp → ∃ a b, (t.queue q).events = (s.queue q).events ++
          [entryBytes 1 0x85 0 tag 0 s.time, entryBytes 3 a b tag 1 s.time]) ∧
        (¬cmp → (t.queue q).events = (s.queue q).events)))

/-- A GRAPH packet whose graph reads, has no cycle or bad edge, and whose node records all pass, admits its nodes joined by
the edges: one without predecessors is ready, each other one waits for its predecessors. One whose header reads and whose
node addresses do not admits no node, and its KIND-3 entry counts every node of the header as failed (DEDUCED, log 50). A
change of level
takes effect once no earlier packet of the queue is left, and is written to the descriptor (R347, R348, R352, R353,
R357). -/
def Sys2Proof.Claim.GraphsAreAdmittedAndLevelsChange : Prop :=
  (∀ (s s1 s2 s3 s4 : State) (q nn ne : Nat) (d h a e : List Byte) (l : List (Node × Option Nat)), q = s.arg.id →
    DescPlain s q → HeadIs s q d → leAt d 0 1 = 2 →
    let asid : Word := BitVec.ofNat 64 (desc s q 0xC 2)
    let root : Word := BitVec.ofNat 64 (desc s q 0x10 8)
    let va := leAt d 8 8
    devLoad s asid root va 16 = (some h, s1) → nn = leAt h 0 2 → ne = leAt h 2 2 → 1 ≤ nn → nn ≤ 4096 →
    admitted s + nn ≤ 16384 → devLoad s1 asid root (va + 16) (8 * nn) = (some a, s2) →
    devLoad s2 asid root (va + 16 + 8 * nn) (4 * ne) = (some e, s3) → graphReason h nn (parseEdges e ne) = none →
    admitNodes q d none ((List.range nn).map fun i => (i, leAt a (8 * i) 8)) s3 = (l, s4) → (∀ p ∈ l, p.2 = none) →
    let ids (f : Nat × Nat → Bool) (g : Nat × Nat → Nat) : List Nat :=
      ((parseEdges e ne).filter f).filterMap fun x => (l[g x]?).map fun p => p.1.id
    ∃ t ns, Acts .graphPacket s t ∧ HeadMoves s t q ∧ t.granary.nodes = s.granary.nodes ++ ns ∧ ns.length = nn ∧
      ∀ i p, l[i]? = some p → ∃ n, ns[i]? = some n ∧ n.id = p.1.id ∧ n.index = i ∧ n.rec? = p.1.rec? ∧
        n.succs = ids (fun x => x.1 == i) Prod.snd ∧
        n.state = (if ids (fun x => x.2 == i) Prod.fst = [] then .ready s.time
          else .waiting (ids (fun x => x.2 == i) Prod.fst))) ∧
  (∀ (s s1 : State) (q nn : Nat) (d h : List Byte), q = s.arg.id → DescPlain s q → HeadIs s q d → leAt d 0 1 = 2 →
    (∀ n ∈ s.granary.nodes, n.id < s.nextId ∧ n.packet < s.nextId) → (∀ p ∈ s.granary.packets, p.packet < s.nextId) →
    let asid : Word := BitVec.ofNat 64 (desc s q 0xC 2)
    let root : Word := BitVec.ofNat 64 (desc s q 0x10 8)
    let va := leAt d 8 8
    devLoad s asid root va 16 = (some h, s1) → nn = leAt h 0 2 → 1 ≤ nn → nn ≤ 4096 → admitted s + nn ≤ 16384 →
    (devLoad s1 asid root (va + 16) (8 * nn)).1 = none → leAt d 1 1 / 2 % 2 = 1 →
    ∃ t more k i, Acts .graphPacket s t ∧ HeadMoves s t q ∧ t.granary.nodes = s.granary.nodes ∧
      t.granary.packets = s.granary.packets ∧ (t.queue q).events = (s.queue q).events ++ more ++
        [entryBytes 3 k i (BitVec.ofNat 64 (leAt d 0x10 8)) nn s.time]) ∧
  ∀ (s : State) (q : Nat), q = s.arg.id → DescPlain s q →
    ((∃ p ∈ s.granary.packets, p.queue = q) → Acts .detsetTakesEffect s s) ∧
    ((∀ p ∈ s.granary.packets, p.queue ≠ q) →
      (∀ l, (s.queue q).detWait = some l → ∃ t, Acts .detsetTakesEffect s t ∧
        t.queue q = { s.queue q with detWait := none, detl := l } ∧ wrote s t (descAt s q 0xE) (toBytes 1 l)) ∧
      ∀ i, (s.queue q).detWait = none → (s.queue q).insns.find? (fun i => i.1 == (s.queue q).head) = some i →
        ∃ t, Acts .detsetTakesEffect s t ∧
          t.queue q = { s.queue q with insns := (s.queue q).insns.erase i, detl := i.2 } ∧
          wrote s t (descAt s q 0xE) (toBytes 1 i.2))

/-- COMPLETION_ENTRY_WRITE writes the oldest entry of a queue at CTAIL of its ring where that has room, advances CTAIL and
raises the queue's vector; a full ring holds it back. A REMAP entry written to name a die that is not fitted, or a third
logical cluster for one physical cluster, is ignored; one written with the value that it has is no write, so a write that
has not yet taken effect stays; another takes effect once nothing is resident on the logical cluster (R344, R350, R357). -/
def Sys2Proof.Claim.EntriesAreWrittenAndRemapTakesEffect : Prop :=
  (∀ (s : State) (q : Nat) (e : List Byte) (rest : List (List Byte)), q = s.arg.id → DescPlain s q →
    (s.queue q).events = e :: rest → e.length = 32 →
    let d := (devRead s (descAt s q 0) 64).1
    let tail : BitVec 32 := BitVec.ofNat 32 (leAt d 0x2C 4)
    let size := leAt d 0x20 4
    let ring := leAt d 0x18 8 + 32 * (tail.toNat % size)
    (size ≤ (tail - BitVec.ofNat 32 (leAt d 0x30 4)).toNat → Acts .completionEntryWrite s s) ∧
    ((tail - BitVec.ofNat 32 (leAt d 0x30 4)).toNat < size → paNorm s ring = ring → ring + 32 ≤ 2 ^ 63 →
      ring + 32 ≤ descAt s q 0 ∨ descAt s q 64 ≤ ring → ∃ t, Acts .completionEntryWrite s t ∧
        (∀ x, t.byteAt x = if ring ≤ x ∧ x < ring + 32 then e.getD (x - ring) 0
          else if descAt s q 0x2C ≤ x ∧ x < descAt s q 0x30 then (toBytes 4 (tail + 1).toNat).getD (x - descAt s q 0x2C) 0
          else s.byteAt x) ∧
        t.queue q = { s.queue q with events := rest } ∧
        t.granary.msix = s.granary.msix ++ [(leAt d 0x26 2, leAt d 0x24 2)])) ∧
  (∀ (s : State) (k : Nat), s.arg.gix = 0 → s.arg.id < 8 → k < 4 →
    let val (j : Nat) : BitVec 16 := BitVec.ofNat 16 (s.arg.val / 2 ^ (16 * j) % 2 ^ 16) &&& 0x801F
    let lc := 4 * s.arg.id + k
    let holds (j : Nat) : Prop := (s.granary.remap[4 * s.arg.id + j]?).getD 0 = val j
    (∀ j, j < 4 → j ≠ k → holds j) →
    let rest := s.granary.remapPending.filter fun w => w.lc != lc
    let placed (x : Nat) : Prop := physOf s x = some ((val k).toNat % 32) ∨ ∃ w ∈ s.granary.remapPending,
      w.lc = x ∧ w.value.getLsbD 15 = true ∧ w.value.toNat % 32 = (val k).toNat % 32
    let bad := (val k).getLsbD 15 = true ∧ (s.dies ≤ (val k).toNat % 32 / 8 ∨
      ∃ x y, x < y ∧ y < 32 ∧ x ≠ lc ∧ y ≠ lc ∧ placed x ∧ placed y)
    (holds k → Acts .remapWrite s s) ∧
    (bad → Acts .remapWrite s s) ∧
    (¬bad → ¬holds k → Acts .remapWrite s { s with granary := { s.granary with
      remapPending := rest ++ [{ lc := lc, value := val k }] } })) ∧
  ∀ (s : State) (w : RemapWrite), s.granary.remapPending.find? (fun w => w.lc == s.arg.id) = some w →
    (occupied s w.lc = true → Acts .remapTakesEffect s s) ∧
    (occupied s w.lc = false → ∃ t, Acts .remapTakesEffect s t ∧ sameBytes s t ∧ t.gangs = s.gangs ∧
      t.granary.remapPending = s.granary.remapPending.filter (fun x => x.lc != w.lc) ∧
      ∀ i, t.granary.remap[i]? = if i = w.lc then (s.granary.remap[i]?).map fun _ => w.value else s.granary.remap[i]?)

/-- The summary of a RESYNC (16 R358): its header, with the counts of what follows and its whole length, which TRUNC compares
with a limit; an entry of 16 bytes for each queue with EN set, one of 64 for each gang, and one of 16 for each pending
fault. -/
def Sys2Proof.Claim.SummaryHoldsItsEntries : Prop :=
  ∀ (s : State) (limit : Nat),
    let d := summary s limit
    let qs := enabledQueues s
    let gs := gangsInOrder s
    let fs := gs.flatMap fun p => faultsOf s p.1
    let gangs := 0x40 + 16 * qs.length
    let faults := gangs + 64 * gs.length
    (leAt d 0x00 4 = 0x59535352 ∧ leAt d 0x04 2 = 1 ∧ leAt d 0x06 1 = (if limit < d.length then 1 else 0) ∧
      leAt d 0x08 8 = (caps s).toNat ∧ leAt d 0x10 8 = s.pmap.toNat ∧ leAt d 0x18 8 = s.time % 2 ^ 64 ∧
      leAt d 0x28 4 = qs.length % 2 ^ 32 ∧ leAt d 0x2C 4 = gs.length % 2 ^ 32 ∧ leAt d 0x30 4 = fs.length % 2 ^ 32 ∧
      leAt d 0x34 4 = d.length % 2 ^ 32 ∧ leAt d 0x38 8 = (faults + 16 * fs.length) % 2 ^ 64) ∧
    (∀ q, (∃ x ∈ qs, x.id = q) → q < 65536 ∧ desc s q 0xF 1 % 2 = 1) ∧
    (∀ i x, qs[i]? = some x → let b := 0x40 + 16 * i
      leAt d b 2 = x.id % 2 ^ 16 ∧ leAt d (b + 2) 1 = x.detl % 2 ^ 8 ∧ leAt d (b + 3) 1 % 2 = x.err.toNat ∧
      leAt d (b + 4) 4 = x.head.toNat ∧ leAt d (b + 8) 4 = x.tail.toNat ∧
      leAt d (b + 12) 4 = (s.granary.nodes.filter fun n => n.queue == x.id && !n.done).length % 2 ^ 32) ∧
    (∀ g, g ∈ s.gangs ↔ ∃ p ∈ gs, p.1 = g) ∧
    (∀ i g n, gs[i]? = some (g, some n) → let b := gangs + 64 * i
      s.node? g.node = some n ∧ leAt d b 2 = g.id % 2 ^ 16 ∧ leAt d (b + 2) 2 = n.queue % 2 ^ 16 ∧
      leAt d (b + 4) 1 = (match g.run with
        | .killing _ => 3
        | .preempted => 1
        | _ => if g.run2 then 2 else 0) ∧
      leAt d (b + 5) 1 = g.detl % 2 ^ 8 ∧ leAt d (b + 6) 1 = g.nbv % 2 ^ 8 ∧ leAt d (b + 7) 1 = g.rflags.toNat ∧
      leAt d (b + 8) 2 = g.n % 2 ^ 16 ∧ leAt d (b + 0x10) 8 = n.tag.toNat ∧
      ∀ k : Fin 32, leAt d (b + 0x20 + k.val) 1 % 8 = (g.chains.get k).state.code) ∧
    ∀ i w x, fs[i]? = some (w, x) → let b := faults + 16 * i
      leAt d b 1 = x.code % 2 ^ 8 ∧ leAt d (b + 2) 2 = w.gang % 2 ^ 16 ∧ leAt d (b + 4) 2 = w.gix % 2 ^ 16 ∧
        leAt d (b + 8) 8 = x.trapc.toNat / 256

/-- The physical function's aligned 8-byte writes of BAR0 set QTBASE, AGING, RSADDR with GO (nothing while GO reads 1) and
RSLEN; others change nothing, and one beyond the window faults. A read gives what an aligned access of 8 finds there, and
any other access reads zero. RESYNC writes the summary, cut at RSLEN, at RSADDR and then clears GO (R344, R358). -/
def Sys2Proof.Claim.HostRegistersAndResync : Prop :=
  (∀ s : State, 2 ^ 26 < s.arg.id + s.arg.val2 → exec .bar0RegisterWrite s = .fault .hostOutsideWindow) ∧
  (∀ s : State, s.arg.sig = [] → s.arg.id + s.arg.val2 ≤ 2 ^ 26 →
    s.arg.val2 ≠ 8 ∨ s.arg.id % 8 ≠ 0 ∨ s.arg.gix ≠ 0 → Acts .bar0RegisterWrite s s) ∧
  (∀ s : State, s.arg.sig ≠ [] → s.arg.id + s.arg.val2 ≤ 2 ^ 26 →
    let r (v : Nat) := Acts .bar0RegisterWrite s { s with arg := { s.arg with data := toBytes s.arg.val2 v } }
    (s.arg.val2 ≠ 8 ∨ s.arg.id % 8 ≠ 0 → r 0) ∧
    (s.arg.val2 = 8 → s.arg.gix = 0 →
      (s.arg.id = 0x08 → r s.granary.qtbase) ∧ (s.arg.id = 0x10 → r s.granary.aging) ∧
      (s.arg.id = 0x18 → r (s.granary.rsaddr + if s.granary.go then 1 else 0)) ∧
      (s.arg.id = 0x20 → r s.granary.rslen)) ∧
    ∀ q v, q < 65536 → s.arg.val2 = 8 → s.arg.id = 0x1000000 + 64 * q → seesQueue s s.arg.gix q = true →
      s.granary.doorbells.find? (fun d => d.1 == q) = some (q, v) → r v.toNat) ∧
  (∀ s : State, s.arg.sig = [] → s.arg.val2 = 8 → s.arg.gix = 0 → s.arg.val < 2 ^ 64 →
    let w (g : Granary) := Acts .bar0RegisterWrite s { s with granary := g }
    (s.arg.id = 0x08 → w { s.granary with qtbase := s.arg.val / 2 ^ 12 % 2 ^ 40 * 2 ^ 12 }) ∧
    (s.arg.id = 0x10 → w { s.granary with aging := s.arg.val % 2 ^ 32 }) ∧
    (s.arg.id = 0x18 → w (if s.granary.go then s.granary else { s.granary with
      rsaddr := s.arg.val / 2 ^ 6 % 2 ^ 46 * 2 ^ 6, go := decide (s.arg.val % 2 = 1) })) ∧
    (s.arg.id = 0x20 → w { s.granary with rslen := s.arg.val % 2 ^ 32 })) ∧
  (∀ s : State, s.arg.id = 0 → s.granary.go = false → Acts .resync s { s with granary := { s.granary with
    rsaddr := s.arg.val / 2 ^ 6 % 2 ^ 46 * 2 ^ 6, go := decide (s.arg.val % 2 = 1) } }) ∧
  ∀ s : State, s.arg.id ≠ 0 → s.granary.go = true → s.memOk = true → s.hbmNew = [] →
    paNorm s s.granary.rsaddr = s.granary.rsaddr → s.granary.rsaddr + s.granary.rslen ≤ 2 ^ 63 →
    ∃ t, Acts .resync s t ∧ wrote s t s.granary.rsaddr ((summary s s.granary.rslen).take s.granary.rslen) ∧
      (4 ≤ s.granary.rslen → t.mem.le s.granary.rsaddr 4 = 0x59535352) ∧ t.granary = { s.granary with go := false }

/-- The host's accesses through BAR2 reach HBM and leave what the homes hold; through CXL.mem they read and write at the home.
Both wait during a quiesce, and fault beyond the end of HBM (R260, R342, R406). -/
def Sys2Proof.Claim.HostAccessesReachHbmOrHome : Prop :=
  (∀ (s : State) (ev : Instr), ev = .hostBar2Access ∨ ev = .hostCxlMemAccess →
    let n := match s.arg.write with
      | some d => d.length
      | none => s.arg.val2
    (s.hbmSize < s.arg.val + n → exec ev s = .fault .hostOutsideWindow) ∧
    (s.arg.val + n ≤ s.hbmSize → s.fleet.step ≠ .idle → Acts ev s s)) ∧
  ∀ s : State, s.memOk = true → s.fleet.step = .idle →
    (∀ d, s.arg.write = some d → s.arg.val + d.length ≤ s.hbmSize →
      (∃ t, Acts .hostBar2Access s t ∧ sameBytes s t ∧ (∀ i, i < d.length → hbmByte t (s.arg.val + i) = d.getD i 0) ∧
        ∀ x, (∀ i, i < d.length → (s.arg.val + i) / 64 ≠ x / 64) → hbmByte t x = hbmByte s x) ∧
      (s.hbmNew = [] → ∃ t, Acts .hostCxlMemAccess s t ∧ wrote s t s.arg.val d ∧ t.spad = s.spad)) ∧
    (s.arg.write = none → s.arg.val + s.arg.val2 ≤ s.hbmSize →
      (s.hbmDirty = [] → ∃ t, Acts .hostBar2Access s t ∧ t = { s with arg := t.arg } ∧
        t.arg.data = (List.range s.arg.val2).map fun i => hbmByte s (s.arg.val + i)) ∧
      (s.hbmNew = [] → ∃ t, Acts .hostCxlMemAccess s t ∧ t = { s with arg := t.arg } ∧
        t.arg.data = (List.range s.arg.val2).map fun i => s.byteAt (s.arg.val + i)))

namespace Sys2Proof.Claim
open Sys2Proof.Machine

/-- A context of a node's gang as it starts (01 R25, 15 R330, 16 R351): the node's addresses in the scalar registers, the
scratchpad base of its plan in s9 and the top of its stack in s30, every other of them 0; user mode, PC the entry bundle, the
handler that the record names; nothing outstanding, every token complete, and its tiles' shapes with no progress. -/
def startsAs (n : Node) (r : NodeRec) (m : ImageRec) (clusters : List GangCluster) (g total gix : Nat) (c : Ctx) : Prop :=
  c.id = { gang := g, gix := gix } ∧ c.live = true ∧ c.status = .ready ∧ c.mode = .user ∧ c.glast = total - 1 ∧
    c.pc = BitVec.ofNat 64 (r.text + 16 * r.entry) ∧ c.p = 1 ∧ c.nbv = r.nbv ∧ c.detl = n.level ∧ c.asid = n.asid ∧
    c.ptbase = n.ptbase ∧ c.fpm = 0 ∧ c.fxf = 0 ∧ c.pass = 0 ∧ c.deferred = [] ∧
    c.ocl = 0 ∧ c.ocs = 0 ∧ c.occ = 0 ∧ c.oct = 0 ∧ (∀ q, (c.q.get q).done = true) ∧
    (r.handler ≠ 0 → c.tvec.toNat = (r.text + 16 * (r.handler - 1)) % 2 ^ 56 / 16 * 16) ∧
    (∀ i : Fin 8, c.tcfg.get i = if c.lcore < 8 then (r.tiles[i.val]?).elim 0 (BitVec.setWidth 64) else 0) ∧
    (∃ k ∈ clusters, k.lc = c.lc ∧ c.s.get 9 = BitVec.ofNat 64 (baseOf m.mask k.banks)) ∧
    c.s.get 30 = (if m.stack = 0 then 0 else BitVec.ofNat 64 (r.stackva + (gix + 1) * m.stack)) ∧
    ∀ k : Fin 64, k.val ≠ 9 → k.val ≠ 30 → c.s.get k =
      if 1 ≤ k.val ∧ k.val ≤ 8 then BitVec.ofNat 64 ((r.opers[k.val - 1]?).elim 0 Operand.va)
      else if k.val = 10 then BitVec.ofNat 64 r.optab else 0

/-- A context that has stopped where it stood (17 R373). -/
def stoppedFrom (c d : Ctx) : Prop :=
  d.id = c.id ∧ d.pc = c.pc ∧ d.s = c.s ∧ d.v = c.v ∧ d.p = c.p ∧
    (c.inSpan = false → c.status = .ready → d.status = .stopped []) ∧
    (c.inSpan = false → ∀ l, c.status = .blocked l → d.status = .stopped l) ∧ (c.status = .exited → d.status = .exited)

/-- The queue of a node gains its KIND-1 entry first, where the node has CMP (16 R357). -/
def posts (s t : State) (n : Node) (status : Nat) : Prop :=
  n.cmp = true → ∃ more, (t.queue n.queue).events =
    (s.queue n.queue).events ++ entryBytes 1 status n.index n.tag 0 s.time :: more

end Sys2Proof.Claim

/-- The granary takes, of the ready nodes that fit, one of the lowest class and in it the earliest to become ready. It
becomes running as a gang with every barrier at phase 0 expecting all its contexts, every chain IDLE and every link
EMPTY, and its contexts start in gang-index order at the entry bundle, in the slots that the gang keeps. Before that an
operand that contains data sections of the image is filled: their bytes where they stand, and 0 elsewhere (DESIGN CHOICE,
log 48: the device makes that write at dispatch). Each context starts with what the record and the image give it: s9 is
262,144 for each bank that its cluster's plan was shifted by, s30 the top of its stack. A node that has
waited one more aging interval falls by one class, down to 0 (R14, R22, R25, R28, R330, R340, R351). -/
def Sys2Proof.Claim.NodesAgeAndAreDispatchedInOrder : Prop :=
  (∀ (s : State) (n : Node), nextNode s = some n → s.granary.go = false ∧ n ∈ s.granary.nodes ∧ inReadySet s n = true ∧
    nodeFits s n = true ∧ ∀ m ∈ s.granary.nodes, inReadySet s m = true → nodeFits s m = true →
      n.cls < m.cls ∨ (n.cls = m.cls ∧ n.readyAt ≤ m.readyAt)) ∧
  (∀ (s : State) (n : Node) (r : NodeRec) (m : ImageRec) (since : Nat), nextNode s = some n → n.state = .ready since →
    n.rec? = some r → imageOf s n.asid r.text = some m → n.level ≠ 3 →
    ∃ t g cs, Acts .nodeDispatch s t ∧ ((∀ o ∈ r.opers, ∀ d ∈ m.data, o.holds d = false) → sameBytes s t) ∧
      (∀ o l s1 pa, r.opers.filter (fun o => m.data.any o.holds) = [o] → s.memOk = true → s.hbmNew = [] →
        xlateAll (devXl n.asid n.ptbase) .fill (byteRange o.va o.size) none s = (.ok l, s1) →
        l.map Pa.pa = (List.range o.size).map (pa + ·) → pa + o.size ≤ 2 ^ 63 →
        wrote s t pa (o.filled (m.data.filter o.holds))) ∧
      g.seats = cs.map (fun c => (c.lc, c.lcore, c.slotNo)) ∧
      t.gangs = s.gangs ++ [g] ∧ t.others = s.others ++ cs ∧
      (t.node? n.id).map Node.state = some (.running g.id) ∧ g.id < 65536 ∧ g.node = n.id ∧ g.n = cs.length ∧
      g.detl = n.level ∧ g.nbv = r.nbv ∧ g.fuse = r.fuse ∧ g.rflags = 0 ∧ g.doneVal = 0 ∧ g.run = .running ∧
      (∀ b : Fin 16, (g.barriers.get b).phase = 0 ∧ (g.barriers.get b).e = cs.length ∧ (g.barriers.get b).arrivals = 0) ∧
      (∀ k : Fin 32, (g.chains.get k).state = .idle) ∧
      (∃ ls, t.links = s.links ++ ls ∧ ls.length = r.links.length + r.spares.length ∧
        ∀ l ∈ ls, l.gang = g.id ∧ l.state = .empty ∧ l.chain = none) ∧
      ∀ i c, cs[i]? = some c → startsAs n r m g.clusters g.id cs.length i c) ∧
  (baseOf 0 = fun _ => 0) ∧
  (∀ (mask d : Nat) (banks : BitVec 48), 0 < mask → banks.toNat = mask * 2 ^ d → baseOf mask banks = 262144 * d) ∧
  (∀ (o : Operand) (l : List (Nat × List Byte)), (∀ d ∈ l, o.holds d = true) →
    l.Pairwise (fun d e => d.1 + d.2.length ≤ e.1 ∨ e.1 + e.2.length ≤ d.1) → (o.filled l).length = o.size ∧
    ∀ k, k < o.size → (o.filled l).getD k 0 =
      match l.find? fun d => decide (d.1 ≤ o.va + k ∧ o.va + k < d.1 + d.2.length) with
      | some d => d.2.getD (o.va + k - d.1) 0
      | none => 0) ∧
  ∀ (s : State) (n : Node), s.node? s.arg.id = some n →
    let due := inReadySet s n = true ∧ s.granary.aging ≠ 0 ∧ n.agedAt + s.granary.aging ≤ s.time
    (due → ∃ t, Acts .agingIntervalExpiry s t ∧ sameBytes s t ∧
      t.node? n.id = some { n with cls := n.cls - 1, waits := n.waits + 1, agedAt := n.agedAt + s.granary.aging }) ∧
    (¬due → Acts .agingIntervalExpiry s s)

/-- PREEMPT begins for a gang at least two classes behind a node that has waited two aging intervals and fits only without
it; its contexts stop at their bundle boundaries, but a running one whose tile transfer the event names stops at the row
that it names; the gang is saved once it owes nothing, unless its step 2 has not ended in time, its BUILT and ACTIVE chains frozen,
and its save block is written, the gang's number and count first, and no byte outside it; PREEMPT_ABANDON lets every
context go on where it stopped where step 2 has not ended after 65,536 cycles, one blocked in user mode ready where a
deferred trap is due; GANG_RESUME brings a saved gang's contexts back, a blocked one to
reissue its bundle, its chains to the state they left (R169, R174, R372, R373, R375, R378). -/
def Obligations.GangsArePreemptedAndResume : Prop :=
  (∀ (s : State) (g : Gang), (∀ x ∈ s.gangs, x.run ≠ .preempting) → victim s = some g →
    g ∈ s.gangs ∧ g.run = .running ∧
    (∃ n ∈ s.granary.nodes, inReadySet s n = true ∧ 2 ≤ n.waits ∧ nodeFits s n = false ∧
      nodeFits (withoutGang s g.id) n = true ∧ ∃ m, s.node? g.node = some m ∧ n.cls + 2 ≤ m.cls) ∧
    ∃ t, Acts .preempt s t ∧ sameBytes s t ∧ (t.gang? g.id).map Gang.run = some .preempting ∧
      (t.gang? g.id).map Gang.preemptSince = some s.time ∧
      ∀ w c, w.gang = g.id → s.ctx? w = some c → ∃ d, t.ctx? w = some d ∧
        ((∀ p ∈ rowStops s.arg.data, p.1 ≠ w.gix) ∨ c.running = false → stoppedFrom c d) ∧
        ∀ p, (rowStops s.arg.data).find? (fun p => p.1 == w.gix) = some p → c.running = true → c.status = .ready →
          c.inSpan = false → d = { c with rowStop := some p.2 }) ∧
  (∀ (s : State) (g : Gang), s.gangs.find? (fun g => g.id == s.arg.gang && g.run == .preempting) = some g →
    let u := s.updGangCtx g.id fun c => if c.rowStop.isSome then c else c.stopNow
    (readyToSave u g = false ∨ g.late s.time = true → Acts .preempt s u) ∧
    (readyToSave u g = true → g.late s.time = false → ∃ t, Acts .preempt s t ∧ t.spad = s.spad ∧
      (∀ x, x ∉ blockCells s 0 g.id → t.byteAt x = s.byteAt x) ∧
      (s.memOk = true → s.hbmNew = [] → (blockCells s 0 g.id).Nodup → (∀ x ∈ blockCells s 0 g.id, x < 2 ^ 63) →
        ∀ y i x, s.gang? g.id = some y → i < 4 → (blockCells s 0 g.id)[i]? = some x →
          t.byteAt x = (toBytes 2 y.id ++ toBytes 2 y.n).getD i 0) ∧ t.gangCtx g.id = [] ∧
      t.saved = s.saved ++ (u.gangCtx g.id).map Ctx.flushHarrow ∧ (t.gang? g.id).map Gang.run = some .preempted ∧
      ∀ x (k : Fin 32), s.gang? g.id = some x → (x.chains.get k).state = .built ∨ (x.chains.get k).state = .active →
        ∃ y, t.gang? g.id = some y ∧ (y.chains.get k).state = .frozen ∧ (y.chains.get k).cause = .preempt ∧
          (y.chains.get k).left = (x.chains.get k).state)) ∧
  (∀ (s : State) (g : Gang), s.gang? s.arg.gang = some g → g.run = .preempting →
    (g.drained = true ∨ s.time ≤ g.preemptSince + 65536 → Acts .preemptAbandon s s) ∧
    (g.drained = false → g.preemptSince + 65536 < s.time → ∃ t, Acts .preemptAbandon s t ∧ sameBytes s t ∧
      (t.gang? g.id).map Gang.run = some .running ∧ ∀ w c, w.gang = g.id → s.ctx? w = some c → ∃ d, t.ctx? w = some d ∧
        (c.status = .stopped [] → d = { c with status := .ready, rowStop := none }) ∧
        (c.status = .ready → d = { c with rowStop := none }) ∧
        ∀ b l, c.status = .stopped (b :: l) → d = { c with rowStop := none, status :=
          if c.mode = .user ∧ c.deferred ≠ [] then .ready else .blocked (b :: l) })) ∧
  ∀ (s : State) (n : Node) (g : Nat), nextNode s = some n → n.state = .running g →
    ∃ t, Acts .gangResume s t ∧ sameBytes s t ∧ (t.gang? g).map Gang.run = some .running ∧
      (∀ c ∈ t.saved, c.id.gang ≠ g) ∧
      (∀ c ∈ s.saved, c.id.gang = g → ∃ d ∈ t.others, d.id = c.id ∧ d.pc = c.pc ∧ d.s = c.s ∧ d.v = c.v ∧ d.p = c.p ∧
        d.mode = c.mode ∧ d.lc = c.lc ∧ d.deferred = c.deferred ∧ ∀ l, c.status = .stopped l → d.status = .ready) ∧
      ∀ x (k : Fin 32), s.gang? g = some x → (x.chains.get k).state = .frozen → (x.chains.get k).cause = .preempt →
        ∃ y, t.gang? g = some y ∧ (y.chains.get k).state = (x.chains.get k).left

/-- NODE_COMPLETE of a gang whose contexts have all exited and whose tokens have all completed first closes the final press
window, where its presses hold anything, and then ends the gang with status 0 and writes the completion record; one of a
killed gang ends it with its status. The gang releases its links, and the node's KIND-1 entry is posted first. At DETL DUAL
the node runs a second time from its restored operands before it completes, each context in the slot that its gang keeps for
it (R14, R27, R218, R355, R357, R379, R385). -/
def Sys2Proof.Claim.NodesCompleteAndRunTwice : Prop :=
  (∀ (s : State) (g : Gang) (n : Node), s.gang? s.arg.gang = some g → s.node? g.node = some n →
    (∀ k, g.run = .killing k → ∃ t, Acts .nodeComplete s t ∧ (∀ x ∈ t.gangs, x.id ≠ g.id) ∧
      (∀ l ∈ t.links, l.gang ≠ g.id) ∧ (∀ f ∈ t.flights, f.who.gang ≠ g.id) ∧ posts s t n k) ∧
    (g.run = .running → g.exited.length ≠ g.n ∨ tokensDone s g.id = false → Acts .nodeComplete s s) ∧
    (g.run = .running → g.exited.length = g.n → tokensDone s g.id = true →
      (pressBusy s g.id = true → g.final = false → ∃ t, Acts .nodeComplete s t ∧ sameBytes s t ∧ t.press = s.press ∧
        (t.gang? g.id).map Gang.windows = some (g.windows ++ [{ cuts := [], all := true }])) ∧
      (pressBusy s g.id = false → g.windows = [] → g.detl ≠ 3 → ∃ t, Acts .nodeComplete s t ∧
        (∀ x ∈ t.gangs, x.id ≠ g.id) ∧ (∀ l ∈ t.links, l.gang ≠ g.id) ∧ posts s t n 0 ∧
        (n.crec = 0 → t.mem = s.mem) ∧
        ∀ l s1 pa, n.crec ≠ 0 → s.memOk = true → s.hbmNew = [] → s.walkCache = [] →
          xlateAll (devXl n.asid n.ptbase) .write (byteRange n.crec 32) none s = (.ok l, s1) →
          l.map Pa.pa = (List.range 32).map (pa + ·) → pa + 32 ≤ 2 ^ 63 →
          wrote s t pa (recordBytes 0 (reportOf s g) s.time)))) ∧
  ∀ (s : State) (g : Gang) (n : Node) (r : NodeRec) (m : ImageRec), s.gang? s.arg.gang = some g →
    s.node? g.node = some n → n.rec? = some r → imageOf s n.asid r.text = some m → g.detl = 3 → g.run = .running →
    g.run2 = false → g.exited.length = g.n → tokensDone s g.id = true → g.windows = [] → pressBusy s g.id = false →
    (∀ f ∈ s.flights, f.who.gang ≠ g.id) → (∀ c ∈ s.allCtx, c.id.gang ≠ g.id) →
    s.memOk = true → s.hbmNew = [] → s.walkCache = [] →
    ∃ t d cs, Acts .dualSecondRun s t ∧ t.others = s.others ++ cs ∧ (∀ i c, cs[i]? = some c →
        startsAs n r m g.clusters g.id cs.length i c) ∧
      ((∀ p ∈ g.seats, ∃ k ∈ g.clusters, k.lc = p.1) → cs.map (fun c => (c.lc, c.lcore, c.slotNo)) = g.seats) ∧
      (∃ x, t.gang? g.id = some x ∧ x.run2 = true ∧ x.digest1 = some d ∧ x.exited = [] ∧ x.rflags = 0 ∧ x.doneVal = 0 ∧
        x.n = g.n) ∧
      (g.shadow = [] → t.mem = s.mem) ∧
      ∀ va bytes l s1 pa, g.shadow = [(va, bytes)] →
        xlateAll (devXl n.asid n.ptbase) .write (byteRange va bytes.length) none s = (.ok l, s1) →
        l.map Pa.pa = (List.range bytes.length).map (pa + ·) → pa + bytes.length ≤ 2 ^ 63 → wrote s t pa bytes

/-- PREEMPT acts on the gang that R372 names, with none being pre-empted yet: it is being pre-empted from now on. It acts on
it again, and saves it, where every context of it has exited or stopped and it owes nothing: it is pre-empted, and holds
no slot. PREEMPT_ABANDON of a gang whose step 2 has not ended in 65,536 cycles lets it run; GANG_RESUME of the
pre-empted gang that the granary takes next lets it run, its contexts in their slots (R372, R373, R378). -/
def Sys2Proof.Claim.PreemptionBeginsSavesAndEnds : Prop :=
  ∀ (s : State) (g : Gang),
    ((∀ x ∈ s.gangs, x.run ≠ .preempting) → victim s = some g →
      ∃ t, Acts .preempt s t ∧ (t.gang? g.id).map Gang.run = some .preempting) ∧
    (s.gangs.find? (fun x => x.id == s.arg.gang && x.run == .preempting) = some g → owesNothing s g = true →
      g.late s.time = false →
      (∀ c ∈ s.gangCtx g.id, c.rowStop = none ∧ (c.status = .exited ∨ ∃ l, c.status = .stopped l)) →
      ∃ t, Acts .preempt s t ∧ (t.gang? g.id).map Gang.run = some .preempted ∧ t.gangCtx g.id = []) ∧
    (s.gang? s.arg.gang = some g → g.run = .preempting → g.drained = false → g.preemptSince + 65536 < s.time →
      ∃ t, Acts .preemptAbandon s t ∧ (t.gang? g.id).map Gang.run = some .running) ∧
    ∀ n, nextNode s = some n → n.state = .running g.id → s.gang? g.id = some g →
      ∃ t, Acts .gangResume s t ∧ (t.gang? g.id).map Gang.run = some .running ∧
        ∀ c ∈ s.saved, c.id.gang = g.id → ∃ d ∈ t.others, d.id = c.id ∧ d.slotNo = c.slotNo ∧ d.pc = c.pc

namespace Sys2Proof.Claim
open Sys2Proof.Machine

/-- The management core appends one reply: its status, 0, the payload's length and the payload (20 R411). -/
def replied (s t : State) (status : Nat) (payload : List Byte) : Prop :=
  t.mgmt.replies = s.mgmt.replies ++ [toBytes 1 status ++ toBytes 1 0 ++ toBytes 2 payload.length ++ payload]

/-- A port declares its link on a furrow dead and reports it (19 R399). -/
def deadNoted (s t : State) (f : Nat) : Prop :=
  t.fleet = { s.fleet with dead := s.fleet.dead ++ [f], sent := s.fleet.sent ++ [(Msg.report.code, s.pkg, f)] } ∧
    (∀ i, t.mgmt.deadDecl[i]? = if i = f then (s.mgmt.deadDecl[i]?).map fun x => min (x + 1) (2 ^ 32 - 1)
      else s.mgmt.deadDecl[i]?) ∧ t.flights = s.flights ∧ sameBytes s t

/-- The package stops new accesses and drains toward a mask (19 R400, R404). -/
def quiesces (s t : State) (mask : BitVec 8) : Prop :=
  t.fleet.step = .stopping ∧ t.fleet.target = mask ∧ t.fleet.live = s.fleet.live ∧ t.fleet.drainedFrom = [] ∧
    t.fleet.installedFrom = [] ∧ t.fleet.since = (if s.fleet.step = .idle then s.time else s.fleet.since) ∧
    t.pmap = s.pmap ∧ t.flights = s.flights ∧ sameBytes s t

/-- The domain is reported as unable to continue (19 R398). -/
def failsDomain (s t : State) : Prop :=
  t.fleet.domainFail = true ∧ t.fleet.live = s.fleet.live ∧ t.pmap = s.pmap ∧ sameBytes s t ∧
    t.fleet.sent = s.fleet.sent ++ [(Msg.domainFail.code, s.pkg, s.fleet.live.toNat)] ∧
    ∃ e, t.mgmt.unsolicited = s.mgmt.unsolicited ++ [e] ∧ (s.mgmt.events.length < 256 → s.mgmt.overflow = false →
      e.code = 0x06)

/-- A message to every package of the domain. -/
def toAll (f : Fleet) (k : Msg) (m : BitVec 8) : List (Nat × Nat × Nat) := f.members.map fun p => (k.code, p, m.toNat)

/-- The live furrows of a mask in ascending order. -/
def liveList (m : BitVec 8) : List Nat := (List.range 8).filter m.getLsbD

end Sys2Proof.Claim

/-- The furrows that a domain may use: with a Q2 in it the first four alone (19 R397). -/
def Sys2Proof.Claim.furrowLimit (s : State) : BitVec 8 := if s.part = .q2 ∨ s.fleet.q2s ≠ [] then 0x0F else 0xFF

/-- A flit that fails after eight retries, a silent link and a fault of a plane switch each declare a live furrow's link
dead, once, and report it; a flit that comes through after retries only adds to their count; FALLOW does so on command. The master, at a report on a furrow of the mask that it works
toward, quiesces toward the mask without it, or reports that the domain fails where that mask is empty. RESTORE quiesces
toward the mask with a furrow whose self-test has passed. Such masks lie within 0x0F where the domain has a Q2 (R397 to
R400, R404, R405, R411, R413). -/
def Sys2Proof.Claim.DeadFurrowsStartAQuiesce : Prop :=
  (∀ (s : State) (ev : Instr), ev = .furrowSilence ∨ ev = .planeSwitchFault →
    (s.fleet.live.getLsbD s.arg.id = true → s.arg.id ∉ s.fleet.dead → ∃ t, Acts ev s t ∧ deadNoted s t s.arg.id) ∧
    (s.fleet.live.getLsbD s.arg.id = false ∨ s.arg.id ∈ s.fleet.dead → Acts ev s s)) ∧
  (∀ s : State,
    let through := 1 ≤ s.arg.val ∧ s.arg.val ≤ 8
    ∃ t, Acts .flitCrcFailure s t ∧ (∀ i, t.mgmt.crcRetries[i]? =
      if i = s.arg.id then (s.mgmt.crcRetries[i]?).map fun x => min (x + if through then s.arg.val else 8) (2 ^ 64 - 1)
      else s.mgmt.crcRetries[i]?) ∧ (through → t = { s with mgmt := { s.mgmt with crcRetries := t.mgmt.crcRetries } }) ∧
    (¬through → s.fleet.live.getLsbD s.arg.id = true → s.arg.id ∉ s.fleet.dead → deadNoted s t s.arg.id) ∧
    (¬through → s.fleet.live.getLsbD s.arg.id = false ∨ s.arg.id ∈ s.fleet.dead → t.fleet = s.fleet)) ∧
  (∀ s : State,
    let now := if s.fleet.step = .idle then s.fleet.live else s.fleet.target
    let next := now &&& ~~~(BitVec.twoPow 8 s.arg.id) &&& Sys2Proof.Claim.furrowLimit s
    (s.fleet.master = true → s.fleet.domainFail = false → now.getLsbD s.arg.id = true →
      (next ≠ 0 → ∃ t, Acts .deadFurrowReport s t ∧ quiesces s t next ∧
        t.fleet.sent = s.fleet.sent ++ toAll s.fleet .qreq next) ∧
      (next = 0 → ∃ t, Acts .deadFurrowReport s t ∧ failsDomain s t)) ∧
    (s.fleet.master = false ∨ s.fleet.domainFail = true ∨ now.getLsbD s.arg.id = false → Acts .deadFurrowReport s s)) ∧
  (∀ (s : State) (b : Byte), s.arg.data = [b] →
    (s.fpln ≤ b.toNat → ∃ t, Acts .fallow s t ∧ replied s t 1 [] ∧ t.fleet = s.fleet) ∧
    (b.toNat < s.fpln → s.fleet.live.getLsbD b.toNat = true → b.toNat ∉ s.fleet.dead →
      ∃ t, Acts .fallow s t ∧ replied s t 0 [] ∧ deadNoted s t b.toNat)) ∧
  ∀ (s : State) (b : Byte), s.arg.data = [b] →
    let now := if s.fleet.step = .idle then s.fleet.live else s.fleet.target
    let next := (now ||| BitVec.twoPow 8 b.toNat) &&& Sys2Proof.Claim.furrowLimit s
    (s.fpln ≤ b.toNat → ∃ t, Acts .restore s t ∧ replied s t 1 [] ∧ t.fleet = s.fleet) ∧
    (b.toNat < s.fpln → s.arg.val = 0 ∨ s.fleet.master = false ∨ s.fleet.domainFail = true ∨
        (Sys2Proof.Claim.furrowLimit s).getLsbD b.toNat = false →
      ∃ t, Acts .restore s t ∧ replied s t 2 [] ∧ t.fleet = s.fleet) ∧
    (b.toNat < s.fpln → s.arg.val ≠ 0 → s.fleet.master = true → s.fleet.domainFail = false →
      (Sys2Proof.Claim.furrowLimit s).getLsbD b.toNat = true →
      (now.getLsbD b.toNat = true → ∃ t, Acts .restore s t ∧ replied s t 0 [] ∧ t.fleet = s.fleet) ∧
      (now.getLsbD b.toNat = false → ∃ t, Acts .restore s t ∧ replied s t 0 [] ∧ quiesces s t next ∧
        t.fleet.sent = s.fleet.sent ++ toAll s.fleet .qreq next))

/-- A package at a QREQ for a mask that is neither its target nor installed begins to drain toward it, and else does
nothing; once drained it sends DRAINED; the master, with DRAINED from every package, sends INSTALL to all, and with
INSTALLED from every package RESUME; a quiesce that takes more than 700,000 cycles fails the domain (R398, R400, R401,
R404). -/
def Sys2Proof.Claim.PackagesDrainAndTheMasterGoesOn : Prop :=
  (∀ s : State, let m := BitVec.ofNat 8 s.arg.val
    let here := m = s.fleet.live ∨ (s.fleet.step ≠ .idle ∧ m = s.fleet.target)
    (here → Acts .qreq s s) ∧ (¬here → ∃ t, Acts .qreq s t ∧ quiesces s t m)) ∧
  (∀ s : State, (mayDrain s = false → Acts .drainComplete s s) ∧
    (mayDrain s = true → s.fleet.master = false → s.hbmNew = [] → ∃ t, Acts .drainComplete s t ∧ sameBytes s t ∧
      t.fleet = { s.fleet with
        step := .drained
        sent := s.fleet.sent ++ [(Msg.drained.code, s.pkg, s.fleet.target.toNat)] })) ∧
  (∀ (s : State) (p : Nat), p = s.arg.id → s.fleet.step ≠ .idle → BitVec.ofNat 8 s.arg.val = s.fleet.target →
    s.fleet.master = true → p ∈ s.fleet.members →
    (p ∉ s.fleet.drainedFrom → ∃ t, Acts .drained s t ∧ t.fleet = { s.fleet with
      drainedFrom := p :: s.fleet.drainedFrom
      sent := s.fleet.sent ++ if ∀ q ∈ s.fleet.members, q = p ∨ q ∈ s.fleet.drainedFrom
        then toAll s.fleet .install s.fleet.target else [] }) ∧
    (p ∉ s.fleet.installedFrom → ∃ t, Acts .installed s t ∧ t.fleet = { s.fleet with
      installedFrom := p :: s.fleet.installedFrom
      sent := s.fleet.sent ++ if ∀ q ∈ s.fleet.members, q = p ∨ q ∈ s.fleet.installedFrom
        then toAll s.fleet .resume s.fleet.target else [] })) ∧
  ∀ s : State,
    let late := s.fleet.master = true ∧ s.fleet.step ≠ .idle ∧ s.fleet.domainFail = false ∧ s.fleet.since + 700000 < s.time
    (late → ∃ t, Acts .quiesceTimeout s t ∧ failsDomain s t) ∧ (¬late → Acts .quiesceTimeout s s)

/-- A drained package installs its target mask: PMAP entry i is i where furrow i is live, and else the live furrow at
position i modulo their number; every epoch, vector clock and DONE counter becomes 0, and INSTALLED is sent. RESUME then
ends each lost atomic, with ATOMIC_UNKNOWN and its tag deferred to the issuer and its count released, and the package goes
on; requests that no home has answered are retained, to go out before others. A message for a mask that is neither the
target nor installed acts as a QREQ (R222, R269, R397, R400, R402 to R404). -/
def Obligations.InstallAndResumeChangeTheMap : Prop :=
  (∀ s : State, BitVec.ofNat 8 s.arg.val = s.fleet.target → s.fleet.step = .drained → s.fleet.master = false →
    ∃ t, Acts .install s t ∧ sameBytes s t ∧ t.fleet.live = s.fleet.target ∧ t.fleet.step = .installed ∧
      t.fleet.sent = s.fleet.sent ++ [(Msg.installed.code, s.pkg, s.fleet.target.toNat)] ∧
      (∀ i, i < 8 → pmapEntry t.pmap i = if s.fleet.target.getLsbD i then i
        else ((liveList s.fleet.target)[i % (liveList s.fleet.target).length]?).getD 0) ∧
      t.clocks = {} ∧ (∀ c ∈ t.ctx :: t.others, c.readStamp = [] ∧ c.acqStamp = []) ∧ (∀ f ∈ t.flights, f.stamp = []) ∧
      (∀ k ∈ t.cmds, k.stamp = []) ∧ (∀ x ∈ t.l1, x.stamp = []) ∧ ∀ e ∈ t.press, e.slice = pressSlice t e.addr) ∧
  (∀ (s : State) (ev : Instr), ev = .install ∨ ev = .resume ∨ ev = .drained ∨ ev = .installed → BitVec.ofNat 8 s.arg.val ≠ s.fleet.live →
    (s.fleet.step ≠ .idle → BitVec.ofNat 8 s.arg.val ≠ s.fleet.target) →
    ∃ t, Acts ev s t ∧ quiesces s t (BitVec.ofNat 8 s.arg.val)) ∧
  ∀ s : State, BitVec.ofNat 8 s.arg.val = s.fleet.target → s.fleet.step = .installed → s.fleet.master = false →
    ∃ t, Acts .resume s t ∧ (∀ f ∈ t.flights, f.lost = false) ∧ t.fleet.step = .idle ∧ t.fleet.live = s.fleet.live ∧
      t.fleet.dead = s.fleet.dead.filter s.fleet.live.getLsbD ∧
      ((∀ f ∈ s.flights, f.lost = false) → sameBytes s t ∧
        t.flights = s.flights.map fun f => if f.spad ∨ f.performed then f else { f with replay := true }) ∧
      ∀ a tag c, s.flights.filter Access.lost = [a] → a.tag = some tag → tag < 2 ^ 16 → s.ctx? a.who = some c →
        c.deferred = [] → ∃ c', t.ctx? a.who = some c' ∧
          c'.deferred = [{ trapc := BitVec.ofNat 64 Cause.atomicUnknown.code, trapx := BitVec.ofNat 64 (tag * 2 ^ 32) }] ∧
          c'.ocl = (if a.cls = .l then c.ocl - 1 else c.ocl) ∧ c'.ocs = (if a.cls = .l then c.ocs else c.ocs - 1) ∧
          c'.s = c.s

/-- INSTALL of the mask that a drained package works toward puts it in force; RESUME of it lets an installed package go on;
of the mask that has been installed already either changes nothing. PACKAGE_RESET leaves nothing resident and TIME 0 (R25,
R400, R402, R403). -/
def Sys2Proof.Claim.InstallResumeAndResetAct : Prop :=
  ∀ s : State, let m := BitVec.ofNat 8 s.arg.val
    (m = s.fleet.target → s.fleet.step = .drained → s.fleet.master = false →
      ∃ t, Acts .install s t ∧ t.fleet.live = m ∧ t.fleet.step = .installed) ∧
    (m = s.fleet.target → s.fleet.step = .installed → s.fleet.master = false →
      ∃ t, Acts .resume s t ∧ t.fleet.step = .idle ∧ t.fleet.live = s.fleet.live) ∧
    (m = s.fleet.live → s.fleet.step = .idle → Acts .install s s ∧ Acts .resume s s) ∧
    ∃ t, Acts .packageReset s t ∧ t.time = 0 ∧ t.gangs = [] ∧ t.others = [] ∧ t.ctx.live = false ∧ t.part = s.part ∧
      t.pkg = s.pkg

/-- A command of the management core with arguments of another length than it takes is a bad argument: it changes nothing but
for its reply of status 1 (R411). -/
def Sys2Proof.Claim.CommandsCheckTheirArguments : Prop :=
  ∀ (s : State) (ev : Instr) (n : Nat),
    (ev, n) ∈ [(Instr.status, 0), (.counters, 0), (.clrcnt, 0), (.events, 0), (.setsave, 1), (.setuv, 2), (.setpcap, 2),
      (.arrayout, 2), (.arrayin, 2), (.kill, 2), (.windel, 2), (.setpft, 4), (.slewtime, 4), (.settime, 8), (.attest, 32),
      (.winreg, 64)] → s.arg.data.length ≠ n →
    Acts ev s { s with mgmt := { s.mgmt with replies := s.mgmt.replies ++ [[1, 0, 0, 0]] } }

/-- STATUS and COUNTERS reply and change nothing else; the counter block begins with CTNC, format 1 and the number of
arrays. CLRCNT clears every counter and leaves what is out, thresholds and strikes. SETPFT sets one array's threshold, or
every array's for 0xFFFF; SETUV takes an offset of 0 to 60 mV once it is rounded down to 5 mV, and clears the die's strikes; SETPCAP sets the cap within
the part's range; throttling follows the measured power, and its begin is an event (R411, R413, R415, R422). -/
def Sys2Proof.Claim.CountersThresholdsAndPower : Prop :=
  (∀ s : State, s.arg.data = [] →
    (∃ t p, Acts .status s t ∧ replied s t 0 p ∧ t = { s with mgmt := { s.mgmt with replies := t.mgmt.replies } } ∧
      leAt p 0 1 = s.mgmt.boot % 256) ∧
    (∃ t p, Acts .counters s t ∧ replied s t 0 p ∧ t = { s with mgmt := { s.mgmt with replies := t.mgmt.replies } } ∧
      leAt p 0 4 = 0x434E5443 ∧ leAt p 4 2 = 1 ∧ leAt p 6 2 = s.narr % 2 ^ 16) ∧
    ∃ t, Acts .clrcnt s t ∧ replied s t 0 [] ∧ t.mgmt.parityRepaired = 0 ∧ t.mgmt.regUncorrectable = 0 ∧
      t.mgmt.chkExecuted = 0 ∧ t.mgmt.chkMismatch = 0 ∧ t.mgmt.commitPoints = 0 ∧ t.mgmt.phaseAborts = 0 ∧
      (∀ n ∈ t.mgmt.crcRetries ++ t.mgmt.deadDecl, n = 0) ∧ (∀ p ∈ t.mgmt.hbm ++ t.mgmt.l2, p = (0, 0)) ∧
      ∀ a, (t.arrayCount a).corrected = 0 ∧ (t.arrayCount a).uncorrected = 0 ∧ (t.arrayCount a).window = 0 ∧
        (t.arrayCount a).out = (s.arrayCount a).out ∧ (t.arrayCount a).pft = (s.arrayCount a).pft ∧
        (t.arrayCount a).strikes = (s.arrayCount a).strikes) ∧
  (∀ s : State, s.arg.data.length = 4 →
    let a := leAt s.arg.data 0 2
    let v := leAt s.arg.data 2 2
    (a < s.narr → ∃ t, Acts .setpft s t ∧ replied s t 0 [] ∧ t.arrayCount a = { s.arrayCount a with pft := v } ∧
      ∀ b, b ≠ a → t.arrayCount b = s.arrayCount b) ∧
    (a = 0xFFFF → ∃ t, Acts .setpft s t ∧ replied s t 0 [] ∧
      ∀ b, b < s.narr → t.arrayCount b = { s.arrayCount b with pft := v }) ∧
    (s.narr ≤ a → a ≠ 0xFFFF → ∃ t, Acts .setpft s t ∧ replied s t 1 [] ∧ t.mgmt.arrays = s.mgmt.arrays)) ∧
  (∀ s : State, s.arg.data.length = 2 →
    let die := leAt s.arg.data 0 1
    let mv := leAt s.arg.data 1 1
    let w := leAt s.arg.data 0 2
    (die < s.dies → mv ≤ 64 → ∃ t, Acts .setuv s t ∧ replied s t 0 [] ∧
      (∀ i, t.mgmt.uv[i]? = if i = die then (s.mgmt.uv[i]?).map fun _ => mv - mv % 5 else s.mgmt.uv[i]?) ∧
      ∀ a, (t.arrayCount a).strikes = if a / 32 = die then 0 else (s.arrayCount a).strikes) ∧
    (s.dies ≤ die ∨ 64 < mv → ∃ t, Acts .setuv s t ∧ replied s t 1 [] ∧ t.mgmt.uv = s.mgmt.uv) ∧
    (300 ≤ w → w ≤ (if s.part = .q4 then 1800 else 1000) → ∃ t, Acts .setpcap s t ∧ replied s t 0 [] ∧ t.mgmt.cap = w ∧
      t.mgmt.throttle = decide (w < s.mgmt.power)) ∧
    (w < 300 ∨ (if s.part = .q4 then 1800 else 1000) < w → ∃ t, Acts .setpcap s t ∧ replied s t 2 [] ∧
      t.mgmt.cap = s.mgmt.cap)) ∧
  ∀ s : State, ∃ t, Acts .powerOverCap s t ∧ t.mgmt.power = s.arg.val ∧ t.mgmt.throttle = decide (s.mgmt.cap < s.arg.val) ∧
    (s.mgmt.cap < s.arg.val → s.mgmt.throttle = false → ∃ e, t.mgmt.unsolicited = s.mgmt.unsolicited ++ [e] ∧
      e.arg = s.arg.val - s.mgmt.cap) ∧
    (s.arg.val ≤ s.mgmt.cap ∨ s.mgmt.throttle = true → t.mgmt.unsolicited = s.mgmt.unsolicited)

/-- An array goes out of service and returns on command, its logical cluster moving to the lowest cluster of its die that is
in service and hosts one, or to none. At the end of an error window an array over its threshold ends its die's
undervolting; without undervolting it takes a strike, and an array that is not over its threshold loses its strikes; every
window count restarts (R411, R415, R416). -/
def Sys2Proof.Claim.ArraysStrikeAndLeaveService : Prop :=
  (∀ s : State, s.arg.data.length = 2 →
    let a := leAt s.arg.data 0 2
    (s.narr ≤ a → (∃ t, Acts .arrayout s t ∧ replied s t 1 [] ∧ t.mgmt.arrays = s.mgmt.arrays) ∧
      ∃ t, Acts .arrayin s t ∧ replied s t 1 [] ∧ t.mgmt.arrays = s.mgmt.arrays) ∧
    (a < s.narr → outIgnored s (a / 4) = true → ∃ t, Acts .arrayout s t ∧ replied s t 0 [] ∧ t.granary = s.granary ∧
      t.mgmt.arrays = s.mgmt.arrays) ∧
    (a < s.narr → outIgnored s (a / 4) = false → ∃ t, Acts .arrayout s t ∧ replied s t 0 [] ∧
      t.arrayCount a = { s.arrayCount a with out := true } ∧
      ∀ lc, hosted s (a / 4) = [lc] → remapNext t lc = newEntry s (a / 4)) ∧
    (a < s.narr → ∃ t, Acts .arrayin s t ∧ replied s t 0 [] ∧
      t.arrayCount a = { s.arrayCount a with out := false, strikes := 0 })) ∧
  ∀ s : State, (s.time < s.mgmt.windowStart + 700000000 → Acts .errorWindowEnd s s) ∧
    (s.mgmt.windowStart + 700000000 ≤ s.time → s.arg.data = [] → ∃ t, Acts .errorWindowEnd s t ∧
      t.mgmt.windowStart = s.mgmt.windowStart + 700000000 ∧ t.mgmt.windowWall = s.wall ∧
      ∀ a, a < s.narr →
        let x := s.arrayCount a
        let high := x.pft ≠ 0 ∧ x.pft < x.window
        (t.arrayCount a).window = 0 ∧ (¬high → (t.arrayCount a).strikes = 0) ∧
        (high → ∀ v, s.mgmt.uv[a / 32]? = some v →
          t.mgmt.uv[a / 32]? = some 0 ∧ (v = 0 → (t.arrayCount a).strikes = x.strikes + 1)))

/-- KILL ends a gang with status 0xC0, or 0x70 where it is of a reported wait-for cycle. WINREG registers a window whose
record keeps its rules, and WINDEL removes one with all its staging. The wait-for walk, at most every 7,000,000 cycles,
keeps the greatest set of blocked contexts whose signallers are all in the set, and reports a set that it finds at two
walks, once (R379, R384, R408, R411, R417). -/
def Sys2Proof.Claim.KillsWindowsAndTheWaitWalk : Prop :=
  (∀ s : State, s.arg.data.length = 2 →
    let g := leAt s.arg.data 0 2
    (s.gang? g = none → ∃ t, Acts .kill s t ∧ replied s t 1 [] ∧ t.gangs = s.gangs) ∧
    ∀ x, s.gang? g = some x → x.run = .running ∨ x.run = .preempted →
      Ends .kill s g (if ∃ w ∈ s.mgmt.reported, w.gang = g then 0x70 else 0xC0) ∧
        ∃ t, Acts .kill s t ∧ replied s t 0 []) ∧
  (∀ s : State, s.arg.data.length = 64 →
    let d := s.arg.data
    (windowOk s d = false → ∃ t, Acts .winreg s t ∧ replied s t 2 [] ∧ t.fleet = s.fleet) ∧
    (windowOk s d = true → ∃ t, Acts .winreg s t ∧ replied s t 0 [] ∧ t.fleet = { s.fleet with
      windows := s.fleet.windows ++ [{ wid := leAt d 0 2, home := leAt d 2 1, base := leAt d 8 8, len := leAt d 0x10 8,
                                       spill := leAt d 0x18 8, spilllen := leAt d 0x20 8 }] })) ∧
  (∀ s : State, s.arg.data.length = 2 →
    let wid := leAt s.arg.data 0 2
    ((∀ w ∈ s.fleet.windows, w.wid ≠ wid) → ∃ t, Acts .windel s t ∧ replied s t 1 [] ∧ t.fleet = s.fleet) ∧
    ((∃ w ∈ s.fleet.windows, w.wid = wid) → ∃ t, Acts .windel s t ∧ replied s t 0 [] ∧
      t.fleet.windows = s.fleet.windows.filter (fun w => w.wid != wid) ∧
      (∀ x ∈ t.fleet.staged, x ∈ s.fleet.staged ∧ ∀ w, windowOf s x.addr = some w → w.wid ≠ wid) ∧
      ∀ x ∈ s.fleet.staged, (∀ w, windowOf s x.addr = some w → w.wid ≠ wid) → x ∈ t.fleet.staged)) ∧
  ∀ s : State, (s.time < s.mgmt.lastWalk + 7000000 → Acts .waitForWalk s s) ∧
    (s.mgmt.lastWalk + 7000000 ≤ s.time →
      let waits (c : Ctx) (l : List CtxId) : Prop := c ∈ s.allCtx ∧ waitEntry s c = some (c.id, l)
      ∃ t, Acts .waitForWalk s t ∧ t.mgmt.lastWalk = s.time ∧
        (∀ w ∈ t.mgmt.lastCycle, ∃ c l, waits c l ∧ c.id = w ∧ ∀ x ∈ l, x ∈ t.mgmt.lastCycle) ∧
        (∀ p : CtxId → Prop, (∀ c l, waits c l → p c.id → ∀ x ∈ l, p x ∧ ∃ d m, waits d m ∧ d.id = x) →
          ∀ c l, waits c l → p c.id → c.id ∈ t.mgmt.lastCycle) ∧
        (∀ w ∈ t.mgmt.reported, w ∈ t.mgmt.lastCycle ∧ w ∈ s.mgmt.lastCycle) ∧
        (t.mgmt.unsolicited.length = s.mgmt.unsolicited.length +
          if ∀ w ∈ t.mgmt.reported, w ∈ s.mgmt.reported then 0 else 1) ∧ sameBytes s t)

/-- ATTEST uses up one of the identity key's 2^20 signatures, and is refused once none is left; EVENTS hands over the oldest
sixteen events; KEYUPD takes a rule key signed with the firmware key for the next reset, and SIGLOW shows how few signatures
that key has left (when, and which image FWUPD names: DESIGN CHOICE, log 74); FWUPD stages firmware; SETSAVE
sets the next save region of 1 to 64 GiB; SETTIME and SLEWTIME set the wall clock and its rate of at most 500,000 parts
per billion; a sensor read replies eight bytes (R411, R412, R418 to R421). -/
def Sys2Proof.Claim.KeysEventsAndClocks : Prop :=
  (∀ s : State, s.arg.data.length = 32 →
    (s.mgmt.identityUsed = 2 ^ 20 → ∃ t, Acts .attest s t ∧ replied s t 2 [] ∧ t.mgmt.identityUsed = 2 ^ 20) ∧
    (s.mgmt.identityUsed < 2 ^ 20 → ∃ t p, Acts .attest s t ∧ replied s t 0 p ∧
      t.mgmt.identityUsed = s.mgmt.identityUsed + 1 ∧ p.take 32 = s.arg.data)) ∧
  (∀ s : State, s.arg.data = [] → ∃ t p, Acts .events s t ∧ replied s t 0 p ∧ t.mgmt.events = s.mgmt.events.drop 16 ∧
    p.length = 16 * min 16 s.mgmt.events.length) ∧
  (∀ s : State, (xmssVerify s.mgmt.fwKey s.arg.data s.arg.sig = true → ∃ t, Acts .keyupd s t ∧ replied s t 0 [] ∧
      t.mgmt.ruleKeyNext = some s.arg.data ∧ t.mgmt.ruleKey = s.mgmt.ruleKey ∧
      (4096 < xmssLeft s.arg.sig → t.mgmt.unsolicited = s.mgmt.unsolicited) ∧
      (xmssLeft s.arg.sig ≤ 4096 → ∃ e, t.mgmt.unsolicited = s.mgmt.unsolicited ++ [e] ∧
        (s.mgmt.events.length < 256 → s.mgmt.overflow = false → e.code = 0x08 ∧ e.source = 1))) ∧
    (xmssVerify s.mgmt.fwKey s.arg.data s.arg.sig = false → ∃ t, Acts .keyupd s t ∧ replied s t 2 [] ∧
      t.mgmt.ruleKeyNext = s.mgmt.ruleKeyNext) ∧
    ∃ t, Acts .fwupd s t ∧ replied s t 0 [] ∧ t.mgmt.running = s.mgmt.running ∧
      let x : Signed := { image := s.arg.data, sig := s.arg.sig }
      (s.arg.id = 0 → t.mgmt.coreStaged = some x ∧ t.mgmt.sowerStaged = s.mgmt.sowerStaged) ∧
      (s.arg.id ≠ 0 → t.mgmt.sowerStaged = some x ∧ t.mgmt.coreStaged = s.mgmt.coreStaged)) ∧
  (∀ s : State, s.arg.data.length = 1 → let g := leAt s.arg.data 0 1
    (1 ≤ g → g ≤ 64 → ∃ t, Acts .setsave s t ∧ replied s t 0 [] ∧ t.mgmt.savegNext = g ∧ t.mgmt.saveg = s.mgmt.saveg) ∧
    (g < 1 ∨ 64 < g → ∃ t, Acts .setsave s t ∧ replied s t 2 [] ∧ t.mgmt.savegNext = s.mgmt.savegNext)) ∧
  (∀ s : State, s.arg.data.length = 8 → ∃ t, Acts .settime s t ∧ replied s t 0 [] ∧ t.wall = leAt s.arg.data 0 8 ∧
    t.time = s.time) ∧
  (∀ s : State, s.arg.data.length = 4 → let r := (BitVec.ofNat 32 (leAt s.arg.data 0 4)).toInt
    (-500000 ≤ r → r ≤ 500000 → ∃ t, Acts .slewtime s t ∧ replied s t 0 [] ∧ t.wallRate = r ∧ t.wall = s.wall) ∧
    (r < -500000 ∨ 500000 < r → ∃ t, Acts .slewtime s t ∧ replied s t 2 [] ∧ t.wallRate = s.wallRate)) ∧
  ∀ s : State, ∃ t p, Acts .pldmSensorRead s t ∧ replied s t 0 p ∧ p.length = 8 ∧ t.fleet = s.fleet ∧ t.granary = s.granary

/-- PACKAGE_RESET leaves the same package with nothing resident or in flight, empty memory (DESIGN CHOICE, log 3), TIME 0, the
cap at the part's maximum, the save region that SETSAVE named, PMAP of the live mask that it joins, and the keys and the
identity key's count as they stood. It runs the management core's and the sowers' images, as staged or as they ran, where the
firmware key has signed both, and else stays in boot stage 1 (R25, R85, R397, R418 to R422). -/
def Obligations.PackageResetStartsAfresh : Prop :=
  ∀ s : State, ∃ t, Acts .packageReset s t ∧ t.part = s.part ∧ t.pkg = s.pkg ∧ t.gangs = [] ∧ t.others = [] ∧
    t.ctx.live = false ∧ t.flights = [] ∧ t.cmds = [] ∧ t.press = [] ∧ t.mem = [] ∧ t.spad = [] ∧ t.time = 0 ∧ t.wall = 0 ∧
    t.mgmt.cap = (if s.part = .q4 then 1800 else 1000) ∧ t.mgmt.saveg = s.mgmt.savegNext ∧
    t.mgmt.identityUsed = s.mgmt.identityUsed ∧ t.mgmt.ruleKey = s.mgmt.ruleKeyNext.getD s.mgmt.ruleKey ∧
    t.granary.queues = [] ∧ t.granary.nodes = [] ∧
    t.mgmt.fwKey = s.mgmt.fwKey ∧ t.mgmt.identityKey = s.mgmt.identityKey ∧
    (let core := s.mgmt.coreStaged.getD (s.mgmt.running false)
     let sower := s.mgmt.sowerStaged.getD (s.mgmt.running true)
     let good := xmssVerify s.mgmt.fwKey core.image core.sig = true ∧ xmssVerify s.mgmt.fwKey sower.image sower.sig = true
     (good → t.mgmt.boot = 5 ∧ t.mgmt.running false = core ∧ t.mgmt.running true = sower) ∧
     (¬good → t.mgmt.boot = 1 ∧ t.mgmt.running = s.mgmt.running)) ∧
    let full : BitVec 8 := if s.part = .q4 then 0xFF else 0x0F
    let live := if s.arg.val % 256 = 0 then full else BitVec.ofNat 8 s.arg.val &&& full
    t.fleet.live = live ∧ ∀ i, i < 8 → pmapEntry t.pmap i = if live.getLsbD i then i
      else ((liveList live)[i % (liveList live).length]?).getD 0

/-- TZERO, TFILL, TMOV, TTRANS, TCVT and TSCALE at issue: the tiles must be declared and of valid shape, and keep the
conditions of their rule: equal images for TMOV between tiles, a row below ROWS for its vector forms, transposed
shapes of one format for TTRANS, equal rows and columns and no SC code for TCVT, one format of codes 0 to 9 and one
shape for TSCALE (R119, R178, R180, R181, R182, R183, R184). TLD and TST of the scratchpad are done at issue where
fewer than 16 tile operations are outstanding, the token is complete, the tile's shape is valid and suits its sidecar,
PACT is 0, base and pitch are multiples of 4, every byte lies in the gang's banks, no bank of the cluster is reserved
and the context is not being pre-empted: the transfer is in flight, counted in OCT, its token incomplete, and no other
register and no byte of memory has changed. TLD_COMPLETE and TST_COMPLETE of all the rows of a transfer that may move
then end it: the token is complete with status OK, the count released, and of the registers TLD_COMPLETE changes its
tile alone and TST_COMPLETE none (R119, R186, R187, R188, R245). -/
def Obligations.TileInstructionsIssue : Prop :=
  Claim.WholeTileInstructionsIssue ∧ Claim.TileTransfersIssueAndEnd

/-- A chain's own steps. MMA_PROMOTION_COMPLETE adds the oldest contribution at a link to its plane, counts it, and makes
the link COMPLETE at its count; HANDOFF_FORM of a COMPLETE link that has its inbound partial and whose cluster is
sliced in, or that is the head, forms the partial and the link is SENT; HANDOFF_ARRIVAL puts it into the next link's
inbound buffer, which a partial already there keeps; LINK_UNCORRECTABLE_ERROR faults a link that is not DONE, which
loses what it held, and freezes its chain (R157, R158, R162, R163, R166, R167). A close that is armed in a BUILT or
ACTIVE chain whose links have all formed their partials begins with CLOSE_ACT, and CLOSE_WRITTEN of one that has begun
and goes to a tile ends it: the chain is CLOSED and the close is gone. ARRAY_WINDOW_START of an array whose present
window has ended begins another (R159, R160, R171). -/
def Obligations.ChainsPromoteHandOffAndClose : Prop :=
  Claim.ChainsPromoteAndHandOff ∧ Claim.ClosesAndWindowsAct

/-- For every encodable instruction of majors 0x00 to 0x15 (scalar, control, CSR and floating-point) the decoder reads
back the instruction that the encoder wrote, with every operand at every value the encoding admits (R87, R93). The
same for majors 0x18 to 0x28: vector, mask, crossbar, tile, matrix and chain instructions (R87, R93). -/
def Obligations.ComputingInstructionsRoundTrip : Prop :=
  Claim.ScalarAndFloatRoundTrip ∧ Claim.VectorAndTileRoundTrip

/-- A slot's decode-time traps, in their order: a field outside the limits of its instruction or an element size that it
does not allow traps with ILLEGAL_INSTR; else a privileged form, or a write of an RWP CSR, in user mode with
PRIVILEGED; else an instruction of an absent unit or of the wrong core kind with UNIMPLEMENTED; XINFO is the word
(R95). Where nothing is in flight, no register is owed a value, and an instruction issues as soon as its fields keep
to their limits, the mode and the unit allow it and its element size and crossbar pattern are legal (R95, R290). -/
def Obligations.SlotsTrapOrIssue : Prop :=
  Claim.DecodeTimeTrapsInOrder ∧ Claim.QuietSlotIssues

/-- Taking a trap in user mode with a handler: CAUSE, PM = 0 and FADDR in TRAPC, the bundle's address in TRAPPC, the slot
and XINFO in TRAPX, TRAPO 0 where no rewrite was cancelled; the mode becomes privileged and PC the handler; no other
register of the context and nothing else of the package changes (R79 to R81, R368). A trap without a handler, or in
privileged mode, ends the gang instead: the gang is being killed with status 0x40 + cause, no context of it stays, and
no trap register of another context changes. TRAP in privileged mode gives 0x40 + CODE for a cause code and 0x78 for
any other (R369). -/
def Obligations.TrapsEnterHandlersOrEndGangs : Prop :=
  Claim.TrapRecordsAndEntersHandler ∧ Claim.UnhandledTrapEndsTheGang

/-- ADD, SUB and MUL write a + b, a - b and the low w bits of a × b modulo 2^w; AND, OR, XOR and ANDN work bit by bit.
Under .32 the result of the first three is sign-extended and that of the others zero-extended (R98, R99). MULH and
MULHN write the high w bits of the 2w-bit product, of signed and of natural operands; SHL, SHR, SRA and ROTL shift or
rotate by b mod w (R99). MIN, MAX, MINN and MAXN write the lesser or greater operand; CLZ, CTZ and POPC count leading
zeros, trailing zeros and ones of a, and the first two give w for 0 (R99). The immediate forms do the 64-bit operation
with the literal sign-extended, zero-extended for MINN and MAXN, or a shift amount of 0 to 63 (R101). MOVI writes the
sign-extended literal, MOVHI one 16-bit lane of D, SEL one of two registers, LEA the sum of A and B shifted; BFX
extracts a field, extended either way, and BFI replaces one; all other bits of D keep their value, that of its
original's D in a duplicate (log 101) (R102, R103, R105 to R107). -/
def Obligations.IntegerResults : Prop :=
  Claim.AddSubMulAndLogicResults ∧
    Claim.HighProductAndShiftResults ∧
    Claim.MinMaxAndCountResults ∧
    Claim.ImmediateFormResults ∧
    Claim.MoveSelectAndFieldResults

/-- BR goes to BA + imm × 16 where its predicate, complemented by N, is 1, and otherwise only past its bundle; JMP, CALL,
JMPR, CALLR and RET go to their targets, CALL and CALLR with s31 := BA + 16 after A is read. A target that is not a
multiple of 16 traps with ALIGN and one above bit 55 with ACCESS_FAULT, FADDR the target, and s31 is then as it was
(R111 to R114). LOOP.ST sets ROTB to 0, PIPE.SC to SC, p9 to p15 to 0, and with a count n of 1 or more PASS to min(n +
SC - 1, 2^64 - 1) and p8 to 1; with n = 0 it sets PASS and p8 to 0 and goes to its label. p0 to p7 stay (R116).
LOOP.BR with PASS = 0 only goes on. Otherwise it decrements PASS and both rotation bases, moves each of p8 to p14 up
by one, sets p8 while PASS is at least max(PIPE.SC, 1), and goes to its label while PASS is not 0 (R115, R117). The
physical number of a rotating scalar name moves up by one with each advance: after LOOP.BR's advance the register that
was s(32 + i) is s(33 + i), and so for v(16 + i) (R115). -/
def Obligations.ControlTransfers : Prop :=
  Claim.BranchesAndCallsTransfer ∧
    Claim.LoopStartSetsPassesAndStages ∧
    Claim.LoopBranchAdvancesRotation ∧
    Claim.AdvanceRenamesRotatingRegisters

/-- CSRR, CSRW, CSRS and CSRC write the value before the bundle to D, and the last three store A, old OR A, and old AND
NOT A; a write of the TCFG of an undeclared tile traps with TILE_SHAPE and the tile's number (R73, R108). A CSR keeps
of a written value the bits that its map gives it, and reads them back: reserved bits read 0, RM 5 to 7 and SC 9 to 15
are stored as 0. A write of FXF is ORed with what the bundle's slots raise. A write of ALTW acts by its low four bits
alone, WIN 5 to 7 being stored as 0; it waits for the next window of the core's array, which takes it, the odd core's
before the even one's. A write of a read-only CSR changes nothing (R6, R46, R47, R69 to R71, R76, R77, R79 to R83,
R92). A write of TCFGn stores its fields, and stores PACT as 0 while PACT is 1; the tile's bytes do not change (R72,
R73, R175). -/
def Obligations.CsrInstructionsReadThenStore : Prop :=
  Claim.CsrInstructionsReadThenStore ∧
    Claim.CsrFieldsStoreTheirBits ∧
    Claim.TileShapeWriteStoresFields

/-- Every rounding floating-point instruction writes its result, of bits [31:0] or the whole of its operands, to D with
zeros above it and raises the result's flags; where FPM enables one of them the bundle takes FP_EXCEPTION and only FXF
changes; FMA, FMS and FNMA of a duplicate read its original's D (log 101) (R48, R123, R124, R130, R131). What the
results are is said by O21, O22 and O23; of FEXP to FERFC these give the special cases and the far ends alone, and
what lies between is left to the enclosures of the model. FNEG inverts the sign bit of A, FABS clears it, FCPSGN takes
that of B, FMOV copies A, none raising a flag even for a NaN; FCLASS writes one bit by the class of A; FCVT writes the
converted value, sign-extended for i8 to i32 and with zeros above it for every other type (R50, R124, R127, R129). The
four comparisons write p := 1 when a = b with the zeros equal, a < b, a ≤ b, and either is a NaN; a NaN gives 0 to the
first three. EQ and UN raise NV for a signalling NaN alone, LT and LE for any NaN (R126). -/
def Obligations.FloatSlotsWriteOrTrap : Prop :=
  Claim.FloatSlotsWriteOrTrap ∧
    Claim.SignClassAndConvertSlots ∧
    Claim.FloatComparesRelateValues

/-- The special cases of FP32 and FP64: a NaN operand gives the canonical NaN, with NV only for a signalling one; two
infinities of opposite signs in a sum, 0 × ∞, 0 / 0, ∞ / ∞ and the root of a negative number give the canonical NaN
and NV; an infinity of one sign stays; a finite number over zero gives an infinity and DZ; -0 keeps its sign under the
root (R50, R51, R124, R125). FMIN and FMAX return the other operand for one NaN and the canonical NaN for two, raise
NV only for a signalling NaN, put -0 below +0, and otherwise return the operand of the lesser or greater value; FRINT
leaves zeros and infinities and never raises OF or UF (R52, R130). The exact functions, where R58 gives their value:
at infinities, zeros and NaNs; FEXP2 of an integer is the power rounded, FLOG and FLOG2 of 1 are +0, FLOG2 of a power
of two is its exponent, and of a negative number both are invalid. At the far ends: from 2^12 up FEXP and FEXP2
overflow, and from -2^12 down, as FERFC from 28 up, their result lies below every subnormal; FERF from 16 up rounds a
number just below 1 (R44, R45, R57, R58). What a conversion between element types gives: of a finite value to a
floating-point format the value rounded, one that overflows an FP8, FP6 or FP4 format being replaced as R54 says; of a
NaN and an infinity what R53 and R54 say; to an integer type the rounded integer, clamped with NV where it lies
outside the type; of an integer to a floating-point format the integer rounded, to an integer type the integer clamped
with SAT (a negative one to a natural type gives 0: log 102), and to BIN1 its sign. FCLASS numbers the class of its
operand (R53, R54, R55, R56, R127). -/
def Obligations.FloatSpecialCases : Prop :=
  Claim.FloatSpecialCases ∧
    Claim.MinMaxAndRoundToIntegral ∧
    Claim.ExactFunctionsAtTheirEnds ∧
    Claim.ConversionsAndClasses

/-- FADD, FSUB, FMUL, FMA, FMS and FNMA of finite operands round the exact sum, difference, product, or product and
addend, once, wherever that exact value is not zero (R44, R124). FDIV and FSQRT of finite operands round the exact
quotient and root once; FRINT gives the integer that the mode picks, with the sign of its operand, and NX exactly when
it differs; FRCP and FRSQ round to the format, ties to even, the reciprocal and the reciprocal root as rounded to 13
significant bits; FRCPS and FRSQS round 2 - a × b and (3 - a × b) / 2 once, and give 2.0 and 1.5 without a flag for a
product of an infinity and a zero (R43, R44, R59, R60, R61, R124, R130). -/
def Obligations.SumsAndProductsRoundOnce : Prop :=
  Claim.SumsAndProductsRoundOnce ∧ Claim.QuotientsRootsAndEstimates

/-- The vector integer operations apply the scalar ones to each active element, modulo 2^w for the element width w of
VSHAPE; VADD and VSUB with S clamp the exact result to the signed or natural range and raise SAT when the clamp
changes it. Inactive elements keep their value and the sidecar is unchanged (R99, R100, R134, R136). The vector
floating-point operations apply the scalar ones to each active element, FP32 or FP64 by VSHAPE.EW; VFMA, VFMS and
VFNMA read the old element of D, in a duplicate its original's (log 101); the sign operations copy bits without a flag
(R134, R137, R138). Every reduction that issues, with no exception enabled in FPM, is done: exec answers the next
state, in which only D, a scalar register or with ROW a vector register, and the flags have changed, and pc stands at
the next bundle (R48, R143). -/
def Obligations.VectorResults : Prop :=
  Claim.VectorIntegerResults ∧ Claim.VectorFloatResults ∧ Claim.ReductionsAreDone

/-- VCVT converts each active element between two types of one width; VPACK converts the wide elements of A to narrow ones
of part PART of D and leaves the others (those of its original's D in a duplicate: log 101); VUNPACK converts the
narrow elements of part PART of A to wide ones; VMXSCALE reads part PART of A with the scale of its block, a scale
0xFF giving the canonical NaN without a flag (R139 to R142). VMXNORM writes, for each block of 32 FP32 elements, its
scale and its 32 converted elements into part PART of D and leaves every other element and sidecar byte (of its
original's D in a duplicate: log 101); the worked block of R142 gives scale 0x78 and elements 0x7C, 0xEC and 0x55 with
NX, and scaling it back 3.0, -0.75 and 0.1015625 (R142). -/
def Obligations.VectorConversionsAndBlocks : Prop :=
  Claim.VectorConversionResults ∧ Claim.MxNormWritesScaledBlocks

/-- The reductions: FSUM, FMIN and FMAX in the architected tree; ISUM forms the exact sum and wraps or saturates it once,
to 64 bits or with ROW to the element width; the integer extremes compare as signed or natural values and give their
empty values over no element (R62, R143). The architected tree: with P = 2^k the smallest power of two not below the
number of elements, a reduction at NBV = 2 is node(k, 0); at NBV = 1, with P of 4 at least, each group of four
positions is folded from its lowest present element upward and the groups are combined by the tree. FSUM over finite
elements combines by the rounded sum, each rounding raising its flags, and gives +0 over none; an infinity of one
sign, infinities of both and a NaN among the elements follow the rules of a sum over all of them; FMIN and FMAX
combine by their scalar forms and give the infinity over none. The worked example of R63 gives 0x3F800002 at NBV = 2
and 0x3F800000 at NBV = 1 (R51, R52, R62, R63). The extreme over a list is one of the elements present and no element
present lies beyond it; over none it is the empty value (R62, R143). -/
def Obligations.ReductionsAndExtremes : Prop :=
  Claim.ReductionResults ∧ Claim.ReductionsFollowTheTree ∧ Claim.IntegerExtremesBoundTheirElements

/-- VMOV copies elements, with MK = 0 the sidecar too; VBCAST writes the low bits of a scalar to each active element;
VEXTR reads element k, 0 beyond the last; VXB sends source lane s of each group of 16 to lane sB[4s+3:4s], and a
pattern that names a lane twice traps with ILLEGAL_SCHEDULE (R144, R146). MAND, MOR, MXOR, MANDN and MNOT work on all
2048 bits; VCMP and VFCMP write the bit of each active element and leave the others, and all from n upward; MPOPC
counts the ones among the first n bits (R145). -/
def Obligations.VectorMovesAndMasks : Prop :=
  Claim.VectorMovesAndCrossbar ∧ Claim.MaskResults

/-- LD, ST, LD.ACQ and ST.REL: a misaligned address traps with ALIGN and FADDR the address formed; else the access goes in
flight on the translated bytes of sA + sext(imm) (of sA for the ordered forms), a load owing D its extended bytes, a
store holding the low bytes of D; the register is not written before the data returns (R207, R208, R210, R223). VLD
and VST of elements: base and stride are multiples of the element size or the slot traps with ALIGN and FADDR the
base; the bytes are those of the active elements, row r at the base plus r strides, and no others. With SCR they move
the 128 bytes of the sidecar, at a multiple of 128; that another base traps with ALIGN is the model's reading (log 76,
DEDUCED and unsafe: R211 gives ILLEGAL_INSTR to a breach for which it names no ALIGN) (R211). -/
def Obligations.LoadsAndStoresGoInFlight : Prop :=
  Claim.LoadsAndStoresGoInFlight ∧ Claim.VectorLoadsAndStoresGoInFlight

/-- The eleven AMO and the nine RED operations go in flight on the aligned word at sA with the operand sB (and, for CAS, D
as it stood before the bundle): an AMO counts in OCL and owes D the old value, sign-extended for i32 alone; a RED
counts in OCS. A floating-point operation above DETL FREE is performed at the press, one in a registered window at the
switch, and every other at home; an AMO to a window traps with ACCESS_FAULT (R207, R208, R214, R215, R216, R221). The
new value of an atomic that finds x and whose operand is v, at the width of its type: SWAP, CAS, ADD modulo 2^w, the
bitwise operations, MIN and MAX signed for the i types, and the floating-point operations with one rounding; the value
returned is extended with the sign for i32 and with zeros else (R215, R216). -/
def Obligations.AtomicsGoInFlight : Prop :=
  Claim.AtomicsGoInFlight ∧ Claim.AtomicResultsFollowTheirTable

/-- PREF, CLEAN and INVL: a length above 2^21 traps with ILLEGAL_INSTR; PREF takes no address trap and changes no
register, no memory and no count; CLEAN and INVL of an empty range do nothing, and else go in flight on the 64 bytes
of every granule that meets the range, in OCS (R208, R212). The address traps of an access and its waits. An address
with bits above 55 takes ACCESS_FAULT, one whose walk finds no leaf PAGE_FAULT, and a leaf without the permission, a
target that is reserved, or a page in HBM that reaches into the save region ACCESS_FAULT; every other access has the
address of its leaf; a scratchpad offset from 0xC00000 up, or in a bank that the gang does not hold, SPAD_RANGE. The
first failing byte, in ascending order, is reported. With 64 accesses of its class outstanding, a slot of LD or ST
stalls (R119, R207, R361, R362, R420). -/
def Obligations.MaintenanceAndAddressTraps : Prop :=
  Claim.MaintenanceCoversItsGranules ∧ Claim.AddressTrapsAndCountStalls

/-- NOP changes nothing but pc. YIELD leaves the core where another context of it is ready. EXIT ends the context: it is
dropped from every barrier and no register or memory changes. WAIT goes on exactly when each count, as it stood before
the bundle, is at most its limit, and blocks otherwise (R18, R118, R120, R121, R122). FENCE without P, of a scope
below sys, completes at issue and changes no register and no memory; wider than ctx it puts the accesses of its own
bundle behind it. FENCE.sys blocks its bundle until every live furrow has acknowledged it, and a press fence counts
once, and blocks until its round is reached and no closed press window is left to apply (R224). -/
def Obligations.NopsExitsWaitsAndFences : Prop :=
  Claim.NopYieldExitAndWait ∧ Claim.FencesOrderAndWait

/-- BAR.ARRIVE and BAR.DROP. A dropped context, and an arrival where the context has already arrived in the phase, take
BARRIER_ERROR with the barrier in XINFO. An arrival is counted; a drop lowers E and withdraws the context's arrival;
where the arrivals then reach E > 0 the phase completes: the next begins with no arrival and the same E (R80, R226).
An arrival stalls while its die's epoch runs too far ahead of a slice (the model's choice, log 95). BAR.WAIT and
BAR.TWAIT, issued without an arrival to make (ARR = 0, or a reissue). A context that has dropped or has never arrived
takes BARRIER_ERROR. Where its phase is over and no press window waits, the wait returns (BAR.TWAIT with 0 where the
phase completed no later than the expiry cycle); else it blocks, but a timed wait with L = 0, or whose expiry cycle
has passed, or whose phase completed later, writes 1. With ARR = 1 at first issue the arrival is made and counted
whether or not the slot then blocks (R226, R228). -/
def Obligations.BarriersCountAndWait : Prop :=
  Claim.BarriersCountArrivalsAndDrops ∧ Claim.BarrierWaitsReturnWhenThePhaseIsOver

/-- CP, GATHER, SCATTER, COLL.RESHARD and COMBINE at issue (R80, R233, R234, R235, R245). TOKWAIT returns when the token
is complete, with OK = 1 takes TOKEN_ERROR at another status, and blocks while it is incomplete. TOKTEST writes the
token's state; TOKJOIN makes its token incomplete and consumes the tokens that it names. ARM registers the command of
its block on the counter, or queues it at once where (c - T) mod 2^32 < 2^31 (R231, R247, R248). -/
def Obligations.EngineCommandsAndTokens : Prop :=
  Claim.EngineInstructionsQueueTheirCommand ∧ Claim.TokensAndArm

/-- ENGINE_COMMAND_START starts a command whose consumed tokens all completed OK, once the accesses that its instruction
releases to it have been performed and not before, and cancels one that consumed another status. In its last turn a
running copy, gather or scatter moves every byte of its block that it has not yet moved and completes; in an earlier
turn of a copy, which the event names (log 20), the bytes up to that turn's end move and the command stays.
TOKJOIN_COMPLETE completes its token: FAULT with the lowest-numbered faulting field's cause and address, else
CANCELLED, else OK (R235 to R239, R248, R264). RESHARD_DIGEST_EXCHANGE lets the ranks of one collective go on when
their digests agree, and otherwise takes every one of them away with no byte written; RESHARD_CHUNK_READ with TRIGBASE
0 reads the whole source shard. COMBINE_FOLD folds the staged contributions of the next element in source order into
it and empties its staging; an element with none is unchanged. A COMBINE that has folded every element completes OK
(R242, R243, R244). -/
def Obligations.CommandsRunToCompletion : Prop :=
  Claim.CommandsStartMoveAndComplete ∧ Claim.ReshardsAndCombinesProceed

/-- PHASE.BEGIN opens a phase from a record that keeps its rules, with the bundle behind it as restart point and the
registers as checkpoint; a record that breaks one takes ILLEGAL_INSTR, a misaligned one ALIGN. PHASE.COMMIT stalls
while the context has anything outstanding, blocks until every context of the gang has committed as often, and then
writes the offset of the new input buffer and inverts the parity (R250, R251). CHK goes on where its two scalar
registers, vector registers with their sidecars, or predicates are equal bit for bit, and takes CHECK_MISMATCH
otherwise; each CHK and each mismatch is counted, saturating at 2^64 - 1 (R252, R413). PHASE_RESTART, once the gang has
come to rest, drops every arrival, and puts each context with an open phase back to its checkpoint at its restart point
with its parity unchanged, no register that the checkpoint holds being in error (R382); that its mode stays is the model's
reading (DEDUCED, log 45). -/
def Obligations.PhasesCommitAndChkCompares : Prop :=
  Claim.PhasesBeginAndCommit ∧ Claim.ChkComparesBitForBit ∧ Claim.PhaseRestartReturnsToTheCheckpoint

/-- MMA, MMA.MX and MMA.SC at issue: MMA with QT = 0 names no token and with QT = 1 to 7 names q(24 + QT); the other two
name q31 with QK = 1 (R157, R163, R165, R179, R190, R192, R193). CHAIN.BUILD, once the banks of its descriptor are
free, of an IDLE or CLOSED chain from a descriptor that keeps its rules makes it BUILT, its links EMPTY (or COMPLETE
where c is 0) and named by it; of another chain, or from another descriptor, it takes CHAIN_STATE. CHAIN.CLOSE, into a
tile or into scratchpad, arms a close and makes the chain ACTIVE. CHAIN.STAT writes state, cause and H to D, and with
an address stores the record; CHAIN.SPLICE puts a spare in a faulted link's place; CHAIN.RESUME returns a frozen chain
to the state it left; CHAIN.FREE makes it IDLE, and stalls while its close writes (R163, R165, R167, R198, R199, R200,
R201, R202, R203, R204). -/
def Obligations.ContributionsAndChainInstructions : Prop :=
  Claim.ContributionsIssue ∧ Claim.ChainInstructions

/-- PRESS_ENTRY_ARRIVAL enters a press atomic under its key where the holding buffer has a free entry; a RED is then
performed, and an AMO waits for its value. Where the buffer is full, the entries of one gang are spilled, which writes
no byte outside the run in its spill area; where no gang's spill area can hold its run, or the press of another
package has rejected the atomic, it is rejected and its issuer's ACCESS_FAULT is deferred. PRESS_WINDOW_APPLY takes
the oldest closed window of a gang once all its atomics have been entered and no quiesce is under way, and applies the
entries that it holds in key order, those of other gangs and windows staying; applying an entry performs its atomic at
its word (R217 to R219, R406). A contribution to a reduction window lands, at DETL 1 and above, in its source's
staging slot, memory unchanged, and at DETL FREE joins the accumulator of its element; with neither staging nor spill
room it is rejected. SWITCH_ACCUMULATOR_WRITE performs an accumulated contribution at its word and acknowledges it; a
retry of a remote atomic is invisible (R220, R221, R409). -/
def Obligations.PressesAndSwitchesApplyAtomics : Prop :=
  Claim.PressesEnterAndApplyWindows ∧ Claim.SwitchesStageAndMerge

/-- BUNDLE_REISSUE makes a blocked context ready as soon as what its bundle waits for has come, and not before: counts at
or below their limits, a complete token, a flag set that the wait names, a completed commit round, an acknowledged
INVR, engine-queue room. TIMED_WAIT_EXPIRY does it for a timed wait whose expiry cycle has passed, and
FENCE_SYS_ACKNOWLEDGE marks a FENCE.sys once every earlier access has been performed and acknowledged and no quiesce
is under way (R18, R118, R224, R228, R248, R251, R406). TABLE_WALK_COMPLETE fills the TLBs of its core and cluster
with the leaf that the walk finds, where the walk cache holds no older entry, and with nothing where it finds none or
where an INVR's invalidation point has passed since it began. INVR_ACKNOWLEDGE first, once the issuer's earlier
accesses have drained, drops each TLB entry whose page meets the range and whose ASID matches, and then, once what was
translated through them has drained, ends the INVR (R361, R364 to R366). -/
def Obligations.WaitsWalksAndInvalidations : Prop :=
  Claim.BlockedContextsWakeWhenTheirWaitIsOver ∧ Claim.WalksFillAndInvrDropsTranslations

/-- DEFERRED_TRAP_DELIVERY takes the waiting record of the lowest cause code, the earliest of equal ones, at the bundle
boundary: TRAPC and TRAPX from the record, TRAPPC the bundle that it precedes, SLOT 0, privileged mode, PC the
handler; the record leaves the queue. A queue that keeps a free record for every cause without one stays so, and
always holds a record of each cause that has become due (R370). CONTEXT_SLOT_FREE frees the slot of an exited context
with nothing outstanding; SLICE_SWITCH turns a time-sliced physical cluster over to its other logical cluster, where
that has a ready context, no contribution waits on the one that runs, none of its bundles stands between two
replacements, and it has none ready or has had its 32,768 cycles: its contexts, the running marks among them, stand as
they did; HARROW_DECISION ends the harrow delay of a context and settles once, for the head in the bundle at PC, which
entry of the cluster's table applies (R16, R18, R20, R121, R301, R308). -/
def Obligations.DeferredTrapsSlotsAndSlices : Prop :=
  Claim.DeferredTrapsQueueAndDeliver ∧ Claim.SlotsSlicesAndHarrowDecide

/-- A word of no assigned encoding traps with ILLEGAL_INSTR and the word in XINFO. A bundle that cannot be fetched traps
at the boundary before it, behind the deferred traps that are due there: ACCESS_FAULT beyond 2^56 or on a page without
execute permission, PAGE_FAULT where no leaf translates, FADDR the address (R95, R114, R207, R361, R362, R370). A
parity error is repaired from the last 16 bundles of its context, and only counted; one whose producer has left them,
and an uncorrectable one, leaves the register bad and every other register as it was. A slot that reads a bad
register, its predicate among them, takes REGISTER_UNCORRECTABLE as it issues; one that reads none runs its
instruction (R381, R413, R414). DEADLOCK_DELIVERY takes DEADLOCK precisely at the blocked bundle of a context on a
reported cycle, an arrival of that bundle withdrawn without marking the context DROPPED; and an uncorrectable error in
a DETL DUAL shadow, or in a save block, fails the node with REGISTER_UNCORRECTABLE's status 0x69 (R378, R384, R420).
-/
def Obligations.IllegalBundlesAndRegisterErrors : Prop :=
  Claim.IllegalWordsAndUnfetchedBundlesTrap ∧ Claim.RegisterErrorsReplayOrTrap ∧ Claim.DeadlockAndSavedDataErrors

/-- ERROR_CONSUMED kills the gang with status 0x68 where the consumer has no open phase, a phase has aborted three times
already, or, while the gang aborts, in the recopy or where the consumer has no open phase; another consumer changes
nothing while the gang aborts; else the gang begins to abort: its ready contexts stop, one whose tile transfer the
event names at the row that it names, and no queued command of it stays (R382, R383). -/
def Obligations.ErrorsAbortPhasesOrKill : Prop :=
  Claim.ErrorsAbortPhasesOrKill

/-- A doorbell of a function that sees the queue is kept; with EN clear in the descriptor the queue is off; a queue
enabled again starts with HEAD and TAIL 0 and the descriptor's level; a doorbell that moves TAIL forward within the
ring moves it, one beyond sets ERR, in the descriptor too, and moves nothing, and one that is stale, 0 or 2^31 and
more ahead, changes neither (R344, R346). Packets are taken at HEAD. A NOP only moves HEAD and, with CMP, posts a
KIND-3 entry with its TAG; an unknown type sets ERR; a NODE packet whose record reads and fits admits one ready node
at the higher of the record's and the queue's level, and one whose header does not translate posts a rejection with
reason 5, and its KIND-3 entry counts one failed node; a DETSET packet holds the queue for its level (R347, R348,
R351, R353, R356, R357). -/
def Obligations.DoorbellsAndPackets : Prop :=
  Claim.DoorbellsMoveTailOrSetErr ∧ Claim.PacketsAreTakenAtHead

/-- A GRAPH packet whose graph reads, has no cycle or bad edge, and whose node records all pass, admits its nodes joined
by the edges: one without predecessors is ready, each other one waits for its predecessors. One whose header reads and
whose node addresses do not admits no node, and its KIND-3 entry counts every node of the header as failed (DEDUCED,
log 50). A change of level takes effect once no earlier packet of the queue is left, and is written to the descriptor
(R347, R348, R352, R353, R357). COMPLETION_ENTRY_WRITE writes the oldest entry of a queue at CTAIL of its ring where
that has room, advances CTAIL and raises the queue's vector; a full ring holds it back. A REMAP entry written to name
a die that is not fitted, or a third logical cluster for one physical cluster, is ignored; one written with the value
that it has is no write, so a write that has not yet taken effect stays; another takes effect once nothing is resident
on the logical cluster (R344, R350, R357). -/
def Obligations.GraphsLevelsEntriesAndRemap : Prop :=
  Claim.GraphsAreAdmittedAndLevelsChange ∧ Claim.EntriesAreWrittenAndRemapTakesEffect

/-- The physical function's aligned 8-byte writes of BAR0 set QTBASE, AGING, RSADDR with GO (nothing while GO reads 1) and
RSLEN; others change nothing, and one beyond the window faults. A read gives what an aligned access of 8 finds there,
and any other access reads zero. RESYNC writes the summary, cut at RSLEN, at RSADDR and then clears GO (R344, R358).
The summary of a RESYNC (16 R358): its header, with the counts of what follows and its whole length, which TRUNC
compares with a limit; an entry of 16 bytes for each queue with EN set, one of 64 for each gang, and one of 16 for
each pending fault. The host's accesses through BAR2 reach HBM and leave what the homes hold; through CXL.mem they
read and write at the home. Both wait during a quiesce, and fault beyond the end of HBM (R260, R342, R406). -/
def Obligations.HostRegistersAndAccesses : Prop :=
  Claim.HostRegistersAndResync ∧ Claim.SummaryHoldsItsEntries ∧
    Claim.HostAccessesReachHbmOrHome

/-- The granary takes, of the ready nodes that fit, one of the lowest class and in it the earliest to become ready. It
becomes running as a gang with every barrier at phase 0 expecting all its contexts, every chain IDLE and every link
EMPTY, and its contexts start in gang-index order at the entry bundle, in the slots that the gang keeps. Before that
an operand that contains data sections of the image is filled: their bytes where they stand, and 0 elsewhere (DESIGN
CHOICE, log 48: the device makes that write at dispatch). Each context starts with what the record and the image give
it: s9 is 262,144 for each bank that its cluster's plan was shifted by, s30 the top of its stack. A node that has
waited one more aging interval falls by one class, down to 0 (R14, R22, R25, R28, R330, R340, R351). NODE_COMPLETE of
a gang whose contexts have all exited and whose tokens have all completed first closes the final press window, where
its presses hold anything, and then ends the gang with status 0 and writes the completion record; one of a killed gang
ends it with its status. The gang releases its links, and the node's KIND-1 entry is posted first. At DETL DUAL the
node runs a second time from its restored operands before it completes, each context in the slot that its gang keeps
for it (R14, R27, R218, R355, R357, R379, R385). PREEMPT acts on the gang that R372 names, with none being pre-empted
yet: it is being pre-empted from now on. It acts on it again, and saves it, where every context of it has exited or
stopped and it owes nothing: it is pre-empted, and holds no slot. PREEMPT_ABANDON of a gang whose step 2 has not ended
in 65,536 cycles lets it run; GANG_RESUME of the pre-empted gang that the granary takes next lets it run, its contexts
in their slots (R372, R373, R378). -/
def Obligations.NodesDispatchCompleteAndRunTwice : Prop :=
  Claim.NodesAgeAndAreDispatchedInOrder ∧ Claim.NodesCompleteAndRunTwice ∧ Claim.PreemptionBeginsSavesAndEnds

/-- A flit that fails after eight retries, a silent link and a fault of a plane switch each declare a live furrow's link
dead, once, and report it; a flit that comes through after retries only adds to their count; FALLOW does so on
command. The master, at a report on a furrow of the mask that it works toward, quiesces toward the mask without it, or
reports that the domain fails where that mask is empty. RESTORE quiesces toward the mask with a furrow whose self-test
has passed. Such masks lie within 0x0F where the domain has a Q2 (R397 to R400, R404, R405, R411, R413). A package at
a QREQ for a mask that is neither its target nor installed begins to drain toward it, and else does nothing; once
drained it sends DRAINED; the master, with DRAINED from every package, sends INSTALL to all, and with INSTALLED from
every package RESUME; a quiesce that takes more than 700,000 cycles fails the domain (R398, R400, R401, R404). INSTALL
of the mask that a drained package works toward puts it in force; RESUME of it lets an installed package go on; of the
mask that has been installed already either changes nothing. PACKAGE_RESET leaves nothing resident and TIME 0 (R25,
R400, R402, R403). -/
def Obligations.QuiesceOfTheFurrows : Prop :=
  Claim.DeadFurrowsStartAQuiesce ∧ Claim.PackagesDrainAndTheMasterGoesOn ∧ Claim.InstallResumeAndResetAct

/-- A command of the management core with arguments of another length than it takes is a bad argument: it changes nothing
but for its reply of status 1 (R411). STATUS and COUNTERS reply and change nothing else; the counter block begins with
CTNC, format 1 and the number of arrays. CLRCNT clears every counter and leaves what is out, thresholds and strikes.
SETPFT sets one array's threshold, or every array's for 0xFFFF; SETUV takes an offset of 0 to 60 mV once it is rounded
down to 5 mV, and clears the die's strikes; SETPCAP sets the cap within the part's range; throttling follows the
measured power, and its begin is an event (R411, R413, R415, R422). An array goes out of service and returns on
command, its logical cluster moving to the lowest cluster of its die that is in service and hosts one, or to none. At
the end of an error window an array over its threshold ends its die's undervolting; without undervolting it takes a
strike, and an array that is not over its threshold loses its strikes; every window count restarts (R411, R415, R416).
-/
def Obligations.CountersArraysAndPower : Prop :=
  Claim.CommandsCheckTheirArguments ∧
    Claim.CountersThresholdsAndPower ∧
    Claim.ArraysStrikeAndLeaveService

/-- KILL ends a gang with status 0xC0, or 0x70 where it is of a reported wait-for cycle. WINREG registers a window whose
record keeps its rules, and WINDEL removes one with all its staging. The wait-for walk, at most every 7,000,000
cycles, keeps the greatest set of blocked contexts whose signallers are all in the set, and reports a set that it
finds at two walks, once (R379, R384, R408, R411, R417). ATTEST uses up one of the identity key's 2^20 signatures, and
is refused once none is left; EVENTS hands over the oldest sixteen events; KEYUPD takes a rule key signed with the
firmware key for the next reset, and SIGLOW shows how few signatures that key has left (when, and which image FWUPD
names: DESIGN CHOICE, log 74); FWUPD stages firmware; SETSAVE sets the next save region of 1 to 64 GiB; SETTIME and
SLEWTIME set the wall clock and its rate of at most 500,000 parts per billion; a sensor read replies eight bytes
(R411, R412, R418 to R421). -/
def Obligations.KillsWindowsKeysAndClocks : Prop :=
  Claim.KillsWindowsAndTheWaitWalk ∧ Claim.KeysEventsAndClocks
end

