-- ==== Sys2Proof/Laws/Decode.lean ====
section
/-! SUPPORT. The decoder at each major opcode, and what a header adds to the fields that name scalar registers. -/
namespace Sys2Proof

theorem decode_at_00 {w : Nat} {x : Ext} (h : fld w 26 6 = 0) : decode w x = decodeMajor00 w x := by
  unfold decode decodeBy; rw [h]; rfl
theorem decode_at_01 {w : Nat} {x : Ext} (h : fld w 26 6 = 1) : decode w x = decodeMajor01 w x := by
  unfold decode decodeBy; rw [h]; rfl
theorem decode_at_02 {w : Nat} {x : Ext} (h : fld w 26 6 = 2) : decode w x = decodeMajor02 w x := by
  unfold decode decodeBy; rw [h]; rfl
theorem decode_at_03 {w : Nat} {x : Ext} (h : fld w 26 6 = 3) : decode w x = decodeMajor03 w x := by
  unfold decode decodeBy; rw [h]; rfl
theorem decode_at_04 {w : Nat} {x : Ext} (h : fld w 26 6 = 4) : decode w x = decodeMajor04 w x := by
  unfold decode decodeBy; rw [h]; rfl
theorem decode_at_05 {w : Nat} {x : Ext} (h : fld w 26 6 = 5) : decode w x = decodeMajor05 w x := by
  unfold decode decodeBy; rw [h]; rfl
theorem decode_at_06 {w : Nat} {x : Ext} (h : fld w 26 6 = 6) : decode w x = decodeMajor06 w x := by
  unfold decode decodeBy; rw [h]; rfl
theorem decode_at_07 {w : Nat} {x : Ext} (h : fld w 26 6 = 7) : decode w x = decodeMajor07 w x := by
  unfold decode decodeBy; rw [h]; rfl
theorem decode_at_08 {w : Nat} {x : Ext} (h : fld w 26 6 = 8) : decode w x = decodeMajor08 w x := by
  unfold decode decodeBy; rw [h]; rfl
theorem decode_at_09 {w : Nat} {x : Ext} (h : fld w 26 6 = 9) : decode w x = decodeMajor09 w x := by
  unfold decode decodeBy; rw [h]; rfl
theorem decode_at_0A {w : Nat} {x : Ext} (h : fld w 26 6 = 10) : decode w x = decodeMajor0A w x := by
  unfold decode decodeBy; rw [h]; rfl
theorem decode_at_0B {w : Nat} {x : Ext} (h : fld w 26 6 = 11) : decode w x = decodeMajor0B w x := by
  unfold decode decodeBy; rw [h]; rfl
theorem decode_at_0C {w : Nat} {x : Ext} (h : fld w 26 6 = 12) : decode w x = decodeMajor0C w x := by
  unfold decode decodeBy; rw [h]; rfl
theorem decode_at_0D {w : Nat} {x : Ext} (h : fld w 26 6 = 13) : decode w x = decodeMajor0D w x := by
  unfold decode decodeBy; rw [h]; rfl
theorem decode_at_10 {w : Nat} {x : Ext} (h : fld w 26 6 = 16) : decode w x = decodeMajor10 w x := by
  unfold decode decodeBy; rw [h]; rfl
theorem decode_at_11 {w : Nat} {x : Ext} (h : fld w 26 6 = 17) : decode w x = decodeMajor10 w x := by
  unfold decode decodeBy; rw [h]; rfl
theorem decode_at_12 {w : Nat} {x : Ext} (h : fld w 26 6 = 18) : decode w x = decodeMajor12 w x := by
  unfold decode decodeBy; rw [h]; rfl
theorem decode_at_13 {w : Nat} {x : Ext} (h : fld w 26 6 = 19) : decode w x = decodeMajor13 w x := by
  unfold decode decodeBy; rw [h]; rfl
theorem decode_at_14 {w : Nat} {x : Ext} (h : fld w 26 6 = 20) : decode w x = decodeMajor14 w x := by
  unfold decode decodeBy; rw [h]; rfl
theorem decode_at_15 {w : Nat} {x : Ext} (h : fld w 26 6 = 21) : decode w x = decodeMajor15 w x := by
  unfold decode decodeBy; rw [h]; rfl
theorem decode_at_18 {w : Nat} {x : Ext} (h : fld w 26 6 = 24) : decode w x = decodeMajor18 w x := by
  unfold decode decodeBy; rw [h]; rfl
theorem decode_at_19 {w : Nat} {x : Ext} (h : fld w 26 6 = 25) : decode w x = decodeMajor19 w x := by
  unfold decode decodeBy; rw [h]; rfl
theorem decode_at_1A {w : Nat} {x : Ext} (h : fld w 26 6 = 26) : decode w x = decodeMajor1A w x := by
  unfold decode decodeBy; rw [h]; rfl
theorem decode_at_1B {w : Nat} {x : Ext} (h : fld w 26 6 = 27) : decode w x = decodeMajor1B w x := by
  unfold decode decodeBy; rw [h]; rfl
theorem decode_at_1C {w : Nat} {x : Ext} (h : fld w 26 6 = 28) : decode w x = decodeMajor1C w x := by
  unfold decode decodeBy; rw [h]; rfl
theorem decode_at_1D {w : Nat} {x : Ext} (h : fld w 26 6 = 29) : decode w x = decodeMajor1D w x := by
  unfold decode decodeBy; rw [h]; rfl
theorem decode_at_1E {w : Nat} {x : Ext} (h : fld w 26 6 = 30) : decode w x = decodeMajor1E w x := by
  unfold decode decodeBy; rw [h]; rfl
theorem decode_at_20 {w : Nat} {x : Ext} (h : fld w 26 6 = 32) : decode w x = decodeMajor20 w x := by
  unfold decode decodeBy; rw [h]; rfl
theorem decode_at_24 {w : Nat} {x : Ext} (h : fld w 26 6 = 36) : decode w x = decodeMajor24 w x := by
  unfold decode decodeBy; rw [h]; rfl
theorem decode_at_25 {w : Nat} {x : Ext} (h : fld w 26 6 = 37) : decode w x = decodeMajor25 w x := by
  unfold decode decodeBy; rw [h]; rfl
theorem decode_at_26 {w : Nat} {x : Ext} (h : fld w 26 6 = 38) : decode w x = decodeMajor26 w x := by
  unfold decode decodeBy; rw [h]; rfl
theorem decode_at_27 {w : Nat} {x : Ext} (h : fld w 26 6 = 39) : decode w x = decodeMajor27 w x := by
  unfold decode decodeBy; rw [h]; rfl
theorem decode_at_28 {w : Nat} {x : Ext} (h : fld w 26 6 = 40) : decode w x = decodeMajor28 w x := by
  unfold decode decodeBy; rw [h]; rfl
theorem decode_at_2C {w : Nat} {x : Ext} (h : fld w 26 6 = 44) : decode w x = decodeMajor2C w x := by
  unfold decode decodeBy; rw [h]; rfl
theorem decode_at_2D {w : Nat} {x : Ext} (h : fld w 26 6 = 45) : decode w x = decodeMajor2D w x := by
  unfold decode decodeBy; rw [h]; rfl
theorem decode_at_2E {w : Nat} {x : Ext} (h : fld w 26 6 = 46) : decode w x = decodeMajor2E w x := by
  unfold decode decodeBy; rw [h]; rfl
theorem decode_at_2F {w : Nat} {x : Ext} (h : fld w 26 6 = 47) : decode w x = decodeMajor2F w x := by
  unfold decode decodeBy; rw [h]; rfl
theorem decode_at_30 {w : Nat} {x : Ext} (h : fld w 26 6 = 48) : decode w x = decodeMajor30 w x := by
  unfold decode decodeBy; rw [h]; rfl
theorem decode_at_31 {w : Nat} {x : Ext} (h : fld w 26 6 = 49) : decode w x = decodeMajor31 w x := by
  unfold decode decodeBy; rw [h]; rfl
theorem decode_at_32 {w : Nat} {x : Ext} (h : fld w 26 6 = 50) : decode w x = decodeMajor32 w x := by
  unfold decode decodeBy; rw [h]; rfl
theorem decode_at_34 {w : Nat} {x : Ext} (h : fld w 26 6 = 52) : decode w x = decodeMajor34 w x := by
  unfold decode decodeBy; rw [h]; rfl
theorem decode_at_35 {w : Nat} {x : Ext} (h : fld w 26 6 = 53) : decode w x = decodeMajor35 w x := by
  unfold decode decodeBy; rw [h]; rfl
theorem decode_at_36 {w : Nat} {x : Ext} (h : fld w 26 6 = 54) : decode w x = decodeMajor36 w x := by
  unfold decode decodeBy; rw [h]; rfl
theorem decode_at_38 {w : Nat} {x : Ext} (h : fld w 26 6 = 56) : decode w x = decodeMajor38 w x := by
  unfold decode decodeBy; rw [h]; rfl
theorem decode_at_39 {w : Nat} {x : Ext} (h : fld w 26 6 = 57) : decode w x = decodeMajor39 w x := by
  unfold decode decodeBy; rw [h]; rfl
theorem decode_at_3A {w : Nat} {x : Ext} (h : fld w 26 6 = 58) : decode w x = decodeMajor3A w x := by
  unfold decode decodeBy; rw [h]; rfl
theorem decode_at_3B {w : Nat} {x : Ext} (h : fld w 26 6 = 59) : decode w x = decodeMajor3B w x := by
  unfold decode decodeBy; rw [h]; rfl
theorem decode_at_3C {w : Nat} {x : Ext} (h : fld w 26 6 = 60) : decode w x = decodeMajor3C w x := by
  unfold decode decodeBy; rw [h]; rfl

/-- A form whose header and fixed fields are as they must be decodes. -/
theorem form_ok {w : Nat} {x : Ext} {d a b imm : Bool} {fixed : List (Nat × Nat × Nat)} (i : Instr)
    (e : extOk x d a b imm = true) (f : fixedOk w fixed = true) : form w x d a b imm fixed i = .ok i := by
  simp [form, e, f]

/-- The rounding field that the encoder writes is read back. -/
theorem rmOf_code {w : Nat} {rm : Rm} (h : fld w 3 3 = rm.code) : rmOf w = some rm := by
  unfold rmOf; rw [h]; cases rm <;> rfl

/-- The extension bits that the encoder gives are those of the fields. -/
theorem encode_ext_regs {i : Instr} {d a b : Bool} (h : i.highBits = (d, a, b)) (n : i.immByte = none) :
    (encode i).2.dBit = d.toNat ∧ (encode i).2.aBit = a.toNat ∧ (encode i).2.bBit = b.toNat := by
  unfold encode; simp only [h, n]
  cases d <;> cases a <;> cases b <;> exact ⟨rfl, rfl, rfl⟩

/-- A field's bit above 31 is what its extension bit adds. -/
theorem high_toNat (r : SReg) : (high r).toNat = r.val / 32 := by
  have := r.isLt
  unfold high
  by_cases h : 32 ≤ r.val <;> simp [h] <;> omega

end Sys2Proof
end

