-- ==== Sys2Proof/Laws/Dispatch.lean ====
section
/-! SUPPORT. exec at each constructor is its meaning, one lemma per arm: no later proof unfolds the dispatch. -/
namespace Sys2Proof.Machine

@[simp] theorem exec_add (d : SReg) (a : SReg) (b : SReg) (w : Bool) (s : State) : exec (.add d a b w) s = execAdd d a b w s := rfl
@[simp] theorem exec_sub (d : SReg) (a : SReg) (b : SReg) (w : Bool) (s : State) : exec (.sub d a b w) s = execSub d a b w s := rfl
@[simp] theorem exec_mul (d : SReg) (a : SReg) (b : SReg) (w : Bool) (s : State) : exec (.mul d a b w) s = execMul d a b w s := rfl
@[simp] theorem exec_mulh (d : SReg) (a : SReg) (b : SReg) (w : Bool) (s : State) : exec (.mulh d a b w) s = execMulh d a b w s := rfl
@[simp] theorem exec_mulhn (d : SReg) (a : SReg) (b : SReg) (w : Bool) (s : State) : exec (.mulhn d a b w) s = execMulhn d a b w s := rfl
@[simp] theorem exec_div (d : SReg) (a : SReg) (b : SReg) (w : Bool) (s : State) : exec (.div d a b w) s = execDiv d a b w s := rfl
@[simp] theorem exec_divn (d : SReg) (a : SReg) (b : SReg) (w : Bool) (s : State) : exec (.divn d a b w) s = execDivn d a b w s := rfl
@[simp] theorem exec_rem (d : SReg) (a : SReg) (b : SReg) (w : Bool) (s : State) : exec (.rem d a b w) s = execRem d a b w s := rfl
@[simp] theorem exec_remn (d : SReg) (a : SReg) (b : SReg) (w : Bool) (s : State) : exec (.remn d a b w) s = execRemn d a b w s := rfl
@[simp] theorem exec_and (d : SReg) (a : SReg) (b : SReg) (w : Bool) (s : State) : exec (.and d a b w) s = execAnd d a b w s := rfl
@[simp] theorem exec_or (d : SReg) (a : SReg) (b : SReg) (w : Bool) (s : State) : exec (.or d a b w) s = execOr d a b w s := rfl
@[simp] theorem exec_xor (d : SReg) (a : SReg) (b : SReg) (w : Bool) (s : State) : exec (.xor d a b w) s = execXor d a b w s := rfl
@[simp] theorem exec_andn (d : SReg) (a : SReg) (b : SReg) (w : Bool) (s : State) : exec (.andn d a b w) s = execAndn d a b w s := rfl
@[simp] theorem exec_shl (d : SReg) (a : SReg) (b : SReg) (w : Bool) (s : State) : exec (.shl d a b w) s = execShl d a b w s := rfl
@[simp] theorem exec_shr (d : SReg) (a : SReg) (b : SReg) (w : Bool) (s : State) : exec (.shr d a b w) s = execShr d a b w s := rfl
@[simp] theorem exec_sra (d : SReg) (a : SReg) (b : SReg) (w : Bool) (s : State) : exec (.sra d a b w) s = execSra d a b w s := rfl
@[simp] theorem exec_rotl (d : SReg) (a : SReg) (b : SReg) (w : Bool) (s : State) : exec (.rotl d a b w) s = execRotl d a b w s := rfl
@[simp] theorem exec_min (d : SReg) (a : SReg) (b : SReg) (w : Bool) (s : State) : exec (.min d a b w) s = execMin d a b w s := rfl
@[simp] theorem exec_minn (d : SReg) (a : SReg) (b : SReg) (w : Bool) (s : State) : exec (.minn d a b w) s = execMinn d a b w s := rfl
@[simp] theorem exec_max (d : SReg) (a : SReg) (b : SReg) (w : Bool) (s : State) : exec (.max d a b w) s = execMax d a b w s := rfl
@[simp] theorem exec_maxn (d : SReg) (a : SReg) (b : SReg) (w : Bool) (s : State) : exec (.maxn d a b w) s = execMaxn d a b w s := rfl
@[simp] theorem exec_clz (d : SReg) (a : SReg) (w : Bool) (s : State) : exec (.clz d a w) s = execClz d a w s := rfl
@[simp] theorem exec_ctz (d : SReg) (a : SReg) (w : Bool) (s : State) : exec (.ctz d a w) s = execCtz d a w s := rfl
@[simp] theorem exec_popc (d : SReg) (a : SReg) (w : Bool) (s : State) : exec (.popc d a w) s = execPopc d a w s := rfl
@[simp] theorem exec_addImm (d : SReg) (a : SReg) (imm : Int) (s : State) : exec (.addImm d a imm) s = execAddImm d a imm s := rfl
@[simp] theorem exec_mulImm (d : SReg) (a : SReg) (imm : Int) (s : State) : exec (.mulImm d a imm) s = execMulImm d a imm s := rfl
@[simp] theorem exec_andImm (d : SReg) (a : SReg) (imm : Int) (s : State) : exec (.andImm d a imm) s = execAndImm d a imm s := rfl
@[simp] theorem exec_orImm (d : SReg) (a : SReg) (imm : Int) (s : State) : exec (.orImm d a imm) s = execOrImm d a imm s := rfl
@[simp] theorem exec_xorImm (d : SReg) (a : SReg) (imm : Int) (s : State) : exec (.xorImm d a imm) s = execXorImm d a imm s := rfl
@[simp] theorem exec_andnImm (d : SReg) (a : SReg) (imm : Int) (s : State) : exec (.andnImm d a imm) s = execAndnImm d a imm s := rfl
@[simp] theorem exec_shlImm (d : SReg) (a : SReg) (sh : Fin 64) (s : State) : exec (.shlImm d a sh) s = execShlImm d a sh s := rfl
@[simp] theorem exec_shrImm (d : SReg) (a : SReg) (sh : Fin 64) (s : State) : exec (.shrImm d a sh) s = execShrImm d a sh s := rfl
@[simp] theorem exec_sraImm (d : SReg) (a : SReg) (sh : Fin 64) (s : State) : exec (.sraImm d a sh) s = execSraImm d a sh s := rfl
@[simp] theorem exec_rotlImm (d : SReg) (a : SReg) (sh : Fin 64) (s : State) : exec (.rotlImm d a sh) s = execRotlImm d a sh s := rfl
@[simp] theorem exec_minImm (d : SReg) (a : SReg) (imm : Int) (s : State) : exec (.minImm d a imm) s = execMinImm d a imm s := rfl
@[simp] theorem exec_minnImm (d : SReg) (a : SReg) (imm : Nat) (s : State) : exec (.minnImm d a imm) s = execMinnImm d a imm s := rfl
@[simp] theorem exec_maxImm (d : SReg) (a : SReg) (imm : Int) (s : State) : exec (.maxImm d a imm) s = execMaxImm d a imm s := rfl
@[simp] theorem exec_maxnImm (d : SReg) (a : SReg) (imm : Nat) (s : State) : exec (.maxnImm d a imm) s = execMaxnImm d a imm s := rfl
@[simp] theorem exec_movi (d : SReg) (imm : Int) (s : State) : exec (.movi d imm) s = execMovi d imm s := rfl
@[simp] theorem exec_movhi (d : SReg) (h : Fin 4) (lit : Fin 65536) (s : State) : exec (.movhi d h lit) s = execMovhi d h lit s := rfl
@[simp] theorem exec_cmpEq (p : PReg) (a : SReg) (b : SReg) (w : Bool) (s : State) : exec (.cmpEq p a b w) s = execCmpEq p a b w s := rfl
@[simp] theorem exec_cmpNe (p : PReg) (a : SReg) (b : SReg) (w : Bool) (s : State) : exec (.cmpNe p a b w) s = execCmpNe p a b w s := rfl
@[simp] theorem exec_cmpLt (p : PReg) (a : SReg) (b : SReg) (w : Bool) (s : State) : exec (.cmpLt p a b w) s = execCmpLt p a b w s := rfl
@[simp] theorem exec_cmpGe (p : PReg) (a : SReg) (b : SReg) (w : Bool) (s : State) : exec (.cmpGe p a b w) s = execCmpGe p a b w s := rfl
@[simp] theorem exec_cmpLtn (p : PReg) (a : SReg) (b : SReg) (w : Bool) (s : State) : exec (.cmpLtn p a b w) s = execCmpLtn p a b w s := rfl
@[simp] theorem exec_cmpGen (p : PReg) (a : SReg) (b : SReg) (w : Bool) (s : State) : exec (.cmpGen p a b w) s = execCmpGen p a b w s := rfl
@[simp] theorem exec_sel (d : SReg) (a : SReg) (b : SReg) (p : PReg) (s : State) : exec (.sel d a b p) s = execSel d a b p s := rfl
@[simp] theorem exec_bfx (d : SReg) (a : SReg) (pos : Fin 64) (lm1 : Fin 64) (sx : Bool) (s : State) : exec (.bfx d a pos lm1 sx) s = execBfx d a pos lm1 sx s := rfl
@[simp] theorem exec_bfi (d : SReg) (a : SReg) (pos : Fin 64) (lm1 : Fin 64) (s : State) : exec (.bfi d a pos lm1) s = execBfi d a pos lm1 s := rfl
@[simp] theorem exec_lea (d : SReg) (a : SReg) (b : SReg) (sh : Fin 8) (s : State) : exec (.lea d a b sh) s = execLea d a b sh s := rfl
@[simp] theorem exec_csrr (d : SReg) (c : Fin 4096) (s : State) : exec (.csrr d c) s = execCsrr d c s := rfl
@[simp] theorem exec_csrw (d : SReg) (a : SReg) (c : Fin 4096) (s : State) : exec (.csrw d a c) s = execCsrw d a c s := rfl
@[simp] theorem exec_csrs (d : SReg) (a : SReg) (c : Fin 4096) (s : State) : exec (.csrs d a c) s = execCsrs d a c s := rfl
@[simp] theorem exec_csrc (d : SReg) (a : SReg) (c : Fin 4096) (s : State) : exec (.csrc d a c) s = execCsrc d a c s := rfl
@[simp] theorem exec_br (p : PReg) (neg : Bool) (imm : Int) (s : State) : exec (.br p neg imm) s = execBr p neg imm s := rfl
@[simp] theorem exec_jmp (imm : Int) (s : State) : exec (.jmp imm) s = execJmp imm s := rfl
@[simp] theorem exec_call (imm : Int) (s : State) : exec (.call imm) s = execCall imm s := rfl
@[simp] theorem exec_jmpr (a : SReg) (s : State) : exec (.jmpr a) s = execJmpr a s := rfl
@[simp] theorem exec_callr (a : SReg) (s : State) : exec (.callr a) s = execCallr a s := rfl
@[simp] theorem exec_loopSt (sc : Fin 16) (a : SReg) (imm : Int) (s : State) : exec (.loopSt sc a imm) s = execLoopSt sc a imm s := rfl
@[simp] theorem exec_loopBr (imm : Int) (s : State) : exec (.loopBr imm) s = execLoopBr imm s := rfl
@[simp] theorem exec_pand (d : PReg) (a : PReg) (b : PReg) (s : State) : exec (.pand d a b) s = execPand d a b s := rfl
@[simp] theorem exec_por (d : PReg) (a : PReg) (b : PReg) (s : State) : exec (.por d a b) s = execPor d a b s := rfl
@[simp] theorem exec_pxor (d : PReg) (a : PReg) (b : PReg) (s : State) : exec (.pxor d a b) s = execPxor d a b s := rfl
@[simp] theorem exec_pandn (d : PReg) (a : PReg) (b : PReg) (s : State) : exec (.pandn d a b) s = execPandn d a b s := rfl
@[simp] theorem exec_pnot (d : PReg) (a : PReg) (s : State) : exec (.pnot d a) s = execPnot d a s := rfl
@[simp] theorem exec_pmov (d : PReg) (a : PReg) (s : State) : exec (.pmov d a) s = execPmov d a s := rfl
@[simp] theorem exec_wait (ld : Fin 128) (st : Fin 128) (cp : Fin 64) (tl : Fin 32) (s : State) : exec (.wait ld st cp tl) s = execWait ld st cp tl s := rfl
@[simp] theorem exec_fadd (f64 : Bool) (d : SReg) (a : SReg) (b : SReg) (rm : Rm) (s : State) : exec (.fadd f64 d a b rm) s = execFadd f64 d a b rm s := rfl
@[simp] theorem exec_fsub (f64 : Bool) (d : SReg) (a : SReg) (b : SReg) (rm : Rm) (s : State) : exec (.fsub f64 d a b rm) s = execFsub f64 d a b rm s := rfl
@[simp] theorem exec_fmul (f64 : Bool) (d : SReg) (a : SReg) (b : SReg) (rm : Rm) (s : State) : exec (.fmul f64 d a b rm) s = execFmul f64 d a b rm s := rfl
@[simp] theorem exec_fdiv (f64 : Bool) (d : SReg) (a : SReg) (b : SReg) (rm : Rm) (s : State) : exec (.fdiv f64 d a b rm) s = execFdiv f64 d a b rm s := rfl
@[simp] theorem exec_fsqrt (f64 : Bool) (d : SReg) (a : SReg) (rm : Rm) (s : State) : exec (.fsqrt f64 d a rm) s = execFsqrt f64 d a rm s := rfl
@[simp] theorem exec_fma (f64 : Bool) (d : SReg) (a : SReg) (b : SReg) (rm : Rm) (s : State) : exec (.fma f64 d a b rm) s = execFma f64 d a b rm s := rfl
@[simp] theorem exec_fms (f64 : Bool) (d : SReg) (a : SReg) (b : SReg) (rm : Rm) (s : State) : exec (.fms f64 d a b rm) s = execFms f64 d a b rm s := rfl
@[simp] theorem exec_fnma (f64 : Bool) (d : SReg) (a : SReg) (b : SReg) (rm : Rm) (s : State) : exec (.fnma f64 d a b rm) s = execFnma f64 d a b rm s := rfl
@[simp] theorem exec_fmin (f64 : Bool) (d : SReg) (a : SReg) (b : SReg) (s : State) : exec (.fmin f64 d a b) s = execFmin f64 d a b s := rfl
@[simp] theorem exec_fmax (f64 : Bool) (d : SReg) (a : SReg) (b : SReg) (s : State) : exec (.fmax f64 d a b) s = execFmax f64 d a b s := rfl
@[simp] theorem exec_fneg (f64 : Bool) (d : SReg) (a : SReg) (s : State) : exec (.fneg f64 d a) s = execFneg f64 d a s := rfl
@[simp] theorem exec_fabs (f64 : Bool) (d : SReg) (a : SReg) (s : State) : exec (.fabs f64 d a) s = execFabs f64 d a s := rfl
@[simp] theorem exec_fcpsgn (f64 : Bool) (d : SReg) (a : SReg) (b : SReg) (s : State) : exec (.fcpsgn f64 d a b) s = execFcpsgn f64 d a b s := rfl
@[simp] theorem exec_fmov (f64 : Bool) (d : SReg) (a : SReg) (s : State) : exec (.fmov f64 d a) s = execFmov f64 d a s := rfl
@[simp] theorem exec_fcmpEq (p : PReg) (a : SReg) (b : SReg) (f64 : Bool) (s : State) : exec (.fcmpEq p a b f64) s = execFcmpEq p a b f64 s := rfl
@[simp] theorem exec_fcmpLt (p : PReg) (a : SReg) (b : SReg) (f64 : Bool) (s : State) : exec (.fcmpLt p a b f64) s = execFcmpLt p a b f64 s := rfl
@[simp] theorem exec_fcmpLe (p : PReg) (a : SReg) (b : SReg) (f64 : Bool) (s : State) : exec (.fcmpLe p a b f64) s = execFcmpLe p a b f64 s := rfl
@[simp] theorem exec_fcmpUn (p : PReg) (a : SReg) (b : SReg) (f64 : Bool) (s : State) : exec (.fcmpUn p a b f64) s = execFcmpUn p a b f64 s := rfl
@[simp] theorem exec_fclass (d : SReg) (a : SReg) (f64 : Bool) (s : State) : exec (.fclass d a f64) s = execFclass d a f64 s := rfl
@[simp] theorem exec_fcvt (d : SReg) (a : SReg) (ot : Fin 16) (dir : Bool) (rm : Rm) (f64 : Bool) (s : State) : exec (.fcvt d a ot dir rm f64) s = execFcvt d a ot dir rm f64 s := rfl
@[simp] theorem exec_frint (d : SReg) (a : SReg) (rm : Rm) (f64 : Bool) (s : State) : exec (.frint d a rm f64) s = execFrint d a rm f64 s := rfl
@[simp] theorem exec_fexp (d : SReg) (a : SReg) (rm : Rm) (f64 : Bool) (s : State) : exec (.fexp d a rm f64) s = execFexp d a rm f64 s := rfl
@[simp] theorem exec_fexp2 (d : SReg) (a : SReg) (rm : Rm) (f64 : Bool) (s : State) : exec (.fexp2 d a rm f64) s = execFexp2 d a rm f64 s := rfl
@[simp] theorem exec_flog (d : SReg) (a : SReg) (rm : Rm) (f64 : Bool) (s : State) : exec (.flog d a rm f64) s = execFlog d a rm f64 s := rfl
@[simp] theorem exec_flog2 (d : SReg) (a : SReg) (rm : Rm) (f64 : Bool) (s : State) : exec (.flog2 d a rm f64) s = execFlog2 d a rm f64 s := rfl
@[simp] theorem exec_ferf (d : SReg) (a : SReg) (rm : Rm) (f64 : Bool) (s : State) : exec (.ferf d a rm f64) s = execFerf d a rm f64 s := rfl
@[simp] theorem exec_ferfc (d : SReg) (a : SReg) (rm : Rm) (f64 : Bool) (s : State) : exec (.ferfc d a rm f64) s = execFerfc d a rm f64 s := rfl
@[simp] theorem exec_frcp (d : SReg) (a : SReg) (rm : Rm) (f64 : Bool) (s : State) : exec (.frcp d a rm f64) s = execFrcp d a rm f64 s := rfl
@[simp] theorem exec_frsq (d : SReg) (a : SReg) (rm : Rm) (f64 : Bool) (s : State) : exec (.frsq d a rm f64) s = execFrsq d a rm f64 s := rfl
@[simp] theorem exec_frcps (d : SReg) (a : SReg) (b : SReg) (rm : Rm) (f64 : Bool) (s : State) : exec (.frcps d a b rm f64) s = execFrcps d a b rm f64 s := rfl
@[simp] theorem exec_frsqs (d : SReg) (a : SReg) (b : SReg) (rm : Rm) (f64 : Bool) (s : State) : exec (.frsqs d a b rm f64) s = execFrsqs d a b rm f64 s := rfl
@[simp] theorem exec_vadd (d : VIdx) (a : VIdx) (b : VIdx) (sat : Bool) (nat : Bool) (mk : MReg) (s : State) : exec (.vadd d a b sat nat mk) s = execVadd d a b sat nat mk s := rfl
@[simp] theorem exec_vsub (d : VIdx) (a : VIdx) (b : VIdx) (sat : Bool) (nat : Bool) (mk : MReg) (s : State) : exec (.vsub d a b sat nat mk) s = execVsub d a b sat nat mk s := rfl
@[simp] theorem exec_vmul (d : VIdx) (a : VIdx) (b : VIdx) (mk : MReg) (s : State) : exec (.vmul d a b mk) s = execVmul d a b mk s := rfl
@[simp] theorem exec_vmulh (d : VIdx) (a : VIdx) (b : VIdx) (mk : MReg) (s : State) : exec (.vmulh d a b mk) s = execVmulh d a b mk s := rfl
@[simp] theorem exec_vmulhn (d : VIdx) (a : VIdx) (b : VIdx) (mk : MReg) (s : State) : exec (.vmulhn d a b mk) s = execVmulhn d a b mk s := rfl
@[simp] theorem exec_vdiv (d : VIdx) (a : VIdx) (b : VIdx) (mk : MReg) (s : State) : exec (.vdiv d a b mk) s = execVdiv d a b mk s := rfl
@[simp] theorem exec_vdivn (d : VIdx) (a : VIdx) (b : VIdx) (mk : MReg) (s : State) : exec (.vdivn d a b mk) s = execVdivn d a b mk s := rfl
@[simp] theorem exec_vrem (d : VIdx) (a : VIdx) (b : VIdx) (mk : MReg) (s : State) : exec (.vrem d a b mk) s = execVrem d a b mk s := rfl
@[simp] theorem exec_vremn (d : VIdx) (a : VIdx) (b : VIdx) (mk : MReg) (s : State) : exec (.vremn d a b mk) s = execVremn d a b mk s := rfl
@[simp] theorem exec_vand (d : VIdx) (a : VIdx) (b : VIdx) (mk : MReg) (s : State) : exec (.vand d a b mk) s = execVand d a b mk s := rfl
@[simp] theorem exec_vor (d : VIdx) (a : VIdx) (b : VIdx) (mk : MReg) (s : State) : exec (.vor d a b mk) s = execVor d a b mk s := rfl
@[simp] theorem exec_vxor (d : VIdx) (a : VIdx) (b : VIdx) (mk : MReg) (s : State) : exec (.vxor d a b mk) s = execVxor d a b mk s := rfl
@[simp] theorem exec_vandn (d : VIdx) (a : VIdx) (b : VIdx) (mk : MReg) (s : State) : exec (.vandn d a b mk) s = execVandn d a b mk s := rfl
@[simp] theorem exec_vshl (d : VIdx) (a : VIdx) (b : VIdx) (mk : MReg) (s : State) : exec (.vshl d a b mk) s = execVshl d a b mk s := rfl
@[simp] theorem exec_vshr (d : VIdx) (a : VIdx) (b : VIdx) (mk : MReg) (s : State) : exec (.vshr d a b mk) s = execVshr d a b mk s := rfl
@[simp] theorem exec_vsra (d : VIdx) (a : VIdx) (b : VIdx) (mk : MReg) (s : State) : exec (.vsra d a b mk) s = execVsra d a b mk s := rfl
@[simp] theorem exec_vrotl (d : VIdx) (a : VIdx) (b : VIdx) (mk : MReg) (s : State) : exec (.vrotl d a b mk) s = execVrotl d a b mk s := rfl
@[simp] theorem exec_vmin (d : VIdx) (a : VIdx) (b : VIdx) (mk : MReg) (s : State) : exec (.vmin d a b mk) s = execVmin d a b mk s := rfl
@[simp] theorem exec_vminn (d : VIdx) (a : VIdx) (b : VIdx) (mk : MReg) (s : State) : exec (.vminn d a b mk) s = execVminn d a b mk s := rfl
@[simp] theorem exec_vmax (d : VIdx) (a : VIdx) (b : VIdx) (mk : MReg) (s : State) : exec (.vmax d a b mk) s = execVmax d a b mk s := rfl
@[simp] theorem exec_vmaxn (d : VIdx) (a : VIdx) (b : VIdx) (mk : MReg) (s : State) : exec (.vmaxn d a b mk) s = execVmaxn d a b mk s := rfl
@[simp] theorem exec_vclz (d : VIdx) (a : VIdx) (mk : MReg) (s : State) : exec (.vclz d a mk) s = execVclz d a mk s := rfl
@[simp] theorem exec_vctz (d : VIdx) (a : VIdx) (mk : MReg) (s : State) : exec (.vctz d a mk) s = execVctz d a mk s := rfl
@[simp] theorem exec_vpopc (d : VIdx) (a : VIdx) (mk : MReg) (s : State) : exec (.vpopc d a mk) s = execVpopc d a mk s := rfl
@[simp] theorem exec_vfadd (d : VIdx) (a : VIdx) (b : VIdx) (rm : Rm) (mk : MReg) (s : State) : exec (.vfadd d a b rm mk) s = execVfadd d a b rm mk s := rfl
@[simp] theorem exec_vfsub (d : VIdx) (a : VIdx) (b : VIdx) (rm : Rm) (mk : MReg) (s : State) : exec (.vfsub d a b rm mk) s = execVfsub d a b rm mk s := rfl
@[simp] theorem exec_vfmul (d : VIdx) (a : VIdx) (b : VIdx) (rm : Rm) (mk : MReg) (s : State) : exec (.vfmul d a b rm mk) s = execVfmul d a b rm mk s := rfl
@[simp] theorem exec_vfdiv (d : VIdx) (a : VIdx) (b : VIdx) (rm : Rm) (mk : MReg) (s : State) : exec (.vfdiv d a b rm mk) s = execVfdiv d a b rm mk s := rfl
@[simp] theorem exec_vfsqrt (d : VIdx) (a : VIdx) (rm : Rm) (mk : MReg) (s : State) : exec (.vfsqrt d a rm mk) s = execVfsqrt d a rm mk s := rfl
@[simp] theorem exec_vfma (d : VIdx) (a : VIdx) (b : VIdx) (rm : Rm) (mk : MReg) (s : State) : exec (.vfma d a b rm mk) s = execVfma d a b rm mk s := rfl
@[simp] theorem exec_vfms (d : VIdx) (a : VIdx) (b : VIdx) (rm : Rm) (mk : MReg) (s : State) : exec (.vfms d a b rm mk) s = execVfms d a b rm mk s := rfl
@[simp] theorem exec_vfnma (d : VIdx) (a : VIdx) (b : VIdx) (rm : Rm) (mk : MReg) (s : State) : exec (.vfnma d a b rm mk) s = execVfnma d a b rm mk s := rfl
@[simp] theorem exec_vfmin (d : VIdx) (a : VIdx) (b : VIdx) (mk : MReg) (s : State) : exec (.vfmin d a b mk) s = execVfmin d a b mk s := rfl
@[simp] theorem exec_vfmax (d : VIdx) (a : VIdx) (b : VIdx) (mk : MReg) (s : State) : exec (.vfmax d a b mk) s = execVfmax d a b mk s := rfl
@[simp] theorem exec_vfneg (d : VIdx) (a : VIdx) (mk : MReg) (s : State) : exec (.vfneg d a mk) s = execVfneg d a mk s := rfl
@[simp] theorem exec_vfabs (d : VIdx) (a : VIdx) (mk : MReg) (s : State) : exec (.vfabs d a mk) s = execVfabs d a mk s := rfl
@[simp] theorem exec_vfcpsgn (d : VIdx) (a : VIdx) (b : VIdx) (mk : MReg) (s : State) : exec (.vfcpsgn d a b mk) s = execVfcpsgn d a b mk s := rfl
@[simp] theorem exec_vfmov (d : VIdx) (a : VIdx) (mk : MReg) (s : State) : exec (.vfmov d a mk) s = execVfmov d a mk s := rfl
@[simp] theorem exec_vcvt (d : VIdx) (a : VIdx) (cc : Fin 32) (rm : Rm) (mk : MReg) (s : State) : exec (.vcvt d a cc rm mk) s = execVcvt d a cc rm mk s := rfl
@[simp] theorem exec_vpack (d : VIdx) (a : VIdx) (cc : Fin 32) (rm : Rm) (part : Fin 8) (s : State) : exec (.vpack d a cc rm part) s = execVpack d a cc rm part s := rfl
@[simp] theorem exec_vunpack (d : VIdx) (a : VIdx) (cc : Fin 32) (part : Fin 8) (s : State) : exec (.vunpack d a cc part) s = execVunpack d a cc part s := rfl
@[simp] theorem exec_vmxnorm (d : VIdx) (a : VIdx) (cc : Fin 32) (rm : Rm) (part : Fin 8) (s : State) : exec (.vmxnorm d a cc rm part) s = execVmxnorm d a cc rm part s := rfl
@[simp] theorem exec_vmxscale (d : VIdx) (a : VIdx) (cc : Fin 32) (rm : Rm) (part : Fin 8) (s : State) : exec (.vmxscale d a cc rm part) s = execVmxscale d a cc rm part s := rfl
@[simp] theorem exec_vfexp (d : VIdx) (a : VIdx) (rm : Rm) (mk : MReg) (s : State) : exec (.vfexp d a rm mk) s = execVfexp d a rm mk s := rfl
@[simp] theorem exec_vfexp2 (d : VIdx) (a : VIdx) (rm : Rm) (mk : MReg) (s : State) : exec (.vfexp2 d a rm mk) s = execVfexp2 d a rm mk s := rfl
@[simp] theorem exec_vflog (d : VIdx) (a : VIdx) (rm : Rm) (mk : MReg) (s : State) : exec (.vflog d a rm mk) s = execVflog d a rm mk s := rfl
@[simp] theorem exec_vflog2 (d : VIdx) (a : VIdx) (rm : Rm) (mk : MReg) (s : State) : exec (.vflog2 d a rm mk) s = execVflog2 d a rm mk s := rfl
@[simp] theorem exec_vferf (d : VIdx) (a : VIdx) (rm : Rm) (mk : MReg) (s : State) : exec (.vferf d a rm mk) s = execVferf d a rm mk s := rfl
@[simp] theorem exec_vferfc (d : VIdx) (a : VIdx) (rm : Rm) (mk : MReg) (s : State) : exec (.vferfc d a rm mk) s = execVferfc d a rm mk s := rfl
@[simp] theorem exec_vfrcp (d : VIdx) (a : VIdx) (rm : Rm) (mk : MReg) (s : State) : exec (.vfrcp d a rm mk) s = execVfrcp d a rm mk s := rfl
@[simp] theorem exec_vfrsq (d : VIdx) (a : VIdx) (rm : Rm) (mk : MReg) (s : State) : exec (.vfrsq d a rm mk) s = execVfrsq d a rm mk s := rfl
@[simp] theorem exec_vfrcps (d : VIdx) (a : VIdx) (b : VIdx) (rm : Rm) (mk : MReg) (s : State) : exec (.vfrcps d a b rm mk) s = execVfrcps d a b rm mk s := rfl
@[simp] theorem exec_vfrsqs (d : VIdx) (a : VIdx) (b : VIdx) (rm : Rm) (mk : MReg) (s : State) : exec (.vfrsqs d a b rm mk) s = execVfrsqs d a b rm mk s := rfl
@[simp] theorem exec_vredFsum (d : SReg) (a : VIdx) (row : Bool) (rm : Rm) (mk : MReg) (s : State) : exec (.vredFsum d a row rm mk) s = execVredFsum d a row rm mk s := rfl
@[simp] theorem exec_vredFmin (d : SReg) (a : VIdx) (row : Bool) (mk : MReg) (s : State) : exec (.vredFmin d a row mk) s = execVredFmin d a row mk s := rfl
@[simp] theorem exec_vredFmax (d : SReg) (a : VIdx) (row : Bool) (mk : MReg) (s : State) : exec (.vredFmax d a row mk) s = execVredFmax d a row mk s := rfl
@[simp] theorem exec_vredIsum (d : SReg) (a : VIdx) (row : Bool) (sat : Bool) (nat : Bool) (mk : MReg) (s : State) : exec (.vredIsum d a row sat nat mk) s = execVredIsum d a row sat nat mk s := rfl
@[simp] theorem exec_vredImin (d : SReg) (a : VIdx) (row : Bool) (mk : MReg) (s : State) : exec (.vredImin d a row mk) s = execVredImin d a row mk s := rfl
@[simp] theorem exec_vredImax (d : SReg) (a : VIdx) (row : Bool) (mk : MReg) (s : State) : exec (.vredImax d a row mk) s = execVredImax d a row mk s := rfl
@[simp] theorem exec_vredNmin (d : SReg) (a : VIdx) (row : Bool) (mk : MReg) (s : State) : exec (.vredNmin d a row mk) s = execVredNmin d a row mk s := rfl
@[simp] theorem exec_vredNmax (d : SReg) (a : VIdx) (row : Bool) (mk : MReg) (s : State) : exec (.vredNmax d a row mk) s = execVredNmax d a row mk s := rfl
@[simp] theorem exec_vmov (d : VIdx) (a : VIdx) (mk : MReg) (s : State) : exec (.vmov d a mk) s = execVmov d a mk s := rfl
@[simp] theorem exec_vbcast (d : VIdx) (a : SReg) (mk : MReg) (s : State) : exec (.vbcast d a mk) s = execVbcast d a mk s := rfl
@[simp] theorem exec_vextr (d : SReg) (a : VIdx) (b : SReg) (s : State) : exec (.vextr d a b) s = execVextr d a b s := rfl
@[simp] theorem exec_mand (d : MReg) (a : MReg) (b : MReg) (s : State) : exec (.mand d a b) s = execMand d a b s := rfl
@[simp] theorem exec_mor (d : MReg) (a : MReg) (b : MReg) (s : State) : exec (.mor d a b) s = execMor d a b s := rfl
@[simp] theorem exec_mxor (d : MReg) (a : MReg) (b : MReg) (s : State) : exec (.mxor d a b) s = execMxor d a b s := rfl
@[simp] theorem exec_mandn (d : MReg) (a : MReg) (b : MReg) (s : State) : exec (.mandn d a b) s = execMandn d a b s := rfl
@[simp] theorem exec_mnot (d : MReg) (a : MReg) (s : State) : exec (.mnot d a) s = execMnot d a s := rfl
@[simp] theorem exec_vcmp (d : MReg) (a : VIdx) (b : VIdx) (cc : Fin 8) (mk : MReg) (s : State) : exec (.vcmp d a b cc mk) s = execVcmp d a b cc mk s := rfl
@[simp] theorem exec_vfcmp (d : MReg) (a : VIdx) (b : VIdx) (cc : Fin 8) (mk : MReg) (s : State) : exec (.vfcmp d a b cc mk) s = execVfcmp d a b cc mk s := rfl
@[simp] theorem exec_mpopc (d : SReg) (a : MReg) (s : State) : exec (.mpopc d a) s = execMpopc d a s := rfl
@[simp] theorem exec_vxb (d : VIdx) (a : VIdx) (b : SReg) (mk : MReg) (s : State) : exec (.vxb d a b mk) s = execVxb d a b mk s := rfl
@[simp] theorem exec_tzero (d : TReg) (s : State) : exec (.tzero d) s = execTzero d s := rfl
@[simp] theorem exec_ttrans (d : TReg) (a : TReg) (s : State) : exec (.ttrans d a) s = execTtrans d a s := rfl
@[simp] theorem exec_tcvt (d : TReg) (a : TReg) (rm : Rm) (s : State) : exec (.tcvt d a rm) s = execTcvt d a rm s := rfl
@[simp] theorem exec_tscale (d : TReg) (a : TReg) (b : SReg) (rm : Rm) (s : State) : exec (.tscale d a b rm) s = execTscale d a b rm s := rfl
@[simp] theorem exec_tmov (d : TReg) (a : TReg) (s : State) : exec (.tmov d a) s = execTmov d a s := rfl
@[simp] theorem exec_tmovFromVector (d : TReg) (a : VIdx) (b : SReg) (s : State) : exec (.tmovFromVector d a b) s = execTmovFromVector d a b s := rfl
@[simp] theorem exec_tmovToVector (d : VIdx) (a : TReg) (b : SReg) (s : State) : exec (.tmovToVector d a b) s = execTmovToVector d a b s := rfl
@[simp] theorem exec_tfill (d : TReg) (a : SReg) (s : State) : exec (.tfill d a) s = execTfill d a s := rfl
@[simp] theorem exec_tld (d : TReg) (a : SReg) (b : SReg) (q : QReg) (sp : Bool) (s : State) : exec (.tld d a b q sp) s = execTld d a b q sp s := rfl
@[simp] theorem exec_tst (d : TReg) (a : SReg) (b : SReg) (q : QReg) (sp : Bool) (s : State) : exec (.tst d a b q sp) s = execTst d a b q sp s := rfl
@[simp] theorem exec_mma (k : KReg) (a : TReg) (b : TReg) (pos : Fin 32) (ta : Bool) (tb : Bool) (sat : Bool) (qt : Fin 8) (s : State) : exec (.mma k a b pos ta tb sat qt) s = execMma k a b pos ta tb sat qt s := rfl
@[simp] theorem exec_mmaMx (k : KReg) (a : TReg) (b : TReg) (pos : Fin 32) (qk : Bool) (s : State) : exec (.mmaMx k a b pos qk) s = execMmaMx k a b pos qk s := rfl
@[simp] theorem exec_mmaSc (k : KReg) (a : TReg) (b : TReg) (pos : Fin 32) (qk : Bool) (s : State) : exec (.mmaSc k a b pos qk) s = execMmaSc k a b pos qk s := rfl
@[simp] theorem exec_chainBuild (k : KReg) (a : SReg) (sp : Bool) (s : State) : exec (.chainBuild k a sp) s = execChainBuild k a sp s := rfl
@[simp] theorem exec_chainClose (k : KReg) (a : SReg) (b : SReg) (rm : Rm) (dst : Bool) (s : State) : exec (.chainClose k a b rm dst) s = execChainClose k a b rm dst s := rfl
@[simp] theorem exec_chainStat (d : SReg) (a : SReg) (k : KReg) (sp : Bool) (s : State) : exec (.chainStat d a k sp) s = execChainStat d a k sp s := rfl
@[simp] theorem exec_chainSplice (k : KReg) (a : SReg) (pos : Fin 32) (s : State) : exec (.chainSplice k a pos) s = execChainSplice k a pos s := rfl
@[simp] theorem exec_chainResume (k : KReg) (s : State) : exec (.chainResume k) s = execChainResume k s := rfl
@[simp] theorem exec_chainFree (k : KReg) (s : State) : exec (.chainFree k) s = execChainFree k s := rfl
@[simp] theorem exec_ld (d : SReg) (a : SReg) (imm : Int) (sp : Bool) (sz : Fin 8) (s : State) : exec (.ld d a imm sp sz) s = execLd d a imm sp sz s := rfl
@[simp] theorem exec_st (d : SReg) (a : SReg) (imm : Int) (sp : Bool) (sz : Fin 8) (s : State) : exec (.st d a imm sp sz) s = execSt d a imm sp sz s := rfl
@[simp] theorem exec_vld (d : VIdx) (a : SReg) (b : SReg) (sp : Bool) (scr : Bool) (mk : MReg) (s : State) : exec (.vld d a b sp scr mk) s = execVld d a b sp scr mk s := rfl
@[simp] theorem exec_vst (d : VIdx) (a : SReg) (b : SReg) (sp : Bool) (scr : Bool) (mk : MReg) (s : State) : exec (.vst d a b sp scr mk) s = execVst d a b sp scr mk s := rfl
@[simp] theorem exec_pref (a : SReg) (b : SReg) (lvl : Fin 8) (s : State) : exec (.pref a b lvl) s = execPref a b lvl s := rfl
@[simp] theorem exec_clean (a : SReg) (b : SReg) (lvl : Fin 8) (s : State) : exec (.clean a b lvl) s = execClean a b lvl s := rfl
@[simp] theorem exec_invl (a : SReg) (b : SReg) (s : State) : exec (.invl a b) s = execInvl a b s := rfl
@[simp] theorem exec_amoSwap (d : SReg) (a : SReg) (b : SReg) (ty : Fin 8) (s : State) : exec (.amoSwap d a b ty) s = execAmoSwap d a b ty s := rfl
@[simp] theorem exec_amoCas (d : SReg) (a : SReg) (b : SReg) (ty : Fin 8) (s : State) : exec (.amoCas d a b ty) s = execAmoCas d a b ty s := rfl
@[simp] theorem exec_amoAdd (d : SReg) (a : SReg) (b : SReg) (ty : Fin 8) (s : State) : exec (.amoAdd d a b ty) s = execAmoAdd d a b ty s := rfl
@[simp] theorem exec_amoAnd (d : SReg) (a : SReg) (b : SReg) (ty : Fin 8) (s : State) : exec (.amoAnd d a b ty) s = execAmoAnd d a b ty s := rfl
@[simp] theorem exec_amoOr (d : SReg) (a : SReg) (b : SReg) (ty : Fin 8) (s : State) : exec (.amoOr d a b ty) s = execAmoOr d a b ty s := rfl
@[simp] theorem exec_amoXor (d : SReg) (a : SReg) (b : SReg) (ty : Fin 8) (s : State) : exec (.amoXor d a b ty) s = execAmoXor d a b ty s := rfl
@[simp] theorem exec_amoMin (d : SReg) (a : SReg) (b : SReg) (ty : Fin 8) (s : State) : exec (.amoMin d a b ty) s = execAmoMin d a b ty s := rfl
@[simp] theorem exec_amoMax (d : SReg) (a : SReg) (b : SReg) (ty : Fin 8) (s : State) : exec (.amoMax d a b ty) s = execAmoMax d a b ty s := rfl
@[simp] theorem exec_amoFadd (d : SReg) (a : SReg) (b : SReg) (ty : Fin 8) (s : State) : exec (.amoFadd d a b ty) s = execAmoFadd d a b ty s := rfl
@[simp] theorem exec_amoFmin (d : SReg) (a : SReg) (b : SReg) (ty : Fin 8) (s : State) : exec (.amoFmin d a b ty) s = execAmoFmin d a b ty s := rfl
@[simp] theorem exec_amoFmax (d : SReg) (a : SReg) (b : SReg) (ty : Fin 8) (s : State) : exec (.amoFmax d a b ty) s = execAmoFmax d a b ty s := rfl
@[simp] theorem exec_redAdd (a : SReg) (b : SReg) (ty : Fin 8) (s : State) : exec (.redAdd a b ty) s = execRedAdd a b ty s := rfl
@[simp] theorem exec_redAnd (a : SReg) (b : SReg) (ty : Fin 8) (s : State) : exec (.redAnd a b ty) s = execRedAnd a b ty s := rfl
@[simp] theorem exec_redOr (a : SReg) (b : SReg) (ty : Fin 8) (s : State) : exec (.redOr a b ty) s = execRedOr a b ty s := rfl
@[simp] theorem exec_redXor (a : SReg) (b : SReg) (ty : Fin 8) (s : State) : exec (.redXor a b ty) s = execRedXor a b ty s := rfl
@[simp] theorem exec_redMin (a : SReg) (b : SReg) (ty : Fin 8) (s : State) : exec (.redMin a b ty) s = execRedMin a b ty s := rfl
@[simp] theorem exec_redMax (a : SReg) (b : SReg) (ty : Fin 8) (s : State) : exec (.redMax a b ty) s = execRedMax a b ty s := rfl
@[simp] theorem exec_redFadd (a : SReg) (b : SReg) (ty : Fin 8) (s : State) : exec (.redFadd a b ty) s = execRedFadd a b ty s := rfl
@[simp] theorem exec_redFmin (a : SReg) (b : SReg) (ty : Fin 8) (s : State) : exec (.redFmin a b ty) s = execRedFmin a b ty s := rfl
@[simp] theorem exec_redFmax (a : SReg) (b : SReg) (ty : Fin 8) (s : State) : exec (.redFmax a b ty) s = execRedFmax a b ty s := rfl
@[simp] theorem exec_ldAcq (d : SReg) (a : SReg) (scope : Fin 8) (sz : Fin 8) (s : State) : exec (.ldAcq d a scope sz) s = execLdAcq d a scope sz s := rfl
@[simp] theorem exec_stRel (d : SReg) (a : SReg) (scope : Fin 8) (sz : Fin 8) (s : State) : exec (.stRel d a scope sz) s = execStRel d a scope sz s := rfl
@[simp] theorem exec_fence (scope : Fin 8) (press : Bool) (s : State) : exec (.fence scope press) s = execFence scope press s := rfl
@[simp] theorem exec_barArrive (bar : Fin 16) (s : State) : exec (.barArrive bar) s = execBarArrive bar s := rfl
@[simp] theorem exec_barWait (bar : Fin 16) (arr : Bool) (s : State) : exec (.barWait bar arr) s = execBarWait bar arr s := rfl
@[simp] theorem exec_barDrop (bar : Fin 16) (s : State) : exec (.barDrop bar) s = execBarDrop bar s := rfl
@[simp] theorem exec_barTwait (d : SReg) (a : SReg) (bar : Fin 16) (arr : Bool) (s : State) : exec (.barTwait d a bar arr) s = execBarTwait d a bar arr s := rfl
@[simp] theorem exec_flagSet (a : SReg) (b : SReg) (scope : Fin 8) (s : State) : exec (.flagSet a b scope) s = execFlagSet a b scope s := rfl
@[simp] theorem exec_flagWait (d : SReg) (a : SReg) (b : SReg) (timed : Bool) (scope : Fin 8) (s : State) : exec (.flagWait d a b timed scope) s = execFlagWait d a b timed scope s := rfl
@[simp] theorem exec_flagWaitAny (d : SReg) (a : SReg) (b : SReg) (timed : Bool) (scope : Fin 8) (s : State) : exec (.flagWaitAny d a b timed scope) s = execFlagWaitAny d a b timed scope s := rfl
@[simp] theorem exec_trig (a : SReg) (b : SReg) (rst : Bool) (scope : Fin 8) (s : State) : exec (.trig a b rst scope) s = execTrig a b rst scope s := rfl
@[simp] theorem exec_arm (d : SReg) (a : SReg) (b : SReg) (q : QReg) (s : State) : exec (.arm d a b q) s = execArm d a b q s := rfl
@[simp] theorem exec_cp (q : QReg) (a : SReg) (c0 : QReg) (c1 : QReg) (c2 : Option QReg) (s : State) : exec (.cp q a c0 c1 c2) s = execCp q a c0 c1 c2 s := rfl
@[simp] theorem exec_gather (q : QReg) (a : SReg) (c0 : QReg) (c1 : QReg) (c2 : Option QReg) (s : State) : exec (.gather q a c0 c1 c2) s = execGather q a c0 c1 c2 s := rfl
@[simp] theorem exec_scatter (q : QReg) (a : SReg) (c0 : QReg) (c1 : QReg) (c2 : Option QReg) (s : State) : exec (.scatter q a c0 c1 c2) s = execScatter q a c0 c1 c2 s := rfl
@[simp] theorem exec_collReshard (q : QReg) (a : SReg) (c0 : QReg) (c1 : QReg) (c2 : Option QReg) (s : State) : exec (.collReshard q a c0 c1 c2) s = execCollReshard q a c0 c1 c2 s := rfl
@[simp] theorem exec_combine (q : QReg) (a : SReg) (c0 : QReg) (c1 : QReg) (c2 : Option QReg) (s : State) : exec (.combine q a c0 c1 c2) s = execCombine q a c0 c1 c2 s := rfl
@[simp] theorem exec_tokwait (a : QReg) (okOnly : Bool) (s : State) : exec (.tokwait a okOnly) s = execTokwait a okOnly s := rfl
@[simp] theorem exec_toktest (d : SReg) (a : QReg) (s : State) : exec (.toktest d a) s = execToktest d a s := rfl
@[simp] theorem exec_tokjoin (d : QReg) (a : QReg) (b : QReg) (c : QReg) (s : State) : exec (.tokjoin d a b c) s = execTokjoin d a b c s := rfl
@[simp] theorem exec_phaseBegin (a : SReg) (s : State) : exec (.phaseBegin a) s = execPhaseBegin a s := rfl
@[simp] theorem exec_phaseCommit (d : SReg) (s : State) : exec (.phaseCommit d) s = execPhaseCommit d s := rfl
@[simp] theorem exec_chk (a : SReg) (b : SReg) (kk : Fin 4) (s : State) : exec (.chk a b kk) s = execChk a b kk s := rfl
@[simp] theorem exec_trap (code : Fin 32768) (s : State) : exec (.trap code) s = execTrap code s := rfl
@[simp] theorem exec_hrules (d : SReg) (a : SReg) (s : State) : exec (.hrules d a) s = execHrules d a s := rfl
@[simp] theorem exec_invr (d : SReg) (a : SReg) (b : SReg) (aa : Bool) (s : State) : exec (.invr d a b aa) s = execInvr d a b aa s := rfl
@[simp] theorem exec_detset (a : SReg) (b : SReg) (s : State) : exec (.detset a b) s = execDetset a b s := rfl
@[simp] theorem exec_nodeDone (a : SReg) (s : State) : exec (.nodeDone a) s = execNodeDone a s := rfl
@[simp] theorem exec_graphSignal (a : SReg) (s : State) : exec (.graphSignal a) s = execGraphSignal a s := rfl
@[simp] theorem exec_nop (s : State) : exec .nop s = execNop s := rfl
@[simp] theorem exec_exit (s : State) : exec .exit s = execExit s := rfl
@[simp] theorem exec_yield (s : State) : exec .yield s = execYield s := rfl
@[simp] theorem exec_ret (s : State) : exec .ret s = execRet s := rfl
@[simp] theorem exec_eret (s : State) : exec .eret s = execEret s := rfl
@[simp] theorem exec_hflush (s : State) : exec .hflush s = execHflush s := rfl
@[simp] theorem exec_bundleReissue (s : State) : exec .bundleReissue s = execBundleReissue s := rfl
@[simp] theorem exec_loadReturn (s : State) : exec .loadReturn s = execLoadReturn s := rfl
@[simp] theorem exec_storeAcknowledge (s : State) : exec .storeAcknowledge s = execStoreAcknowledge s := rfl
@[simp] theorem exec_memoryAccessPerform (s : State) : exec .memoryAccessPerform s = execMemoryAccessPerform s := rfl
@[simp] theorem exec_endMarkerReceipt (s : State) : exec .endMarkerReceipt s = execEndMarkerReceipt s := rfl
@[simp] theorem exec_homeAtomicPerform (s : State) : exec .homeAtomicPerform s = execHomeAtomicPerform s := rfl
@[simp] theorem exec_pressEntryArrival (s : State) : exec .pressEntryArrival s = execPressEntryArrival s := rfl
@[simp] theorem exec_pressWindowApply (s : State) : exec .pressWindowApply s = execPressWindowApply s := rfl
@[simp] theorem exec_remoteAtomicRetry (s : State) : exec .remoteAtomicRetry s = execRemoteAtomicRetry s := rfl
@[simp] theorem exec_switchContribution (s : State) : exec .switchContribution s = execSwitchContribution s := rfl
@[simp] theorem exec_switchAccumulatorWrite (s : State) : exec .switchAccumulatorWrite s = execSwitchAccumulatorWrite s := rfl
@[simp] theorem exec_combineFold (s : State) : exec .combineFold s = execCombineFold s := rfl
@[simp] theorem exec_engineCommandStart (s : State) : exec .engineCommandStart s = execEngineCommandStart s := rfl
@[simp] theorem exec_engineCommandComplete (s : State) : exec .engineCommandComplete s = execEngineCommandComplete s := rfl
@[simp] theorem exec_reshardDigestExchange (s : State) : exec .reshardDigestExchange s = execReshardDigestExchange s := rfl
@[simp] theorem exec_reshardChunkRead (s : State) : exec .reshardChunkRead s = execReshardChunkRead s := rfl
@[simp] theorem exec_tokjoinComplete (s : State) : exec .tokjoinComplete s = execTokjoinComplete s := rfl
@[simp] theorem exec_timedWaitExpiry (s : State) : exec .timedWaitExpiry s = execTimedWaitExpiry s := rfl
@[simp] theorem exec_fenceSysAcknowledge (s : State) : exec .fenceSysAcknowledge s = execFenceSysAcknowledge s := rfl
@[simp] theorem exec_tldComplete (s : State) : exec .tldComplete s = execTldComplete s := rfl
@[simp] theorem exec_tstComplete (s : State) : exec .tstComplete s = execTstComplete s := rfl
@[simp] theorem exec_tileOpComplete (s : State) : exec .tileOpComplete s = execTileOpComplete s := rfl
@[simp] theorem exec_arrayWindowStart (s : State) : exec .arrayWindowStart s = execArrayWindowStart s := rfl
@[simp] theorem exec_mmaPromotionComplete (s : State) : exec .mmaPromotionComplete s = execMmaPromotionComplete s := rfl
@[simp] theorem exec_handoffForm (s : State) : exec .handoffForm s = execHandoffForm s := rfl
@[simp] theorem exec_handoffArrival (s : State) : exec .handoffArrival s = execHandoffArrival s := rfl
@[simp] theorem exec_closeAct (s : State) : exec .closeAct s = execCloseAct s := rfl
@[simp] theorem exec_closeWritten (s : State) : exec .closeWritten s = execCloseWritten s := rfl
@[simp] theorem exec_linkUncorrectableError (s : State) : exec .linkUncorrectableError s = execLinkUncorrectableError s := rfl
@[simp] theorem exec_deferredTrapDelivery (s : State) : exec .deferredTrapDelivery s = execDeferredTrapDelivery s := rfl
@[simp] theorem exec_harrowDecision (s : State) : exec .harrowDecision s = execHarrowDecision s := rfl
@[simp] theorem exec_tableWalkComplete (s : State) : exec .tableWalkComplete s = execTableWalkComplete s := rfl
@[simp] theorem exec_invrAcknowledge (s : State) : exec .invrAcknowledge s = execInvrAcknowledge s := rfl
@[simp] theorem exec_contextSlotFree (s : State) : exec .contextSlotFree s = execContextSlotFree s := rfl
@[simp] theorem exec_sliceSwitch (s : State) : exec .sliceSwitch s = execSliceSwitch s := rfl
@[simp] theorem exec_registerParityReplay (s : State) : exec .registerParityReplay s = execRegisterParityReplay s := rfl
@[simp] theorem exec_registerUncorrectable (s : State) : exec .registerUncorrectable s = execRegisterUncorrectable s := rfl
@[simp] theorem exec_errorConsumed (s : State) : exec .errorConsumed s = execErrorConsumed s := rfl
@[simp] theorem exec_phaseRestart (s : State) : exec .phaseRestart s = execPhaseRestart s := rfl
@[simp] theorem exec_doorbell (s : State) : exec .doorbell s = execDoorbell s := rfl
@[simp] theorem exec_nopPacket (s : State) : exec .nopPacket s = execNopPacket s := rfl
@[simp] theorem exec_nodePacket (s : State) : exec .nodePacket s = execNodePacket s := rfl
@[simp] theorem exec_graphPacket (s : State) : exec .graphPacket s = execGraphPacket s := rfl
@[simp] theorem exec_detsetPacket (s : State) : exec .detsetPacket s = execDetsetPacket s := rfl
@[simp] theorem exec_detsetTakesEffect (s : State) : exec .detsetTakesEffect s = execDetsetTakesEffect s := rfl
@[simp] theorem exec_nodeDispatch (s : State) : exec .nodeDispatch s = execNodeDispatch s := rfl
@[simp] theorem exec_agingIntervalExpiry (s : State) : exec .agingIntervalExpiry s = execAgingIntervalExpiry s := rfl
@[simp] theorem exec_preempt (s : State) : exec .preempt s = execPreempt s := rfl
@[simp] theorem exec_preemptAbandon (s : State) : exec .preemptAbandon s = execPreemptAbandon s := rfl
@[simp] theorem exec_gangResume (s : State) : exec .gangResume s = execGangResume s := rfl
@[simp] theorem exec_saveBlockError (s : State) : exec .saveBlockError s = execSaveBlockError s := rfl
@[simp] theorem exec_nodeComplete (s : State) : exec .nodeComplete s = execNodeComplete s := rfl
@[simp] theorem exec_dualSecondRun (s : State) : exec .dualSecondRun s = execDualSecondRun s := rfl
@[simp] theorem exec_completionEntryWrite (s : State) : exec .completionEntryWrite s = execCompletionEntryWrite s := rfl
@[simp] theorem exec_remapWrite (s : State) : exec .remapWrite s = execRemapWrite s := rfl
@[simp] theorem exec_remapTakesEffect (s : State) : exec .remapTakesEffect s = execRemapTakesEffect s := rfl
@[simp] theorem exec_resync (s : State) : exec .resync s = execResync s := rfl
@[simp] theorem exec_bar0RegisterWrite (s : State) : exec .bar0RegisterWrite s = execBar0RegisterWrite s := rfl
@[simp] theorem exec_hostBar2Access (s : State) : exec .hostBar2Access s = execHostBar2Access s := rfl
@[simp] theorem exec_hostCxlMemAccess (s : State) : exec .hostCxlMemAccess s = execHostCxlMemAccess s := rfl
@[simp] theorem exec_deadlockDelivery (s : State) : exec .deadlockDelivery s = execDeadlockDelivery s := rfl
@[simp] theorem exec_flitCrcFailure (s : State) : exec .flitCrcFailure s = execFlitCrcFailure s := rfl
@[simp] theorem exec_furrowSilence (s : State) : exec .furrowSilence s = execFurrowSilence s := rfl
@[simp] theorem exec_planeSwitchFault (s : State) : exec .planeSwitchFault s = execPlaneSwitchFault s := rfl
@[simp] theorem exec_deadFurrowReport (s : State) : exec .deadFurrowReport s = execDeadFurrowReport s := rfl
@[simp] theorem exec_qreq (s : State) : exec .qreq s = execQreq s := rfl
@[simp] theorem exec_drainComplete (s : State) : exec .drainComplete s = execDrainComplete s := rfl
@[simp] theorem exec_drained (s : State) : exec .drained s = execDrained s := rfl
@[simp] theorem exec_install (s : State) : exec .install s = execInstall s := rfl
@[simp] theorem exec_installed (s : State) : exec .installed s = execInstalled s := rfl
@[simp] theorem exec_resume (s : State) : exec .resume s = execResume s := rfl
@[simp] theorem exec_quiesceTimeout (s : State) : exec .quiesceTimeout s = execQuiesceTimeout s := rfl
@[simp] theorem exec_status (s : State) : exec .status s = execStatus s := rfl
@[simp] theorem exec_counters (s : State) : exec .counters s = execCounters s := rfl
@[simp] theorem exec_clrcnt (s : State) : exec .clrcnt s = execClrcnt s := rfl
@[simp] theorem exec_setpft (s : State) : exec .setpft s = execSetpft s := rfl
@[simp] theorem exec_setuv (s : State) : exec .setuv s = execSetuv s := rfl
@[simp] theorem exec_setpcap (s : State) : exec .setpcap s = execSetpcap s := rfl
@[simp] theorem exec_arrayout (s : State) : exec .arrayout s = execArrayout s := rfl
@[simp] theorem exec_arrayin (s : State) : exec .arrayin s = execArrayin s := rfl
@[simp] theorem exec_kill (s : State) : exec .kill s = execKill s := rfl
@[simp] theorem exec_fallow (s : State) : exec .fallow s = execFallow s := rfl
@[simp] theorem exec_restore (s : State) : exec .restore s = execRestore s := rfl
@[simp] theorem exec_winreg (s : State) : exec .winreg s = execWinreg s := rfl
@[simp] theorem exec_windel (s : State) : exec .windel s = execWindel s := rfl
@[simp] theorem exec_attest (s : State) : exec .attest s = execAttest s := rfl
@[simp] theorem exec_events (s : State) : exec .events s = execEvents s := rfl
@[simp] theorem exec_keyupd (s : State) : exec .keyupd s = execKeyupd s := rfl
@[simp] theorem exec_fwupd (s : State) : exec .fwupd s = execFwupd s := rfl
@[simp] theorem exec_setsave (s : State) : exec .setsave s = execSetsave s := rfl
@[simp] theorem exec_settime (s : State) : exec .settime s = execSettime s := rfl
@[simp] theorem exec_slewtime (s : State) : exec .slewtime s = execSlewtime s := rfl
@[simp] theorem exec_pldmSensorRead (s : State) : exec .pldmSensorRead s = execPldmSensorRead s := rfl
@[simp] theorem exec_errorWindowEnd (s : State) : exec .errorWindowEnd s = execErrorWindowEnd s := rfl
@[simp] theorem exec_waitForWalk (s : State) : exec .waitForWalk s = execWaitForWalk s := rfl
@[simp] theorem exec_powerOverCap (s : State) : exec .powerOverCap s = execPowerOverCap s := rfl
@[simp] theorem exec_packageReset (s : State) : exec .packageReset s = execPackageReset s := rfl
@[simp] theorem exec_unassignedEncoding (s : State) : exec .unassignedEncoding s = execUnassignedEncoding s := rfl
@[simp] theorem exec_bundleFetchFault (s : State) : exec .bundleFetchFault s = execBundleFetchFault s := rfl
@[simp] theorem exec_dualShadowError (s : State) : exec .dualShadowError s = execDualShadowError s := rfl

end Sys2Proof.Machine
end

