-- ==== Sys2Proof/Laws/Memory.lean ====
section
/-! SUPPORT. The laws of memory: a read after a write, a write leaves every other byte alone, and every operation
keeps the canonical form. -/
namespace Sys2Proof.Machine

theorem memory_wfFrom_weaken {lo hi : Nat} {m : Memory} (h : lo ≤ hi) (w : Memory.wfFrom (some hi) m = true) :
    Memory.wfFrom (some lo) m = true := by
  cases m with
  | nil => rfl
  | cons c l =>
    obtain ⟨a, b⟩ := c
    simp only [Memory.wfFrom, Bool.and_eq_true, decide_eq_true_eq] at w ⊢
    exact ⟨⟨by omega, w.1.2⟩, w.2⟩

theorem memory_wfFrom_none {lo : Nat} {m : Memory} (w : Memory.wfFrom (some lo) m = true) :
    Memory.wfFrom none m = true := by
  cases m with
  | nil => rfl
  | cons c l =>
    obtain ⟨a, b⟩ := c
    simp only [Memory.wfFrom, Bool.and_eq_true, decide_eq_true_eq] at w ⊢
    exact ⟨⟨trivial, w.1.2⟩, w.2⟩

/-- Below the first address of a memory in form, every byte reads 0. -/
theorem memory_get_below {lo x : Nat} {m : Memory} (w : Memory.wfFrom (some lo) m = true) (h : x ≤ lo) :
    m.get x = 0 := by
  cases m with
  | nil => rfl
  | cons c l =>
    obtain ⟨a, b⟩ := c
    simp only [Memory.wfFrom, Bool.and_eq_true, decide_eq_true_eq] at w
    have hne : a ≠ x := by omega
    have hlt : x < a := by omega
    simp [Memory.get, hne, hlt]

theorem memory_wfFrom_set {lo : Option Nat} {m : Memory} {x : Nat} {v : Byte}
    (w : Memory.wfFrom lo m = true) (hx : ∀ y, lo = some y → y < x) : Memory.wfFrom lo (m.set x v) = true := by
  induction m generalizing lo with
  | nil =>
    by_cases hv : v = 0#8 <;> cases lo <;> simp_all [Memory.set, Memory.wfFrom]
  | cons c l ih =>
    obtain ⟨a, b⟩ := c
    have tail : Memory.wfFrom (some a) l = true := by
      simp only [Memory.wfFrom, Bool.and_eq_true] at w; exact w.2
    have nz : (b != 0) = true := by
      simp only [Memory.wfFrom, Bool.and_eq_true] at w; exact w.1.2
    have low : ∀ y, lo = some y → y < a := by
      intro y hy
      subst hy
      simp only [Memory.wfFrom, Bool.and_eq_true, decide_eq_true_eq] at w
      exact w.1.1
    simp only [Memory.set]
    by_cases hax : a = x
    · subst hax
      by_cases hv : v = 0#8
      · rw [if_pos rfl, if_pos (show v = 0 from hv)]
        cases lo with
        | none => exact memory_wfFrom_none tail
        | some y => exact memory_wfFrom_weaken (Nat.le_of_lt (hx y rfl)) tail
      · cases lo with
        | none => simp [hv, Memory.wfFrom, tail]
        | some y => simp [hv, Memory.wfFrom, tail, hx y rfl]
    · by_cases hlt : x < a
      · by_cases hv : v = 0#8
        · rw [if_neg hax, if_pos hlt, if_pos (show v = 0 from hv)]; exact w
        · cases lo with
          | none => rw [if_neg hax, if_pos hlt, if_neg (show ¬ v = 0 from hv)]; simp [Memory.wfFrom, tail, hv, hlt]; simpa using nz
          | some y => rw [if_neg hax, if_pos hlt, if_neg (show ¬ v = 0 from hv)]; simp [Memory.wfFrom, tail, hv, hlt, hx y rfl]; simpa using nz
      · have step : Memory.wfFrom (some a) (Memory.set l x v) = true :=
          ih tail (by intro y hy; cases hy; omega)
        simp only [hax, hlt, if_false, Memory.wfFrom, Bool.and_eq_true]
        refine ⟨⟨?_, nz⟩, step⟩
        cases lo with
        | none => rfl
        | some y => simpa using low y rfl

/-- A write keeps the canonical form. -/
theorem memory_wf_set {m : Memory} (x : Nat) (v : Byte) (w : m.wf = true) : (m.set x v).wf = true :=
  memory_wfFrom_set w (by intro y hy; cases hy)

theorem memory_wf_setAll {m : Memory} (l : List (Nat × Byte)) (w : m.wf = true) : (m.setAll l).wf = true := by
  induction l generalizing m with
  | nil => simpa [Memory.setAll] using w
  | cons c l ih => exact ih (memory_wf_set c.1 c.2 w)

theorem memory_wf_setBytes {m : Memory} (a : Nat) (l : List Byte) (w : m.wf = true) : (m.setBytes a l).wf = true := by
  induction l generalizing m a with
  | nil => simpa [Memory.setBytes] using w
  | cons b l ih => exact ih (a + 1) (memory_wf_set a b w)

theorem memory_wfFrom_filter {lo : Option Nat} {m : Memory} (p : Host.Cell → Bool) (w : Memory.wfFrom lo m = true) :
    Memory.wfFrom lo (m.filter p) = true := by
  induction m generalizing lo with
  | nil => simpa using w
  | cons c l ih =>
    obtain ⟨a, b⟩ := c
    have tail : Memory.wfFrom (some a) l = true := by
      simp only [Memory.wfFrom, Bool.and_eq_true] at w; exact w.2
    have head := w
    simp only [Memory.wfFrom, Bool.and_eq_true] at head
    by_cases h : p (a, b)
    · simp only [List.filter_cons, h, if_true, Memory.wfFrom, Bool.and_eq_true]
      exact ⟨head.1, ih tail⟩
    · simp only [List.filter_cons, h]
      cases lo with
      | none => exact memory_wfFrom_none (ih tail)
      | some y =>
        have : y < a := by simpa using head.1.1
        exact memory_wfFrom_weaken (Nat.le_of_lt this) (ih tail)

theorem memory_wf_clear {m : Memory} (a n : Nat) (w : m.wf = true) : (m.clear a n).wf = true :=
  memory_wfFrom_filter _ w

/-- A byte read after it is written is the byte written. -/
theorem memory_get_set {m : Memory} (x : Nat) (v : Byte) (w : m.wf = true) : (m.set x v).get x = v := by
  suffices ∀ lo, Memory.wfFrom lo m = true → (m.set x v).get x = v from this none w
  clear w
  induction m with
  | nil => intro lo _; by_cases hv : v = 0#8 <;> simp [Memory.set, Memory.get, hv]
  | cons c l ih =>
    obtain ⟨a, b⟩ := c
    intro lo w
    have tail : Memory.wfFrom (some a) l = true := by
      simp only [Memory.wfFrom, Bool.and_eq_true] at w; exact w.2
    by_cases hax : a = x
    · subst hax
      by_cases hv : v = 0#8
      · simp [Memory.set, hv, memory_get_below tail (Nat.le_refl a)]
      · simp [Memory.set, Memory.get, hv]
    · by_cases hlt : x < a
      · by_cases hv : v = 0#8 <;> simp [Memory.set, Memory.get, hax, hlt, hv]
      · simp [Memory.set, Memory.get, hax, hlt, ih _ tail]

/-- A write leaves every other byte alone. -/
theorem memory_get_set_ne {m : Memory} {x y : Nat} (v : Byte) (w : m.wf = true) (h : y ≠ x) :
    (m.set x v).get y = m.get y := by
  suffices ∀ lo, Memory.wfFrom lo m = true → (m.set x v).get y = m.get y from this none w
  clear w
  induction m with
  | nil =>
    intro lo _
    have h' : x ≠ y := fun e => h e.symm
    by_cases hv : v = 0#8
    · simp [Memory.set, Memory.get, hv]
    · by_cases hlt : y < x <;> simp [Memory.set, Memory.get, hv, h', hlt]
  | cons c l ih =>
    obtain ⟨a, b⟩ := c
    intro lo w
    have h' : x ≠ y := fun e => h e.symm
    have tail : Memory.wfFrom (some a) l = true := by
      simp only [Memory.wfFrom, Bool.and_eq_true] at w; exact w.2
    by_cases hax : a = x
    · subst hax
      by_cases hv : v = 0#8
      · by_cases hlt : y < a
        · simp [Memory.set, Memory.get, hv, h', hlt, memory_get_below tail (Nat.le_of_lt hlt)]
        · simp [Memory.set, Memory.get, hv, h', hlt]
      · simp [Memory.set, Memory.get, hv, h']
    · by_cases hlt : x < a
      · by_cases hv : v = 0#8
        · simp [Memory.set, hax, hlt, hv]
        · by_cases hay : a = y
          · subst hay
            have : ¬ a < x := by omega
            simp [Memory.set, Memory.get, hax, hlt, hv, h', this]
          · by_cases hyx : y < x
            · have : y < a := by omega
              simp [Memory.set, Memory.get, hax, hlt, hv, h', hyx, hay, this]
            · simp [Memory.set, Memory.get, hax, hlt, hv, h', hyx]
      · by_cases hay : a = y
        · subst hay
          simp [Memory.set, Memory.get, hax, hlt]
        · simp [Memory.set, Memory.get, hax, hlt, hay, ih _ tail]

/-- Bytes written from an address leave every byte outside them alone. -/
theorem memory_get_setBytes_out {m : Memory} {a y : Nat} (l : List Byte) (w : m.wf = true)
    (h : y < a ∨ a + l.length ≤ y) : (m.setBytes a l).get y = m.get y := by
  induction l generalizing m a with
  | nil => rfl
  | cons b l ih =>
    have hy : y ≠ a := by simp only [List.length_cons] at h; omega
    rw [Memory.setBytes, ih (memory_wf_set a b w) (by simp only [List.length_cons] at h; omega),
      memory_get_set_ne b w hy]

/-- Bytes read back from where they are written. -/
theorem memory_get_setBytes_in {m : Memory} {a i : Nat} (l : List Byte) (w : m.wf = true) (h : i < l.length) :
    (m.setBytes a l).get (a + i) = l[i] := by
  induction l generalizing m a i with
  | nil => simp at h
  | cons b l ih =>
    have w' := memory_wf_set a b w
    cases i with
    | zero =>
      rw [Nat.add_zero, Memory.setBytes, memory_get_setBytes_out l w' (by omega), memory_get_set a b w]
      rfl
    | succ i =>
      have : a + (i + 1) = a + 1 + i := by omega
      rw [this, Memory.setBytes, ih w' (by simpa using h)]
      rfl

/-- Writes at a list of addresses leave every other byte alone. -/
theorem memory_get_setAll_out {m : Memory} {y : Nat} (l : List (Nat × Byte)) (w : m.wf = true)
    (h : ∀ c ∈ l, c.1 ≠ y) : (m.setAll l).get y = m.get y := by
  induction l generalizing m with
  | nil => rfl
  | cons c l ih =>
    rw [Memory.setAll, ih (memory_wf_set c.1 c.2 w) (fun d hd => h d (by simp [hd])),
      memory_get_set_ne c.2 w (fun e => h c (by simp) e.symm)]

end Sys2Proof.Machine
end

