-- ==== Sys2Proof/Laws/State.lean ====
section
/-! SUPPORT. What each update of the state and of a context leaves and changes, field by field, so that no later proof
unfolds a record update. -/
namespace Sys2Proof.Machine

/-! ### The context in focus -/

@[simp] theorem withCtx_part (s : State) (f : Ctx → Ctx) : (s.withCtx f).part = s.part := rfl
@[simp] theorem withCtx_pkg (s : State) (f : Ctx → Ctx) : (s.withCtx f).pkg = s.pkg := rfl
@[simp] theorem withCtx_ctx (s : State) (f : Ctx → Ctx) : (s.withCtx f).ctx = f s.ctx := rfl
@[simp] theorem withCtx_others (s : State) (f : Ctx → Ctx) : (s.withCtx f).others = s.others := rfl
@[simp] theorem withCtx_pre (s : State) (f : Ctx → Ctx) : (s.withCtx f).pre = s.pre := rfl
@[simp] theorem withCtx_bun (s : State) (f : Ctx → Ctx) : (s.withCtx f).bun = s.bun := rfl
@[simp] theorem withCtx_gangs (s : State) (f : Ctx → Ctx) : (s.withCtx f).gangs = s.gangs := rfl
@[simp] theorem withCtx_links (s : State) (f : Ctx → Ctx) : (s.withCtx f).links = s.links := rfl
@[simp] theorem withCtx_arrays (s : State) (f : Ctx → Ctx) : (s.withCtx f).arrays = s.arrays := rfl
@[simp] theorem withCtx_rules (s : State) (f : Ctx → Ctx) : (s.withCtx f).rules = s.rules := rfl
@[simp] theorem withCtx_mem (s : State) (f : Ctx → Ctx) : (s.withCtx f).mem = s.mem := rfl
@[simp] theorem withCtx_spad (s : State) (f : Ctx → Ctx) : (s.withCtx f).spad = s.spad := rfl
@[simp] theorem withCtx_hbmDirty (s : State) (f : Ctx → Ctx) : (s.withCtx f).hbmDirty = s.hbmDirty := rfl
@[simp] theorem withCtx_hbmNew (s : State) (f : Ctx → Ctx) : (s.withCtx f).hbmNew = s.hbmNew := rfl
@[simp] theorem withCtx_hbmHost (s : State) (f : Ctx → Ctx) : (s.withCtx f).hbmHost = s.hbmHost := rfl
@[simp] theorem withCtx_l1 (s : State) (f : Ctx → Ctx) : (s.withCtx f).l1 = s.l1 := rfl
@[simp] theorem withCtx_tlb (s : State) (f : Ctx → Ctx) : (s.withCtx f).tlb = s.tlb := rfl
@[simp] theorem withCtx_walkCache (s : State) (f : Ctx → Ctx) : (s.withCtx f).walkCache = s.walkCache := rfl
@[simp] theorem withCtx_bankWaits (s : State) (f : Ctx → Ctx) : (s.withCtx f).bankWaits = s.bankWaits := rfl
@[simp] theorem withCtx_undos (s : State) (f : Ctx → Ctx) : (s.withCtx f).undos = s.undos := rfl
@[simp] theorem withCtx_poison (s : State) (f : Ctx → Ctx) : (s.withCtx f).poison = s.poison := rfl
@[simp] theorem withCtx_walks (s : State) (f : Ctx → Ctx) : (s.withCtx f).walks = s.walks := rfl
@[simp] theorem withCtx_flights (s : State) (f : Ctx → Ctx) : (s.withCtx f).flights = s.flights := rfl
@[simp] theorem withCtx_tileOps (s : State) (f : Ctx → Ctx) : (s.withCtx f).tileOps = s.tileOps := rfl
@[simp] theorem withCtx_cmds (s : State) (f : Ctx → Ctx) : (s.withCtx f).cmds = s.cmds := rfl
@[simp] theorem withCtx_armed (s : State) (f : Ctx → Ctx) : (s.withCtx f).armed = s.armed := rfl
@[simp] theorem withCtx_joins (s : State) (f : Ctx → Ctx) : (s.withCtx f).joins = s.joins := rfl
@[simp] theorem withCtx_press (s : State) (f : Ctx → Ctx) : (s.withCtx f).press = s.press := rfl
@[simp] theorem withCtx_clocks (s : State) (f : Ctx → Ctx) : (s.withCtx f).clocks = s.clocks := rfl
@[simp] theorem withCtx_invals (s : State) (f : Ctx → Ctx) : (s.withCtx f).invals = s.invals := rfl
@[simp] theorem withCtx_taintMem (s : State) (f : Ctx → Ctx) : (s.withCtx f).taintMem = s.taintMem := rfl
@[simp] theorem withCtx_time (s : State) (f : Ctx → Ctx) : (s.withCtx f).time = s.time := rfl
@[simp] theorem withCtx_wall (s : State) (f : Ctx → Ctx) : (s.withCtx f).wall = s.wall := rfl
@[simp] theorem withCtx_wallFrac (s : State) (f : Ctx → Ctx) : (s.withCtx f).wallFrac = s.wallFrac := rfl
@[simp] theorem withCtx_wallRate (s : State) (f : Ctx → Ctx) : (s.withCtx f).wallRate = s.wallRate := rfl
@[simp] theorem withCtx_wallSet (s : State) (f : Ctx → Ctx) : (s.withCtx f).wallSet = s.wallSet := rfl
@[simp] theorem withCtx_pmap (s : State) (f : Ctx → Ctx) : (s.withCtx f).pmap = s.pmap := rfl
@[simp] theorem withCtx_granary (s : State) (f : Ctx → Ctx) : (s.withCtx f).granary = s.granary := rfl
@[simp] theorem withCtx_fleet (s : State) (f : Ctx → Ctx) : (s.withCtx f).fleet = s.fleet := rfl
@[simp] theorem withCtx_mgmt (s : State) (f : Ctx → Ctx) : (s.withCtx f).mgmt = s.mgmt := rfl
@[simp] theorem withCtx_saved (s : State) (f : Ctx → Ctx) : (s.withCtx f).saved = s.saved := rfl
@[simp] theorem withCtx_agenda (s : State) (f : Ctx → Ctx) : (s.withCtx f).agenda = s.agenda := rfl
@[simp] theorem withCtx_arg (s : State) (f : Ctx → Ctx) : (s.withCtx f).arg = s.arg := rfl
@[simp] theorem withCtx_freeIx (s : State) (f : Ctx → Ctx) : (s.withCtx f).freeIx = s.freeIx := rfl
@[simp] theorem withCtx_nextId (s : State) (f : Ctx → Ctx) : (s.withCtx f).nextId = s.nextId := rfl
@[simp] theorem withCtx_lastRun (s : State) (f : Ctx → Ctx) : (s.withCtx f).lastRun = s.lastRun := rfl

@[simp] theorem ended_part (s : State) (e : SlotStatus) : (s.ended e).part = s.part := rfl
@[simp] theorem ended_pkg (s : State) (e : SlotStatus) : (s.ended e).pkg = s.pkg := rfl
@[simp] theorem ended_ctx (s : State) (e : SlotStatus) : (s.ended e).ctx = s.ctx := rfl
@[simp] theorem ended_others (s : State) (e : SlotStatus) : (s.ended e).others = s.others := rfl
@[simp] theorem ended_pre (s : State) (e : SlotStatus) : (s.ended e).pre = s.pre := rfl
@[simp] theorem ended_bun (s : State) (e : SlotStatus) : (s.ended e).bun = { s.bun with status := e } := rfl
@[simp] theorem ended_gangs (s : State) (e : SlotStatus) : (s.ended e).gangs = s.gangs := rfl
@[simp] theorem ended_links (s : State) (e : SlotStatus) : (s.ended e).links = s.links := rfl
@[simp] theorem ended_arrays (s : State) (e : SlotStatus) : (s.ended e).arrays = s.arrays := rfl
@[simp] theorem ended_rules (s : State) (e : SlotStatus) : (s.ended e).rules = s.rules := rfl
@[simp] theorem ended_mem (s : State) (e : SlotStatus) : (s.ended e).mem = s.mem := rfl
@[simp] theorem ended_spad (s : State) (e : SlotStatus) : (s.ended e).spad = s.spad := rfl
@[simp] theorem ended_hbmDirty (s : State) (e : SlotStatus) : (s.ended e).hbmDirty = s.hbmDirty := rfl
@[simp] theorem ended_hbmNew (s : State) (e : SlotStatus) : (s.ended e).hbmNew = s.hbmNew := rfl
@[simp] theorem ended_hbmHost (s : State) (e : SlotStatus) : (s.ended e).hbmHost = s.hbmHost := rfl
@[simp] theorem ended_l1 (s : State) (e : SlotStatus) : (s.ended e).l1 = s.l1 := rfl
@[simp] theorem ended_tlb (s : State) (e : SlotStatus) : (s.ended e).tlb = s.tlb := rfl
@[simp] theorem ended_walkCache (s : State) (e : SlotStatus) : (s.ended e).walkCache = s.walkCache := rfl
@[simp] theorem ended_bankWaits (s : State) (e : SlotStatus) : (s.ended e).bankWaits = s.bankWaits := rfl
@[simp] theorem ended_undos (s : State) (e : SlotStatus) : (s.ended e).undos = s.undos := rfl
@[simp] theorem ended_poison (s : State) (e : SlotStatus) : (s.ended e).poison = s.poison := rfl
@[simp] theorem ended_walks (s : State) (e : SlotStatus) : (s.ended e).walks = s.walks := rfl
@[simp] theorem ended_flights (s : State) (e : SlotStatus) : (s.ended e).flights = s.flights := rfl
@[simp] theorem ended_tileOps (s : State) (e : SlotStatus) : (s.ended e).tileOps = s.tileOps := rfl
@[simp] theorem ended_cmds (s : State) (e : SlotStatus) : (s.ended e).cmds = s.cmds := rfl
@[simp] theorem ended_armed (s : State) (e : SlotStatus) : (s.ended e).armed = s.armed := rfl
@[simp] theorem ended_joins (s : State) (e : SlotStatus) : (s.ended e).joins = s.joins := rfl
@[simp] theorem ended_press (s : State) (e : SlotStatus) : (s.ended e).press = s.press := rfl
@[simp] theorem ended_clocks (s : State) (e : SlotStatus) : (s.ended e).clocks = s.clocks := rfl
@[simp] theorem ended_invals (s : State) (e : SlotStatus) : (s.ended e).invals = s.invals := rfl
@[simp] theorem ended_taintMem (s : State) (e : SlotStatus) : (s.ended e).taintMem = s.taintMem := rfl
@[simp] theorem ended_time (s : State) (e : SlotStatus) : (s.ended e).time = s.time := rfl
@[simp] theorem ended_wall (s : State) (e : SlotStatus) : (s.ended e).wall = s.wall := rfl
@[simp] theorem ended_wallFrac (s : State) (e : SlotStatus) : (s.ended e).wallFrac = s.wallFrac := rfl
@[simp] theorem ended_wallRate (s : State) (e : SlotStatus) : (s.ended e).wallRate = s.wallRate := rfl
@[simp] theorem ended_wallSet (s : State) (e : SlotStatus) : (s.ended e).wallSet = s.wallSet := rfl
@[simp] theorem ended_pmap (s : State) (e : SlotStatus) : (s.ended e).pmap = s.pmap := rfl
@[simp] theorem ended_granary (s : State) (e : SlotStatus) : (s.ended e).granary = s.granary := rfl
@[simp] theorem ended_fleet (s : State) (e : SlotStatus) : (s.ended e).fleet = s.fleet := rfl
@[simp] theorem ended_mgmt (s : State) (e : SlotStatus) : (s.ended e).mgmt = s.mgmt := rfl
@[simp] theorem ended_saved (s : State) (e : SlotStatus) : (s.ended e).saved = s.saved := rfl
@[simp] theorem ended_agenda (s : State) (e : SlotStatus) : (s.ended e).agenda = s.agenda := rfl
@[simp] theorem ended_arg (s : State) (e : SlotStatus) : (s.ended e).arg = s.arg := rfl
@[simp] theorem ended_freeIx (s : State) (e : SlotStatus) : (s.ended e).freeIx = s.freeIx := rfl
@[simp] theorem ended_nextId (s : State) (e : SlotStatus) : (s.ended e).nextId = s.nextId := rfl
@[simp] theorem ended_lastRun (s : State) (e : SlotStatus) : (s.ended e).lastRun = s.lastRun := rfl

@[simp] theorem between_part (s : State) : (s.between).part = s.part := rfl
@[simp] theorem between_pkg (s : State) : (s.between).pkg = s.pkg := rfl
@[simp] theorem between_ctx (s : State) : (s.between).ctx = s.ctx := rfl
@[simp] theorem between_others (s : State) : (s.between).others = s.others := rfl
@[simp] theorem between_pre (s : State) : (s.between).pre = none := rfl
@[simp] theorem between_bun (s : State) : (s.between).bun = {} := rfl
@[simp] theorem between_gangs (s : State) : (s.between).gangs = s.gangs := rfl
@[simp] theorem between_links (s : State) : (s.between).links = s.links := rfl
@[simp] theorem between_arrays (s : State) : (s.between).arrays = s.arrays := rfl
@[simp] theorem between_rules (s : State) : (s.between).rules = s.rules := rfl
@[simp] theorem between_mem (s : State) : (s.between).mem = s.mem := rfl
@[simp] theorem between_spad (s : State) : (s.between).spad = s.spad := rfl
@[simp] theorem between_hbmDirty (s : State) : (s.between).hbmDirty = s.hbmDirty := rfl
@[simp] theorem between_hbmNew (s : State) : (s.between).hbmNew = s.hbmNew := rfl
@[simp] theorem between_hbmHost (s : State) : (s.between).hbmHost = s.hbmHost := rfl
@[simp] theorem between_l1 (s : State) : (s.between).l1 = s.l1 := rfl
@[simp] theorem between_tlb (s : State) : (s.between).tlb = s.tlb := rfl
@[simp] theorem between_walkCache (s : State) : (s.between).walkCache = s.walkCache := rfl
@[simp] theorem between_bankWaits (s : State) : (s.between).bankWaits = s.bankWaits := rfl
@[simp] theorem between_undos (s : State) : (s.between).undos = s.undos := rfl
@[simp] theorem between_poison (s : State) : (s.between).poison = s.poison := rfl
@[simp] theorem between_walks (s : State) : (s.between).walks = s.walks := rfl
@[simp] theorem between_flights (s : State) : (s.between).flights = s.flights := rfl
@[simp] theorem between_tileOps (s : State) : (s.between).tileOps = s.tileOps := rfl
@[simp] theorem between_cmds (s : State) : (s.between).cmds = s.cmds := rfl
@[simp] theorem between_armed (s : State) : (s.between).armed = s.armed := rfl
@[simp] theorem between_joins (s : State) : (s.between).joins = s.joins := rfl
@[simp] theorem between_press (s : State) : (s.between).press = s.press := rfl
@[simp] theorem between_clocks (s : State) : (s.between).clocks = s.clocks := rfl
@[simp] theorem between_invals (s : State) : (s.between).invals = s.invals := rfl
@[simp] theorem between_taintMem (s : State) : (s.between).taintMem = s.taintMem := rfl
@[simp] theorem between_time (s : State) : (s.between).time = s.time := rfl
@[simp] theorem between_wall (s : State) : (s.between).wall = s.wall := rfl
@[simp] theorem between_wallFrac (s : State) : (s.between).wallFrac = s.wallFrac := rfl
@[simp] theorem between_wallRate (s : State) : (s.between).wallRate = s.wallRate := rfl
@[simp] theorem between_wallSet (s : State) : (s.between).wallSet = s.wallSet := rfl
@[simp] theorem between_pmap (s : State) : (s.between).pmap = s.pmap := rfl
@[simp] theorem between_granary (s : State) : (s.between).granary = s.granary := rfl
@[simp] theorem between_fleet (s : State) : (s.between).fleet = s.fleet := rfl
@[simp] theorem between_mgmt (s : State) : (s.between).mgmt = s.mgmt := rfl
@[simp] theorem between_saved (s : State) : (s.between).saved = s.saved := rfl
@[simp] theorem between_agenda (s : State) : (s.between).agenda = s.agenda := rfl
@[simp] theorem between_arg (s : State) : (s.between).arg = s.arg := rfl
@[simp] theorem between_freeIx (s : State) : (s.between).freeIx = s.freeIx := rfl
@[simp] theorem between_nextId (s : State) : (s.between).nextId = s.nextId := rfl
@[simp] theorem between_lastRun (s : State) : (s.between).lastRun = s.lastRun := rfl

@[simp] theorem flushHarrow_part (s : State) : (flushHarrow s).part = s.part := rfl
@[simp] theorem flushHarrow_pkg (s : State) : (flushHarrow s).pkg = s.pkg := rfl
@[simp] theorem flushHarrow_ctx (s : State) : (flushHarrow s).ctx = s.ctx.flushHarrow := rfl
@[simp] theorem flushHarrow_others (s : State) : (flushHarrow s).others = s.others := rfl
@[simp] theorem flushHarrow_pre (s : State) : (flushHarrow s).pre = s.pre := rfl
@[simp] theorem flushHarrow_bun (s : State) : (flushHarrow s).bun = s.bun := rfl
@[simp] theorem flushHarrow_gangs (s : State) : (flushHarrow s).gangs = s.gangs := rfl
@[simp] theorem flushHarrow_links (s : State) : (flushHarrow s).links = s.links := rfl
@[simp] theorem flushHarrow_arrays (s : State) : (flushHarrow s).arrays = s.arrays := rfl
@[simp] theorem flushHarrow_rules (s : State) : (flushHarrow s).rules = s.rules := rfl
@[simp] theorem flushHarrow_mem (s : State) : (flushHarrow s).mem = s.mem := rfl
@[simp] theorem flushHarrow_spad (s : State) : (flushHarrow s).spad = s.spad := rfl
@[simp] theorem flushHarrow_hbmDirty (s : State) : (flushHarrow s).hbmDirty = s.hbmDirty := rfl
@[simp] theorem flushHarrow_hbmNew (s : State) : (flushHarrow s).hbmNew = s.hbmNew := rfl
@[simp] theorem flushHarrow_hbmHost (s : State) : (flushHarrow s).hbmHost = s.hbmHost := rfl
@[simp] theorem flushHarrow_l1 (s : State) : (flushHarrow s).l1 = s.l1 := rfl
@[simp] theorem flushHarrow_tlb (s : State) : (flushHarrow s).tlb = s.tlb := rfl
@[simp] theorem flushHarrow_walkCache (s : State) : (flushHarrow s).walkCache = s.walkCache := rfl
@[simp] theorem flushHarrow_bankWaits (s : State) : (flushHarrow s).bankWaits = s.bankWaits := rfl
@[simp] theorem flushHarrow_undos (s : State) : (flushHarrow s).undos = s.undos := rfl
@[simp] theorem flushHarrow_poison (s : State) : (flushHarrow s).poison = s.poison := rfl
@[simp] theorem flushHarrow_walks (s : State) : (flushHarrow s).walks = s.walks := rfl
@[simp] theorem flushHarrow_flights (s : State) : (flushHarrow s).flights = s.flights := rfl
@[simp] theorem flushHarrow_tileOps (s : State) : (flushHarrow s).tileOps = s.tileOps := rfl
@[simp] theorem flushHarrow_cmds (s : State) : (flushHarrow s).cmds = s.cmds := rfl
@[simp] theorem flushHarrow_armed (s : State) : (flushHarrow s).armed = s.armed := rfl
@[simp] theorem flushHarrow_joins (s : State) : (flushHarrow s).joins = s.joins := rfl
@[simp] theorem flushHarrow_press (s : State) : (flushHarrow s).press = s.press := rfl
@[simp] theorem flushHarrow_clocks (s : State) : (flushHarrow s).clocks = s.clocks := rfl
@[simp] theorem flushHarrow_invals (s : State) : (flushHarrow s).invals = s.invals := rfl
@[simp] theorem flushHarrow_taintMem (s : State) : (flushHarrow s).taintMem = s.taintMem := rfl
@[simp] theorem flushHarrow_time (s : State) : (flushHarrow s).time = s.time := rfl
@[simp] theorem flushHarrow_wall (s : State) : (flushHarrow s).wall = s.wall := rfl
@[simp] theorem flushHarrow_wallFrac (s : State) : (flushHarrow s).wallFrac = s.wallFrac := rfl
@[simp] theorem flushHarrow_wallRate (s : State) : (flushHarrow s).wallRate = s.wallRate := rfl
@[simp] theorem flushHarrow_wallSet (s : State) : (flushHarrow s).wallSet = s.wallSet := rfl
@[simp] theorem flushHarrow_pmap (s : State) : (flushHarrow s).pmap = s.pmap := rfl
@[simp] theorem flushHarrow_granary (s : State) : (flushHarrow s).granary = s.granary := rfl
@[simp] theorem flushHarrow_fleet (s : State) : (flushHarrow s).fleet = s.fleet := rfl
@[simp] theorem flushHarrow_mgmt (s : State) : (flushHarrow s).mgmt = s.mgmt := rfl
@[simp] theorem flushHarrow_saved (s : State) : (flushHarrow s).saved = s.saved := rfl
@[simp] theorem flushHarrow_agenda (s : State) : (flushHarrow s).agenda = s.agenda := rfl
@[simp] theorem flushHarrow_arg (s : State) : (flushHarrow s).arg = s.arg := rfl
@[simp] theorem flushHarrow_freeIx (s : State) : (flushHarrow s).freeIx = s.freeIx := rfl
@[simp] theorem flushHarrow_nextId (s : State) : (flushHarrow s).nextId = s.nextId := rfl
@[simp] theorem flushHarrow_lastRun (s : State) : (flushHarrow s).lastRun = s.lastRun := rfl

/-! ### Registers -/

@[simp] theorem wrS_part (s : State) (r : SReg) (v : Word) : (wrS s r v).part = s.part := rfl
@[simp] theorem wrS_pkg (s : State) (r : SReg) (v : Word) : (wrS s r v).pkg = s.pkg := rfl
@[simp] theorem wrS_ctx (s : State) (r : SReg) (v : Word) : (wrS s r v).ctx = s.ctx.wrS s.src r v := rfl
@[simp] theorem wrS_others (s : State) (r : SReg) (v : Word) : (wrS s r v).others = s.others := rfl
@[simp] theorem wrS_pre (s : State) (r : SReg) (v : Word) : (wrS s r v).pre = s.pre := rfl
@[simp] theorem wrS_bun (s : State) (r : SReg) (v : Word) : (wrS s r v).bun = s.bun := rfl
@[simp] theorem wrS_gangs (s : State) (r : SReg) (v : Word) : (wrS s r v).gangs = s.gangs := rfl
@[simp] theorem wrS_links (s : State) (r : SReg) (v : Word) : (wrS s r v).links = s.links := rfl
@[simp] theorem wrS_arrays (s : State) (r : SReg) (v : Word) : (wrS s r v).arrays = s.arrays := rfl
@[simp] theorem wrS_rules (s : State) (r : SReg) (v : Word) : (wrS s r v).rules = s.rules := rfl
@[simp] theorem wrS_mem (s : State) (r : SReg) (v : Word) : (wrS s r v).mem = s.mem := rfl
@[simp] theorem wrS_spad (s : State) (r : SReg) (v : Word) : (wrS s r v).spad = s.spad := rfl
@[simp] theorem wrS_hbmDirty (s : State) (r : SReg) (v : Word) : (wrS s r v).hbmDirty = s.hbmDirty := rfl
@[simp] theorem wrS_hbmNew (s : State) (r : SReg) (v : Word) : (wrS s r v).hbmNew = s.hbmNew := rfl
@[simp] theorem wrS_hbmHost (s : State) (r : SReg) (v : Word) : (wrS s r v).hbmHost = s.hbmHost := rfl
@[simp] theorem wrS_l1 (s : State) (r : SReg) (v : Word) : (wrS s r v).l1 = s.l1 := rfl
@[simp] theorem wrS_tlb (s : State) (r : SReg) (v : Word) : (wrS s r v).tlb = s.tlb := rfl
@[simp] theorem wrS_walkCache (s : State) (r : SReg) (v : Word) : (wrS s r v).walkCache = s.walkCache := rfl
@[simp] theorem wrS_bankWaits (s : State) (r : SReg) (v : Word) : (wrS s r v).bankWaits = s.bankWaits := rfl
@[simp] theorem wrS_undos (s : State) (r : SReg) (v : Word) : (wrS s r v).undos = s.undos := rfl
@[simp] theorem wrS_poison (s : State) (r : SReg) (v : Word) : (wrS s r v).poison = s.poison := rfl
@[simp] theorem wrS_walks (s : State) (r : SReg) (v : Word) : (wrS s r v).walks = s.walks := rfl
@[simp] theorem wrS_flights (s : State) (r : SReg) (v : Word) : (wrS s r v).flights = s.flights := rfl
@[simp] theorem wrS_tileOps (s : State) (r : SReg) (v : Word) : (wrS s r v).tileOps = s.tileOps := rfl
@[simp] theorem wrS_cmds (s : State) (r : SReg) (v : Word) : (wrS s r v).cmds = s.cmds := rfl
@[simp] theorem wrS_armed (s : State) (r : SReg) (v : Word) : (wrS s r v).armed = s.armed := rfl
@[simp] theorem wrS_joins (s : State) (r : SReg) (v : Word) : (wrS s r v).joins = s.joins := rfl
@[simp] theorem wrS_press (s : State) (r : SReg) (v : Word) : (wrS s r v).press = s.press := rfl
@[simp] theorem wrS_clocks (s : State) (r : SReg) (v : Word) : (wrS s r v).clocks = s.clocks := rfl
@[simp] theorem wrS_invals (s : State) (r : SReg) (v : Word) : (wrS s r v).invals = s.invals := rfl
@[simp] theorem wrS_taintMem (s : State) (r : SReg) (v : Word) : (wrS s r v).taintMem = s.taintMem := rfl
@[simp] theorem wrS_time (s : State) (r : SReg) (v : Word) : (wrS s r v).time = s.time := rfl
@[simp] theorem wrS_wall (s : State) (r : SReg) (v : Word) : (wrS s r v).wall = s.wall := rfl
@[simp] theorem wrS_wallFrac (s : State) (r : SReg) (v : Word) : (wrS s r v).wallFrac = s.wallFrac := rfl
@[simp] theorem wrS_wallRate (s : State) (r : SReg) (v : Word) : (wrS s r v).wallRate = s.wallRate := rfl
@[simp] theorem wrS_wallSet (s : State) (r : SReg) (v : Word) : (wrS s r v).wallSet = s.wallSet := rfl
@[simp] theorem wrS_pmap (s : State) (r : SReg) (v : Word) : (wrS s r v).pmap = s.pmap := rfl
@[simp] theorem wrS_granary (s : State) (r : SReg) (v : Word) : (wrS s r v).granary = s.granary := rfl
@[simp] theorem wrS_fleet (s : State) (r : SReg) (v : Word) : (wrS s r v).fleet = s.fleet := rfl
@[simp] theorem wrS_mgmt (s : State) (r : SReg) (v : Word) : (wrS s r v).mgmt = s.mgmt := rfl
@[simp] theorem wrS_saved (s : State) (r : SReg) (v : Word) : (wrS s r v).saved = s.saved := rfl
@[simp] theorem wrS_agenda (s : State) (r : SReg) (v : Word) : (wrS s r v).agenda = s.agenda := rfl
@[simp] theorem wrS_arg (s : State) (r : SReg) (v : Word) : (wrS s r v).arg = s.arg := rfl
@[simp] theorem wrS_freeIx (s : State) (r : SReg) (v : Word) : (wrS s r v).freeIx = s.freeIx := rfl
@[simp] theorem wrS_nextId (s : State) (r : SReg) (v : Word) : (wrS s r v).nextId = s.nextId := rfl
@[simp] theorem wrS_lastRun (s : State) (r : SReg) (v : Word) : (wrS s r v).lastRun = s.lastRun := rfl

@[simp] theorem wrP_part (s : State) (r : PReg) (b : Bool) : (wrP s r b).part = s.part := by unfold wrP; split <;> rfl
@[simp] theorem wrP_pkg (s : State) (r : PReg) (b : Bool) : (wrP s r b).pkg = s.pkg := by unfold wrP; split <;> rfl
@[simp] theorem wrP_ctx (s : State) (r : PReg) (b : Bool) : (wrP s r b).ctx = if r = 0 then s.ctx else { s.ctx with p := setBit s.ctx.p r.val b } := by unfold wrP; split <;> rfl
@[simp] theorem wrP_others (s : State) (r : PReg) (b : Bool) : (wrP s r b).others = s.others := by unfold wrP; split <;> rfl
@[simp] theorem wrP_pre (s : State) (r : PReg) (b : Bool) : (wrP s r b).pre = s.pre := by unfold wrP; split <;> rfl
@[simp] theorem wrP_bun (s : State) (r : PReg) (b : Bool) : (wrP s r b).bun = s.bun := by unfold wrP; split <;> rfl
@[simp] theorem wrP_gangs (s : State) (r : PReg) (b : Bool) : (wrP s r b).gangs = s.gangs := by unfold wrP; split <;> rfl
@[simp] theorem wrP_links (s : State) (r : PReg) (b : Bool) : (wrP s r b).links = s.links := by unfold wrP; split <;> rfl
@[simp] theorem wrP_arrays (s : State) (r : PReg) (b : Bool) : (wrP s r b).arrays = s.arrays := by unfold wrP; split <;> rfl
@[simp] theorem wrP_rules (s : State) (r : PReg) (b : Bool) : (wrP s r b).rules = s.rules := by unfold wrP; split <;> rfl
@[simp] theorem wrP_mem (s : State) (r : PReg) (b : Bool) : (wrP s r b).mem = s.mem := by unfold wrP; split <;> rfl
@[simp] theorem wrP_spad (s : State) (r : PReg) (b : Bool) : (wrP s r b).spad = s.spad := by unfold wrP; split <;> rfl
@[simp] theorem wrP_hbmDirty (s : State) (r : PReg) (b : Bool) : (wrP s r b).hbmDirty = s.hbmDirty := by unfold wrP; split <;> rfl
@[simp] theorem wrP_hbmNew (s : State) (r : PReg) (b : Bool) : (wrP s r b).hbmNew = s.hbmNew := by unfold wrP; split <;> rfl
@[simp] theorem wrP_hbmHost (s : State) (r : PReg) (b : Bool) : (wrP s r b).hbmHost = s.hbmHost := by unfold wrP; split <;> rfl
@[simp] theorem wrP_l1 (s : State) (r : PReg) (b : Bool) : (wrP s r b).l1 = s.l1 := by unfold wrP; split <;> rfl
@[simp] theorem wrP_tlb (s : State) (r : PReg) (b : Bool) : (wrP s r b).tlb = s.tlb := by unfold wrP; split <;> rfl
@[simp] theorem wrP_walkCache (s : State) (r : PReg) (b : Bool) : (wrP s r b).walkCache = s.walkCache := by unfold wrP; split <;> rfl
@[simp] theorem wrP_bankWaits (s : State) (r : PReg) (b : Bool) : (wrP s r b).bankWaits = s.bankWaits := by unfold wrP; split <;> rfl
@[simp] theorem wrP_undos (s : State) (r : PReg) (b : Bool) : (wrP s r b).undos = s.undos := by unfold wrP; split <;> rfl
@[simp] theorem wrP_poison (s : State) (r : PReg) (b : Bool) : (wrP s r b).poison = s.poison := by unfold wrP; split <;> rfl
@[simp] theorem wrP_walks (s : State) (r : PReg) (b : Bool) : (wrP s r b).walks = s.walks := by unfold wrP; split <;> rfl
@[simp] theorem wrP_flights (s : State) (r : PReg) (b : Bool) : (wrP s r b).flights = s.flights := by unfold wrP; split <;> rfl
@[simp] theorem wrP_tileOps (s : State) (r : PReg) (b : Bool) : (wrP s r b).tileOps = s.tileOps := by unfold wrP; split <;> rfl
@[simp] theorem wrP_cmds (s : State) (r : PReg) (b : Bool) : (wrP s r b).cmds = s.cmds := by unfold wrP; split <;> rfl
@[simp] theorem wrP_armed (s : State) (r : PReg) (b : Bool) : (wrP s r b).armed = s.armed := by unfold wrP; split <;> rfl
@[simp] theorem wrP_joins (s : State) (r : PReg) (b : Bool) : (wrP s r b).joins = s.joins := by unfold wrP; split <;> rfl
@[simp] theorem wrP_press (s : State) (r : PReg) (b : Bool) : (wrP s r b).press = s.press := by unfold wrP; split <;> rfl
@[simp] theorem wrP_clocks (s : State) (r : PReg) (b : Bool) : (wrP s r b).clocks = s.clocks := by unfold wrP; split <;> rfl
@[simp] theorem wrP_invals (s : State) (r : PReg) (b : Bool) : (wrP s r b).invals = s.invals := by unfold wrP; split <;> rfl
@[simp] theorem wrP_taintMem (s : State) (r : PReg) (b : Bool) : (wrP s r b).taintMem = s.taintMem := by unfold wrP; split <;> rfl
@[simp] theorem wrP_time (s : State) (r : PReg) (b : Bool) : (wrP s r b).time = s.time := by unfold wrP; split <;> rfl
@[simp] theorem wrP_wall (s : State) (r : PReg) (b : Bool) : (wrP s r b).wall = s.wall := by unfold wrP; split <;> rfl
@[simp] theorem wrP_wallFrac (s : State) (r : PReg) (b : Bool) : (wrP s r b).wallFrac = s.wallFrac := by unfold wrP; split <;> rfl
@[simp] theorem wrP_wallRate (s : State) (r : PReg) (b : Bool) : (wrP s r b).wallRate = s.wallRate := by unfold wrP; split <;> rfl
@[simp] theorem wrP_wallSet (s : State) (r : PReg) (b : Bool) : (wrP s r b).wallSet = s.wallSet := by unfold wrP; split <;> rfl
@[simp] theorem wrP_pmap (s : State) (r : PReg) (b : Bool) : (wrP s r b).pmap = s.pmap := by unfold wrP; split <;> rfl
@[simp] theorem wrP_granary (s : State) (r : PReg) (b : Bool) : (wrP s r b).granary = s.granary := by unfold wrP; split <;> rfl
@[simp] theorem wrP_fleet (s : State) (r : PReg) (b : Bool) : (wrP s r b).fleet = s.fleet := by unfold wrP; split <;> rfl
@[simp] theorem wrP_mgmt (s : State) (r : PReg) (b : Bool) : (wrP s r b).mgmt = s.mgmt := by unfold wrP; split <;> rfl
@[simp] theorem wrP_saved (s : State) (r : PReg) (b : Bool) : (wrP s r b).saved = s.saved := by unfold wrP; split <;> rfl
@[simp] theorem wrP_agenda (s : State) (r : PReg) (b : Bool) : (wrP s r b).agenda = s.agenda := by unfold wrP; split <;> rfl
@[simp] theorem wrP_arg (s : State) (r : PReg) (b : Bool) : (wrP s r b).arg = s.arg := by unfold wrP; split <;> rfl
@[simp] theorem wrP_freeIx (s : State) (r : PReg) (b : Bool) : (wrP s r b).freeIx = s.freeIx := by unfold wrP; split <;> rfl
@[simp] theorem wrP_nextId (s : State) (r : PReg) (b : Bool) : (wrP s r b).nextId = s.nextId := by unfold wrP; split <;> rfl
@[simp] theorem wrP_lastRun (s : State) (r : PReg) (b : Bool) : (wrP s r b).lastRun = s.lastRun := by unfold wrP; split <;> rfl

@[simp] theorem wrV_part (s : State) (r : VIdx) (v : VReg) : (wrV s r v).part = s.part := rfl
@[simp] theorem wrV_pkg (s : State) (r : VIdx) (v : VReg) : (wrV s r v).pkg = s.pkg := rfl
@[simp] theorem wrV_ctx (s : State) (r : VIdx) (v : VReg) : (wrV s r v).ctx = { s.ctx with v := s.ctx.v.set (s.src.physV r).val v (s.src.physV r).isLt } := rfl
@[simp] theorem wrV_others (s : State) (r : VIdx) (v : VReg) : (wrV s r v).others = s.others := rfl
@[simp] theorem wrV_pre (s : State) (r : VIdx) (v : VReg) : (wrV s r v).pre = s.pre := rfl
@[simp] theorem wrV_bun (s : State) (r : VIdx) (v : VReg) : (wrV s r v).bun = s.bun := rfl
@[simp] theorem wrV_gangs (s : State) (r : VIdx) (v : VReg) : (wrV s r v).gangs = s.gangs := rfl
@[simp] theorem wrV_links (s : State) (r : VIdx) (v : VReg) : (wrV s r v).links = s.links := rfl
@[simp] theorem wrV_arrays (s : State) (r : VIdx) (v : VReg) : (wrV s r v).arrays = s.arrays := rfl
@[simp] theorem wrV_rules (s : State) (r : VIdx) (v : VReg) : (wrV s r v).rules = s.rules := rfl
@[simp] theorem wrV_mem (s : State) (r : VIdx) (v : VReg) : (wrV s r v).mem = s.mem := rfl
@[simp] theorem wrV_spad (s : State) (r : VIdx) (v : VReg) : (wrV s r v).spad = s.spad := rfl
@[simp] theorem wrV_hbmDirty (s : State) (r : VIdx) (v : VReg) : (wrV s r v).hbmDirty = s.hbmDirty := rfl
@[simp] theorem wrV_hbmNew (s : State) (r : VIdx) (v : VReg) : (wrV s r v).hbmNew = s.hbmNew := rfl
@[simp] theorem wrV_hbmHost (s : State) (r : VIdx) (v : VReg) : (wrV s r v).hbmHost = s.hbmHost := rfl
@[simp] theorem wrV_l1 (s : State) (r : VIdx) (v : VReg) : (wrV s r v).l1 = s.l1 := rfl
@[simp] theorem wrV_tlb (s : State) (r : VIdx) (v : VReg) : (wrV s r v).tlb = s.tlb := rfl
@[simp] theorem wrV_walkCache (s : State) (r : VIdx) (v : VReg) : (wrV s r v).walkCache = s.walkCache := rfl
@[simp] theorem wrV_bankWaits (s : State) (r : VIdx) (v : VReg) : (wrV s r v).bankWaits = s.bankWaits := rfl
@[simp] theorem wrV_undos (s : State) (r : VIdx) (v : VReg) : (wrV s r v).undos = s.undos := rfl
@[simp] theorem wrV_poison (s : State) (r : VIdx) (v : VReg) : (wrV s r v).poison = s.poison := rfl
@[simp] theorem wrV_walks (s : State) (r : VIdx) (v : VReg) : (wrV s r v).walks = s.walks := rfl
@[simp] theorem wrV_flights (s : State) (r : VIdx) (v : VReg) : (wrV s r v).flights = s.flights := rfl
@[simp] theorem wrV_tileOps (s : State) (r : VIdx) (v : VReg) : (wrV s r v).tileOps = s.tileOps := rfl
@[simp] theorem wrV_cmds (s : State) (r : VIdx) (v : VReg) : (wrV s r v).cmds = s.cmds := rfl
@[simp] theorem wrV_armed (s : State) (r : VIdx) (v : VReg) : (wrV s r v).armed = s.armed := rfl
@[simp] theorem wrV_joins (s : State) (r : VIdx) (v : VReg) : (wrV s r v).joins = s.joins := rfl
@[simp] theorem wrV_press (s : State) (r : VIdx) (v : VReg) : (wrV s r v).press = s.press := rfl
@[simp] theorem wrV_clocks (s : State) (r : VIdx) (v : VReg) : (wrV s r v).clocks = s.clocks := rfl
@[simp] theorem wrV_invals (s : State) (r : VIdx) (v : VReg) : (wrV s r v).invals = s.invals := rfl
@[simp] theorem wrV_taintMem (s : State) (r : VIdx) (v : VReg) : (wrV s r v).taintMem = s.taintMem := rfl
@[simp] theorem wrV_time (s : State) (r : VIdx) (v : VReg) : (wrV s r v).time = s.time := rfl
@[simp] theorem wrV_wall (s : State) (r : VIdx) (v : VReg) : (wrV s r v).wall = s.wall := rfl
@[simp] theorem wrV_wallFrac (s : State) (r : VIdx) (v : VReg) : (wrV s r v).wallFrac = s.wallFrac := rfl
@[simp] theorem wrV_wallRate (s : State) (r : VIdx) (v : VReg) : (wrV s r v).wallRate = s.wallRate := rfl
@[simp] theorem wrV_wallSet (s : State) (r : VIdx) (v : VReg) : (wrV s r v).wallSet = s.wallSet := rfl
@[simp] theorem wrV_pmap (s : State) (r : VIdx) (v : VReg) : (wrV s r v).pmap = s.pmap := rfl
@[simp] theorem wrV_granary (s : State) (r : VIdx) (v : VReg) : (wrV s r v).granary = s.granary := rfl
@[simp] theorem wrV_fleet (s : State) (r : VIdx) (v : VReg) : (wrV s r v).fleet = s.fleet := rfl
@[simp] theorem wrV_mgmt (s : State) (r : VIdx) (v : VReg) : (wrV s r v).mgmt = s.mgmt := rfl
@[simp] theorem wrV_saved (s : State) (r : VIdx) (v : VReg) : (wrV s r v).saved = s.saved := rfl
@[simp] theorem wrV_agenda (s : State) (r : VIdx) (v : VReg) : (wrV s r v).agenda = s.agenda := rfl
@[simp] theorem wrV_arg (s : State) (r : VIdx) (v : VReg) : (wrV s r v).arg = s.arg := rfl
@[simp] theorem wrV_freeIx (s : State) (r : VIdx) (v : VReg) : (wrV s r v).freeIx = s.freeIx := rfl
@[simp] theorem wrV_nextId (s : State) (r : VIdx) (v : VReg) : (wrV s r v).nextId = s.nextId := rfl
@[simp] theorem wrV_lastRun (s : State) (r : VIdx) (v : VReg) : (wrV s r v).lastRun = s.lastRun := rfl

@[simp] theorem wrM_part (s : State) (r : MReg) (v : BitVec 2048) : (wrM s r v).part = s.part := rfl
@[simp] theorem wrM_pkg (s : State) (r : MReg) (v : BitVec 2048) : (wrM s r v).pkg = s.pkg := rfl
@[simp] theorem wrM_ctx (s : State) (r : MReg) (v : BitVec 2048) : (wrM s r v).ctx = { s.ctx with m := s.ctx.m.set r.val v r.isLt } := rfl
@[simp] theorem wrM_others (s : State) (r : MReg) (v : BitVec 2048) : (wrM s r v).others = s.others := rfl
@[simp] theorem wrM_pre (s : State) (r : MReg) (v : BitVec 2048) : (wrM s r v).pre = s.pre := rfl
@[simp] theorem wrM_bun (s : State) (r : MReg) (v : BitVec 2048) : (wrM s r v).bun = s.bun := rfl
@[simp] theorem wrM_gangs (s : State) (r : MReg) (v : BitVec 2048) : (wrM s r v).gangs = s.gangs := rfl
@[simp] theorem wrM_links (s : State) (r : MReg) (v : BitVec 2048) : (wrM s r v).links = s.links := rfl
@[simp] theorem wrM_arrays (s : State) (r : MReg) (v : BitVec 2048) : (wrM s r v).arrays = s.arrays := rfl
@[simp] theorem wrM_rules (s : State) (r : MReg) (v : BitVec 2048) : (wrM s r v).rules = s.rules := rfl
@[simp] theorem wrM_mem (s : State) (r : MReg) (v : BitVec 2048) : (wrM s r v).mem = s.mem := rfl
@[simp] theorem wrM_spad (s : State) (r : MReg) (v : BitVec 2048) : (wrM s r v).spad = s.spad := rfl
@[simp] theorem wrM_hbmDirty (s : State) (r : MReg) (v : BitVec 2048) : (wrM s r v).hbmDirty = s.hbmDirty := rfl
@[simp] theorem wrM_hbmNew (s : State) (r : MReg) (v : BitVec 2048) : (wrM s r v).hbmNew = s.hbmNew := rfl
@[simp] theorem wrM_hbmHost (s : State) (r : MReg) (v : BitVec 2048) : (wrM s r v).hbmHost = s.hbmHost := rfl
@[simp] theorem wrM_l1 (s : State) (r : MReg) (v : BitVec 2048) : (wrM s r v).l1 = s.l1 := rfl
@[simp] theorem wrM_tlb (s : State) (r : MReg) (v : BitVec 2048) : (wrM s r v).tlb = s.tlb := rfl
@[simp] theorem wrM_walkCache (s : State) (r : MReg) (v : BitVec 2048) : (wrM s r v).walkCache = s.walkCache := rfl
@[simp] theorem wrM_bankWaits (s : State) (r : MReg) (v : BitVec 2048) : (wrM s r v).bankWaits = s.bankWaits := rfl
@[simp] theorem wrM_undos (s : State) (r : MReg) (v : BitVec 2048) : (wrM s r v).undos = s.undos := rfl
@[simp] theorem wrM_poison (s : State) (r : MReg) (v : BitVec 2048) : (wrM s r v).poison = s.poison := rfl
@[simp] theorem wrM_walks (s : State) (r : MReg) (v : BitVec 2048) : (wrM s r v).walks = s.walks := rfl
@[simp] theorem wrM_flights (s : State) (r : MReg) (v : BitVec 2048) : (wrM s r v).flights = s.flights := rfl
@[simp] theorem wrM_tileOps (s : State) (r : MReg) (v : BitVec 2048) : (wrM s r v).tileOps = s.tileOps := rfl
@[simp] theorem wrM_cmds (s : State) (r : MReg) (v : BitVec 2048) : (wrM s r v).cmds = s.cmds := rfl
@[simp] theorem wrM_armed (s : State) (r : MReg) (v : BitVec 2048) : (wrM s r v).armed = s.armed := rfl
@[simp] theorem wrM_joins (s : State) (r : MReg) (v : BitVec 2048) : (wrM s r v).joins = s.joins := rfl
@[simp] theorem wrM_press (s : State) (r : MReg) (v : BitVec 2048) : (wrM s r v).press = s.press := rfl
@[simp] theorem wrM_clocks (s : State) (r : MReg) (v : BitVec 2048) : (wrM s r v).clocks = s.clocks := rfl
@[simp] theorem wrM_invals (s : State) (r : MReg) (v : BitVec 2048) : (wrM s r v).invals = s.invals := rfl
@[simp] theorem wrM_taintMem (s : State) (r : MReg) (v : BitVec 2048) : (wrM s r v).taintMem = s.taintMem := rfl
@[simp] theorem wrM_time (s : State) (r : MReg) (v : BitVec 2048) : (wrM s r v).time = s.time := rfl
@[simp] theorem wrM_wall (s : State) (r : MReg) (v : BitVec 2048) : (wrM s r v).wall = s.wall := rfl
@[simp] theorem wrM_wallFrac (s : State) (r : MReg) (v : BitVec 2048) : (wrM s r v).wallFrac = s.wallFrac := rfl
@[simp] theorem wrM_wallRate (s : State) (r : MReg) (v : BitVec 2048) : (wrM s r v).wallRate = s.wallRate := rfl
@[simp] theorem wrM_wallSet (s : State) (r : MReg) (v : BitVec 2048) : (wrM s r v).wallSet = s.wallSet := rfl
@[simp] theorem wrM_pmap (s : State) (r : MReg) (v : BitVec 2048) : (wrM s r v).pmap = s.pmap := rfl
@[simp] theorem wrM_granary (s : State) (r : MReg) (v : BitVec 2048) : (wrM s r v).granary = s.granary := rfl
@[simp] theorem wrM_fleet (s : State) (r : MReg) (v : BitVec 2048) : (wrM s r v).fleet = s.fleet := rfl
@[simp] theorem wrM_mgmt (s : State) (r : MReg) (v : BitVec 2048) : (wrM s r v).mgmt = s.mgmt := rfl
@[simp] theorem wrM_saved (s : State) (r : MReg) (v : BitVec 2048) : (wrM s r v).saved = s.saved := rfl
@[simp] theorem wrM_agenda (s : State) (r : MReg) (v : BitVec 2048) : (wrM s r v).agenda = s.agenda := rfl
@[simp] theorem wrM_arg (s : State) (r : MReg) (v : BitVec 2048) : (wrM s r v).arg = s.arg := rfl
@[simp] theorem wrM_freeIx (s : State) (r : MReg) (v : BitVec 2048) : (wrM s r v).freeIx = s.freeIx := rfl
@[simp] theorem wrM_nextId (s : State) (r : MReg) (v : BitVec 2048) : (wrM s r v).nextId = s.nextId := rfl
@[simp] theorem wrM_lastRun (s : State) (r : MReg) (v : BitVec 2048) : (wrM s r v).lastRun = s.lastRun := rfl

@[simp] theorem wrQ_part (s : State) (r : QReg) (v : Token) : (wrQ s r v).part = s.part := rfl
@[simp] theorem wrQ_pkg (s : State) (r : QReg) (v : Token) : (wrQ s r v).pkg = s.pkg := rfl
@[simp] theorem wrQ_ctx (s : State) (r : QReg) (v : Token) : (wrQ s r v).ctx = { s.ctx with q := s.ctx.q.set r.val v r.isLt } := rfl
@[simp] theorem wrQ_others (s : State) (r : QReg) (v : Token) : (wrQ s r v).others = s.others := rfl
@[simp] theorem wrQ_pre (s : State) (r : QReg) (v : Token) : (wrQ s r v).pre = s.pre := rfl
@[simp] theorem wrQ_bun (s : State) (r : QReg) (v : Token) : (wrQ s r v).bun = s.bun := rfl
@[simp] theorem wrQ_gangs (s : State) (r : QReg) (v : Token) : (wrQ s r v).gangs = s.gangs := rfl
@[simp] theorem wrQ_links (s : State) (r : QReg) (v : Token) : (wrQ s r v).links = s.links := rfl
@[simp] theorem wrQ_arrays (s : State) (r : QReg) (v : Token) : (wrQ s r v).arrays = s.arrays := rfl
@[simp] theorem wrQ_rules (s : State) (r : QReg) (v : Token) : (wrQ s r v).rules = s.rules := rfl
@[simp] theorem wrQ_mem (s : State) (r : QReg) (v : Token) : (wrQ s r v).mem = s.mem := rfl
@[simp] theorem wrQ_spad (s : State) (r : QReg) (v : Token) : (wrQ s r v).spad = s.spad := rfl
@[simp] theorem wrQ_hbmDirty (s : State) (r : QReg) (v : Token) : (wrQ s r v).hbmDirty = s.hbmDirty := rfl
@[simp] theorem wrQ_hbmNew (s : State) (r : QReg) (v : Token) : (wrQ s r v).hbmNew = s.hbmNew := rfl
@[simp] theorem wrQ_hbmHost (s : State) (r : QReg) (v : Token) : (wrQ s r v).hbmHost = s.hbmHost := rfl
@[simp] theorem wrQ_l1 (s : State) (r : QReg) (v : Token) : (wrQ s r v).l1 = s.l1 := rfl
@[simp] theorem wrQ_tlb (s : State) (r : QReg) (v : Token) : (wrQ s r v).tlb = s.tlb := rfl
@[simp] theorem wrQ_walkCache (s : State) (r : QReg) (v : Token) : (wrQ s r v).walkCache = s.walkCache := rfl
@[simp] theorem wrQ_bankWaits (s : State) (r : QReg) (v : Token) : (wrQ s r v).bankWaits = s.bankWaits := rfl
@[simp] theorem wrQ_undos (s : State) (r : QReg) (v : Token) : (wrQ s r v).undos = s.undos := rfl
@[simp] theorem wrQ_poison (s : State) (r : QReg) (v : Token) : (wrQ s r v).poison = s.poison := rfl
@[simp] theorem wrQ_walks (s : State) (r : QReg) (v : Token) : (wrQ s r v).walks = s.walks := rfl
@[simp] theorem wrQ_flights (s : State) (r : QReg) (v : Token) : (wrQ s r v).flights = s.flights := rfl
@[simp] theorem wrQ_tileOps (s : State) (r : QReg) (v : Token) : (wrQ s r v).tileOps = s.tileOps := rfl
@[simp] theorem wrQ_cmds (s : State) (r : QReg) (v : Token) : (wrQ s r v).cmds = s.cmds := rfl
@[simp] theorem wrQ_armed (s : State) (r : QReg) (v : Token) : (wrQ s r v).armed = s.armed := rfl
@[simp] theorem wrQ_joins (s : State) (r : QReg) (v : Token) : (wrQ s r v).joins = s.joins := rfl
@[simp] theorem wrQ_press (s : State) (r : QReg) (v : Token) : (wrQ s r v).press = s.press := rfl
@[simp] theorem wrQ_clocks (s : State) (r : QReg) (v : Token) : (wrQ s r v).clocks = s.clocks := rfl
@[simp] theorem wrQ_invals (s : State) (r : QReg) (v : Token) : (wrQ s r v).invals = s.invals := rfl
@[simp] theorem wrQ_taintMem (s : State) (r : QReg) (v : Token) : (wrQ s r v).taintMem = s.taintMem := rfl
@[simp] theorem wrQ_time (s : State) (r : QReg) (v : Token) : (wrQ s r v).time = s.time := rfl
@[simp] theorem wrQ_wall (s : State) (r : QReg) (v : Token) : (wrQ s r v).wall = s.wall := rfl
@[simp] theorem wrQ_wallFrac (s : State) (r : QReg) (v : Token) : (wrQ s r v).wallFrac = s.wallFrac := rfl
@[simp] theorem wrQ_wallRate (s : State) (r : QReg) (v : Token) : (wrQ s r v).wallRate = s.wallRate := rfl
@[simp] theorem wrQ_wallSet (s : State) (r : QReg) (v : Token) : (wrQ s r v).wallSet = s.wallSet := rfl
@[simp] theorem wrQ_pmap (s : State) (r : QReg) (v : Token) : (wrQ s r v).pmap = s.pmap := rfl
@[simp] theorem wrQ_granary (s : State) (r : QReg) (v : Token) : (wrQ s r v).granary = s.granary := rfl
@[simp] theorem wrQ_fleet (s : State) (r : QReg) (v : Token) : (wrQ s r v).fleet = s.fleet := rfl
@[simp] theorem wrQ_mgmt (s : State) (r : QReg) (v : Token) : (wrQ s r v).mgmt = s.mgmt := rfl
@[simp] theorem wrQ_saved (s : State) (r : QReg) (v : Token) : (wrQ s r v).saved = s.saved := rfl
@[simp] theorem wrQ_agenda (s : State) (r : QReg) (v : Token) : (wrQ s r v).agenda = s.agenda := rfl
@[simp] theorem wrQ_arg (s : State) (r : QReg) (v : Token) : (wrQ s r v).arg = s.arg := rfl
@[simp] theorem wrQ_freeIx (s : State) (r : QReg) (v : Token) : (wrQ s r v).freeIx = s.freeIx := rfl
@[simp] theorem wrQ_nextId (s : State) (r : QReg) (v : Token) : (wrQ s r v).nextId = s.nextId := rfl
@[simp] theorem wrQ_lastRun (s : State) (r : QReg) (v : Token) : (wrQ s r v).lastRun = s.lastRun := rfl

@[simp] theorem raise_part (s : State) (fl : Flags) : (raise s fl).part = s.part := rfl
@[simp] theorem raise_pkg (s : State) (fl : Flags) : (raise s fl).pkg = s.pkg := rfl
@[simp] theorem raise_ctx (s : State) (fl : Flags) : (raise s fl).ctx = { s.ctx with fxf := s.ctx.fxf ||| fl } := rfl
@[simp] theorem raise_others (s : State) (fl : Flags) : (raise s fl).others = s.others := rfl
@[simp] theorem raise_pre (s : State) (fl : Flags) : (raise s fl).pre = s.pre := rfl
@[simp] theorem raise_bun (s : State) (fl : Flags) : (raise s fl).bun = { s.bun with raised := s.bun.raised ||| fl } := rfl
@[simp] theorem raise_gangs (s : State) (fl : Flags) : (raise s fl).gangs = s.gangs := rfl
@[simp] theorem raise_links (s : State) (fl : Flags) : (raise s fl).links = s.links := rfl
@[simp] theorem raise_arrays (s : State) (fl : Flags) : (raise s fl).arrays = s.arrays := rfl
@[simp] theorem raise_rules (s : State) (fl : Flags) : (raise s fl).rules = s.rules := rfl
@[simp] theorem raise_mem (s : State) (fl : Flags) : (raise s fl).mem = s.mem := rfl
@[simp] theorem raise_spad (s : State) (fl : Flags) : (raise s fl).spad = s.spad := rfl
@[simp] theorem raise_hbmDirty (s : State) (fl : Flags) : (raise s fl).hbmDirty = s.hbmDirty := rfl
@[simp] theorem raise_hbmNew (s : State) (fl : Flags) : (raise s fl).hbmNew = s.hbmNew := rfl
@[simp] theorem raise_hbmHost (s : State) (fl : Flags) : (raise s fl).hbmHost = s.hbmHost := rfl
@[simp] theorem raise_l1 (s : State) (fl : Flags) : (raise s fl).l1 = s.l1 := rfl
@[simp] theorem raise_tlb (s : State) (fl : Flags) : (raise s fl).tlb = s.tlb := rfl
@[simp] theorem raise_walkCache (s : State) (fl : Flags) : (raise s fl).walkCache = s.walkCache := rfl
@[simp] theorem raise_bankWaits (s : State) (fl : Flags) : (raise s fl).bankWaits = s.bankWaits := rfl
@[simp] theorem raise_undos (s : State) (fl : Flags) : (raise s fl).undos = s.undos := rfl
@[simp] theorem raise_poison (s : State) (fl : Flags) : (raise s fl).poison = s.poison := rfl
@[simp] theorem raise_walks (s : State) (fl : Flags) : (raise s fl).walks = s.walks := rfl
@[simp] theorem raise_flights (s : State) (fl : Flags) : (raise s fl).flights = s.flights := rfl
@[simp] theorem raise_tileOps (s : State) (fl : Flags) : (raise s fl).tileOps = s.tileOps := rfl
@[simp] theorem raise_cmds (s : State) (fl : Flags) : (raise s fl).cmds = s.cmds := rfl
@[simp] theorem raise_armed (s : State) (fl : Flags) : (raise s fl).armed = s.armed := rfl
@[simp] theorem raise_joins (s : State) (fl : Flags) : (raise s fl).joins = s.joins := rfl
@[simp] theorem raise_press (s : State) (fl : Flags) : (raise s fl).press = s.press := rfl
@[simp] theorem raise_clocks (s : State) (fl : Flags) : (raise s fl).clocks = s.clocks := rfl
@[simp] theorem raise_invals (s : State) (fl : Flags) : (raise s fl).invals = s.invals := rfl
@[simp] theorem raise_taintMem (s : State) (fl : Flags) : (raise s fl).taintMem = s.taintMem := rfl
@[simp] theorem raise_time (s : State) (fl : Flags) : (raise s fl).time = s.time := rfl
@[simp] theorem raise_wall (s : State) (fl : Flags) : (raise s fl).wall = s.wall := rfl
@[simp] theorem raise_wallFrac (s : State) (fl : Flags) : (raise s fl).wallFrac = s.wallFrac := rfl
@[simp] theorem raise_wallRate (s : State) (fl : Flags) : (raise s fl).wallRate = s.wallRate := rfl
@[simp] theorem raise_wallSet (s : State) (fl : Flags) : (raise s fl).wallSet = s.wallSet := rfl
@[simp] theorem raise_pmap (s : State) (fl : Flags) : (raise s fl).pmap = s.pmap := rfl
@[simp] theorem raise_granary (s : State) (fl : Flags) : (raise s fl).granary = s.granary := rfl
@[simp] theorem raise_fleet (s : State) (fl : Flags) : (raise s fl).fleet = s.fleet := rfl
@[simp] theorem raise_mgmt (s : State) (fl : Flags) : (raise s fl).mgmt = s.mgmt := rfl
@[simp] theorem raise_saved (s : State) (fl : Flags) : (raise s fl).saved = s.saved := rfl
@[simp] theorem raise_agenda (s : State) (fl : Flags) : (raise s fl).agenda = s.agenda := rfl
@[simp] theorem raise_arg (s : State) (fl : Flags) : (raise s fl).arg = s.arg := rfl
@[simp] theorem raise_freeIx (s : State) (fl : Flags) : (raise s fl).freeIx = s.freeIx := rfl
@[simp] theorem raise_nextId (s : State) (fl : Flags) : (raise s fl).nextId = s.nextId := rfl
@[simp] theorem raise_lastRun (s : State) (fl : Flags) : (raise s fl).lastRun = s.lastRun := rfl

/-! ### Gangs, free values and identifiers -/

@[simp] theorem updGang_part (s : State) (g : Nat) (f : Gang → Gang) : (s.updGang g f).part = s.part := rfl
@[simp] theorem updGang_pkg (s : State) (g : Nat) (f : Gang → Gang) : (s.updGang g f).pkg = s.pkg := rfl
@[simp] theorem updGang_ctx (s : State) (g : Nat) (f : Gang → Gang) : (s.updGang g f).ctx = s.ctx := rfl
@[simp] theorem updGang_others (s : State) (g : Nat) (f : Gang → Gang) : (s.updGang g f).others = s.others := rfl
@[simp] theorem updGang_pre (s : State) (g : Nat) (f : Gang → Gang) : (s.updGang g f).pre = s.pre := rfl
@[simp] theorem updGang_bun (s : State) (g : Nat) (f : Gang → Gang) : (s.updGang g f).bun = s.bun := rfl
@[simp] theorem updGang_gangs (s : State) (g : Nat) (f : Gang → Gang) : (s.updGang g f).gangs = updateFirst (fun x => x.id == g) f s.gangs := rfl
@[simp] theorem updGang_links (s : State) (g : Nat) (f : Gang → Gang) : (s.updGang g f).links = s.links := rfl
@[simp] theorem updGang_arrays (s : State) (g : Nat) (f : Gang → Gang) : (s.updGang g f).arrays = s.arrays := rfl
@[simp] theorem updGang_rules (s : State) (g : Nat) (f : Gang → Gang) : (s.updGang g f).rules = s.rules := rfl
@[simp] theorem updGang_mem (s : State) (g : Nat) (f : Gang → Gang) : (s.updGang g f).mem = s.mem := rfl
@[simp] theorem updGang_spad (s : State) (g : Nat) (f : Gang → Gang) : (s.updGang g f).spad = s.spad := rfl
@[simp] theorem updGang_hbmDirty (s : State) (g : Nat) (f : Gang → Gang) : (s.updGang g f).hbmDirty = s.hbmDirty := rfl
@[simp] theorem updGang_hbmNew (s : State) (g : Nat) (f : Gang → Gang) : (s.updGang g f).hbmNew = s.hbmNew := rfl
@[simp] theorem updGang_hbmHost (s : State) (g : Nat) (f : Gang → Gang) : (s.updGang g f).hbmHost = s.hbmHost := rfl
@[simp] theorem updGang_l1 (s : State) (g : Nat) (f : Gang → Gang) : (s.updGang g f).l1 = s.l1 := rfl
@[simp] theorem updGang_tlb (s : State) (g : Nat) (f : Gang → Gang) : (s.updGang g f).tlb = s.tlb := rfl
@[simp] theorem updGang_walkCache (s : State) (g : Nat) (f : Gang → Gang) : (s.updGang g f).walkCache = s.walkCache := rfl
@[simp] theorem updGang_bankWaits (s : State) (g : Nat) (f : Gang → Gang) : (s.updGang g f).bankWaits = s.bankWaits := rfl
@[simp] theorem updGang_undos (s : State) (g : Nat) (f : Gang → Gang) : (s.updGang g f).undos = s.undos := rfl
@[simp] theorem updGang_poison (s : State) (g : Nat) (f : Gang → Gang) : (s.updGang g f).poison = s.poison := rfl
@[simp] theorem updGang_walks (s : State) (g : Nat) (f : Gang → Gang) : (s.updGang g f).walks = s.walks := rfl
@[simp] theorem updGang_flights (s : State) (g : Nat) (f : Gang → Gang) : (s.updGang g f).flights = s.flights := rfl
@[simp] theorem updGang_tileOps (s : State) (g : Nat) (f : Gang → Gang) : (s.updGang g f).tileOps = s.tileOps := rfl
@[simp] theorem updGang_cmds (s : State) (g : Nat) (f : Gang → Gang) : (s.updGang g f).cmds = s.cmds := rfl
@[simp] theorem updGang_armed (s : State) (g : Nat) (f : Gang → Gang) : (s.updGang g f).armed = s.armed := rfl
@[simp] theorem updGang_joins (s : State) (g : Nat) (f : Gang → Gang) : (s.updGang g f).joins = s.joins := rfl
@[simp] theorem updGang_press (s : State) (g : Nat) (f : Gang → Gang) : (s.updGang g f).press = s.press := rfl
@[simp] theorem updGang_clocks (s : State) (g : Nat) (f : Gang → Gang) : (s.updGang g f).clocks = s.clocks := rfl
@[simp] theorem updGang_invals (s : State) (g : Nat) (f : Gang → Gang) : (s.updGang g f).invals = s.invals := rfl
@[simp] theorem updGang_taintMem (s : State) (g : Nat) (f : Gang → Gang) : (s.updGang g f).taintMem = s.taintMem := rfl
@[simp] theorem updGang_time (s : State) (g : Nat) (f : Gang → Gang) : (s.updGang g f).time = s.time := rfl
@[simp] theorem updGang_wall (s : State) (g : Nat) (f : Gang → Gang) : (s.updGang g f).wall = s.wall := rfl
@[simp] theorem updGang_wallFrac (s : State) (g : Nat) (f : Gang → Gang) : (s.updGang g f).wallFrac = s.wallFrac := rfl
@[simp] theorem updGang_wallRate (s : State) (g : Nat) (f : Gang → Gang) : (s.updGang g f).wallRate = s.wallRate := rfl
@[simp] theorem updGang_wallSet (s : State) (g : Nat) (f : Gang → Gang) : (s.updGang g f).wallSet = s.wallSet := rfl
@[simp] theorem updGang_pmap (s : State) (g : Nat) (f : Gang → Gang) : (s.updGang g f).pmap = s.pmap := rfl
@[simp] theorem updGang_granary (s : State) (g : Nat) (f : Gang → Gang) : (s.updGang g f).granary = s.granary := rfl
@[simp] theorem updGang_fleet (s : State) (g : Nat) (f : Gang → Gang) : (s.updGang g f).fleet = s.fleet := rfl
@[simp] theorem updGang_mgmt (s : State) (g : Nat) (f : Gang → Gang) : (s.updGang g f).mgmt = s.mgmt := rfl
@[simp] theorem updGang_saved (s : State) (g : Nat) (f : Gang → Gang) : (s.updGang g f).saved = s.saved := rfl
@[simp] theorem updGang_agenda (s : State) (g : Nat) (f : Gang → Gang) : (s.updGang g f).agenda = s.agenda := rfl
@[simp] theorem updGang_arg (s : State) (g : Nat) (f : Gang → Gang) : (s.updGang g f).arg = s.arg := rfl
@[simp] theorem updGang_freeIx (s : State) (g : Nat) (f : Gang → Gang) : (s.updGang g f).freeIx = s.freeIx := rfl
@[simp] theorem updGang_nextId (s : State) (g : Nat) (f : Gang → Gang) : (s.updGang g f).nextId = s.nextId := rfl
@[simp] theorem updGang_lastRun (s : State) (g : Nat) (f : Gang → Gang) : (s.updGang g f).lastRun = s.lastRun := rfl

@[simp] theorem free_part (s : State) (w : Nat) : ((s.free w).2).part = s.part := rfl
@[simp] theorem free_pkg (s : State) (w : Nat) : ((s.free w).2).pkg = s.pkg := rfl
@[simp] theorem free_ctx (s : State) (w : Nat) : ((s.free w).2).ctx = s.ctx := rfl
@[simp] theorem free_others (s : State) (w : Nat) : ((s.free w).2).others = s.others := rfl
@[simp] theorem free_pre (s : State) (w : Nat) : ((s.free w).2).pre = s.pre := rfl
@[simp] theorem free_bun (s : State) (w : Nat) : ((s.free w).2).bun = s.bun := rfl
@[simp] theorem free_gangs (s : State) (w : Nat) : ((s.free w).2).gangs = s.gangs := rfl
@[simp] theorem free_links (s : State) (w : Nat) : ((s.free w).2).links = s.links := rfl
@[simp] theorem free_arrays (s : State) (w : Nat) : ((s.free w).2).arrays = s.arrays := rfl
@[simp] theorem free_rules (s : State) (w : Nat) : ((s.free w).2).rules = s.rules := rfl
@[simp] theorem free_mem (s : State) (w : Nat) : ((s.free w).2).mem = s.mem := rfl
@[simp] theorem free_spad (s : State) (w : Nat) : ((s.free w).2).spad = s.spad := rfl
@[simp] theorem free_hbmDirty (s : State) (w : Nat) : ((s.free w).2).hbmDirty = s.hbmDirty := rfl
@[simp] theorem free_hbmNew (s : State) (w : Nat) : ((s.free w).2).hbmNew = s.hbmNew := rfl
@[simp] theorem free_hbmHost (s : State) (w : Nat) : ((s.free w).2).hbmHost = s.hbmHost := rfl
@[simp] theorem free_l1 (s : State) (w : Nat) : ((s.free w).2).l1 = s.l1 := rfl
@[simp] theorem free_tlb (s : State) (w : Nat) : ((s.free w).2).tlb = s.tlb := rfl
@[simp] theorem free_walkCache (s : State) (w : Nat) : ((s.free w).2).walkCache = s.walkCache := rfl
@[simp] theorem free_bankWaits (s : State) (w : Nat) : ((s.free w).2).bankWaits = s.bankWaits := rfl
@[simp] theorem free_undos (s : State) (w : Nat) : ((s.free w).2).undos = s.undos := rfl
@[simp] theorem free_poison (s : State) (w : Nat) : ((s.free w).2).poison = s.poison := rfl
@[simp] theorem free_walks (s : State) (w : Nat) : ((s.free w).2).walks = s.walks := rfl
@[simp] theorem free_flights (s : State) (w : Nat) : ((s.free w).2).flights = s.flights := rfl
@[simp] theorem free_tileOps (s : State) (w : Nat) : ((s.free w).2).tileOps = s.tileOps := rfl
@[simp] theorem free_cmds (s : State) (w : Nat) : ((s.free w).2).cmds = s.cmds := rfl
@[simp] theorem free_armed (s : State) (w : Nat) : ((s.free w).2).armed = s.armed := rfl
@[simp] theorem free_joins (s : State) (w : Nat) : ((s.free w).2).joins = s.joins := rfl
@[simp] theorem free_press (s : State) (w : Nat) : ((s.free w).2).press = s.press := rfl
@[simp] theorem free_clocks (s : State) (w : Nat) : ((s.free w).2).clocks = s.clocks := rfl
@[simp] theorem free_invals (s : State) (w : Nat) : ((s.free w).2).invals = s.invals := rfl
@[simp] theorem free_taintMem (s : State) (w : Nat) : ((s.free w).2).taintMem = s.taintMem := rfl
@[simp] theorem free_time (s : State) (w : Nat) : ((s.free w).2).time = s.time := rfl
@[simp] theorem free_wall (s : State) (w : Nat) : ((s.free w).2).wall = s.wall := rfl
@[simp] theorem free_wallFrac (s : State) (w : Nat) : ((s.free w).2).wallFrac = s.wallFrac := rfl
@[simp] theorem free_wallRate (s : State) (w : Nat) : ((s.free w).2).wallRate = s.wallRate := rfl
@[simp] theorem free_wallSet (s : State) (w : Nat) : ((s.free w).2).wallSet = s.wallSet := rfl
@[simp] theorem free_pmap (s : State) (w : Nat) : ((s.free w).2).pmap = s.pmap := rfl
@[simp] theorem free_granary (s : State) (w : Nat) : ((s.free w).2).granary = s.granary := rfl
@[simp] theorem free_fleet (s : State) (w : Nat) : ((s.free w).2).fleet = s.fleet := rfl
@[simp] theorem free_mgmt (s : State) (w : Nat) : ((s.free w).2).mgmt = s.mgmt := rfl
@[simp] theorem free_saved (s : State) (w : Nat) : ((s.free w).2).saved = s.saved := rfl
@[simp] theorem free_agenda (s : State) (w : Nat) : ((s.free w).2).agenda = s.agenda := rfl
@[simp] theorem free_arg (s : State) (w : Nat) : ((s.free w).2).arg = s.arg := rfl
@[simp] theorem free_freeIx (s : State) (w : Nat) : ((s.free w).2).freeIx = s.freeIx + 1 := rfl
@[simp] theorem free_nextId (s : State) (w : Nat) : ((s.free w).2).nextId = s.nextId := rfl
@[simp] theorem free_lastRun (s : State) (w : Nat) : ((s.free w).2).lastRun = s.lastRun := rfl

@[simp] theorem fresh_part (s : State) : (s.fresh.2).part = s.part := rfl
@[simp] theorem fresh_pkg (s : State) : (s.fresh.2).pkg = s.pkg := rfl
@[simp] theorem fresh_ctx (s : State) : (s.fresh.2).ctx = s.ctx := rfl
@[simp] theorem fresh_others (s : State) : (s.fresh.2).others = s.others := rfl
@[simp] theorem fresh_pre (s : State) : (s.fresh.2).pre = s.pre := rfl
@[simp] theorem fresh_bun (s : State) : (s.fresh.2).bun = s.bun := rfl
@[simp] theorem fresh_gangs (s : State) : (s.fresh.2).gangs = s.gangs := rfl
@[simp] theorem fresh_links (s : State) : (s.fresh.2).links = s.links := rfl
@[simp] theorem fresh_arrays (s : State) : (s.fresh.2).arrays = s.arrays := rfl
@[simp] theorem fresh_rules (s : State) : (s.fresh.2).rules = s.rules := rfl
@[simp] theorem fresh_mem (s : State) : (s.fresh.2).mem = s.mem := rfl
@[simp] theorem fresh_spad (s : State) : (s.fresh.2).spad = s.spad := rfl
@[simp] theorem fresh_hbmDirty (s : State) : (s.fresh.2).hbmDirty = s.hbmDirty := rfl
@[simp] theorem fresh_hbmNew (s : State) : (s.fresh.2).hbmNew = s.hbmNew := rfl
@[simp] theorem fresh_hbmHost (s : State) : (s.fresh.2).hbmHost = s.hbmHost := rfl
@[simp] theorem fresh_l1 (s : State) : (s.fresh.2).l1 = s.l1 := rfl
@[simp] theorem fresh_tlb (s : State) : (s.fresh.2).tlb = s.tlb := rfl
@[simp] theorem fresh_walkCache (s : State) : (s.fresh.2).walkCache = s.walkCache := rfl
@[simp] theorem fresh_bankWaits (s : State) : (s.fresh.2).bankWaits = s.bankWaits := rfl
@[simp] theorem fresh_undos (s : State) : (s.fresh.2).undos = s.undos := rfl
@[simp] theorem fresh_poison (s : State) : (s.fresh.2).poison = s.poison := rfl
@[simp] theorem fresh_walks (s : State) : (s.fresh.2).walks = s.walks := rfl
@[simp] theorem fresh_flights (s : State) : (s.fresh.2).flights = s.flights := rfl
@[simp] theorem fresh_tileOps (s : State) : (s.fresh.2).tileOps = s.tileOps := rfl
@[simp] theorem fresh_cmds (s : State) : (s.fresh.2).cmds = s.cmds := rfl
@[simp] theorem fresh_armed (s : State) : (s.fresh.2).armed = s.armed := rfl
@[simp] theorem fresh_joins (s : State) : (s.fresh.2).joins = s.joins := rfl
@[simp] theorem fresh_press (s : State) : (s.fresh.2).press = s.press := rfl
@[simp] theorem fresh_clocks (s : State) : (s.fresh.2).clocks = s.clocks := rfl
@[simp] theorem fresh_invals (s : State) : (s.fresh.2).invals = s.invals := rfl
@[simp] theorem fresh_taintMem (s : State) : (s.fresh.2).taintMem = s.taintMem := rfl
@[simp] theorem fresh_time (s : State) : (s.fresh.2).time = s.time := rfl
@[simp] theorem fresh_wall (s : State) : (s.fresh.2).wall = s.wall := rfl
@[simp] theorem fresh_wallFrac (s : State) : (s.fresh.2).wallFrac = s.wallFrac := rfl
@[simp] theorem fresh_wallRate (s : State) : (s.fresh.2).wallRate = s.wallRate := rfl
@[simp] theorem fresh_wallSet (s : State) : (s.fresh.2).wallSet = s.wallSet := rfl
@[simp] theorem fresh_pmap (s : State) : (s.fresh.2).pmap = s.pmap := rfl
@[simp] theorem fresh_granary (s : State) : (s.fresh.2).granary = s.granary := rfl
@[simp] theorem fresh_fleet (s : State) : (s.fresh.2).fleet = s.fleet := rfl
@[simp] theorem fresh_mgmt (s : State) : (s.fresh.2).mgmt = s.mgmt := rfl
@[simp] theorem fresh_saved (s : State) : (s.fresh.2).saved = s.saved := rfl
@[simp] theorem fresh_agenda (s : State) : (s.fresh.2).agenda = s.agenda := rfl
@[simp] theorem fresh_arg (s : State) : (s.fresh.2).arg = s.arg := rfl
@[simp] theorem fresh_freeIx (s : State) : (s.fresh.2).freeIx = s.freeIx := rfl
@[simp] theorem fresh_nextId (s : State) : (s.fresh.2).nextId = s.nextId + 1 := rfl
@[simp] theorem fresh_lastRun (s : State) : (s.fresh.2).lastRun = s.lastRun := rfl

@[simp] theorem updCtx_part (s : State) (w : CtxId) (f : Ctx → Ctx) : (s.updCtx w f).part = s.part := by unfold State.updCtx; split <;> rfl
@[simp] theorem updCtx_pkg (s : State) (w : CtxId) (f : Ctx → Ctx) : (s.updCtx w f).pkg = s.pkg := by unfold State.updCtx; split <;> rfl
@[simp] theorem updCtx_ctx (s : State) (w : CtxId) (f : Ctx → Ctx) : (s.updCtx w f).ctx = if s.ctx.live ∧ s.ctx.id = w then f s.ctx else s.ctx := by unfold State.updCtx; split <;> rfl
@[simp] theorem updCtx_pre (s : State) (w : CtxId) (f : Ctx → Ctx) : (s.updCtx w f).pre = s.pre := by unfold State.updCtx; split <;> rfl
@[simp] theorem updCtx_bun (s : State) (w : CtxId) (f : Ctx → Ctx) : (s.updCtx w f).bun = s.bun := by unfold State.updCtx; split <;> rfl
@[simp] theorem updCtx_gangs (s : State) (w : CtxId) (f : Ctx → Ctx) : (s.updCtx w f).gangs = s.gangs := by unfold State.updCtx; split <;> rfl
@[simp] theorem updCtx_links (s : State) (w : CtxId) (f : Ctx → Ctx) : (s.updCtx w f).links = s.links := by unfold State.updCtx; split <;> rfl
@[simp] theorem updCtx_arrays (s : State) (w : CtxId) (f : Ctx → Ctx) : (s.updCtx w f).arrays = s.arrays := by unfold State.updCtx; split <;> rfl
@[simp] theorem updCtx_rules (s : State) (w : CtxId) (f : Ctx → Ctx) : (s.updCtx w f).rules = s.rules := by unfold State.updCtx; split <;> rfl
@[simp] theorem updCtx_mem (s : State) (w : CtxId) (f : Ctx → Ctx) : (s.updCtx w f).mem = s.mem := by unfold State.updCtx; split <;> rfl
@[simp] theorem updCtx_spad (s : State) (w : CtxId) (f : Ctx → Ctx) : (s.updCtx w f).spad = s.spad := by unfold State.updCtx; split <;> rfl
@[simp] theorem updCtx_hbmDirty (s : State) (w : CtxId) (f : Ctx → Ctx) : (s.updCtx w f).hbmDirty = s.hbmDirty := by unfold State.updCtx; split <;> rfl
@[simp] theorem updCtx_hbmNew (s : State) (w : CtxId) (f : Ctx → Ctx) : (s.updCtx w f).hbmNew = s.hbmNew := by unfold State.updCtx; split <;> rfl
@[simp] theorem updCtx_hbmHost (s : State) (w : CtxId) (f : Ctx → Ctx) : (s.updCtx w f).hbmHost = s.hbmHost := by unfold State.updCtx; split <;> rfl
@[simp] theorem updCtx_l1 (s : State) (w : CtxId) (f : Ctx → Ctx) : (s.updCtx w f).l1 = s.l1 := by unfold State.updCtx; split <;> rfl
@[simp] theorem updCtx_tlb (s : State) (w : CtxId) (f : Ctx → Ctx) : (s.updCtx w f).tlb = s.tlb := by unfold State.updCtx; split <;> rfl
@[simp] theorem updCtx_walkCache (s : State) (w : CtxId) (f : Ctx → Ctx) : (s.updCtx w f).walkCache = s.walkCache := by unfold State.updCtx; split <;> rfl
@[simp] theorem updCtx_bankWaits (s : State) (w : CtxId) (f : Ctx → Ctx) : (s.updCtx w f).bankWaits = s.bankWaits := by unfold State.updCtx; split <;> rfl
@[simp] theorem updCtx_undos (s : State) (w : CtxId) (f : Ctx → Ctx) : (s.updCtx w f).undos = s.undos := by unfold State.updCtx; split <;> rfl
@[simp] theorem updCtx_poison (s : State) (w : CtxId) (f : Ctx → Ctx) : (s.updCtx w f).poison = s.poison := by unfold State.updCtx; split <;> rfl
@[simp] theorem updCtx_walks (s : State) (w : CtxId) (f : Ctx → Ctx) : (s.updCtx w f).walks = s.walks := by unfold State.updCtx; split <;> rfl
@[simp] theorem updCtx_flights (s : State) (w : CtxId) (f : Ctx → Ctx) : (s.updCtx w f).flights = s.flights := by unfold State.updCtx; split <;> rfl
@[simp] theorem updCtx_tileOps (s : State) (w : CtxId) (f : Ctx → Ctx) : (s.updCtx w f).tileOps = s.tileOps := by unfold State.updCtx; split <;> rfl
@[simp] theorem updCtx_cmds (s : State) (w : CtxId) (f : Ctx → Ctx) : (s.updCtx w f).cmds = s.cmds := by unfold State.updCtx; split <;> rfl
@[simp] theorem updCtx_armed (s : State) (w : CtxId) (f : Ctx → Ctx) : (s.updCtx w f).armed = s.armed := by unfold State.updCtx; split <;> rfl
@[simp] theorem updCtx_joins (s : State) (w : CtxId) (f : Ctx → Ctx) : (s.updCtx w f).joins = s.joins := by unfold State.updCtx; split <;> rfl
@[simp] theorem updCtx_press (s : State) (w : CtxId) (f : Ctx → Ctx) : (s.updCtx w f).press = s.press := by unfold State.updCtx; split <;> rfl
@[simp] theorem updCtx_clocks (s : State) (w : CtxId) (f : Ctx → Ctx) : (s.updCtx w f).clocks = s.clocks := by unfold State.updCtx; split <;> rfl
@[simp] theorem updCtx_invals (s : State) (w : CtxId) (f : Ctx → Ctx) : (s.updCtx w f).invals = s.invals := by unfold State.updCtx; split <;> rfl
@[simp] theorem updCtx_taintMem (s : State) (w : CtxId) (f : Ctx → Ctx) : (s.updCtx w f).taintMem = s.taintMem := by unfold State.updCtx; split <;> rfl
@[simp] theorem updCtx_time (s : State) (w : CtxId) (f : Ctx → Ctx) : (s.updCtx w f).time = s.time := by unfold State.updCtx; split <;> rfl
@[simp] theorem updCtx_wall (s : State) (w : CtxId) (f : Ctx → Ctx) : (s.updCtx w f).wall = s.wall := by unfold State.updCtx; split <;> rfl
@[simp] theorem updCtx_wallFrac (s : State) (w : CtxId) (f : Ctx → Ctx) : (s.updCtx w f).wallFrac = s.wallFrac := by unfold State.updCtx; split <;> rfl
@[simp] theorem updCtx_wallRate (s : State) (w : CtxId) (f : Ctx → Ctx) : (s.updCtx w f).wallRate = s.wallRate := by unfold State.updCtx; split <;> rfl
@[simp] theorem updCtx_wallSet (s : State) (w : CtxId) (f : Ctx → Ctx) : (s.updCtx w f).wallSet = s.wallSet := by unfold State.updCtx; split <;> rfl
@[simp] theorem updCtx_pmap (s : State) (w : CtxId) (f : Ctx → Ctx) : (s.updCtx w f).pmap = s.pmap := by unfold State.updCtx; split <;> rfl
@[simp] theorem updCtx_granary (s : State) (w : CtxId) (f : Ctx → Ctx) : (s.updCtx w f).granary = s.granary := by unfold State.updCtx; split <;> rfl
@[simp] theorem updCtx_fleet (s : State) (w : CtxId) (f : Ctx → Ctx) : (s.updCtx w f).fleet = s.fleet := by unfold State.updCtx; split <;> rfl
@[simp] theorem updCtx_mgmt (s : State) (w : CtxId) (f : Ctx → Ctx) : (s.updCtx w f).mgmt = s.mgmt := by unfold State.updCtx; split <;> rfl
@[simp] theorem updCtx_agenda (s : State) (w : CtxId) (f : Ctx → Ctx) : (s.updCtx w f).agenda = s.agenda := by unfold State.updCtx; split <;> rfl
@[simp] theorem updCtx_arg (s : State) (w : CtxId) (f : Ctx → Ctx) : (s.updCtx w f).arg = s.arg := by unfold State.updCtx; split <;> rfl
@[simp] theorem updCtx_freeIx (s : State) (w : CtxId) (f : Ctx → Ctx) : (s.updCtx w f).freeIx = s.freeIx := by unfold State.updCtx; split <;> rfl
@[simp] theorem updCtx_nextId (s : State) (w : CtxId) (f : Ctx → Ctx) : (s.updCtx w f).nextId = s.nextId := by unfold State.updCtx; split <;> rfl
@[simp] theorem updCtx_lastRun (s : State) (w : CtxId) (f : Ctx → Ctx) : (s.updCtx w f).lastRun = s.lastRun := by unfold State.updCtx; split <;> rfl

@[simp] theorem updGangCtx_part (s : State) (g : Nat) (f : Ctx → Ctx) : (s.updGangCtx g f).part = s.part := rfl
@[simp] theorem updGangCtx_pkg (s : State) (g : Nat) (f : Ctx → Ctx) : (s.updGangCtx g f).pkg = s.pkg := rfl
@[simp] theorem updGangCtx_ctx (s : State) (g : Nat) (f : Ctx → Ctx) : (s.updGangCtx g f).ctx = if s.ctx.live ∧ s.ctx.id.gang = g then f s.ctx else s.ctx := rfl
@[simp] theorem updGangCtx_others (s : State) (g : Nat) (f : Ctx → Ctx) : (s.updGangCtx g f).others = updateAll (fun c => c.live && c.id.gang == g) f s.others := rfl
@[simp] theorem updGangCtx_pre (s : State) (g : Nat) (f : Ctx → Ctx) : (s.updGangCtx g f).pre = s.pre := rfl
@[simp] theorem updGangCtx_bun (s : State) (g : Nat) (f : Ctx → Ctx) : (s.updGangCtx g f).bun = s.bun := rfl
@[simp] theorem updGangCtx_gangs (s : State) (g : Nat) (f : Ctx → Ctx) : (s.updGangCtx g f).gangs = s.gangs := rfl
@[simp] theorem updGangCtx_links (s : State) (g : Nat) (f : Ctx → Ctx) : (s.updGangCtx g f).links = s.links := rfl
@[simp] theorem updGangCtx_arrays (s : State) (g : Nat) (f : Ctx → Ctx) : (s.updGangCtx g f).arrays = s.arrays := rfl
@[simp] theorem updGangCtx_rules (s : State) (g : Nat) (f : Ctx → Ctx) : (s.updGangCtx g f).rules = s.rules := rfl
@[simp] theorem updGangCtx_mem (s : State) (g : Nat) (f : Ctx → Ctx) : (s.updGangCtx g f).mem = s.mem := rfl
@[simp] theorem updGangCtx_spad (s : State) (g : Nat) (f : Ctx → Ctx) : (s.updGangCtx g f).spad = s.spad := rfl
@[simp] theorem updGangCtx_hbmDirty (s : State) (g : Nat) (f : Ctx → Ctx) : (s.updGangCtx g f).hbmDirty = s.hbmDirty := rfl
@[simp] theorem updGangCtx_hbmNew (s : State) (g : Nat) (f : Ctx → Ctx) : (s.updGangCtx g f).hbmNew = s.hbmNew := rfl
@[simp] theorem updGangCtx_hbmHost (s : State) (g : Nat) (f : Ctx → Ctx) : (s.updGangCtx g f).hbmHost = s.hbmHost := rfl
@[simp] theorem updGangCtx_l1 (s : State) (g : Nat) (f : Ctx → Ctx) : (s.updGangCtx g f).l1 = s.l1 := rfl
@[simp] theorem updGangCtx_tlb (s : State) (g : Nat) (f : Ctx → Ctx) : (s.updGangCtx g f).tlb = s.tlb := rfl
@[simp] theorem updGangCtx_walkCache (s : State) (g : Nat) (f : Ctx → Ctx) : (s.updGangCtx g f).walkCache = s.walkCache := rfl
@[simp] theorem updGangCtx_bankWaits (s : State) (g : Nat) (f : Ctx → Ctx) : (s.updGangCtx g f).bankWaits = s.bankWaits := rfl
@[simp] theorem updGangCtx_undos (s : State) (g : Nat) (f : Ctx → Ctx) : (s.updGangCtx g f).undos = s.undos := rfl
@[simp] theorem updGangCtx_poison (s : State) (g : Nat) (f : Ctx → Ctx) : (s.updGangCtx g f).poison = s.poison := rfl
@[simp] theorem updGangCtx_walks (s : State) (g : Nat) (f : Ctx → Ctx) : (s.updGangCtx g f).walks = s.walks := rfl
@[simp] theorem updGangCtx_flights (s : State) (g : Nat) (f : Ctx → Ctx) : (s.updGangCtx g f).flights = s.flights := rfl
@[simp] theorem updGangCtx_tileOps (s : State) (g : Nat) (f : Ctx → Ctx) : (s.updGangCtx g f).tileOps = s.tileOps := rfl
@[simp] theorem updGangCtx_cmds (s : State) (g : Nat) (f : Ctx → Ctx) : (s.updGangCtx g f).cmds = s.cmds := rfl
@[simp] theorem updGangCtx_armed (s : State) (g : Nat) (f : Ctx → Ctx) : (s.updGangCtx g f).armed = s.armed := rfl
@[simp] theorem updGangCtx_joins (s : State) (g : Nat) (f : Ctx → Ctx) : (s.updGangCtx g f).joins = s.joins := rfl
@[simp] theorem updGangCtx_press (s : State) (g : Nat) (f : Ctx → Ctx) : (s.updGangCtx g f).press = s.press := rfl
@[simp] theorem updGangCtx_clocks (s : State) (g : Nat) (f : Ctx → Ctx) : (s.updGangCtx g f).clocks = s.clocks := rfl
@[simp] theorem updGangCtx_invals (s : State) (g : Nat) (f : Ctx → Ctx) : (s.updGangCtx g f).invals = s.invals := rfl
@[simp] theorem updGangCtx_taintMem (s : State) (g : Nat) (f : Ctx → Ctx) : (s.updGangCtx g f).taintMem = s.taintMem := rfl
@[simp] theorem updGangCtx_time (s : State) (g : Nat) (f : Ctx → Ctx) : (s.updGangCtx g f).time = s.time := rfl
@[simp] theorem updGangCtx_wall (s : State) (g : Nat) (f : Ctx → Ctx) : (s.updGangCtx g f).wall = s.wall := rfl
@[simp] theorem updGangCtx_wallFrac (s : State) (g : Nat) (f : Ctx → Ctx) : (s.updGangCtx g f).wallFrac = s.wallFrac := rfl
@[simp] theorem updGangCtx_wallRate (s : State) (g : Nat) (f : Ctx → Ctx) : (s.updGangCtx g f).wallRate = s.wallRate := rfl
@[simp] theorem updGangCtx_wallSet (s : State) (g : Nat) (f : Ctx → Ctx) : (s.updGangCtx g f).wallSet = s.wallSet := rfl
@[simp] theorem updGangCtx_pmap (s : State) (g : Nat) (f : Ctx → Ctx) : (s.updGangCtx g f).pmap = s.pmap := rfl
@[simp] theorem updGangCtx_granary (s : State) (g : Nat) (f : Ctx → Ctx) : (s.updGangCtx g f).granary = s.granary := rfl
@[simp] theorem updGangCtx_fleet (s : State) (g : Nat) (f : Ctx → Ctx) : (s.updGangCtx g f).fleet = s.fleet := rfl
@[simp] theorem updGangCtx_mgmt (s : State) (g : Nat) (f : Ctx → Ctx) : (s.updGangCtx g f).mgmt = s.mgmt := rfl
@[simp] theorem updGangCtx_saved (s : State) (g : Nat) (f : Ctx → Ctx) : (s.updGangCtx g f).saved = s.saved := rfl
@[simp] theorem updGangCtx_agenda (s : State) (g : Nat) (f : Ctx → Ctx) : (s.updGangCtx g f).agenda = s.agenda := rfl
@[simp] theorem updGangCtx_arg (s : State) (g : Nat) (f : Ctx → Ctx) : (s.updGangCtx g f).arg = s.arg := rfl
@[simp] theorem updGangCtx_freeIx (s : State) (g : Nat) (f : Ctx → Ctx) : (s.updGangCtx g f).freeIx = s.freeIx := rfl
@[simp] theorem updGangCtx_nextId (s : State) (g : Nat) (f : Ctx → Ctx) : (s.updGangCtx g f).nextId = s.nextId := rfl
@[simp] theorem updGangCtx_lastRun (s : State) (g : Nat) (f : Ctx → Ctx) : (s.updGangCtx g f).lastRun = s.lastRun := rfl

@[simp] theorem deferTrap_part (s : State) (w : CtxId) (t : TrapInfo) : (deferTrap s w t).part = s.part := by unfold deferTrap; simp
@[simp] theorem deferTrap_pkg (s : State) (w : CtxId) (t : TrapInfo) : (deferTrap s w t).pkg = s.pkg := by unfold deferTrap; simp
@[simp] theorem deferTrap_pre (s : State) (w : CtxId) (t : TrapInfo) : (deferTrap s w t).pre = s.pre := by unfold deferTrap; simp
@[simp] theorem deferTrap_bun (s : State) (w : CtxId) (t : TrapInfo) : (deferTrap s w t).bun = s.bun := by unfold deferTrap; simp
@[simp] theorem deferTrap_gangs (s : State) (w : CtxId) (t : TrapInfo) : (deferTrap s w t).gangs = s.gangs := by unfold deferTrap; simp
@[simp] theorem deferTrap_links (s : State) (w : CtxId) (t : TrapInfo) : (deferTrap s w t).links = s.links := by unfold deferTrap; simp
@[simp] theorem deferTrap_arrays (s : State) (w : CtxId) (t : TrapInfo) : (deferTrap s w t).arrays = s.arrays := by unfold deferTrap; simp
@[simp] theorem deferTrap_rules (s : State) (w : CtxId) (t : TrapInfo) : (deferTrap s w t).rules = s.rules := by unfold deferTrap; simp
@[simp] theorem deferTrap_mem (s : State) (w : CtxId) (t : TrapInfo) : (deferTrap s w t).mem = s.mem := by unfold deferTrap; simp
@[simp] theorem deferTrap_spad (s : State) (w : CtxId) (t : TrapInfo) : (deferTrap s w t).spad = s.spad := by unfold deferTrap; simp
@[simp] theorem deferTrap_hbmDirty (s : State) (w : CtxId) (t : TrapInfo) : (deferTrap s w t).hbmDirty = s.hbmDirty := by unfold deferTrap; simp
@[simp] theorem deferTrap_hbmNew (s : State) (w : CtxId) (t : TrapInfo) : (deferTrap s w t).hbmNew = s.hbmNew := by unfold deferTrap; simp
@[simp] theorem deferTrap_hbmHost (s : State) (w : CtxId) (t : TrapInfo) : (deferTrap s w t).hbmHost = s.hbmHost := by unfold deferTrap; simp
@[simp] theorem deferTrap_l1 (s : State) (w : CtxId) (t : TrapInfo) : (deferTrap s w t).l1 = s.l1 := by unfold deferTrap; simp
@[simp] theorem deferTrap_tlb (s : State) (w : CtxId) (t : TrapInfo) : (deferTrap s w t).tlb = s.tlb := by unfold deferTrap; simp
@[simp] theorem deferTrap_walkCache (s : State) (w : CtxId) (t : TrapInfo) : (deferTrap s w t).walkCache = s.walkCache := by unfold deferTrap; simp
@[simp] theorem deferTrap_bankWaits (s : State) (w : CtxId) (t : TrapInfo) : (deferTrap s w t).bankWaits = s.bankWaits := by unfold deferTrap; simp
@[simp] theorem deferTrap_undos (s : State) (w : CtxId) (t : TrapInfo) : (deferTrap s w t).undos = s.undos := by unfold deferTrap; simp
@[simp] theorem deferTrap_poison (s : State) (w : CtxId) (t : TrapInfo) : (deferTrap s w t).poison = s.poison := by unfold deferTrap; simp
@[simp] theorem deferTrap_walks (s : State) (w : CtxId) (t : TrapInfo) : (deferTrap s w t).walks = s.walks := by unfold deferTrap; simp
@[simp] theorem deferTrap_flights (s : State) (w : CtxId) (t : TrapInfo) : (deferTrap s w t).flights = s.flights := by unfold deferTrap; simp
@[simp] theorem deferTrap_tileOps (s : State) (w : CtxId) (t : TrapInfo) : (deferTrap s w t).tileOps = s.tileOps := by unfold deferTrap; simp
@[simp] theorem deferTrap_cmds (s : State) (w : CtxId) (t : TrapInfo) : (deferTrap s w t).cmds = s.cmds := by unfold deferTrap; simp
@[simp] theorem deferTrap_armed (s : State) (w : CtxId) (t : TrapInfo) : (deferTrap s w t).armed = s.armed := by unfold deferTrap; simp
@[simp] theorem deferTrap_joins (s : State) (w : CtxId) (t : TrapInfo) : (deferTrap s w t).joins = s.joins := by unfold deferTrap; simp
@[simp] theorem deferTrap_press (s : State) (w : CtxId) (t : TrapInfo) : (deferTrap s w t).press = s.press := by unfold deferTrap; simp
@[simp] theorem deferTrap_clocks (s : State) (w : CtxId) (t : TrapInfo) : (deferTrap s w t).clocks = s.clocks := by unfold deferTrap; simp
@[simp] theorem deferTrap_invals (s : State) (w : CtxId) (t : TrapInfo) : (deferTrap s w t).invals = s.invals := by unfold deferTrap; simp
@[simp] theorem deferTrap_taintMem (s : State) (w : CtxId) (t : TrapInfo) : (deferTrap s w t).taintMem = s.taintMem := by unfold deferTrap; simp
@[simp] theorem deferTrap_time (s : State) (w : CtxId) (t : TrapInfo) : (deferTrap s w t).time = s.time := by unfold deferTrap; simp
@[simp] theorem deferTrap_wall (s : State) (w : CtxId) (t : TrapInfo) : (deferTrap s w t).wall = s.wall := by unfold deferTrap; simp
@[simp] theorem deferTrap_wallFrac (s : State) (w : CtxId) (t : TrapInfo) : (deferTrap s w t).wallFrac = s.wallFrac := by unfold deferTrap; simp
@[simp] theorem deferTrap_wallRate (s : State) (w : CtxId) (t : TrapInfo) : (deferTrap s w t).wallRate = s.wallRate := by unfold deferTrap; simp
@[simp] theorem deferTrap_wallSet (s : State) (w : CtxId) (t : TrapInfo) : (deferTrap s w t).wallSet = s.wallSet := by unfold deferTrap; simp
@[simp] theorem deferTrap_pmap (s : State) (w : CtxId) (t : TrapInfo) : (deferTrap s w t).pmap = s.pmap := by unfold deferTrap; simp
@[simp] theorem deferTrap_granary (s : State) (w : CtxId) (t : TrapInfo) : (deferTrap s w t).granary = s.granary := by unfold deferTrap; simp
@[simp] theorem deferTrap_fleet (s : State) (w : CtxId) (t : TrapInfo) : (deferTrap s w t).fleet = s.fleet := by unfold deferTrap; simp
@[simp] theorem deferTrap_mgmt (s : State) (w : CtxId) (t : TrapInfo) : (deferTrap s w t).mgmt = s.mgmt := by unfold deferTrap; simp
@[simp] theorem deferTrap_agenda (s : State) (w : CtxId) (t : TrapInfo) : (deferTrap s w t).agenda = s.agenda := by unfold deferTrap; simp
@[simp] theorem deferTrap_arg (s : State) (w : CtxId) (t : TrapInfo) : (deferTrap s w t).arg = s.arg := by unfold deferTrap; simp
@[simp] theorem deferTrap_freeIx (s : State) (w : CtxId) (t : TrapInfo) : (deferTrap s w t).freeIx = s.freeIx := by unfold deferTrap; simp
@[simp] theorem deferTrap_nextId (s : State) (w : CtxId) (t : TrapInfo) : (deferTrap s w t).nextId = s.nextId := by unfold deferTrap; simp
@[simp] theorem deferTrap_lastRun (s : State) (w : CtxId) (t : TrapInfo) : (deferTrap s w t).lastRun = s.lastRun := by unfold deferTrap; simp

@[simp] theorem completeToken_part (s : State) (w : CtxId) (q : QReg) (gen : Nat) (st : TokStatus) : (completeToken s w q gen st).part = s.part := by unfold completeToken; simp
@[simp] theorem completeToken_pkg (s : State) (w : CtxId) (q : QReg) (gen : Nat) (st : TokStatus) : (completeToken s w q gen st).pkg = s.pkg := by unfold completeToken; simp
@[simp] theorem completeToken_pre (s : State) (w : CtxId) (q : QReg) (gen : Nat) (st : TokStatus) : (completeToken s w q gen st).pre = s.pre := by unfold completeToken; simp
@[simp] theorem completeToken_bun (s : State) (w : CtxId) (q : QReg) (gen : Nat) (st : TokStatus) : (completeToken s w q gen st).bun = s.bun := by unfold completeToken; simp
@[simp] theorem completeToken_gangs (s : State) (w : CtxId) (q : QReg) (gen : Nat) (st : TokStatus) : (completeToken s w q gen st).gangs = s.gangs := by unfold completeToken; simp
@[simp] theorem completeToken_links (s : State) (w : CtxId) (q : QReg) (gen : Nat) (st : TokStatus) : (completeToken s w q gen st).links = s.links := by unfold completeToken; simp
@[simp] theorem completeToken_arrays (s : State) (w : CtxId) (q : QReg) (gen : Nat) (st : TokStatus) : (completeToken s w q gen st).arrays = s.arrays := by unfold completeToken; simp
@[simp] theorem completeToken_rules (s : State) (w : CtxId) (q : QReg) (gen : Nat) (st : TokStatus) : (completeToken s w q gen st).rules = s.rules := by unfold completeToken; simp
@[simp] theorem completeToken_mem (s : State) (w : CtxId) (q : QReg) (gen : Nat) (st : TokStatus) : (completeToken s w q gen st).mem = s.mem := by unfold completeToken; simp
@[simp] theorem completeToken_spad (s : State) (w : CtxId) (q : QReg) (gen : Nat) (st : TokStatus) : (completeToken s w q gen st).spad = s.spad := by unfold completeToken; simp
@[simp] theorem completeToken_hbmDirty (s : State) (w : CtxId) (q : QReg) (gen : Nat) (st : TokStatus) : (completeToken s w q gen st).hbmDirty = s.hbmDirty := by unfold completeToken; simp
@[simp] theorem completeToken_hbmNew (s : State) (w : CtxId) (q : QReg) (gen : Nat) (st : TokStatus) : (completeToken s w q gen st).hbmNew = s.hbmNew := by unfold completeToken; simp
@[simp] theorem completeToken_hbmHost (s : State) (w : CtxId) (q : QReg) (gen : Nat) (st : TokStatus) : (completeToken s w q gen st).hbmHost = s.hbmHost := by unfold completeToken; simp
@[simp] theorem completeToken_l1 (s : State) (w : CtxId) (q : QReg) (gen : Nat) (st : TokStatus) : (completeToken s w q gen st).l1 = s.l1 := by unfold completeToken; simp
@[simp] theorem completeToken_tlb (s : State) (w : CtxId) (q : QReg) (gen : Nat) (st : TokStatus) : (completeToken s w q gen st).tlb = s.tlb := by unfold completeToken; simp
@[simp] theorem completeToken_walkCache (s : State) (w : CtxId) (q : QReg) (gen : Nat) (st : TokStatus) : (completeToken s w q gen st).walkCache = s.walkCache := by unfold completeToken; simp
@[simp] theorem completeToken_bankWaits (s : State) (w : CtxId) (q : QReg) (gen : Nat) (st : TokStatus) : (completeToken s w q gen st).bankWaits = s.bankWaits := by unfold completeToken; simp
@[simp] theorem completeToken_undos (s : State) (w : CtxId) (q : QReg) (gen : Nat) (st : TokStatus) : (completeToken s w q gen st).undos = s.undos := by unfold completeToken; simp
@[simp] theorem completeToken_poison (s : State) (w : CtxId) (q : QReg) (gen : Nat) (st : TokStatus) : (completeToken s w q gen st).poison = s.poison := by unfold completeToken; simp
@[simp] theorem completeToken_walks (s : State) (w : CtxId) (q : QReg) (gen : Nat) (st : TokStatus) : (completeToken s w q gen st).walks = s.walks := by unfold completeToken; simp
@[simp] theorem completeToken_flights (s : State) (w : CtxId) (q : QReg) (gen : Nat) (st : TokStatus) : (completeToken s w q gen st).flights = s.flights := by unfold completeToken; simp
@[simp] theorem completeToken_tileOps (s : State) (w : CtxId) (q : QReg) (gen : Nat) (st : TokStatus) : (completeToken s w q gen st).tileOps = s.tileOps := by unfold completeToken; simp
@[simp] theorem completeToken_armed (s : State) (w : CtxId) (q : QReg) (gen : Nat) (st : TokStatus) : (completeToken s w q gen st).armed = s.armed := by unfold completeToken; simp
@[simp] theorem completeToken_press (s : State) (w : CtxId) (q : QReg) (gen : Nat) (st : TokStatus) : (completeToken s w q gen st).press = s.press := by unfold completeToken; simp
@[simp] theorem completeToken_clocks (s : State) (w : CtxId) (q : QReg) (gen : Nat) (st : TokStatus) : (completeToken s w q gen st).clocks = s.clocks := by unfold completeToken; simp
@[simp] theorem completeToken_invals (s : State) (w : CtxId) (q : QReg) (gen : Nat) (st : TokStatus) : (completeToken s w q gen st).invals = s.invals := by unfold completeToken; simp
@[simp] theorem completeToken_taintMem (s : State) (w : CtxId) (q : QReg) (gen : Nat) (st : TokStatus) : (completeToken s w q gen st).taintMem = s.taintMem := by unfold completeToken; simp
@[simp] theorem completeToken_time (s : State) (w : CtxId) (q : QReg) (gen : Nat) (st : TokStatus) : (completeToken s w q gen st).time = s.time := by unfold completeToken; simp
@[simp] theorem completeToken_wall (s : State) (w : CtxId) (q : QReg) (gen : Nat) (st : TokStatus) : (completeToken s w q gen st).wall = s.wall := by unfold completeToken; simp
@[simp] theorem completeToken_wallFrac (s : State) (w : CtxId) (q : QReg) (gen : Nat) (st : TokStatus) : (completeToken s w q gen st).wallFrac = s.wallFrac := by unfold completeToken; simp
@[simp] theorem completeToken_wallRate (s : State) (w : CtxId) (q : QReg) (gen : Nat) (st : TokStatus) : (completeToken s w q gen st).wallRate = s.wallRate := by unfold completeToken; simp
@[simp] theorem completeToken_wallSet (s : State) (w : CtxId) (q : QReg) (gen : Nat) (st : TokStatus) : (completeToken s w q gen st).wallSet = s.wallSet := by unfold completeToken; simp
@[simp] theorem completeToken_pmap (s : State) (w : CtxId) (q : QReg) (gen : Nat) (st : TokStatus) : (completeToken s w q gen st).pmap = s.pmap := by unfold completeToken; simp
@[simp] theorem completeToken_granary (s : State) (w : CtxId) (q : QReg) (gen : Nat) (st : TokStatus) : (completeToken s w q gen st).granary = s.granary := by unfold completeToken; simp
@[simp] theorem completeToken_fleet (s : State) (w : CtxId) (q : QReg) (gen : Nat) (st : TokStatus) : (completeToken s w q gen st).fleet = s.fleet := by unfold completeToken; simp
@[simp] theorem completeToken_mgmt (s : State) (w : CtxId) (q : QReg) (gen : Nat) (st : TokStatus) : (completeToken s w q gen st).mgmt = s.mgmt := by unfold completeToken; simp
@[simp] theorem completeToken_agenda (s : State) (w : CtxId) (q : QReg) (gen : Nat) (st : TokStatus) : (completeToken s w q gen st).agenda = s.agenda := by unfold completeToken; simp
@[simp] theorem completeToken_arg (s : State) (w : CtxId) (q : QReg) (gen : Nat) (st : TokStatus) : (completeToken s w q gen st).arg = s.arg := by unfold completeToken; simp
@[simp] theorem completeToken_freeIx (s : State) (w : CtxId) (q : QReg) (gen : Nat) (st : TokStatus) : (completeToken s w q gen st).freeIx = s.freeIx := by unfold completeToken; simp
@[simp] theorem completeToken_nextId (s : State) (w : CtxId) (q : QReg) (gen : Nat) (st : TokStatus) : (completeToken s w q gen st).nextId = s.nextId := by unfold completeToken; simp
@[simp] theorem completeToken_lastRun (s : State) (w : CtxId) (q : QReg) (gen : Nat) (st : TokStatus) : (completeToken s w q gen st).lastRun = s.lastRun := by unfold completeToken; simp

@[simp] theorem endGang_part (s : State) (g status : Nat) : (endGang s g status).part = s.part := by simp [endGang]
@[simp] theorem endGang_pkg (s : State) (g status : Nat) : (endGang s g status).pkg = s.pkg := by simp [endGang]
@[simp] theorem endGang_pre (s : State) (g status : Nat) : (endGang s g status).pre = s.pre := by simp [endGang]
@[simp] theorem endGang_bun (s : State) (g status : Nat) : (endGang s g status).bun = s.bun := by simp [endGang]
@[simp] theorem endGang_links (s : State) (g status : Nat) : (endGang s g status).links = s.links := by simp [endGang]
@[simp] theorem endGang_arrays (s : State) (g status : Nat) : (endGang s g status).arrays = s.arrays := by simp [endGang]
@[simp] theorem endGang_rules (s : State) (g status : Nat) : (endGang s g status).rules = s.rules := by simp [endGang]
@[simp] theorem endGang_mem (s : State) (g status : Nat) : (endGang s g status).mem = s.mem := by simp [endGang]
@[simp] theorem endGang_spad (s : State) (g status : Nat) : (endGang s g status).spad = s.spad := by simp [endGang]
@[simp] theorem endGang_hbmDirty (s : State) (g status : Nat) : (endGang s g status).hbmDirty = s.hbmDirty := by simp [endGang]
@[simp] theorem endGang_hbmNew (s : State) (g status : Nat) : (endGang s g status).hbmNew = s.hbmNew := by simp [endGang]
@[simp] theorem endGang_hbmHost (s : State) (g status : Nat) : (endGang s g status).hbmHost = s.hbmHost := by simp [endGang]
@[simp] theorem endGang_l1 (s : State) (g status : Nat) : (endGang s g status).l1 = s.l1 := by simp [endGang]
@[simp] theorem endGang_tlb (s : State) (g status : Nat) : (endGang s g status).tlb = s.tlb := by simp [endGang]
@[simp] theorem endGang_walkCache (s : State) (g status : Nat) : (endGang s g status).walkCache = s.walkCache := by simp [endGang]
@[simp] theorem endGang_bankWaits (s : State) (g status : Nat) : (endGang s g status).bankWaits = s.bankWaits := by simp [endGang]
@[simp] theorem endGang_poison (s : State) (g status : Nat) : (endGang s g status).poison = s.poison := by simp [endGang]
@[simp] theorem endGang_undos (s : State) (g status : Nat) : (endGang s g status).undos = s.undos.filter fun u => u.who.gang != g := by simp [endGang]
@[simp] theorem endGang_walks (s : State) (g status : Nat) : (endGang s g status).walks = s.walks := by simp [endGang]
@[simp] theorem endGang_tileOps (s : State) (g status : Nat) : (endGang s g status).tileOps = s.tileOps.map (keepTile s g) := by simp [endGang]
@[simp] theorem endGang_clocks (s : State) (g status : Nat) : (endGang s g status).clocks = s.clocks := by simp [endGang]
@[simp] theorem endGang_taintMem (s : State) (g status : Nat) : (endGang s g status).taintMem = s.taintMem := by simp [endGang]
@[simp] theorem endGang_time (s : State) (g status : Nat) : (endGang s g status).time = s.time := by simp [endGang]
@[simp] theorem endGang_wall (s : State) (g status : Nat) : (endGang s g status).wall = s.wall := by simp [endGang]
@[simp] theorem endGang_wallFrac (s : State) (g status : Nat) : (endGang s g status).wallFrac = s.wallFrac := by simp [endGang]
@[simp] theorem endGang_wallRate (s : State) (g status : Nat) : (endGang s g status).wallRate = s.wallRate := by simp [endGang]
@[simp] theorem endGang_wallSet (s : State) (g status : Nat) : (endGang s g status).wallSet = s.wallSet := by simp [endGang]
@[simp] theorem endGang_pmap (s : State) (g status : Nat) : (endGang s g status).pmap = s.pmap := by simp [endGang]
@[simp] theorem endGang_granary (s : State) (g status : Nat) : (endGang s g status).granary = s.granary := by simp [endGang]
@[simp] theorem endGang_fleet (s : State) (g status : Nat) : (endGang s g status).fleet = s.fleet := by simp [endGang]
@[simp] theorem endGang_mgmt (s : State) (g status : Nat) : (endGang s g status).mgmt = s.mgmt := by simp [endGang]
@[simp] theorem endGang_agenda (s : State) (g status : Nat) : (endGang s g status).agenda = s.agenda := by simp [endGang]
@[simp] theorem endGang_arg (s : State) (g status : Nat) : (endGang s g status).arg = s.arg := by simp [endGang]
@[simp] theorem endGang_freeIx (s : State) (g status : Nat) : (endGang s g status).freeIx = s.freeIx := by simp [endGang]
@[simp] theorem endGang_nextId (s : State) (g status : Nat) : (endGang s g status).nextId = s.nextId := by simp [endGang]
@[simp] theorem endGang_lastRun (s : State) (g status : Nat) : (endGang s g status).lastRun = s.lastRun := by simp [endGang]

@[simp] theorem takeTrap_part (s : State) (pc : Word) (slot : Nat) (c x o : Word) (e : Nat) : (takeTrap s pc slot c x o e).part = s.part := by unfold takeTrap; split <;> simp
@[simp] theorem takeTrap_pkg (s : State) (pc : Word) (slot : Nat) (c x o : Word) (e : Nat) : (takeTrap s pc slot c x o e).pkg = s.pkg := by unfold takeTrap; split <;> simp
@[simp] theorem takeTrap_pre (s : State) (pc : Word) (slot : Nat) (c x o : Word) (e : Nat) : (takeTrap s pc slot c x o e).pre = s.pre := by unfold takeTrap; split <;> simp
@[simp] theorem takeTrap_bun (s : State) (pc : Word) (slot : Nat) (c x o : Word) (e : Nat) : (takeTrap s pc slot c x o e).bun = s.bun := by unfold takeTrap; split <;> simp
@[simp] theorem takeTrap_links (s : State) (pc : Word) (slot : Nat) (c x o : Word) (e : Nat) : (takeTrap s pc slot c x o e).links = s.links := by unfold takeTrap; split <;> simp
@[simp] theorem takeTrap_arrays (s : State) (pc : Word) (slot : Nat) (c x o : Word) (e : Nat) : (takeTrap s pc slot c x o e).arrays = s.arrays := by unfold takeTrap; split <;> simp
@[simp] theorem takeTrap_rules (s : State) (pc : Word) (slot : Nat) (c x o : Word) (e : Nat) : (takeTrap s pc slot c x o e).rules = s.rules := by unfold takeTrap; split <;> simp
@[simp] theorem takeTrap_mem (s : State) (pc : Word) (slot : Nat) (c x o : Word) (e : Nat) : (takeTrap s pc slot c x o e).mem = s.mem := by unfold takeTrap; split <;> simp
@[simp] theorem takeTrap_spad (s : State) (pc : Word) (slot : Nat) (c x o : Word) (e : Nat) : (takeTrap s pc slot c x o e).spad = s.spad := by unfold takeTrap; split <;> simp
@[simp] theorem takeTrap_hbmDirty (s : State) (pc : Word) (slot : Nat) (c x o : Word) (e : Nat) : (takeTrap s pc slot c x o e).hbmDirty = s.hbmDirty := by unfold takeTrap; split <;> simp
@[simp] theorem takeTrap_hbmNew (s : State) (pc : Word) (slot : Nat) (c x o : Word) (e : Nat) : (takeTrap s pc slot c x o e).hbmNew = s.hbmNew := by unfold takeTrap; split <;> simp
@[simp] theorem takeTrap_hbmHost (s : State) (pc : Word) (slot : Nat) (c x o : Word) (e : Nat) : (takeTrap s pc slot c x o e).hbmHost = s.hbmHost := by unfold takeTrap; split <;> simp
@[simp] theorem takeTrap_l1 (s : State) (pc : Word) (slot : Nat) (c x o : Word) (e : Nat) : (takeTrap s pc slot c x o e).l1 = s.l1 := by unfold takeTrap; split <;> simp
@[simp] theorem takeTrap_tlb (s : State) (pc : Word) (slot : Nat) (c x o : Word) (e : Nat) : (takeTrap s pc slot c x o e).tlb = s.tlb := by unfold takeTrap; split <;> simp
@[simp] theorem takeTrap_walkCache (s : State) (pc : Word) (slot : Nat) (c x o : Word) (e : Nat) : (takeTrap s pc slot c x o e).walkCache = s.walkCache := by unfold takeTrap; split <;> simp
@[simp] theorem takeTrap_bankWaits (s : State) (pc : Word) (slot : Nat) (c x o : Word) (e : Nat) : (takeTrap s pc slot c x o e).bankWaits = s.bankWaits := by unfold takeTrap; split <;> simp
@[simp] theorem takeTrap_poison (s : State) (pc : Word) (slot : Nat) (c x o : Word) (e : Nat) : (takeTrap s pc slot c x o e).poison = s.poison := by unfold takeTrap; split <;> simp
@[simp] theorem takeTrap_walks (s : State) (pc : Word) (slot : Nat) (c x o : Word) (e : Nat) : (takeTrap s pc slot c x o e).walks = s.walks := by unfold takeTrap; split <;> simp
theorem takeTrap_tileOps (s : State) (pc : Word) (slot : Nat) (c x o : Word) (e : Nat) : (takeTrap s pc slot c x o e).tileOps =
    if s.ctx.tvec = 0 ∨ s.ctx.mode = .privileged then s.tileOps.map (keepTile s s.ctx.id.gang) else s.tileOps := by
  unfold takeTrap; split <;> simp
@[simp] theorem takeTrap_clocks (s : State) (pc : Word) (slot : Nat) (c x o : Word) (e : Nat) : (takeTrap s pc slot c x o e).clocks = s.clocks := by unfold takeTrap; split <;> simp
@[simp] theorem takeTrap_taintMem (s : State) (pc : Word) (slot : Nat) (c x o : Word) (e : Nat) : (takeTrap s pc slot c x o e).taintMem = s.taintMem := by unfold takeTrap; split <;> simp
@[simp] theorem takeTrap_time (s : State) (pc : Word) (slot : Nat) (c x o : Word) (e : Nat) : (takeTrap s pc slot c x o e).time = s.time := by unfold takeTrap; split <;> simp
@[simp] theorem takeTrap_wall (s : State) (pc : Word) (slot : Nat) (c x o : Word) (e : Nat) : (takeTrap s pc slot c x o e).wall = s.wall := by unfold takeTrap; split <;> simp
@[simp] theorem takeTrap_wallFrac (s : State) (pc : Word) (slot : Nat) (c x o : Word) (e : Nat) : (takeTrap s pc slot c x o e).wallFrac = s.wallFrac := by unfold takeTrap; split <;> simp
@[simp] theorem takeTrap_wallRate (s : State) (pc : Word) (slot : Nat) (c x o : Word) (e : Nat) : (takeTrap s pc slot c x o e).wallRate = s.wallRate := by unfold takeTrap; split <;> simp
@[simp] theorem takeTrap_wallSet (s : State) (pc : Word) (slot : Nat) (c x o : Word) (e : Nat) : (takeTrap s pc slot c x o e).wallSet = s.wallSet := by unfold takeTrap; split <;> simp
@[simp] theorem takeTrap_pmap (s : State) (pc : Word) (slot : Nat) (c x o : Word) (e : Nat) : (takeTrap s pc slot c x o e).pmap = s.pmap := by unfold takeTrap; split <;> simp
@[simp] theorem takeTrap_granary (s : State) (pc : Word) (slot : Nat) (c x o : Word) (e : Nat) : (takeTrap s pc slot c x o e).granary = s.granary := by unfold takeTrap; split <;> simp
@[simp] theorem takeTrap_fleet (s : State) (pc : Word) (slot : Nat) (c x o : Word) (e : Nat) : (takeTrap s pc slot c x o e).fleet = s.fleet := by unfold takeTrap; split <;> simp
@[simp] theorem takeTrap_mgmt (s : State) (pc : Word) (slot : Nat) (c x o : Word) (e : Nat) : (takeTrap s pc slot c x o e).mgmt = s.mgmt := by unfold takeTrap; split <;> simp
@[simp] theorem takeTrap_agenda (s : State) (pc : Word) (slot : Nat) (c x o : Word) (e : Nat) : (takeTrap s pc slot c x o e).agenda = s.agenda := by unfold takeTrap; split <;> simp
@[simp] theorem takeTrap_arg (s : State) (pc : Word) (slot : Nat) (c x o : Word) (e : Nat) : (takeTrap s pc slot c x o e).arg = s.arg := by unfold takeTrap; split <;> simp
@[simp] theorem takeTrap_freeIx (s : State) (pc : Word) (slot : Nat) (c x o : Word) (e : Nat) : (takeTrap s pc slot c x o e).freeIx = s.freeIx := by unfold takeTrap; split <;> simp
@[simp] theorem takeTrap_nextId (s : State) (pc : Word) (slot : Nat) (c x o : Word) (e : Nat) : (takeTrap s pc slot c x o e).nextId = s.nextId := by unfold takeTrap; split <;> simp
@[simp] theorem takeTrap_lastRun (s : State) (pc : Word) (slot : Nat) (c x o : Word) (e : Nat) : (takeTrap s pc slot c x o e).lastRun = s.lastRun := by unfold takeTrap; split <;> simp

@[simp] theorem slotTrap_part (s : State) (t : TrapInfo) (k : Option Nat) : (slotTrap s t k).part = s.part := by simp [slotTrap, trapWith]
@[simp] theorem slotTrap_pkg (s : State) (t : TrapInfo) (k : Option Nat) : (slotTrap s t k).pkg = s.pkg := by simp [slotTrap, trapWith]
@[simp] theorem slotTrap_pre (s : State) (t : TrapInfo) (k : Option Nat) : (slotTrap s t k).pre = s.pre := by simp [slotTrap, trapWith]
@[simp] theorem slotTrap_bun (s : State) (t : TrapInfo) (k : Option Nat) : (slotTrap s t k).bun = s.bun := by simp [slotTrap, trapWith]
@[simp] theorem slotTrap_links (s : State) (t : TrapInfo) (k : Option Nat) : (slotTrap s t k).links = s.links := by simp [slotTrap, trapWith]
@[simp] theorem slotTrap_arrays (s : State) (t : TrapInfo) (k : Option Nat) : (slotTrap s t k).arrays = s.arrays := by simp [slotTrap, trapWith]
@[simp] theorem slotTrap_rules (s : State) (t : TrapInfo) (k : Option Nat) : (slotTrap s t k).rules = s.rules := by simp [slotTrap, trapWith]
@[simp] theorem slotTrap_mem (s : State) (t : TrapInfo) (k : Option Nat) : (slotTrap s t k).mem = s.mem := by simp [slotTrap, trapWith]
@[simp] theorem slotTrap_spad (s : State) (t : TrapInfo) (k : Option Nat) : (slotTrap s t k).spad = s.spad := by simp [slotTrap, trapWith]
@[simp] theorem slotTrap_hbmDirty (s : State) (t : TrapInfo) (k : Option Nat) : (slotTrap s t k).hbmDirty = s.hbmDirty := by simp [slotTrap, trapWith]
@[simp] theorem slotTrap_hbmNew (s : State) (t : TrapInfo) (k : Option Nat) : (slotTrap s t k).hbmNew = s.hbmNew := by simp [slotTrap, trapWith]
@[simp] theorem slotTrap_hbmHost (s : State) (t : TrapInfo) (k : Option Nat) : (slotTrap s t k).hbmHost = s.hbmHost := by simp [slotTrap, trapWith]
@[simp] theorem slotTrap_l1 (s : State) (t : TrapInfo) (k : Option Nat) : (slotTrap s t k).l1 = s.l1 := by simp [slotTrap, trapWith]
@[simp] theorem slotTrap_tlb (s : State) (t : TrapInfo) (k : Option Nat) : (slotTrap s t k).tlb = s.tlb := by simp [slotTrap, trapWith]
@[simp] theorem slotTrap_walkCache (s : State) (t : TrapInfo) (k : Option Nat) : (slotTrap s t k).walkCache = s.walkCache := by simp [slotTrap, trapWith]
@[simp] theorem slotTrap_bankWaits (s : State) (t : TrapInfo) (k : Option Nat) : (slotTrap s t k).bankWaits = s.bankWaits := by simp [slotTrap, trapWith]
@[simp] theorem slotTrap_poison (s : State) (t : TrapInfo) (k : Option Nat) : (slotTrap s t k).poison = s.poison := by simp [slotTrap, trapWith]
@[simp] theorem slotTrap_walks (s : State) (t : TrapInfo) (k : Option Nat) : (slotTrap s t k).walks = s.walks := by simp [slotTrap, trapWith]
@[simp] theorem slotTrap_clocks (s : State) (t : TrapInfo) (k : Option Nat) : (slotTrap s t k).clocks = s.clocks := by simp [slotTrap, trapWith]
@[simp] theorem slotTrap_taintMem (s : State) (t : TrapInfo) (k : Option Nat) : (slotTrap s t k).taintMem = s.taintMem := by simp [slotTrap, trapWith]
@[simp] theorem slotTrap_time (s : State) (t : TrapInfo) (k : Option Nat) : (slotTrap s t k).time = s.time := by simp [slotTrap, trapWith]
@[simp] theorem slotTrap_wall (s : State) (t : TrapInfo) (k : Option Nat) : (slotTrap s t k).wall = s.wall := by simp [slotTrap, trapWith]
@[simp] theorem slotTrap_wallFrac (s : State) (t : TrapInfo) (k : Option Nat) : (slotTrap s t k).wallFrac = s.wallFrac := by simp [slotTrap, trapWith]
@[simp] theorem slotTrap_wallRate (s : State) (t : TrapInfo) (k : Option Nat) : (slotTrap s t k).wallRate = s.wallRate := by simp [slotTrap, trapWith]
@[simp] theorem slotTrap_wallSet (s : State) (t : TrapInfo) (k : Option Nat) : (slotTrap s t k).wallSet = s.wallSet := by simp [slotTrap, trapWith]
@[simp] theorem slotTrap_pmap (s : State) (t : TrapInfo) (k : Option Nat) : (slotTrap s t k).pmap = s.pmap := by simp [slotTrap, trapWith]
@[simp] theorem slotTrap_granary (s : State) (t : TrapInfo) (k : Option Nat) : (slotTrap s t k).granary = s.granary := by simp [slotTrap, trapWith]
@[simp] theorem slotTrap_fleet (s : State) (t : TrapInfo) (k : Option Nat) : (slotTrap s t k).fleet = s.fleet := by simp [slotTrap, trapWith]
@[simp] theorem slotTrap_mgmt (s : State) (t : TrapInfo) (k : Option Nat) : (slotTrap s t k).mgmt = s.mgmt := by simp [slotTrap, trapWith]
@[simp] theorem slotTrap_agenda (s : State) (t : TrapInfo) (k : Option Nat) : (slotTrap s t k).agenda = s.agenda := by simp [slotTrap, trapWith]
@[simp] theorem slotTrap_arg (s : State) (t : TrapInfo) (k : Option Nat) : (slotTrap s t k).arg = s.arg := by simp [slotTrap, trapWith]
@[simp] theorem slotTrap_freeIx (s : State) (t : TrapInfo) (k : Option Nat) : (slotTrap s t k).freeIx = s.freeIx := by simp [slotTrap, trapWith]
@[simp] theorem slotTrap_nextId (s : State) (t : TrapInfo) (k : Option Nat) : (slotTrap s t k).nextId = s.nextId := by simp [slotTrap, trapWith]
@[simp] theorem slotTrap_lastRun (s : State) (t : TrapInfo) (k : Option Nat) : (slotTrap s t k).lastRun = s.lastRun := by simp [slotTrap, trapWith]

@[simp] theorem eret_part (s : State) : (eret s).part = s.part := rfl
@[simp] theorem eret_pkg (s : State) : (eret s).pkg = s.pkg := rfl
@[simp] theorem eret_others (s : State) : (eret s).others = s.others := rfl
@[simp] theorem eret_pre (s : State) : (eret s).pre = s.pre := rfl
@[simp] theorem eret_bun (s : State) : (eret s).bun = s.bun := rfl
@[simp] theorem eret_gangs (s : State) : (eret s).gangs = s.gangs := rfl
@[simp] theorem eret_links (s : State) : (eret s).links = s.links := rfl
@[simp] theorem eret_arrays (s : State) : (eret s).arrays = s.arrays := rfl
@[simp] theorem eret_rules (s : State) : (eret s).rules = s.rules := rfl
@[simp] theorem eret_mem (s : State) : (eret s).mem = s.mem := rfl
@[simp] theorem eret_spad (s : State) : (eret s).spad = s.spad := rfl
@[simp] theorem eret_hbmDirty (s : State) : (eret s).hbmDirty = s.hbmDirty := rfl
@[simp] theorem eret_hbmNew (s : State) : (eret s).hbmNew = s.hbmNew := rfl
@[simp] theorem eret_hbmHost (s : State) : (eret s).hbmHost = s.hbmHost := rfl
@[simp] theorem eret_l1 (s : State) : (eret s).l1 = s.l1 := rfl
@[simp] theorem eret_tlb (s : State) : (eret s).tlb = s.tlb := rfl
@[simp] theorem eret_walkCache (s : State) : (eret s).walkCache = s.walkCache := rfl
@[simp] theorem eret_bankWaits (s : State) : (eret s).bankWaits = s.bankWaits := rfl
@[simp] theorem eret_undos (s : State) : (eret s).undos = s.undos := rfl
@[simp] theorem eret_poison (s : State) : (eret s).poison = s.poison := rfl
@[simp] theorem eret_walks (s : State) : (eret s).walks = s.walks := rfl
@[simp] theorem eret_flights (s : State) : (eret s).flights = s.flights := rfl
@[simp] theorem eret_tileOps (s : State) : (eret s).tileOps = s.tileOps := rfl
@[simp] theorem eret_cmds (s : State) : (eret s).cmds = s.cmds := rfl
@[simp] theorem eret_armed (s : State) : (eret s).armed = s.armed := rfl
@[simp] theorem eret_joins (s : State) : (eret s).joins = s.joins := rfl
@[simp] theorem eret_press (s : State) : (eret s).press = s.press := rfl
@[simp] theorem eret_clocks (s : State) : (eret s).clocks = s.clocks := rfl
@[simp] theorem eret_invals (s : State) : (eret s).invals = s.invals := rfl
@[simp] theorem eret_taintMem (s : State) : (eret s).taintMem = s.taintMem := rfl
@[simp] theorem eret_time (s : State) : (eret s).time = s.time := rfl
@[simp] theorem eret_wall (s : State) : (eret s).wall = s.wall := rfl
@[simp] theorem eret_wallFrac (s : State) : (eret s).wallFrac = s.wallFrac := rfl
@[simp] theorem eret_wallRate (s : State) : (eret s).wallRate = s.wallRate := rfl
@[simp] theorem eret_wallSet (s : State) : (eret s).wallSet = s.wallSet := rfl
@[simp] theorem eret_pmap (s : State) : (eret s).pmap = s.pmap := rfl
@[simp] theorem eret_granary (s : State) : (eret s).granary = s.granary := rfl
@[simp] theorem eret_fleet (s : State) : (eret s).fleet = s.fleet := rfl
@[simp] theorem eret_mgmt (s : State) : (eret s).mgmt = s.mgmt := rfl
@[simp] theorem eret_saved (s : State) : (eret s).saved = s.saved := rfl
@[simp] theorem eret_agenda (s : State) : (eret s).agenda = s.agenda := rfl
@[simp] theorem eret_arg (s : State) : (eret s).arg = s.arg := rfl
@[simp] theorem eret_freeIx (s : State) : (eret s).freeIx = s.freeIx := rfl
@[simp] theorem eret_nextId (s : State) : (eret s).nextId = s.nextId := rfl
@[simp] theorem eret_lastRun (s : State) : (eret s).lastRun = s.lastRun := rfl

@[simp] theorem blockOn_part (s : State) (w : Block) : (blockOn s w).part = s.part := rfl
@[simp] theorem blockOn_pkg (s : State) (w : Block) : (blockOn s w).pkg = s.pkg := rfl
@[simp] theorem blockOn_others (s : State) (w : Block) : (blockOn s w).others = s.others := rfl
@[simp] theorem blockOn_pre (s : State) (w : Block) : (blockOn s w).pre = s.pre := rfl
@[simp] theorem blockOn_bun (s : State) (w : Block) : (blockOn s w).bun = s.bun := rfl
@[simp] theorem blockOn_gangs (s : State) (w : Block) : (blockOn s w).gangs = s.gangs := rfl
@[simp] theorem blockOn_links (s : State) (w : Block) : (blockOn s w).links = s.links := rfl
@[simp] theorem blockOn_arrays (s : State) (w : Block) : (blockOn s w).arrays = s.arrays := rfl
@[simp] theorem blockOn_rules (s : State) (w : Block) : (blockOn s w).rules = s.rules := rfl
@[simp] theorem blockOn_mem (s : State) (w : Block) : (blockOn s w).mem = s.mem := rfl
@[simp] theorem blockOn_spad (s : State) (w : Block) : (blockOn s w).spad = s.spad := rfl
@[simp] theorem blockOn_hbmDirty (s : State) (w : Block) : (blockOn s w).hbmDirty = s.hbmDirty := rfl
@[simp] theorem blockOn_hbmNew (s : State) (w : Block) : (blockOn s w).hbmNew = s.hbmNew := rfl
@[simp] theorem blockOn_hbmHost (s : State) (w : Block) : (blockOn s w).hbmHost = s.hbmHost := rfl
@[simp] theorem blockOn_l1 (s : State) (w : Block) : (blockOn s w).l1 = s.l1 := rfl
@[simp] theorem blockOn_tlb (s : State) (w : Block) : (blockOn s w).tlb = s.tlb := rfl
@[simp] theorem blockOn_walkCache (s : State) (w : Block) : (blockOn s w).walkCache = s.walkCache := rfl
@[simp] theorem blockOn_bankWaits (s : State) (w : Block) : (blockOn s w).bankWaits = s.bankWaits := rfl
@[simp] theorem blockOn_undos (s : State) (w : Block) : (blockOn s w).undos = s.undos := rfl
@[simp] theorem blockOn_poison (s : State) (w : Block) : (blockOn s w).poison = s.poison := rfl
@[simp] theorem blockOn_walks (s : State) (w : Block) : (blockOn s w).walks = s.walks := rfl
@[simp] theorem blockOn_flights (s : State) (w : Block) : (blockOn s w).flights = s.flights := rfl
@[simp] theorem blockOn_tileOps (s : State) (w : Block) : (blockOn s w).tileOps = s.tileOps := rfl
@[simp] theorem blockOn_cmds (s : State) (w : Block) : (blockOn s w).cmds = s.cmds := rfl
@[simp] theorem blockOn_armed (s : State) (w : Block) : (blockOn s w).armed = s.armed := rfl
@[simp] theorem blockOn_joins (s : State) (w : Block) : (blockOn s w).joins = s.joins := rfl
@[simp] theorem blockOn_press (s : State) (w : Block) : (blockOn s w).press = s.press := rfl
@[simp] theorem blockOn_clocks (s : State) (w : Block) : (blockOn s w).clocks = s.clocks := rfl
@[simp] theorem blockOn_invals (s : State) (w : Block) : (blockOn s w).invals = s.invals := rfl
@[simp] theorem blockOn_taintMem (s : State) (w : Block) : (blockOn s w).taintMem = s.taintMem := rfl
@[simp] theorem blockOn_time (s : State) (w : Block) : (blockOn s w).time = s.time := rfl
@[simp] theorem blockOn_wall (s : State) (w : Block) : (blockOn s w).wall = s.wall := rfl
@[simp] theorem blockOn_wallFrac (s : State) (w : Block) : (blockOn s w).wallFrac = s.wallFrac := rfl
@[simp] theorem blockOn_wallRate (s : State) (w : Block) : (blockOn s w).wallRate = s.wallRate := rfl
@[simp] theorem blockOn_wallSet (s : State) (w : Block) : (blockOn s w).wallSet = s.wallSet := rfl
@[simp] theorem blockOn_pmap (s : State) (w : Block) : (blockOn s w).pmap = s.pmap := rfl
@[simp] theorem blockOn_granary (s : State) (w : Block) : (blockOn s w).granary = s.granary := rfl
@[simp] theorem blockOn_fleet (s : State) (w : Block) : (blockOn s w).fleet = s.fleet := rfl
@[simp] theorem blockOn_mgmt (s : State) (w : Block) : (blockOn s w).mgmt = s.mgmt := rfl
@[simp] theorem blockOn_saved (s : State) (w : Block) : (blockOn s w).saved = s.saved := rfl
@[simp] theorem blockOn_agenda (s : State) (w : Block) : (blockOn s w).agenda = s.agenda := rfl
@[simp] theorem blockOn_arg (s : State) (w : Block) : (blockOn s w).arg = s.arg := rfl
@[simp] theorem blockOn_freeIx (s : State) (w : Block) : (blockOn s w).freeIx = s.freeIx := rfl
@[simp] theorem blockOn_nextId (s : State) (w : Block) : (blockOn s w).nextId = s.nextId := rfl
@[simp] theorem blockOn_lastRun (s : State) (w : Block) : (blockOn s w).lastRun = s.lastRun := rfl

/-! ### A context -/

@[simp] theorem ctx_wrS_id (c c0 : Ctx) (r : SReg) (v : Word) : (c.wrS c0 r v).id = c.id := by unfold Ctx.wrS; split <;> rfl
@[simp] theorem ctx_wrS_live (c c0 : Ctx) (r : SReg) (v : Word) : (c.wrS c0 r v).live = c.live := by unfold Ctx.wrS; split <;> rfl
@[simp] theorem ctx_wrS_status (c c0 : Ctx) (r : SReg) (v : Word) : (c.wrS c0 r v).status = c.status := by unfold Ctx.wrS; split <;> rfl
@[simp] theorem ctx_wrS_running (c c0 : Ctx) (r : SReg) (v : Word) : (c.wrS c0 r v).running = c.running := by unfold Ctx.wrS; split <;> rfl
@[simp] theorem ctx_wrS_gcl (c c0 : Ctx) (r : SReg) (v : Word) : (c.wrS c0 r v).gcl = c.gcl := by unfold Ctx.wrS; split <;> rfl
@[simp] theorem ctx_wrS_glast (c c0 : Ctx) (r : SReg) (v : Word) : (c.wrS c0 r v).glast = c.glast := by unfold Ctx.wrS; split <;> rfl
@[simp] theorem ctx_wrS_ldie (c c0 : Ctx) (r : SReg) (v : Word) : (c.wrS c0 r v).ldie = c.ldie := by unfold Ctx.wrS; split <;> rfl
@[simp] theorem ctx_wrS_lcl (c c0 : Ctx) (r : SReg) (v : Word) : (c.wrS c0 r v).lcl = c.lcl := by unfold Ctx.wrS; split <;> rfl
@[simp] theorem ctx_wrS_lcore (c c0 : Ctx) (r : SReg) (v : Word) : (c.wrS c0 r v).lcore = c.lcore := by unfold Ctx.wrS; split <;> rfl
@[simp] theorem ctx_wrS_slotNo (c c0 : Ctx) (r : SReg) (v : Word) : (c.wrS c0 r v).slotNo = c.slotNo := by unfold Ctx.wrS; split <;> rfl
@[simp] theorem ctx_wrS_pdie (c c0 : Ctx) (r : SReg) (v : Word) : (c.wrS c0 r v).pdie = c.pdie := by unfold Ctx.wrS; split <;> rfl
@[simp] theorem ctx_wrS_pcl (c c0 : Ctx) (r : SReg) (v : Word) : (c.wrS c0 r v).pcl = c.pcl := by unfold Ctx.wrS; split <;> rfl
@[simp] theorem ctx_wrS_pcore (c c0 : Ctx) (r : SReg) (v : Word) : (c.wrS c0 r v).pcore = c.pcore := by unfold Ctx.wrS; split <;> rfl
@[simp] theorem ctx_wrS_sliced (c c0 : Ctx) (r : SReg) (v : Word) : (c.wrS c0 r v).sliced = c.sliced := by unfold Ctx.wrS; split <;> rfl
@[simp] theorem ctx_wrS_pc (c c0 : Ctx) (r : SReg) (v : Word) : (c.wrS c0 r v).pc = c.pc := by unfold Ctx.wrS; split <;> rfl
@[simp] theorem ctx_wrS_mode (c c0 : Ctx) (r : SReg) (v : Word) : (c.wrS c0 r v).mode = c.mode := by unfold Ctx.wrS; split <;> rfl
@[simp] theorem ctx_wrS_s (c c0 : Ctx) (r : SReg) (v : Word) : (c.wrS c0 r v).s = if r = 0 then c.s else c.s.set (c0.physS r).val v (c0.physS r).isLt := by unfold Ctx.wrS; split <;> rfl
@[simp] theorem ctx_wrS_p (c c0 : Ctx) (r : SReg) (v : Word) : (c.wrS c0 r v).p = c.p := by unfold Ctx.wrS; split <;> rfl
@[simp] theorem ctx_wrS_v (c c0 : Ctx) (r : SReg) (v : Word) : (c.wrS c0 r v).v = c.v := by unfold Ctx.wrS; split <;> rfl
@[simp] theorem ctx_wrS_m (c c0 : Ctx) (r : SReg) (v : Word) : (c.wrS c0 r v).m = c.m := by unfold Ctx.wrS; split <;> rfl
@[simp] theorem ctx_wrS_t (c c0 : Ctx) (r : SReg) (v : Word) : (c.wrS c0 r v).t = c.t := by unfold Ctx.wrS; split <;> rfl
@[simp] theorem ctx_wrS_q (c c0 : Ctx) (r : SReg) (v : Word) : (c.wrS c0 r v).q = c.q := by unfold Ctx.wrS; split <;> rfl
@[simp] theorem ctx_wrS_fpm (c c0 : Ctx) (r : SReg) (v : Word) : (c.wrS c0 r v).fpm = c.fpm := by unfold Ctx.wrS; split <;> rfl
@[simp] theorem ctx_wrS_fxf (c c0 : Ctx) (r : SReg) (v : Word) : (c.wrS c0 r v).fxf = c.fxf := by unfold Ctx.wrS; split <;> rfl
@[simp] theorem ctx_wrS_nbv (c c0 : Ctx) (r : SReg) (v : Word) : (c.wrS c0 r v).nbv = c.nbv := by unfold Ctx.wrS; split <;> rfl
@[simp] theorem ctx_wrS_detl (c c0 : Ctx) (r : SReg) (v : Word) : (c.wrS c0 r v).detl = c.detl := by unfold Ctx.wrS; split <;> rfl
@[simp] theorem ctx_wrS_hperm (c c0 : Ctx) (r : SReg) (v : Word) : (c.wrS c0 r v).hperm = c.hperm := by unfold Ctx.wrS; split <;> rfl
@[simp] theorem ctx_wrS_vshape (c c0 : Ctx) (r : SReg) (v : Word) : (c.wrS c0 r v).vshape = c.vshape := by unfold Ctx.wrS; split <;> rfl
@[simp] theorem ctx_wrS_pass (c c0 : Ctx) (r : SReg) (v : Word) : (c.wrS c0 r v).pass = c.pass := by unfold Ctx.wrS; split <;> rfl
@[simp] theorem ctx_wrS_sc (c c0 : Ctx) (r : SReg) (v : Word) : (c.wrS c0 r v).sc = c.sc := by unfold Ctx.wrS; split <;> rfl
@[simp] theorem ctx_wrS_rbs (c c0 : Ctx) (r : SReg) (v : Word) : (c.wrS c0 r v).rbs = c.rbs := by unfold Ctx.wrS; split <;> rfl
@[simp] theorem ctx_wrS_rbv (c c0 : Ctx) (r : SReg) (v : Word) : (c.wrS c0 r v).rbv = c.rbv := by unfold Ctx.wrS; split <;> rfl
@[simp] theorem ctx_wrS_tcfg (c c0 : Ctx) (r : SReg) (v : Word) : (c.wrS c0 r v).tcfg = c.tcfg := by unfold Ctx.wrS; split <;> rfl
@[simp] theorem ctx_wrS_ntiles (c c0 : Ctx) (r : SReg) (v : Word) : (c.wrS c0 r v).ntiles = c.ntiles := by unfold Ctx.wrS; split <;> rfl
@[simp] theorem ctx_wrS_ocl (c c0 : Ctx) (r : SReg) (v : Word) : (c.wrS c0 r v).ocl = c.ocl := by unfold Ctx.wrS; split <;> rfl
@[simp] theorem ctx_wrS_ocs (c c0 : Ctx) (r : SReg) (v : Word) : (c.wrS c0 r v).ocs = c.ocs := by unfold Ctx.wrS; split <;> rfl
@[simp] theorem ctx_wrS_occ (c c0 : Ctx) (r : SReg) (v : Word) : (c.wrS c0 r v).occ = c.occ := by unfold Ctx.wrS; split <;> rfl
@[simp] theorem ctx_wrS_oct (c c0 : Ctx) (r : SReg) (v : Word) : (c.wrS c0 r v).oct = c.oct := by unfold Ctx.wrS; split <;> rfl
@[simp] theorem ctx_wrS_trapc (c c0 : Ctx) (r : SReg) (v : Word) : (c.wrS c0 r v).trapc = c.trapc := by unfold Ctx.wrS; split <;> rfl
@[simp] theorem ctx_wrS_trappc (c c0 : Ctx) (r : SReg) (v : Word) : (c.wrS c0 r v).trappc = c.trappc := by unfold Ctx.wrS; split <;> rfl
@[simp] theorem ctx_wrS_trapx (c c0 : Ctx) (r : SReg) (v : Word) : (c.wrS c0 r v).trapx = c.trapx := by unfold Ctx.wrS; split <;> rfl
@[simp] theorem ctx_wrS_trapo (c c0 : Ctx) (r : SReg) (v : Word) : (c.wrS c0 r v).trapo = c.trapo := by unfold Ctx.wrS; split <;> rfl
@[simp] theorem ctx_wrS_tvec (c c0 : Ctx) (r : SReg) (v : Word) : (c.wrS c0 r v).tvec = c.tvec := by unfold Ctx.wrS; split <;> rfl
@[simp] theorem ctx_wrS_tscr (c c0 : Ctx) (r : SReg) (v : Word) : (c.wrS c0 r v).tscr = c.tscr := by unfold Ctx.wrS; split <;> rfl
@[simp] theorem ctx_wrS_asid (c c0 : Ctx) (r : SReg) (v : Word) : (c.wrS c0 r v).asid = c.asid := by unfold Ctx.wrS; split <;> rfl
@[simp] theorem ctx_wrS_ptbase (c c0 : Ctx) (r : SReg) (v : Word) : (c.wrS c0 r v).ptbase = c.ptbase := by unfold Ctx.wrS; split <;> rfl
@[simp] theorem ctx_wrS_bar (c c0 : Ctx) (r : SReg) (v : Word) : (c.wrS c0 r v).bar = c.bar := by unfold Ctx.wrS; split <;> rfl
@[simp] theorem ctx_wrS_prog (c c0 : Ctx) (r : SReg) (v : Word) : (c.wrS c0 r v).prog = c.prog := by unfold Ctx.wrS; split <;> rfl
@[simp] theorem ctx_wrS_deferred (c c0 : Ctx) (r : SReg) (v : Word) : (c.wrS c0 r v).deferred = c.deferred := by unfold Ctx.wrS; split <;> rfl
@[simp] theorem ctx_wrS_seq (c c0 : Ctx) (r : SReg) (v : Word) : (c.wrS c0 r v).seq = c.seq := by unfold Ctx.wrS; split <;> rfl
@[simp] theorem ctx_wrS_rtag (c c0 : Ctx) (r : SReg) (v : Word) : (c.wrS c0 r v).rtag = c.rtag := by unfold Ctx.wrS; split <;> rfl
@[simp] theorem ctx_wrS_fences (c c0 : Ctx) (r : SReg) (v : Word) : (c.wrS c0 r v).fences = c.fences := by unfold Ctx.wrS; split <;> rfl
@[simp] theorem ctx_wrS_commits (c c0 : Ctx) (r : SReg) (v : Word) : (c.wrS c0 r v).commits = c.commits := by unfold Ctx.wrS; split <;> rfl
@[simp] theorem ctx_wrS_commitVal (c c0 : Ctx) (r : SReg) (v : Word) : (c.wrS c0 r v).commitVal = c.commitVal := by unfold Ctx.wrS; split <;> rfl
@[simp] theorem ctx_wrS_phase (c c0 : Ctx) (r : SReg) (v : Word) : (c.wrS c0 r v).phase = c.phase := by unfold Ctx.wrS; split <;> rfl
@[simp] theorem ctx_wrS_parity (c c0 : Ctx) (r : SReg) (v : Word) : (c.wrS c0 r v).parity = c.parity := by unfold Ctx.wrS; split <;> rfl
@[simp] theorem ctx_wrS_stopTok (c c0 : Ctx) (r : SReg) (v : Word) : (c.wrS c0 r v).stopTok = c.stopTok := by unfold Ctx.wrS; split <;> rfl
@[simp] theorem ctx_wrS_harrow (c c0 : Ctx) (r : SReg) (v : Word) : (c.wrS c0 r v).harrow = c.harrow := by unfold Ctx.wrS; split <;> rfl
@[simp] theorem ctx_wrS_recent (c c0 : Ctx) (r : SReg) (v : Word) : (c.wrS c0 r v).recent = c.recent := by unfold Ctx.wrS; split <;> rfl
@[simp] theorem ctx_wrS_taint (c c0 : Ctx) (r : SReg) (v : Word) : (c.wrS c0 r v).taint = c.taint := by unfold Ctx.wrS; split <;> rfl
@[simp] theorem ctx_wrS_badRegs (c c0 : Ctx) (r : SReg) (v : Word) : (c.wrS c0 r v).badRegs = c.badRegs := by unfold Ctx.wrS; split <;> rfl
@[simp] theorem ctx_wrS_bundles (c c0 : Ctx) (r : SReg) (v : Word) : (c.wrS c0 r v).bundles = c.bundles := by unfold Ctx.wrS; split <;> rfl
@[simp] theorem ctx_wrS_fenceNo (c c0 : Ctx) (r : SReg) (v : Word) : (c.wrS c0 r v).fenceNo = c.fenceNo := by unfold Ctx.wrS; split <;> rfl
@[simp] theorem ctx_wrS_fenceSeen (c c0 : Ctx) (r : SReg) (v : Word) : (c.wrS c0 r v).fenceSeen = c.fenceSeen := by unfold Ctx.wrS; split <;> rfl
@[simp] theorem ctx_wrS_fenceSeq (c c0 : Ctx) (r : SReg) (v : Word) : (c.wrS c0 r v).fenceSeq = c.fenceSeq := by unfold Ctx.wrS; split <;> rfl
@[simp] theorem ctx_wrS_fenceScope (c c0 : Ctx) (r : SReg) (v : Word) : (c.wrS c0 r v).fenceScope = c.fenceScope := by unfold Ctx.wrS; split <;> rfl
@[simp] theorem ctx_wrS_readStamp (c c0 : Ctx) (r : SReg) (v : Word) : (c.wrS c0 r v).readStamp = c.readStamp := by unfold Ctx.wrS; split <;> rfl
@[simp] theorem ctx_wrS_acqStamp (c c0 : Ctx) (r : SReg) (v : Word) : (c.wrS c0 r v).acqStamp = c.acqStamp := by unfold Ctx.wrS; split <;> rfl
@[simp] theorem ctx_wrS_poisoned (c c0 : Ctx) (r : SReg) (v : Word) : (c.wrS c0 r v).poisoned = c.poisoned := by unfold Ctx.wrS; split <;> rfl
@[simp] theorem ctx_wrS_rowStop (c c0 : Ctx) (r : SReg) (v : Word) : (c.wrS c0 r v).rowStop = c.rowStop := by unfold Ctx.wrS; split <;> rfl

@[simp] theorem ctx_flushHarrow_id (c : Ctx) : (c.flushHarrow).id = c.id := rfl
@[simp] theorem ctx_flushHarrow_live (c : Ctx) : (c.flushHarrow).live = c.live := rfl
@[simp] theorem ctx_flushHarrow_status (c : Ctx) : (c.flushHarrow).status = c.status := rfl
@[simp] theorem ctx_flushHarrow_running (c : Ctx) : (c.flushHarrow).running = c.running := rfl
@[simp] theorem ctx_flushHarrow_gcl (c : Ctx) : (c.flushHarrow).gcl = c.gcl := rfl
@[simp] theorem ctx_flushHarrow_glast (c : Ctx) : (c.flushHarrow).glast = c.glast := rfl
@[simp] theorem ctx_flushHarrow_ldie (c : Ctx) : (c.flushHarrow).ldie = c.ldie := rfl
@[simp] theorem ctx_flushHarrow_lcl (c : Ctx) : (c.flushHarrow).lcl = c.lcl := rfl
@[simp] theorem ctx_flushHarrow_lcore (c : Ctx) : (c.flushHarrow).lcore = c.lcore := rfl
@[simp] theorem ctx_flushHarrow_slotNo (c : Ctx) : (c.flushHarrow).slotNo = c.slotNo := rfl
@[simp] theorem ctx_flushHarrow_pdie (c : Ctx) : (c.flushHarrow).pdie = c.pdie := rfl
@[simp] theorem ctx_flushHarrow_pcl (c : Ctx) : (c.flushHarrow).pcl = c.pcl := rfl
@[simp] theorem ctx_flushHarrow_pcore (c : Ctx) : (c.flushHarrow).pcore = c.pcore := rfl
@[simp] theorem ctx_flushHarrow_sliced (c : Ctx) : (c.flushHarrow).sliced = c.sliced := rfl
@[simp] theorem ctx_flushHarrow_pc (c : Ctx) : (c.flushHarrow).pc = c.pc := rfl
@[simp] theorem ctx_flushHarrow_mode (c : Ctx) : (c.flushHarrow).mode = c.mode := rfl
@[simp] theorem ctx_flushHarrow_s (c : Ctx) : (c.flushHarrow).s = c.s := rfl
@[simp] theorem ctx_flushHarrow_p (c : Ctx) : (c.flushHarrow).p = c.p := rfl
@[simp] theorem ctx_flushHarrow_v (c : Ctx) : (c.flushHarrow).v = c.v := rfl
@[simp] theorem ctx_flushHarrow_m (c : Ctx) : (c.flushHarrow).m = c.m := rfl
@[simp] theorem ctx_flushHarrow_t (c : Ctx) : (c.flushHarrow).t = c.t := rfl
@[simp] theorem ctx_flushHarrow_q (c : Ctx) : (c.flushHarrow).q = c.q := rfl
@[simp] theorem ctx_flushHarrow_fpm (c : Ctx) : (c.flushHarrow).fpm = c.fpm := rfl
@[simp] theorem ctx_flushHarrow_fxf (c : Ctx) : (c.flushHarrow).fxf = c.fxf := rfl
@[simp] theorem ctx_flushHarrow_nbv (c : Ctx) : (c.flushHarrow).nbv = c.nbv := rfl
@[simp] theorem ctx_flushHarrow_detl (c : Ctx) : (c.flushHarrow).detl = c.detl := rfl
@[simp] theorem ctx_flushHarrow_hperm (c : Ctx) : (c.flushHarrow).hperm = c.hperm := rfl
@[simp] theorem ctx_flushHarrow_vshape (c : Ctx) : (c.flushHarrow).vshape = c.vshape := rfl
@[simp] theorem ctx_flushHarrow_pass (c : Ctx) : (c.flushHarrow).pass = c.pass := rfl
@[simp] theorem ctx_flushHarrow_sc (c : Ctx) : (c.flushHarrow).sc = c.sc := rfl
@[simp] theorem ctx_flushHarrow_rbs (c : Ctx) : (c.flushHarrow).rbs = c.rbs := rfl
@[simp] theorem ctx_flushHarrow_rbv (c : Ctx) : (c.flushHarrow).rbv = c.rbv := rfl
@[simp] theorem ctx_flushHarrow_tcfg (c : Ctx) : (c.flushHarrow).tcfg = c.tcfg := rfl
@[simp] theorem ctx_flushHarrow_ntiles (c : Ctx) : (c.flushHarrow).ntiles = c.ntiles := rfl
@[simp] theorem ctx_flushHarrow_ocl (c : Ctx) : (c.flushHarrow).ocl = c.ocl := rfl
@[simp] theorem ctx_flushHarrow_ocs (c : Ctx) : (c.flushHarrow).ocs = c.ocs := rfl
@[simp] theorem ctx_flushHarrow_occ (c : Ctx) : (c.flushHarrow).occ = c.occ := rfl
@[simp] theorem ctx_flushHarrow_oct (c : Ctx) : (c.flushHarrow).oct = c.oct := rfl
@[simp] theorem ctx_flushHarrow_trapc (c : Ctx) : (c.flushHarrow).trapc = c.trapc := rfl
@[simp] theorem ctx_flushHarrow_trappc (c : Ctx) : (c.flushHarrow).trappc = c.trappc := rfl
@[simp] theorem ctx_flushHarrow_trapx (c : Ctx) : (c.flushHarrow).trapx = c.trapx := rfl
@[simp] theorem ctx_flushHarrow_trapo (c : Ctx) : (c.flushHarrow).trapo = c.trapo := rfl
@[simp] theorem ctx_flushHarrow_tvec (c : Ctx) : (c.flushHarrow).tvec = c.tvec := rfl
@[simp] theorem ctx_flushHarrow_tscr (c : Ctx) : (c.flushHarrow).tscr = c.tscr := rfl
@[simp] theorem ctx_flushHarrow_asid (c : Ctx) : (c.flushHarrow).asid = c.asid := rfl
@[simp] theorem ctx_flushHarrow_ptbase (c : Ctx) : (c.flushHarrow).ptbase = c.ptbase := rfl
@[simp] theorem ctx_flushHarrow_bar (c : Ctx) : (c.flushHarrow).bar = c.bar := rfl
@[simp] theorem ctx_flushHarrow_prog (c : Ctx) : (c.flushHarrow).prog = c.prog := rfl
@[simp] theorem ctx_flushHarrow_deferred (c : Ctx) : (c.flushHarrow).deferred = c.deferred := rfl
@[simp] theorem ctx_flushHarrow_seq (c : Ctx) : (c.flushHarrow).seq = c.seq := rfl
@[simp] theorem ctx_flushHarrow_rtag (c : Ctx) : (c.flushHarrow).rtag = c.rtag := rfl
@[simp] theorem ctx_flushHarrow_fences (c : Ctx) : (c.flushHarrow).fences = c.fences := rfl
@[simp] theorem ctx_flushHarrow_commits (c : Ctx) : (c.flushHarrow).commits = c.commits := rfl
@[simp] theorem ctx_flushHarrow_commitVal (c : Ctx) : (c.flushHarrow).commitVal = c.commitVal := rfl
@[simp] theorem ctx_flushHarrow_phase (c : Ctx) : (c.flushHarrow).phase = c.phase := rfl
@[simp] theorem ctx_flushHarrow_parity (c : Ctx) : (c.flushHarrow).parity = c.parity := rfl
@[simp] theorem ctx_flushHarrow_stopTok (c : Ctx) : (c.flushHarrow).stopTok = c.stopTok := rfl
@[simp] theorem ctx_flushHarrow_harrow (c : Ctx) : (c.flushHarrow).harrow = { c.harrow with decided := c.harrow.decided.filter Decision.handed, delay := none } := rfl
@[simp] theorem ctx_flushHarrow_recent (c : Ctx) : (c.flushHarrow).recent = c.recent := rfl
@[simp] theorem ctx_flushHarrow_taint (c : Ctx) : (c.flushHarrow).taint = c.taint := rfl
@[simp] theorem ctx_flushHarrow_badRegs (c : Ctx) : (c.flushHarrow).badRegs = c.badRegs := rfl
@[simp] theorem ctx_flushHarrow_bundles (c : Ctx) : (c.flushHarrow).bundles = c.bundles := rfl
@[simp] theorem ctx_flushHarrow_fenceNo (c : Ctx) : (c.flushHarrow).fenceNo = c.fenceNo := rfl
@[simp] theorem ctx_flushHarrow_fenceSeen (c : Ctx) : (c.flushHarrow).fenceSeen = c.fenceSeen := rfl
@[simp] theorem ctx_flushHarrow_fenceSeq (c : Ctx) : (c.flushHarrow).fenceSeq = c.fenceSeq := rfl
@[simp] theorem ctx_flushHarrow_fenceScope (c : Ctx) : (c.flushHarrow).fenceScope = c.fenceScope := rfl
@[simp] theorem ctx_flushHarrow_readStamp (c : Ctx) : (c.flushHarrow).readStamp = c.readStamp := rfl
@[simp] theorem ctx_flushHarrow_acqStamp (c : Ctx) : (c.flushHarrow).acqStamp = c.acqStamp := rfl
@[simp] theorem ctx_flushHarrow_poisoned (c : Ctx) : (c.flushHarrow).poisoned = c.poisoned := rfl
@[simp] theorem ctx_flushHarrow_rowStop (c : Ctx) : (c.flushHarrow).rowStop = c.rowStop := rfl

@[simp] theorem ctx_wake_id (c : Ctx) : (c.wake).id = c.id := by unfold Ctx.wake; split <;> rfl
@[simp] theorem ctx_wake_live (c : Ctx) : (c.wake).live = c.live := by unfold Ctx.wake; split <;> rfl
@[simp] theorem ctx_wake_running (c : Ctx) : (c.wake).running = c.running := by unfold Ctx.wake; split <;> rfl
@[simp] theorem ctx_wake_gcl (c : Ctx) : (c.wake).gcl = c.gcl := by unfold Ctx.wake; split <;> rfl
@[simp] theorem ctx_wake_glast (c : Ctx) : (c.wake).glast = c.glast := by unfold Ctx.wake; split <;> rfl
@[simp] theorem ctx_wake_ldie (c : Ctx) : (c.wake).ldie = c.ldie := by unfold Ctx.wake; split <;> rfl
@[simp] theorem ctx_wake_lcl (c : Ctx) : (c.wake).lcl = c.lcl := by unfold Ctx.wake; split <;> rfl
@[simp] theorem ctx_wake_lcore (c : Ctx) : (c.wake).lcore = c.lcore := by unfold Ctx.wake; split <;> rfl
@[simp] theorem ctx_wake_slotNo (c : Ctx) : (c.wake).slotNo = c.slotNo := by unfold Ctx.wake; split <;> rfl
@[simp] theorem ctx_wake_pdie (c : Ctx) : (c.wake).pdie = c.pdie := by unfold Ctx.wake; split <;> rfl
@[simp] theorem ctx_wake_pcl (c : Ctx) : (c.wake).pcl = c.pcl := by unfold Ctx.wake; split <;> rfl
@[simp] theorem ctx_wake_pcore (c : Ctx) : (c.wake).pcore = c.pcore := by unfold Ctx.wake; split <;> rfl
@[simp] theorem ctx_wake_sliced (c : Ctx) : (c.wake).sliced = c.sliced := by unfold Ctx.wake; split <;> rfl
@[simp] theorem ctx_wake_pc (c : Ctx) : (c.wake).pc = c.pc := by unfold Ctx.wake; split <;> rfl
@[simp] theorem ctx_wake_mode (c : Ctx) : (c.wake).mode = c.mode := by unfold Ctx.wake; split <;> rfl
@[simp] theorem ctx_wake_s (c : Ctx) : (c.wake).s = c.s := by unfold Ctx.wake; split <;> rfl
@[simp] theorem ctx_wake_p (c : Ctx) : (c.wake).p = c.p := by unfold Ctx.wake; split <;> rfl
@[simp] theorem ctx_wake_v (c : Ctx) : (c.wake).v = c.v := by unfold Ctx.wake; split <;> rfl
@[simp] theorem ctx_wake_m (c : Ctx) : (c.wake).m = c.m := by unfold Ctx.wake; split <;> rfl
@[simp] theorem ctx_wake_t (c : Ctx) : (c.wake).t = c.t := by unfold Ctx.wake; split <;> rfl
@[simp] theorem ctx_wake_q (c : Ctx) : (c.wake).q = c.q := by unfold Ctx.wake; split <;> rfl
@[simp] theorem ctx_wake_fpm (c : Ctx) : (c.wake).fpm = c.fpm := by unfold Ctx.wake; split <;> rfl
@[simp] theorem ctx_wake_fxf (c : Ctx) : (c.wake).fxf = c.fxf := by unfold Ctx.wake; split <;> rfl
@[simp] theorem ctx_wake_nbv (c : Ctx) : (c.wake).nbv = c.nbv := by unfold Ctx.wake; split <;> rfl
@[simp] theorem ctx_wake_detl (c : Ctx) : (c.wake).detl = c.detl := by unfold Ctx.wake; split <;> rfl
@[simp] theorem ctx_wake_hperm (c : Ctx) : (c.wake).hperm = c.hperm := by unfold Ctx.wake; split <;> rfl
@[simp] theorem ctx_wake_vshape (c : Ctx) : (c.wake).vshape = c.vshape := by unfold Ctx.wake; split <;> rfl
@[simp] theorem ctx_wake_pass (c : Ctx) : (c.wake).pass = c.pass := by unfold Ctx.wake; split <;> rfl
@[simp] theorem ctx_wake_sc (c : Ctx) : (c.wake).sc = c.sc := by unfold Ctx.wake; split <;> rfl
@[simp] theorem ctx_wake_rbs (c : Ctx) : (c.wake).rbs = c.rbs := by unfold Ctx.wake; split <;> rfl
@[simp] theorem ctx_wake_rbv (c : Ctx) : (c.wake).rbv = c.rbv := by unfold Ctx.wake; split <;> rfl
@[simp] theorem ctx_wake_tcfg (c : Ctx) : (c.wake).tcfg = c.tcfg := by unfold Ctx.wake; split <;> rfl
@[simp] theorem ctx_wake_ntiles (c : Ctx) : (c.wake).ntiles = c.ntiles := by unfold Ctx.wake; split <;> rfl
@[simp] theorem ctx_wake_ocl (c : Ctx) : (c.wake).ocl = c.ocl := by unfold Ctx.wake; split <;> rfl
@[simp] theorem ctx_wake_ocs (c : Ctx) : (c.wake).ocs = c.ocs := by unfold Ctx.wake; split <;> rfl
@[simp] theorem ctx_wake_occ (c : Ctx) : (c.wake).occ = c.occ := by unfold Ctx.wake; split <;> rfl
@[simp] theorem ctx_wake_oct (c : Ctx) : (c.wake).oct = c.oct := by unfold Ctx.wake; split <;> rfl
@[simp] theorem ctx_wake_trapc (c : Ctx) : (c.wake).trapc = c.trapc := by unfold Ctx.wake; split <;> rfl
@[simp] theorem ctx_wake_trappc (c : Ctx) : (c.wake).trappc = c.trappc := by unfold Ctx.wake; split <;> rfl
@[simp] theorem ctx_wake_trapx (c : Ctx) : (c.wake).trapx = c.trapx := by unfold Ctx.wake; split <;> rfl
@[simp] theorem ctx_wake_trapo (c : Ctx) : (c.wake).trapo = c.trapo := by unfold Ctx.wake; split <;> rfl
@[simp] theorem ctx_wake_tvec (c : Ctx) : (c.wake).tvec = c.tvec := by unfold Ctx.wake; split <;> rfl
@[simp] theorem ctx_wake_tscr (c : Ctx) : (c.wake).tscr = c.tscr := by unfold Ctx.wake; split <;> rfl
@[simp] theorem ctx_wake_asid (c : Ctx) : (c.wake).asid = c.asid := by unfold Ctx.wake; split <;> rfl
@[simp] theorem ctx_wake_ptbase (c : Ctx) : (c.wake).ptbase = c.ptbase := by unfold Ctx.wake; split <;> rfl
@[simp] theorem ctx_wake_bar (c : Ctx) : (c.wake).bar = c.bar := by unfold Ctx.wake; split <;> rfl
@[simp] theorem ctx_wake_prog (c : Ctx) : (c.wake).prog = c.prog := by unfold Ctx.wake; split <;> rfl
@[simp] theorem ctx_wake_deferred (c : Ctx) : (c.wake).deferred = c.deferred := by unfold Ctx.wake; split <;> rfl
@[simp] theorem ctx_wake_seq (c : Ctx) : (c.wake).seq = c.seq := by unfold Ctx.wake; split <;> rfl
@[simp] theorem ctx_wake_rtag (c : Ctx) : (c.wake).rtag = c.rtag := by unfold Ctx.wake; split <;> rfl
@[simp] theorem ctx_wake_fences (c : Ctx) : (c.wake).fences = c.fences := by unfold Ctx.wake; split <;> rfl
@[simp] theorem ctx_wake_commits (c : Ctx) : (c.wake).commits = c.commits := by unfold Ctx.wake; split <;> rfl
@[simp] theorem ctx_wake_commitVal (c : Ctx) : (c.wake).commitVal = c.commitVal := by unfold Ctx.wake; split <;> rfl
@[simp] theorem ctx_wake_phase (c : Ctx) : (c.wake).phase = c.phase := by unfold Ctx.wake; split <;> rfl
@[simp] theorem ctx_wake_parity (c : Ctx) : (c.wake).parity = c.parity := by unfold Ctx.wake; split <;> rfl
@[simp] theorem ctx_wake_stopTok (c : Ctx) : (c.wake).stopTok = c.stopTok := by unfold Ctx.wake; split <;> rfl
@[simp] theorem ctx_wake_harrow (c : Ctx) : (c.wake).harrow = c.harrow := by unfold Ctx.wake; split <;> rfl
@[simp] theorem ctx_wake_recent (c : Ctx) : (c.wake).recent = c.recent := by unfold Ctx.wake; split <;> rfl
@[simp] theorem ctx_wake_taint (c : Ctx) : (c.wake).taint = c.taint := by unfold Ctx.wake; split <;> rfl
@[simp] theorem ctx_wake_badRegs (c : Ctx) : (c.wake).badRegs = c.badRegs := by unfold Ctx.wake; split <;> rfl
@[simp] theorem ctx_wake_bundles (c : Ctx) : (c.wake).bundles = c.bundles := by unfold Ctx.wake; split <;> rfl
@[simp] theorem ctx_wake_fenceNo (c : Ctx) : (c.wake).fenceNo = c.fenceNo := by unfold Ctx.wake; split <;> rfl
@[simp] theorem ctx_wake_fenceSeen (c : Ctx) : (c.wake).fenceSeen = c.fenceSeen := by unfold Ctx.wake; split <;> rfl
@[simp] theorem ctx_wake_fenceSeq (c : Ctx) : (c.wake).fenceSeq = c.fenceSeq := by unfold Ctx.wake; split <;> rfl
@[simp] theorem ctx_wake_fenceScope (c : Ctx) : (c.wake).fenceScope = c.fenceScope := by unfold Ctx.wake; split <;> rfl
@[simp] theorem ctx_wake_readStamp (c : Ctx) : (c.wake).readStamp = c.readStamp := by unfold Ctx.wake; split <;> rfl
@[simp] theorem ctx_wake_acqStamp (c : Ctx) : (c.wake).acqStamp = c.acqStamp := by unfold Ctx.wake; split <;> rfl
@[simp] theorem ctx_wake_poisoned (c : Ctx) : (c.wake).poisoned = c.poisoned := by unfold Ctx.wake; split <;> rfl
@[simp] theorem ctx_wake_rowStop (c : Ctx) : (c.wake).rowStop = c.rowStop := by unfold Ctx.wake; split <;> rfl

end Sys2Proof.Machine
end

