-- ==== Sys2Proof/Laws/Ops.lean ====
section
/-! SUPPORT. What the shared operations can do, each said once: the frame of a slot, reading and writing registers, taking
a trap and returning from one. -/
namespace Sys2Proof.Machine

/-! ### The frame of a slot -/

/-- A slot always answers a next state. -/
theorem runSig_next (g : Sig) (s : State) (body : State → SlotEnd) : ∃ t, runSig g s body = .next t := by
  unfold runSig
  split
  · exact ⟨_, rfl⟩
  · split
    · exact ⟨_, rfl⟩
    · dsimp only
      split <;> exact ⟨_, rfl⟩

theorem runSlot_next (i : Instr) (s : State) (body : State → SlotEnd) : ∃ t, runSlot i s body = .next t :=
  runSig_next _ s body

/-- A slot that issues ends as its body does. -/
theorem runSig_issues {g : Sig} {s : State} (body : State → SlotEnd) (h : decodeTrap s g = none)
    (r : regStall s g = false) :
    runSig g s body =
      match body (begun s) with
      | .done t => .next (finished s t)
      | .trap t => .next (trapped s t)
      | .trapKeep k t => .next ({ slotTrap k t with pre := s.pre }.ended .trapped)
      | .trapCode t c => .next ({ slotTrap { s with pre := some s.src } t (some c) with pre := s.pre }.ended .trapped)
      | .block t w => .next (blocked s t w)
      | .halt t => .next ({ t with pre := s.pre, ctx := { t.ctx with pc := s.src.pc } }.ended .halted)
      | .waitBanks b => .next ({ s with bun := { s.bun with wants := b } }.ended .stalled)
      | .stall => .next (s.ended .stalled) := by
  unfold runSig
  rw [h]
  show (if regStall s g = true then _ else _) = _
  rw [if_neg (by simp [r])]
  rfl

/-- A slot that issues and whose body is done. -/
theorem runSig_done {g : Sig} {s t : State} {body : State → SlotEnd} (h : decodeTrap s g = none)
    (r : regStall s g = false) (b : body (begun s) = .done t) : runSig g s body = .next (finished s t) := by
  rw [runSig_issues body h r, b]

/-- A slot that issues and whose body traps. -/
theorem runSig_trap {g : Sig} {s : State} {body : State → SlotEnd} {t : TrapInfo} (h : decodeTrap s g = none)
    (r : regStall s g = false) (b : body (begun s) = .trap t) : runSig g s body = .next (trapped s t) := by
  rw [runSig_issues body h r, b]

/-- A slot that issues and whose body blocks. -/
theorem runSig_block {g : Sig} {s t : State} {body : State → SlotEnd} {w : Block} (h : decodeTrap s g = none)
    (r : regStall s g = false) (b : body (begun s) = .block t w) : runSig g s body = .next (blocked s t w) := by
  rw [runSig_issues body h r, b]

theorem runSlot_done {i : Instr} {s t : State} {body : State → SlotEnd} (h : Issues i s)
    (b : body (begun s) = .done t) : runSlot i s body = .next (finished s t) :=
  runSig_done h.1 h.2 b

theorem runSlot_trap {i : Instr} {s : State} {body : State → SlotEnd} {t : TrapInfo} (h : Issues i s)
    (b : body (begun s) = .trap t) : runSlot i s body = .next (trapped s t) :=
  runSig_trap h.1 h.2 b

theorem runSlot_block {i : Instr} {s t : State} {body : State → SlotEnd} {w : Block} (h : Issues i s)
    (b : body (begun s) = .block t w) : runSlot i s body = .next (blocked s t w) :=
  runSig_block h.1 h.2 b

/-- A slot that takes a decode-time trap. -/
theorem runSig_decode {g : Sig} {s : State} {body : State → SlotEnd} {c : Cause} (h : decodeTrap s g = some c) :
    runSig g s body = .next ((slotTrap s { cause := c, xinfo := s.bun.word }).ended .trapped) := by
  simp [runSig, h]

@[simp] theorem begun_src (s : State) : (begun s).src = s.src := rfl
@[simp] theorem begun_rdS (s : State) (r : SReg) : rdS (begun s) r = rdS s r := rfl
@[simp] theorem begun_rdP (s : State) (r : PReg) : rdP (begun s) r = rdP s r := rfl
@[simp] theorem begun_rdV (s : State) (r : VIdx) : rdV (begun s) r = rdV s r := rfl
@[simp] theorem begun_rdM (s : State) (r : MReg) : rdM (begun s) r = rdM s r := rfl
@[simp] theorem begun_rdT (s : State) (r : TReg) : rdT (begun s) r = rdT s r := rfl
@[simp] theorem begun_rdQ (s : State) (r : QReg) : rdQ (begun s) r = rdQ s r := rfl
@[simp] theorem begun_mem (s : State) : (begun s).mem = s.mem := rfl
@[simp] theorem begun_spad (s : State) : (begun s).spad = s.spad := rfl
@[simp] theorem finished_ctx (s t : State) : (finished s t).ctx = t.ctx := rfl
@[simp] theorem finished_mem (s t : State) : (finished s t).mem = t.mem := rfl
@[simp] theorem finished_spad (s t : State) : (finished s t).spad = t.spad := rfl
@[simp] theorem finished_pre (s t : State) : (finished s t).pre = s.pre := rfl
@[simp] theorem finished_status (s t : State) : (finished s t).bun.status = .done := rfl

/-! ### Registers -/

/-- s0 reads zero. -/
@[simp] theorem rdS_zero (s : State) : rdS s 0 = 0 := by simp [rdS, Ctx.rdS]

/-- p0 reads 1. -/
@[simp] theorem rdP_zero (s : State) : rdP s 0 = true := by simp [rdP, Ctx.rdP]

/-- A write to s0 changes nothing. -/
@[simp] theorem wrS_zero (s : State) (v : Word) : wrS s 0 v = s := by simp [wrS, Ctx.wrS]

/-- A write to p0 changes nothing. -/
@[simp] theorem wrP_zero (s : State) (b : Bool) : wrP s 0 b = s := by simp [wrP]

/-- Physical register s0 is reached by its own name only. -/
theorem physS_ne_zero (c : Ctx) {r : SReg} (h : r ≠ 0) : (c.physS r).val ≠ 0 := by
  have hr : r.val ≠ 0 := fun e => h (Fin.ext e)
  unfold Ctx.physS
  split
  · exact hr
  · simp only [Fin.ofNat]; omega

/-- Where the bases stand still, a register read after it is written holds the value written. -/
theorem rdS_wrS {c c0 : Ctx} {r : SReg} (v : Word) (b : c.rbs = c0.rbs) (h : r ≠ 0) : (c.wrS c0 r v).rdS r = v := by
  have e : Ctx.physS (c.wrS c0 r v) r = c0.physS r := by
    unfold Ctx.physS; simp [b]
  simp only [Ctx.rdS, h, if_false, e]
  simp only [Ctx.wrS, h, if_false, Vector.get, Vector.toArray_set]
  exact Array.getElem_set_self ..

/-! ### Traps -/

/-- Taking a trap in user mode with a handler (17 R368). -/
theorem takeTrap_handler {s : State} (pc : Word) (slot : Nat) (c x o : Word) (e : Nat) (h : s.ctx.tvec ≠ 0)
    (m : s.ctx.mode = .user) :
    (takeTrap s pc slot c x o e).ctx.pc = s.ctx.tvec ∧ (takeTrap s pc slot c x o e).ctx.mode = .privileged ∧
      (takeTrap s pc slot c x o e).ctx.trapc = c ∧
      (takeTrap s pc slot c x o e).ctx.trappc = BitVec.ofNat 64 (pc.toNat % 2 ^ 56 / 16 * 16) ∧
      (takeTrap s pc slot c x o e).ctx.trapx = x ||| BitVec.ofNat 64 slot ∧
      (takeTrap s pc slot c x o e).ctx.trapo = o := by
  have : ¬(s.ctx.tvec = 0 ∨ s.ctx.mode = .privileged) := by
    rintro (e | e)
    · exact h e
    · rw [m] at e; cases e
  simp only [takeTrap, if_neg this]
  exact ⟨rfl, rfl, rfl, rfl, rfl, rfl⟩

/-- Without a handler, or in privileged mode, a trap ends the gang (17 R369). -/
theorem takeTrap_end {s : State} (pc : Word) (slot : Nat) (c x o : Word) (e : Nat)
    (h : s.ctx.tvec = 0 ∨ s.ctx.mode = .privileged) :
    takeTrap s pc slot c x o e = endGang s s.ctx.id.gang e := by
  simp only [takeTrap, if_pos h]

end Sys2Proof.Machine
end

