-- ==== Sys2Proof/Laws/Slots.lean ====
section
/-! SUPPORT. Every instruction of a bundle runs in the frame of a slot, so it always answers a next state and keeps the
record of the bundle's start. -/
namespace Sys2Proof.Machine

theorem unitPresent_system (s : State) (minor word : Nat) : unitPresent s 0x3C minor word = true := by
  unfold unitPresent
  cases s.src.isV <;> simp

theorem sigOf_detset (s : State) (a b : SReg) : sigOf s (.detset a b) = { reads := [.s a, .s b], priv := true } := by
  have hw : encodeWord (.detset a b) / 2 ^ 26 = 0x3C := by
    show pack _ _ / _ = _
    simp only [pack, loS]; omega
  unfold sigOf
  dsimp only
  rw [hw, unitPresent_system]
  rfl

theorem sigOf_nodeDone (s : State) (a : SReg) : sigOf s (.nodeDone a) = { reads := [.s a] } := by
  have hw : encodeWord (.nodeDone a) / 2 ^ 26 = 0x3C := by
    show pack _ _ / _ = _
    simp only [pack, loS]; omega
  unfold sigOf
  dsimp only
  rw [hw, unitPresent_system]
  rfl

theorem sigOf_graphSignal (s : State) (a : SReg) : sigOf s (.graphSignal a) = { reads := [.s a] } := by
  have hw : encodeWord (.graphSignal a) / 2 ^ 26 = 0x3C := by
    show pack _ _ / _ = _
    simp only [pack, loS]; omega
  unfold sigOf
  dsimp only
  rw [hw, unitPresent_system]
  rfl

/-- An instruction of a bundle runs in the frame of a slot. -/
theorem exec_slot (i : Instr) (s : State) (h : isEvent i = false) :
    ∃ body, exec i s = runSig (sigOf s i) s body := by
  cases i with
  | add d a b w => exact ⟨_, by rw [exec_add]; unfold execAdd runSlot; rfl⟩
  | sub d a b w => exact ⟨_, by rw [exec_sub]; unfold execSub runSlot; rfl⟩
  | mul d a b w => exact ⟨_, by rw [exec_mul]; unfold execMul runSlot; rfl⟩
  | mulh d a b w => exact ⟨_, by rw [exec_mulh]; unfold execMulh runSlot; rfl⟩
  | mulhn d a b w => exact ⟨_, by rw [exec_mulhn]; unfold execMulhn runSlot; rfl⟩
  | div d a b w => exact ⟨_, by rw [exec_div]; unfold execDiv runSlot; rfl⟩
  | divn d a b w => exact ⟨_, by rw [exec_divn]; unfold execDivn runSlot; rfl⟩
  | rem d a b w => exact ⟨_, by rw [exec_rem]; unfold execRem runSlot; rfl⟩
  | remn d a b w => exact ⟨_, by rw [exec_remn]; unfold execRemn runSlot; rfl⟩
  | and d a b w => exact ⟨_, by rw [exec_and]; unfold execAnd runSlot; rfl⟩
  | or d a b w => exact ⟨_, by rw [exec_or]; unfold execOr runSlot; rfl⟩
  | xor d a b w => exact ⟨_, by rw [exec_xor]; unfold execXor runSlot; rfl⟩
  | andn d a b w => exact ⟨_, by rw [exec_andn]; unfold execAndn runSlot; rfl⟩
  | shl d a b w => exact ⟨_, by rw [exec_shl]; unfold execShl runSlot; rfl⟩
  | shr d a b w => exact ⟨_, by rw [exec_shr]; unfold execShr runSlot; rfl⟩
  | sra d a b w => exact ⟨_, by rw [exec_sra]; unfold execSra runSlot; rfl⟩
  | rotl d a b w => exact ⟨_, by rw [exec_rotl]; unfold execRotl runSlot; rfl⟩
  | min d a b w => exact ⟨_, by rw [exec_min]; unfold execMin runSlot; rfl⟩
  | minn d a b w => exact ⟨_, by rw [exec_minn]; unfold execMinn runSlot; rfl⟩
  | max d a b w => exact ⟨_, by rw [exec_max]; unfold execMax runSlot; rfl⟩
  | maxn d a b w => exact ⟨_, by rw [exec_maxn]; unfold execMaxn runSlot; rfl⟩
  | clz d a w => exact ⟨_, by rw [exec_clz]; unfold execClz runSlot; rfl⟩
  | ctz d a w => exact ⟨_, by rw [exec_ctz]; unfold execCtz runSlot; rfl⟩
  | popc d a w => exact ⟨_, by rw [exec_popc]; unfold execPopc runSlot; rfl⟩
  | addImm d a imm => exact ⟨_, by rw [exec_addImm]; unfold execAddImm runSlot; rfl⟩
  | mulImm d a imm => exact ⟨_, by rw [exec_mulImm]; unfold execMulImm runSlot; rfl⟩
  | andImm d a imm => exact ⟨_, by rw [exec_andImm]; unfold execAndImm runSlot; rfl⟩
  | orImm d a imm => exact ⟨_, by rw [exec_orImm]; unfold execOrImm runSlot; rfl⟩
  | xorImm d a imm => exact ⟨_, by rw [exec_xorImm]; unfold execXorImm runSlot; rfl⟩
  | andnImm d a imm => exact ⟨_, by rw [exec_andnImm]; unfold execAndnImm runSlot; rfl⟩
  | shlImm d a sh => exact ⟨_, by rw [exec_shlImm]; unfold execShlImm runSlot; rfl⟩
  | shrImm d a sh => exact ⟨_, by rw [exec_shrImm]; unfold execShrImm runSlot; rfl⟩
  | sraImm d a sh => exact ⟨_, by rw [exec_sraImm]; unfold execSraImm runSlot; rfl⟩
  | rotlImm d a sh => exact ⟨_, by rw [exec_rotlImm]; unfold execRotlImm runSlot; rfl⟩
  | minImm d a imm => exact ⟨_, by rw [exec_minImm]; unfold execMinImm runSlot; rfl⟩
  | minnImm d a imm => exact ⟨_, by rw [exec_minnImm]; unfold execMinnImm runSlot; rfl⟩
  | maxImm d a imm => exact ⟨_, by rw [exec_maxImm]; unfold execMaxImm runSlot; rfl⟩
  | maxnImm d a imm => exact ⟨_, by rw [exec_maxnImm]; unfold execMaxnImm runSlot; rfl⟩
  | movi d imm => exact ⟨_, by rw [exec_movi]; unfold execMovi runSlot; rfl⟩
  | movhi d h lit => exact ⟨_, by rw [exec_movhi]; unfold execMovhi runSlot; rfl⟩
  | cmpEq p a b w => exact ⟨_, by rw [exec_cmpEq]; unfold execCmpEq runSlot; rfl⟩
  | cmpNe p a b w => exact ⟨_, by rw [exec_cmpNe]; unfold execCmpNe runSlot; rfl⟩
  | cmpLt p a b w => exact ⟨_, by rw [exec_cmpLt]; unfold execCmpLt runSlot; rfl⟩
  | cmpGe p a b w => exact ⟨_, by rw [exec_cmpGe]; unfold execCmpGe runSlot; rfl⟩
  | cmpLtn p a b w => exact ⟨_, by rw [exec_cmpLtn]; unfold execCmpLtn runSlot; rfl⟩
  | cmpGen p a b w => exact ⟨_, by rw [exec_cmpGen]; unfold execCmpGen runSlot; rfl⟩
  | sel d a b p => exact ⟨_, by rw [exec_sel]; unfold execSel runSlot; rfl⟩
  | bfx d a pos lm1 sx => exact ⟨_, by rw [exec_bfx]; unfold execBfx runSlot; rfl⟩
  | bfi d a pos lm1 => exact ⟨_, by rw [exec_bfi]; unfold execBfi runSlot; rfl⟩
  | lea d a b sh => exact ⟨_, by rw [exec_lea]; unfold execLea runSlot; rfl⟩
  | csrr d c => exact ⟨_, by rw [exec_csrr]; unfold execCsrr runSlot; rfl⟩
  | csrw d a c => exact ⟨_, by rw [exec_csrw]; unfold execCsrw runSlot; rfl⟩
  | csrs d a c => exact ⟨_, by rw [exec_csrs]; unfold execCsrs runSlot; rfl⟩
  | csrc d a c => exact ⟨_, by rw [exec_csrc]; unfold execCsrc runSlot; rfl⟩
  | br p neg imm => exact ⟨_, by rw [exec_br]; unfold execBr runSlot; rfl⟩
  | jmp imm => exact ⟨_, by rw [exec_jmp]; unfold execJmp runSlot; rfl⟩
  | call imm => exact ⟨_, by rw [exec_call]; unfold execCall runSlot; rfl⟩
  | jmpr a => exact ⟨_, by rw [exec_jmpr]; unfold execJmpr runSlot; rfl⟩
  | callr a => exact ⟨_, by rw [exec_callr]; unfold execCallr runSlot; rfl⟩
  | loopSt sc a imm => exact ⟨_, by rw [exec_loopSt]; unfold execLoopSt runSlot; rfl⟩
  | loopBr imm => exact ⟨_, by rw [exec_loopBr]; unfold execLoopBr runSlot; rfl⟩
  | pand d a b => exact ⟨_, by rw [exec_pand]; unfold execPand runSlot; rfl⟩
  | por d a b => exact ⟨_, by rw [exec_por]; unfold execPor runSlot; rfl⟩
  | pxor d a b => exact ⟨_, by rw [exec_pxor]; unfold execPxor runSlot; rfl⟩
  | pandn d a b => exact ⟨_, by rw [exec_pandn]; unfold execPandn runSlot; rfl⟩
  | pnot d a => exact ⟨_, by rw [exec_pnot]; unfold execPnot runSlot; rfl⟩
  | pmov d a => exact ⟨_, by rw [exec_pmov]; unfold execPmov runSlot; rfl⟩
  | wait ld st cp tl => exact ⟨_, by rw [exec_wait]; unfold execWait runSlot; rfl⟩
  | fadd f64 d a b rm => exact ⟨_, by rw [exec_fadd]; unfold execFadd runSlot; rfl⟩
  | fsub f64 d a b rm => exact ⟨_, by rw [exec_fsub]; unfold execFsub runSlot; rfl⟩
  | fmul f64 d a b rm => exact ⟨_, by rw [exec_fmul]; unfold execFmul runSlot; rfl⟩
  | fdiv f64 d a b rm => exact ⟨_, by rw [exec_fdiv]; unfold execFdiv runSlot; rfl⟩
  | fsqrt f64 d a rm => exact ⟨_, by rw [exec_fsqrt]; unfold execFsqrt runSlot; rfl⟩
  | fma f64 d a b rm => exact ⟨_, by rw [exec_fma]; unfold execFma runSlot; rfl⟩
  | fms f64 d a b rm => exact ⟨_, by rw [exec_fms]; unfold execFms runSlot; rfl⟩
  | fnma f64 d a b rm => exact ⟨_, by rw [exec_fnma]; unfold execFnma runSlot; rfl⟩
  | fmin f64 d a b => exact ⟨_, by rw [exec_fmin]; unfold execFmin runSlot; rfl⟩
  | fmax f64 d a b => exact ⟨_, by rw [exec_fmax]; unfold execFmax runSlot; rfl⟩
  | fneg f64 d a => exact ⟨_, by rw [exec_fneg]; unfold execFneg runSlot; rfl⟩
  | fabs f64 d a => exact ⟨_, by rw [exec_fabs]; unfold execFabs runSlot; rfl⟩
  | fcpsgn f64 d a b => exact ⟨_, by rw [exec_fcpsgn]; unfold execFcpsgn runSlot; rfl⟩
  | fmov f64 d a => exact ⟨_, by rw [exec_fmov]; unfold execFmov runSlot; rfl⟩
  | fcmpEq p a b f64 => exact ⟨_, by rw [exec_fcmpEq]; unfold execFcmpEq runSlot; rfl⟩
  | fcmpLt p a b f64 => exact ⟨_, by rw [exec_fcmpLt]; unfold execFcmpLt runSlot; rfl⟩
  | fcmpLe p a b f64 => exact ⟨_, by rw [exec_fcmpLe]; unfold execFcmpLe runSlot; rfl⟩
  | fcmpUn p a b f64 => exact ⟨_, by rw [exec_fcmpUn]; unfold execFcmpUn runSlot; rfl⟩
  | fclass d a f64 => exact ⟨_, by rw [exec_fclass]; unfold execFclass runSlot; rfl⟩
  | fcvt d a ot dir rm f64 => exact ⟨_, by rw [exec_fcvt]; unfold execFcvt runSlot; rfl⟩
  | frint d a rm f64 => exact ⟨_, by rw [exec_frint]; unfold execFrint runSlot; rfl⟩
  | fexp d a rm f64 => exact ⟨_, by rw [exec_fexp]; unfold execFexp runSlot; rfl⟩
  | fexp2 d a rm f64 => exact ⟨_, by rw [exec_fexp2]; unfold execFexp2 runSlot; rfl⟩
  | flog d a rm f64 => exact ⟨_, by rw [exec_flog]; unfold execFlog runSlot; rfl⟩
  | flog2 d a rm f64 => exact ⟨_, by rw [exec_flog2]; unfold execFlog2 runSlot; rfl⟩
  | ferf d a rm f64 => exact ⟨_, by rw [exec_ferf]; unfold execFerf runSlot; rfl⟩
  | ferfc d a rm f64 => exact ⟨_, by rw [exec_ferfc]; unfold execFerfc runSlot; rfl⟩
  | frcp d a rm f64 => exact ⟨_, by rw [exec_frcp]; unfold execFrcp runSlot; rfl⟩
  | frsq d a rm f64 => exact ⟨_, by rw [exec_frsq]; unfold execFrsq runSlot; rfl⟩
  | frcps d a b rm f64 => exact ⟨_, by rw [exec_frcps]; unfold execFrcps runSlot; rfl⟩
  | frsqs d a b rm f64 => exact ⟨_, by rw [exec_frsqs]; unfold execFrsqs runSlot; rfl⟩
  | vadd d a b sat nat mk => exact ⟨_, by rw [exec_vadd]; unfold execVadd runSlot; rfl⟩
  | vsub d a b sat nat mk => exact ⟨_, by rw [exec_vsub]; unfold execVsub runSlot; rfl⟩
  | vmul d a b mk => exact ⟨_, by rw [exec_vmul]; unfold execVmul runSlot; rfl⟩
  | vmulh d a b mk => exact ⟨_, by rw [exec_vmulh]; unfold execVmulh runSlot; rfl⟩
  | vmulhn d a b mk => exact ⟨_, by rw [exec_vmulhn]; unfold execVmulhn runSlot; rfl⟩
  | vdiv d a b mk => exact ⟨_, by rw [exec_vdiv]; unfold execVdiv runSlot; rfl⟩
  | vdivn d a b mk => exact ⟨_, by rw [exec_vdivn]; unfold execVdivn runSlot; rfl⟩
  | vrem d a b mk => exact ⟨_, by rw [exec_vrem]; unfold execVrem runSlot; rfl⟩
  | vremn d a b mk => exact ⟨_, by rw [exec_vremn]; unfold execVremn runSlot; rfl⟩
  | vand d a b mk => exact ⟨_, by rw [exec_vand]; unfold execVand runSlot; rfl⟩
  | vor d a b mk => exact ⟨_, by rw [exec_vor]; unfold execVor runSlot; rfl⟩
  | vxor d a b mk => exact ⟨_, by rw [exec_vxor]; unfold execVxor runSlot; rfl⟩
  | vandn d a b mk => exact ⟨_, by rw [exec_vandn]; unfold execVandn runSlot; rfl⟩
  | vshl d a b mk => exact ⟨_, by rw [exec_vshl]; unfold execVshl runSlot; rfl⟩
  | vshr d a b mk => exact ⟨_, by rw [exec_vshr]; unfold execVshr runSlot; rfl⟩
  | vsra d a b mk => exact ⟨_, by rw [exec_vsra]; unfold execVsra runSlot; rfl⟩
  | vrotl d a b mk => exact ⟨_, by rw [exec_vrotl]; unfold execVrotl runSlot; rfl⟩
  | vmin d a b mk => exact ⟨_, by rw [exec_vmin]; unfold execVmin runSlot; rfl⟩
  | vminn d a b mk => exact ⟨_, by rw [exec_vminn]; unfold execVminn runSlot; rfl⟩
  | vmax d a b mk => exact ⟨_, by rw [exec_vmax]; unfold execVmax runSlot; rfl⟩
  | vmaxn d a b mk => exact ⟨_, by rw [exec_vmaxn]; unfold execVmaxn runSlot; rfl⟩
  | vclz d a mk => exact ⟨_, by rw [exec_vclz]; unfold execVclz runSlot; rfl⟩
  | vctz d a mk => exact ⟨_, by rw [exec_vctz]; unfold execVctz runSlot; rfl⟩
  | vpopc d a mk => exact ⟨_, by rw [exec_vpopc]; unfold execVpopc runSlot; rfl⟩
  | vfadd d a b rm mk => exact ⟨_, by rw [exec_vfadd]; unfold execVfadd runSlot; rfl⟩
  | vfsub d a b rm mk => exact ⟨_, by rw [exec_vfsub]; unfold execVfsub runSlot; rfl⟩
  | vfmul d a b rm mk => exact ⟨_, by rw [exec_vfmul]; unfold execVfmul runSlot; rfl⟩
  | vfdiv d a b rm mk => exact ⟨_, by rw [exec_vfdiv]; unfold execVfdiv runSlot; rfl⟩
  | vfsqrt d a rm mk => exact ⟨_, by rw [exec_vfsqrt]; unfold execVfsqrt runSlot; rfl⟩
  | vfma d a b rm mk => exact ⟨_, by rw [exec_vfma]; unfold execVfma runSlot; rfl⟩
  | vfms d a b rm mk => exact ⟨_, by rw [exec_vfms]; unfold execVfms runSlot; rfl⟩
  | vfnma d a b rm mk => exact ⟨_, by rw [exec_vfnma]; unfold execVfnma runSlot; rfl⟩
  | vfmin d a b mk => exact ⟨_, by rw [exec_vfmin]; unfold execVfmin runSlot; rfl⟩
  | vfmax d a b mk => exact ⟨_, by rw [exec_vfmax]; unfold execVfmax runSlot; rfl⟩
  | vfneg d a mk => exact ⟨_, by rw [exec_vfneg]; unfold execVfneg runSlot; rfl⟩
  | vfabs d a mk => exact ⟨_, by rw [exec_vfabs]; unfold execVfabs runSlot; rfl⟩
  | vfcpsgn d a b mk => exact ⟨_, by rw [exec_vfcpsgn]; unfold execVfcpsgn runSlot; rfl⟩
  | vfmov d a mk => exact ⟨_, by rw [exec_vfmov]; unfold execVfmov runSlot; rfl⟩
  | vcvt d a cc rm mk => exact ⟨_, by rw [exec_vcvt]; unfold execVcvt runSlot; rfl⟩
  | vpack d a cc rm part => exact ⟨_, by rw [exec_vpack]; unfold execVpack runSlot; rfl⟩
  | vunpack d a cc part => exact ⟨_, by rw [exec_vunpack]; unfold execVunpack runSlot; rfl⟩
  | vmxnorm d a cc rm part => exact ⟨_, by rw [exec_vmxnorm]; unfold execVmxnorm runSlot; rfl⟩
  | vmxscale d a cc rm part => exact ⟨_, by rw [exec_vmxscale]; unfold execVmxscale runSlot; rfl⟩
  | vfexp d a rm mk => exact ⟨_, by rw [exec_vfexp]; unfold execVfexp runSlot; rfl⟩
  | vfexp2 d a rm mk => exact ⟨_, by rw [exec_vfexp2]; unfold execVfexp2 runSlot; rfl⟩
  | vflog d a rm mk => exact ⟨_, by rw [exec_vflog]; unfold execVflog runSlot; rfl⟩
  | vflog2 d a rm mk => exact ⟨_, by rw [exec_vflog2]; unfold execVflog2 runSlot; rfl⟩
  | vferf d a rm mk => exact ⟨_, by rw [exec_vferf]; unfold execVferf runSlot; rfl⟩
  | vferfc d a rm mk => exact ⟨_, by rw [exec_vferfc]; unfold execVferfc runSlot; rfl⟩
  | vfrcp d a rm mk => exact ⟨_, by rw [exec_vfrcp]; unfold execVfrcp runSlot; rfl⟩
  | vfrsq d a rm mk => exact ⟨_, by rw [exec_vfrsq]; unfold execVfrsq runSlot; rfl⟩
  | vfrcps d a b rm mk => exact ⟨_, by rw [exec_vfrcps]; unfold execVfrcps runSlot; rfl⟩
  | vfrsqs d a b rm mk => exact ⟨_, by rw [exec_vfrsqs]; unfold execVfrsqs runSlot; rfl⟩
  | vredFsum d a row rm mk => exact ⟨_, by rw [exec_vredFsum]; unfold execVredFsum runSlot; rfl⟩
  | vredFmin d a row mk => exact ⟨_, by rw [exec_vredFmin]; unfold execVredFmin runSlot; rfl⟩
  | vredFmax d a row mk => exact ⟨_, by rw [exec_vredFmax]; unfold execVredFmax runSlot; rfl⟩
  | vredIsum d a row sat nat mk => exact ⟨_, by rw [exec_vredIsum]; unfold execVredIsum runSlot; rfl⟩
  | vredImin d a row mk => exact ⟨_, by rw [exec_vredImin]; unfold execVredImin runSlot; rfl⟩
  | vredImax d a row mk => exact ⟨_, by rw [exec_vredImax]; unfold execVredImax runSlot; rfl⟩
  | vredNmin d a row mk => exact ⟨_, by rw [exec_vredNmin]; unfold execVredNmin runSlot; rfl⟩
  | vredNmax d a row mk => exact ⟨_, by rw [exec_vredNmax]; unfold execVredNmax runSlot; rfl⟩
  | vmov d a mk => exact ⟨_, by rw [exec_vmov]; unfold execVmov runSlot; rfl⟩
  | vbcast d a mk => exact ⟨_, by rw [exec_vbcast]; unfold execVbcast runSlot; rfl⟩
  | vextr d a b => exact ⟨_, by rw [exec_vextr]; unfold execVextr runSlot; rfl⟩
  | mand d a b => exact ⟨_, by rw [exec_mand]; unfold execMand runSlot; rfl⟩
  | mor d a b => exact ⟨_, by rw [exec_mor]; unfold execMor runSlot; rfl⟩
  | mxor d a b => exact ⟨_, by rw [exec_mxor]; unfold execMxor runSlot; rfl⟩
  | mandn d a b => exact ⟨_, by rw [exec_mandn]; unfold execMandn runSlot; rfl⟩
  | mnot d a => exact ⟨_, by rw [exec_mnot]; unfold execMnot runSlot; rfl⟩
  | vcmp d a b cc mk => exact ⟨_, by rw [exec_vcmp]; unfold execVcmp runSlot; rfl⟩
  | vfcmp d a b cc mk => exact ⟨_, by rw [exec_vfcmp]; unfold execVfcmp runSlot; rfl⟩
  | mpopc d a => exact ⟨_, by rw [exec_mpopc]; unfold execMpopc runSlot; rfl⟩
  | vxb d a b mk => exact ⟨_, by rw [exec_vxb]; unfold execVxb runSlot; rfl⟩
  | tzero d => exact ⟨_, by rw [exec_tzero]; unfold execTzero runSlot; rfl⟩
  | ttrans d a => exact ⟨_, by rw [exec_ttrans]; unfold execTtrans runSlot; rfl⟩
  | tcvt d a rm => exact ⟨_, by rw [exec_tcvt]; unfold execTcvt runSlot; rfl⟩
  | tscale d a b rm => exact ⟨_, by rw [exec_tscale]; unfold execTscale runSlot; rfl⟩
  | tmov d a => exact ⟨_, by rw [exec_tmov]; unfold execTmov runSlot; rfl⟩
  | tmovFromVector d a b => exact ⟨_, by rw [exec_tmovFromVector]; unfold execTmovFromVector runSlot; rfl⟩
  | tmovToVector d a b => exact ⟨_, by rw [exec_tmovToVector]; unfold execTmovToVector runSlot; rfl⟩
  | tfill d a => exact ⟨_, by rw [exec_tfill]; unfold execTfill runSlot; rfl⟩
  | tld d a b q sp => exact ⟨_, by rw [exec_tld]; unfold execTld runSlot; rfl⟩
  | tst d a b q sp => exact ⟨_, by rw [exec_tst]; unfold execTst runSlot; rfl⟩
  | mma k a b pos ta tb sat qt => exact ⟨_, by rw [exec_mma]; unfold execMma runSlot; rfl⟩
  | mmaMx k a b pos qk => exact ⟨_, by rw [exec_mmaMx]; unfold execMmaMx runSlot; rfl⟩
  | mmaSc k a b pos qk => exact ⟨_, by rw [exec_mmaSc]; unfold execMmaSc runSlot; rfl⟩
  | chainBuild k a sp => exact ⟨_, by rw [exec_chainBuild]; unfold execChainBuild runSlot; rfl⟩
  | chainClose k a b rm dst => exact ⟨_, by rw [exec_chainClose]; unfold execChainClose runSlot; rfl⟩
  | chainStat d a k sp => exact ⟨_, by rw [exec_chainStat]; unfold execChainStat runSlot; rfl⟩
  | chainSplice k a pos => exact ⟨_, by rw [exec_chainSplice]; unfold execChainSplice runSlot; rfl⟩
  | chainResume k => exact ⟨_, by rw [exec_chainResume]; unfold execChainResume runSlot; rfl⟩
  | chainFree k => exact ⟨_, by rw [exec_chainFree]; unfold execChainFree runSlot; rfl⟩
  | ld d a imm sp sz => exact ⟨_, by rw [exec_ld]; unfold execLd runSlot; rfl⟩
  | st d a imm sp sz => exact ⟨_, by rw [exec_st]; unfold execSt runSlot; rfl⟩
  | vld d a b sp scr mk => exact ⟨_, by rw [exec_vld]; unfold execVld runSlot; rfl⟩
  | vst d a b sp scr mk => exact ⟨_, by rw [exec_vst]; unfold execVst runSlot; rfl⟩
  | pref a b lvl => exact ⟨_, by rw [exec_pref]; unfold execPref runSlot; rfl⟩
  | clean a b lvl => exact ⟨_, by rw [exec_clean]; unfold execClean runSlot; rfl⟩
  | invl a b => exact ⟨_, by rw [exec_invl]; unfold execInvl runSlot; rfl⟩
  | amoSwap d a b ty => exact ⟨_, by rw [exec_amoSwap]; unfold execAmoSwap runSlot; rfl⟩
  | amoCas d a b ty => exact ⟨_, by rw [exec_amoCas]; unfold execAmoCas runSlot; rfl⟩
  | amoAdd d a b ty => exact ⟨_, by rw [exec_amoAdd]; unfold execAmoAdd runSlot; rfl⟩
  | amoAnd d a b ty => exact ⟨_, by rw [exec_amoAnd]; unfold execAmoAnd runSlot; rfl⟩
  | amoOr d a b ty => exact ⟨_, by rw [exec_amoOr]; unfold execAmoOr runSlot; rfl⟩
  | amoXor d a b ty => exact ⟨_, by rw [exec_amoXor]; unfold execAmoXor runSlot; rfl⟩
  | amoMin d a b ty => exact ⟨_, by rw [exec_amoMin]; unfold execAmoMin runSlot; rfl⟩
  | amoMax d a b ty => exact ⟨_, by rw [exec_amoMax]; unfold execAmoMax runSlot; rfl⟩
  | amoFadd d a b ty => exact ⟨_, by rw [exec_amoFadd]; unfold execAmoFadd runSlot; rfl⟩
  | amoFmin d a b ty => exact ⟨_, by rw [exec_amoFmin]; unfold execAmoFmin runSlot; rfl⟩
  | amoFmax d a b ty => exact ⟨_, by rw [exec_amoFmax]; unfold execAmoFmax runSlot; rfl⟩
  | redAdd a b ty => exact ⟨_, by rw [exec_redAdd]; unfold execRedAdd runSlot; rfl⟩
  | redAnd a b ty => exact ⟨_, by rw [exec_redAnd]; unfold execRedAnd runSlot; rfl⟩
  | redOr a b ty => exact ⟨_, by rw [exec_redOr]; unfold execRedOr runSlot; rfl⟩
  | redXor a b ty => exact ⟨_, by rw [exec_redXor]; unfold execRedXor runSlot; rfl⟩
  | redMin a b ty => exact ⟨_, by rw [exec_redMin]; unfold execRedMin runSlot; rfl⟩
  | redMax a b ty => exact ⟨_, by rw [exec_redMax]; unfold execRedMax runSlot; rfl⟩
  | redFadd a b ty => exact ⟨_, by rw [exec_redFadd]; unfold execRedFadd runSlot; rfl⟩
  | redFmin a b ty => exact ⟨_, by rw [exec_redFmin]; unfold execRedFmin runSlot; rfl⟩
  | redFmax a b ty => exact ⟨_, by rw [exec_redFmax]; unfold execRedFmax runSlot; rfl⟩
  | ldAcq d a scope sz => exact ⟨_, by rw [exec_ldAcq]; unfold execLdAcq runSlot; rfl⟩
  | stRel d a scope sz => exact ⟨_, by rw [exec_stRel]; unfold execStRel runSlot; rfl⟩
  | fence scope press => exact ⟨_, by rw [exec_fence]; unfold execFence runSlot; rfl⟩
  | barArrive bar => exact ⟨_, by rw [exec_barArrive]; unfold execBarArrive runSlot; rfl⟩
  | barWait bar arr => exact ⟨_, by rw [exec_barWait]; unfold execBarWait runSlot; rfl⟩
  | barDrop bar => exact ⟨_, by rw [exec_barDrop]; unfold execBarDrop runSlot; rfl⟩
  | barTwait d a bar arr => exact ⟨_, by rw [exec_barTwait]; unfold execBarTwait runSlot; rfl⟩
  | flagSet a b scope => exact ⟨_, by rw [exec_flagSet]; unfold execFlagSet runSlot; rfl⟩
  | flagWait d a b timed scope => exact ⟨_, by rw [exec_flagWait]; unfold execFlagWait runSlot; rfl⟩
  | flagWaitAny d a b timed scope => exact ⟨_, by rw [exec_flagWaitAny]; unfold execFlagWaitAny runSlot; rfl⟩
  | trig a b rst scope => exact ⟨_, by rw [exec_trig]; unfold execTrig runSlot; rfl⟩
  | arm d a b q => exact ⟨_, by rw [exec_arm]; unfold execArm runSlot; rfl⟩
  | cp q a c0 c1 c2 => exact ⟨_, by rw [exec_cp]; unfold execCp runSlot; rfl⟩
  | gather q a c0 c1 c2 => exact ⟨_, by rw [exec_gather]; unfold execGather runSlot; rfl⟩
  | scatter q a c0 c1 c2 => exact ⟨_, by rw [exec_scatter]; unfold execScatter runSlot; rfl⟩
  | collReshard q a c0 c1 c2 => exact ⟨_, by rw [exec_collReshard]; unfold execCollReshard runSlot; rfl⟩
  | combine q a c0 c1 c2 => exact ⟨_, by rw [exec_combine]; unfold execCombine runSlot; rfl⟩
  | tokwait a okOnly => exact ⟨_, by rw [exec_tokwait]; unfold execTokwait runSlot; rfl⟩
  | toktest d a => exact ⟨_, by rw [exec_toktest]; unfold execToktest runSlot; rfl⟩
  | tokjoin d a b c => exact ⟨_, by rw [exec_tokjoin]; unfold execTokjoin runSlot; rfl⟩
  | phaseBegin a => exact ⟨_, by rw [exec_phaseBegin]; unfold execPhaseBegin runSlot; rfl⟩
  | phaseCommit d => exact ⟨_, by rw [exec_phaseCommit]; unfold execPhaseCommit runSlot; rfl⟩
  | chk a b kk => exact ⟨_, by rw [exec_chk]; unfold execChk runSlot; rfl⟩
  | trap code => exact ⟨_, by rw [exec_trap]; unfold execTrap runSlot; rfl⟩
  | hrules d a => exact ⟨_, by rw [exec_hrules]; unfold execHrules runSlot; rfl⟩
  | invr d a b aa => exact ⟨_, by rw [exec_invr]; unfold execInvr runSlot; rfl⟩
  | detset a b => rw [sigOf_detset]; exact ⟨_, by rw [exec_detset]; unfold execDetset; rfl⟩
  | nodeDone a => rw [sigOf_nodeDone]; exact ⟨_, by rw [exec_nodeDone]; unfold execNodeDone; rfl⟩
  | graphSignal a => rw [sigOf_graphSignal]; exact ⟨_, by rw [exec_graphSignal]; unfold execGraphSignal; rfl⟩
  | nop => exact ⟨_, by rw [exec_nop]; unfold execNop runSlot; rfl⟩
  | exit => exact ⟨_, by rw [exec_exit]; unfold execExit runSlot; rfl⟩
  | yield => exact ⟨_, by rw [exec_yield]; unfold execYield runSlot; rfl⟩
  | ret => exact ⟨_, by rw [exec_ret]; unfold execRet runSlot; rfl⟩
  | eret => exact ⟨_, by rw [exec_eret]; unfold execEret runSlot; rfl⟩
  | hflush => exact ⟨_, by rw [exec_hflush]; unfold execHflush runSlot; rfl⟩
  | _ => cases h

/-- The frame of a slot restores the record of the bundle's start. -/
theorem runSig_pre {g : Sig} {s t : State} {body : State → SlotEnd} (h : runSig g s body = .next t) : t.pre = s.pre := by
  unfold runSig at h
  split at h
  · cases h; simp
  · split at h
    · cases h; rfl
    · dsimp only at h
      split at h <;> cases h <;> rfl

/-- An instruction of a bundle always answers a next state. -/
theorem exec_slot_next (i : Instr) (s : State) (h : isEvent i = false) : ∃ t, exec i s = .next t := by
  obtain ⟨body, e⟩ := exec_slot i s h
  rw [e]; exact runSig_next _ s body

theorem exec_slot_pre {i : Instr} {s t : State} (h : isEvent i = false) (e : exec i s = .next t) : t.pre = s.pre := by
  obtain ⟨body, b⟩ := exec_slot i s h
  rw [b] at e; exact runSig_pre e

end Sys2Proof.Machine
end

