-- ==== Sys2Proof/Tests/Slice0.lean ====
section
/-! SUPPORT. Tests: words of the opcode table, ill-formed terms, single steps on small states, and for each statement's
hypotheses (each clause of it) a state and operands that meet them, as theorems wit_<statement>. Expected results are the
spec's own examples or worked from its rules by hand. -/

namespace Sys2Proof.Tests

set_option maxRecDepth 100000
set_option Elab.async false

open Sys2Proof.Machine Sys2Proof.Claim

/-! ### States -/

/-- What holds of the next state that exec answers; false of a fault or refusal. -/
def ran (o : Host.Outcome State Fault Refusal) (p : State → Bool) : Bool :=
  match o with
  | .next t => p t
  | _ => false

/-- What holds of an optional value; false of none. -/
def has {α : Type} (o : Option α) (p : α → Bool) : Bool := o.any p

/-- A gang of one context on an M-core in user mode, with 1 GiB at 0 mapped to itself. -/
def base : State :=
  { State.reset with
    ctx := { bootCtx 0 with s := (Vector.replicate 64 0).set 7 0xFEDCBA9876543210, ntiles := 2 }
    gangs := [bootGang], mem := bootTables [] }

/-- The same context on a V-core. -/
def vbase : State := { base with ctx := { base.ctx with lcore := 8, pcore := 8 } }

/-- A state whose context is in privileged mode. -/
def priv (s : State) : State := { s with ctx := { s.ctx with mode := .privileged } }

/-- A state with other values in scalar registers. -/
def regs (l : List (Nat × Word)) (s : State) : State :=
  { s with ctx := { s.ctx with s := l.foldl (fun v x => v.setIfInBounds x.1 x.2) s.ctx.s } }

/-- A state whose context is changed. -/
def ctxOf (f : Ctx → Ctx) (s : State) : State := { s with ctx := f s.ctx }

/-- Whether an instruction issues: Issues as a Boolean. -/
def ok (i : Instr) (s : State) : Bool := (decodeTrap s (sigOf s i)).isNone && !regStall s (sigOf s i)

theorem ok_issues (i : Instr) (s : State) (h : ok i s = true) : Issues i s := by
  simpa [ok, Issues, Option.isNone_iff_eq_none] using h

theorem all_issue (s : State) (l : List Instr) (h : (l.all fun i => ok i s) = true) : ∀ i ∈ l, Issues i s :=
  fun i hi => ok_issues i s (List.all_eq_true.mp h i hi)

/-! ### Decoding -/

/-- Whether the decoder answers an instruction. -/
def isOk (r : Except DecodeError Instr) (i : Instr) : Bool :=
  match r with
  | .ok x => decide (x = i)
  | _ => false

/-- Words written from the opcode table's fields decode to the instructions that they stand for, are what the encoder
writes for these, and the instructions are well-formed and issue in one of three states. -/
noncomputable def reads (l : List (Nat × Instr)) : Bool :=
  l.all fun p => isOk (decode p.1 .none) p.2 && encodeWord p.2 == p.1 && WellFormed p.2 &&
    (ok p.2 base || ok p.2 vbase || ok p.2 (priv base))

/-- Words of the opcode table: scalar_control, part 0. -/
theorem test_words_scalar_control_0 : reads
    [(0x00000000, .nop),
     (0x00000040, .exit),
     (0x00000080, .yield),
     (0x07B23801, .add 29 18 7 true),
     (0x07B23841, .sub 29 18 7 true),
     (0x07B23881, .mul 29 18 7 true),
     (0x07B238C1, .mulh 29 18 7 true),
     (0x07B23901, .mulhn 29 18 7 true),
     (0x07B23941, .div 29 18 7 true),
     (0x07B23981, .divn 29 18 7 true),
     (0x07B239C1, .rem 29 18 7 true),
     (0x07B23A01, .remn 29 18 7 true),
     (0x07B23A41, .and 29 18 7 true),
     (0x07B23A81, .or 29 18 7 true),
     (0x07B23AC1, .xor 29 18 7 true),
     (0x07B23B01, .andn 29 18 7 true)] = true := by decide +kernel

/-- Words of the opcode table: scalar_control, part 1. -/
theorem test_words_scalar_control_1 : reads
    [(0x07B23B41, .shl 29 18 7 true),
     (0x07B23B81, .shr 29 18 7 true),
     (0x07B23BC1, .sra 29 18 7 true),
     (0x07B23C01, .rotl 29 18 7 true),
     (0x07B23C41, .min 29 18 7 true),
     (0x07B23C81, .minn 29 18 7 true),
     (0x07B23CC1, .max 29 18 7 true),
     (0x07B23D01, .maxn 29 18 7 true),
     (0x07B20541, .clz 29 18 true),
     (0x07B20581, .ctz 29 18 true),
     (0x07B205C1, .popc 29 18 true),
     (0x0BB20FFB, .addImm 29 18 (-5)),
     (0x0BB21FFB, .mulImm 29 18 (-5)),
     (0x0BB22FFB, .andImm 29 18 (-5)),
     (0x0BB23FFB, .orImm 29 18 (-5)),
     (0x0BB24FFB, .xorImm 29 18 (-5))] = true := by decide +kernel

/-- Words of the opcode table: scalar_control, part 2. -/
theorem test_words_scalar_control_2 : reads
    [(0x0BB25FFB, .andnImm 29 18 (-5)),
     (0x0BB2600B, .shlImm 29 18 11),
     (0x0BB2700B, .shrImm 29 18 11),
     (0x0BB2800B, .sraImm 29 18 11),
     (0x0BB2900B, .rotlImm 29 18 11),
     (0x0BB2AFFB, .minImm 29 18 (-5)),
     (0x0BB2BFFB, .minnImm 29 18 4091),
     (0x0BB2CFFB, .maxImm 29 18 (-5)),
     (0x0BB2DFFB, .maxnImm 29 18 4091),
     (0x0FBFFFFB, .movi 29 (-5)),
     (0x13A2B38B, .movhi 29 2 45963),
     (0x15723801, .cmpEq 11 18 7 true),
     (0x15723841, .cmpNe 11 18 7 true),
     (0x15723881, .cmpLt 11 18 7 true),
     (0x157238C1, .cmpGe 11 18 7 true),
     (0x15723901, .cmpLtn 11 18 7 true)] = true := by decide +kernel

/-- Words of the opcode table: scalar_control, part 3. -/
theorem test_words_scalar_control_3 : reads
    [(0x15723941, .cmpGen 11 18 7 true),
     (0x17B23A16, .sel 29 18 7 11),
     (0x1BB22CB4, .bfx 29 18 11 11 true),
     (0x1BB22CB1, .bfi 29 18 11 11),
     (0x1BB23C02, .lea 29 18 7 4),
     (0x1FA00010, .csrr 29 0x010),
     (0x1FB21010, .csrw 29 18 0x010),
     (0x1FB22010, .csrs 29 18 0x010),
     (0x1FB23010, .csrc 29 18 0x010),
     (0x22FFFFFB, .br 11 true (-5)),
     (0x25FFFFFB, .jmp (-5)),
     (0x27FFFFFB, .call (-5)),
     (0x281D0000, .jmpr 29),
     (0x281D0040, .callr 29),
     (0x28000080, .ret),
     (0x2C72FFFB, .loopSt 3 18 (-5))] = true := by decide +kernel

/-- Words of the opcode table: scalar_control, part 4. -/
theorem test_words_scalar_control_4 : reads
    [(0x2FFFFFFB, .loopBr (-5)),
     (0x316B5800, .pand 11 11 11),
     (0x316B5840, .por 11 11 11),
     (0x316B5880, .pxor 11 11 11),
     (0x316B58C0, .pandn 11 11 11),
     (0x316B0100, .pnot 11 11),
     (0x316B0140, .pmov 11 11),
     (0x3458B2D2, .wait 11 11 11 9)] = true := by decide +kernel

/-- Words of the opcode table: float, part 0. -/
theorem test_words_float_0 : reads
    [(0x47B23818, .fadd true 29 18 7 .rup),
     (0x47B23858, .fsub true 29 18 7 .rup),
     (0x47B23898, .fmul true 29 18 7 .rup),
     (0x47B238D8, .fdiv true 29 18 7 .rup),
     (0x47B20118, .fsqrt true 29 18 .rup),
     (0x47B23958, .fma true 29 18 7 .rup),
     (0x47B23998, .fms true 29 18 7 .rup),
     (0x47B239D8, .fnma true 29 18 7 .rup),
     (0x47B23A00, .fmin true 29 18 7),
     (0x47B23A40, .fmax true 29 18 7),
     (0x47B20280, .fneg true 29 18),
     (0x47B202C0, .fabs true 29 18),
     (0x47B23B00, .fcpsgn true 29 18 7),
     (0x47B20340, .fmov true 29 18),
     (0x49723801, .fcmpEq 11 18 7 true),
     (0x49723841, .fcmpLt 11 18 7 true)] = true := by decide +kernel

/-- Words of the opcode table: float, part 1. -/
theorem test_words_float_1 : reads
    [(0x49723881, .fcmpLe 11 18 7 true),
     (0x497238C1, .fcmpUn 11 18 7 true),
     (0x4BB20201, .fclass 29 18 true),
     (0x4FB22819, .fcvt 29 18 2 true .rup true),
     (0x4FB20059, .frint 29 18 .rup true),
     (0x53B20019, .fexp 29 18 .rup true),
     (0x53B20059, .fexp2 29 18 .rup true),
     (0x53B20099, .flog 29 18 .rup true),
     (0x53B200D9, .flog2 29 18 .rup true),
     (0x53B20119, .ferf 29 18 .rup true),
     (0x53B20159, .ferfc 29 18 .rup true),
     (0x57B20019, .frcp 29 18 .rup true),
     (0x57B20059, .frsq 29 18 .rup true),
     (0x57B23899, .frcps 29 18 7 .rup true),
     (0x57B238D9, .frsqs 29 18 7 .rup true)] = true := by decide +kernel

/-- Words of the opcode table: vector_arith, part 0. -/
theorem test_words_vector_arith_0 : reads
    [(0x63B23834, .vadd 29 18 7 true true 4),
     (0x63B23874, .vsub 29 18 7 true true 4),
     (0x63B23884, .vmul 29 18 7 4),
     (0x63B238C4, .vmulh 29 18 7 4),
     (0x63B23904, .vmulhn 29 18 7 4),
     (0x63B23944, .vdiv 29 18 7 4),
     (0x63B23984, .vdivn 29 18 7 4),
     (0x63B239C4, .vrem 29 18 7 4),
     (0x63B23A04, .vremn 29 18 7 4),
     (0x63B23A44, .vand 29 18 7 4),
     (0x63B23A84, .vor 29 18 7 4),
     (0x63B23AC4, .vxor 29 18 7 4),
     (0x63B23B04, .vandn 29 18 7 4),
     (0x63B23B44, .vshl 29 18 7 4),
     (0x63B23B84, .vshr 29 18 7 4),
     (0x63B23BC4, .vsra 29 18 7 4)] = true := by decide +kernel

/-- Words of the opcode table: vector_arith, part 1. -/
theorem test_words_vector_arith_1 : reads
    [(0x63B23C04, .vrotl 29 18 7 4),
     (0x63B23C44, .vmin 29 18 7 4),
     (0x63B23C84, .vminn 29 18 7 4),
     (0x63B23CC4, .vmax 29 18 7 4),
     (0x63B23D04, .vmaxn 29 18 7 4),
     (0x63B20543, .vclz 29 18 3),
     (0x63B20583, .vctz 29 18 3),
     (0x63B205C3, .vpopc 29 18 3),
     (0x67B2381C, .vfadd 29 18 7 .rup 4),
     (0x67B2385C, .vfsub 29 18 7 .rup 4),
     (0x67B2389C, .vfmul 29 18 7 .rup 4),
     (0x67B238DC, .vfdiv 29 18 7 .rup 4),
     (0x67B2011B, .vfsqrt 29 18 .rup 3),
     (0x67B2395C, .vfma 29 18 7 .rup 4),
     (0x67B2399C, .vfms 29 18 7 .rup 4),
     (0x67B239DC, .vfnma 29 18 7 .rup 4)] = true := by decide +kernel

/-- Words of the opcode table: vector_arith, part 2. -/
theorem test_words_vector_arith_2 : reads
    [(0x67B23A04, .vfmin 29 18 7 4),
     (0x67B23A44, .vfmax 29 18 7 4),
     (0x67B20283, .vfneg 29 18 3),
     (0x67B202C3, .vfabs 29 18 3),
     (0x67B23B04, .vfcpsgn 29 18 7 4),
     (0x67B20343, .vfmov 29 18 3)] = true := by decide +kernel

/-- Words of the opcode table: vector_other, part 0. -/
theorem test_words_vector_other_0 : reads
    [(0x6BB2181C, .vcvt 29 18 3 .rup 4),
     (0x6BB21859, .vpack 29 18 3 .rup 1),
     (0x6BB21881, .vunpack 29 18 3 1),
     (0x6BB218D9, .vmxnorm 29 18 3 .rup 1),
     (0x6BB21919, .vmxscale 29 18 3 .rup 1),
     (0x6FB2001B, .vfexp 29 18 .rup 3),
     (0x6FB2005B, .vfexp2 29 18 .rup 3),
     (0x6FB2009B, .vflog 29 18 .rup 3),
     (0x6FB200DB, .vflog2 29 18 .rup 3),
     (0x6FB2011B, .vferf 29 18 .rup 3),
     (0x6FB2015B, .vferfc 29 18 .rup 3),
     (0x6FB2021B, .vfrcp 29 18 .rup 3),
     (0x6FB2025B, .vfrsq 29 18 .rup 3),
     (0x6FB23A9C, .vfrcps 29 18 7 .rup 4),
     (0x6FB23ADC, .vfrsqs 29 18 7 .rup 4),
     (0x73B2801B, .vredFsum 29 18 true .rup 3)] = true := by decide +kernel

/-- Words of the opcode table: vector_other, part 1. -/
theorem test_words_vector_other_1 : reads
    [(0x73B28043, .vredFmin 29 18 true 3),
     (0x73B28083, .vredFmax 29 18 true 3),
     (0x73B2E0C3, .vredIsum 29 18 true true true 3),
     (0x73B28103, .vredImin 29 18 true 3),
     (0x73B28143, .vredImax 29 18 true 3),
     (0x73B28183, .vredNmin 29 18 true 3),
     (0x73B281C3, .vredNmax 29 18 true 3),
     (0x77B20003, .vmov 29 18 3),
     (0x77B20043, .vbcast 29 18 3),
     (0x77B23880, .vextr 29 18 7),
     (0x78A61800, .mand 5 6 3),
     (0x78A61840, .mor 5 6 3),
     (0x78A61880, .mxor 5 6 3),
     (0x78A618C0, .mandn 5 6 3),
     (0x78A60100, .mnot 5 6),
     (0x78B23A1D, .vcmp 5 18 7 3 5)] = true := by decide +kernel

/-- Words of the opcode table: vector_other, part 2. -/
theorem test_words_vector_other_2 : reads
    [(0x78B23A5D, .vfcmp 5 18 7 3 5),
     (0x7BA60280, .mpopc 29 6),
     (0x83B23804, .vxb 29 18 7 4)] = true := by decide +kernel

/-- Words of the opcode table: tile_chain, part 0. -/
theorem test_words_tile_chain_0 : reads
    [(0x90A00000, .tzero 5),
     (0x90A60040, .ttrans 5 6),
     (0x90A60098, .tcvt 5 6 .rup),
     (0x90A638D8, .tscale 5 6 7 .rup),
     (0x90A60100, .tmov 5 6),
     (0x90B23901, .tmovFromVector 5 18 7),
     (0x93A63902, .tmovToVector 29 6 7),
     (0x90B20140, .tfill 5 18),
     (0x94B23813, .tld 5 18 7 9 true),
     (0x94B23853, .tst 5 18 7 9 true),
     (0x9BA61A7D, .mma 29 6 3 9 true true true 5),
     (0x9FA61813, .mmaMx 29 6 3 9 true),
     (0x9FA61853, .mmaSc 29 6 3 9 true),
     (0xA3B20001, .chainBuild 29 18 true),
     (0xA3B2385C, .chainClose 29 18 7 .rup true),
     (0xA3B23881, .chainStat 29 18 7 true)] = true := by decide +kernel

/-- Words of the opcode table: tile_chain, part 1. -/
theorem test_words_tile_chain_1 : reads
    [(0xA3B238C0, .chainSplice 29 18 7),
     (0xA3A00100, .chainResume 29),
     (0xA3A00140, .chainFree 29)] = true := by decide +kernel

/-- Words of the opcode table: memory, part 0. -/
theorem test_words_memory_0 : reads
    [(0xB3B2FFBB, .ld 29 18 (-5) true 3),
     (0xB7B2FFBB, .st 29 18 (-5) true 3),
     (0xBBB23824, .vld 29 18 7 true false 4),
     (0xBBB23864, .vst 29 18 7 true false 4),
     (0xBC1D9008, .pref 29 18 1),
     (0xBC1D9048, .clean 29 18 1),
     (0xBC1D9080, .invl 29 18),
     (0xC3B23810, .amoSwap 29 18 7 1),
     (0xC3B23890, .amoCas 29 18 7 1),
     (0xC3B23910, .amoAdd 29 18 7 1),
     (0xC3B23990, .amoAnd 29 18 7 1),
     (0xC3B23A10, .amoOr 29 18 7 1),
     (0xC3B23A90, .amoXor 29 18 7 1),
     (0xC3B23B10, .amoMin 29 18 7 1),
     (0xC3B23B90, .amoMax 29 18 7 1),
     (0xC3B23C40, .amoFadd 29 18 7 4)] = true := by decide +kernel

/-- Words of the opcode table: memory, part 1. -/
theorem test_words_memory_1 : reads
    [(0xC3B23CC0, .amoFmin 29 18 7 4),
     (0xC3B23D40, .amoFmax 29 18 7 4),
     (0xC41D9110, .redAdd 29 18 1),
     (0xC41D9190, .redAnd 29 18 1),
     (0xC41D9210, .redOr 29 18 1),
     (0xC41D9290, .redXor 29 18 1),
     (0xC41D9310, .redMin 29 18 1),
     (0xC41D9390, .redMax 29 18 1),
     (0xC41D9440, .redFadd 29 18 4),
     (0xC41D94C0, .redFmin 29 18 4),
     (0xC41D9540, .redFmax 29 18 4),
     (0xCBB20013, .ldAcq 29 18 2 3),
     (0xCBB20053, .stRel 29 18 2 3)] = true := by decide +kernel

/-- Words of the opcode table: sync_system, part 0. -/
theorem test_words_sync_system_0 : reads
    [(0xD0000014, .fence 2 true),
     (0xD400002C, .barArrive 11),
     (0xD400006E, .barWait 11 true),
     (0xD40000AC, .barDrop 11),
     (0xD7B200EE, .barTwait 29 18 11 true),
     (0xD81D9008, .flagSet 29 18 2),
     (0xDBB23868, .flagWait 29 18 7 true 2),
     (0xDBB238A8, .flagWaitAny 29 18 7 true 2),
     (0xD81D90E8, .trig 29 18 true 2),
     (0xDBB23912, .arm 29 18 7 9),
     (0xE3B23812, .cp 29 18 7 9 none),
     (0xE3B23852, .gather 29 18 7 9 none),
     (0xE3B23892, .scatter 29 18 7 9 none),
     (0xE7B23812, .collReshard 29 18 7 9 none),
     (0xE7B23852, .combine 29 18 7 9 none),
     (0xE81D0001, .tokwait 29 true)] = true := by decide +kernel

/-- Words of the opcode table: sync_system, part 1. -/
theorem test_words_sync_system_1 : reads
    [(0xEBB20040, .toktest 29 18),
     (0xEBB23892, .tokjoin 29 18 7 9),
     (0xEC1D0000, .phaseBegin 29),
     (0xEFA00040, .phaseCommit 29),
     (0xEC1D9081, .chk 29 18 1),
     (0xF19C5800, .trap 13195),
     (0xF0000040, .eret),
     (0xF0000080, .hflush),
     (0xF3B200C0, .hrules 29 18),
     (0xF3B23900, .invr 29 18 7 false),
     (0xF01D9140, .detset 29 18),
     (0xF01D0180, .nodeDone 29),
     (0xF01D01C0, .graphSignal 29)] = true := by decide +kernel

/-! ### Ill-formed terms: one for each check -/

/-- Terms that the encoding cannot hold: an imm out of range, a scalar name above s31 in a form that takes a vector, tile,
predicate or nothing there, and a high register beside a wide imm (03 R66, R87). -/
theorem test_not_encodable : ([
    .addImm 1 2 524288, .mulImm 1 2 (-524289), .andImm 1 2 524288, .orImm 1 2 524288, .xorImm 1 2 524288,
    .andnImm 1 2 524288, .minImm 1 2 (-524289), .minnImm 1 2 1048576, .maxImm 1 2 524288, .maxnImm 1 2 1048576,
    .movi 1 268435456, .br 1 false (-268435457), .jmp 4294967296, .call (-4294967297), .loopSt 1 2 8388608,
    .loopBr 4294967296, .ld 1 2 524288 false 0, .st 1 2 (-524289) false 0,
    .vredFsum 32 1 true .rne 0, .vredFmin 32 1 true 0, .vredFmax 32 1 true 0, .vredIsum 32 1 true false false 0,
    .vredImin 32 1 true 0, .vredImax 32 1 true 0, .vredNmin 32 1 true 0, .vredNmax 32 1 true 0,
    .chainClose 1 32 3 .rne false, .chk 32 1 1, .chk 1 32 2, .vld 1 2 32 false true 0, .vst 1 2 32 false true 0,
    .flagWait 32 2 3 false 0, .invr 32 2 3 true,
    .addImm 32 2 2048, .ld 1 40 (-2049) false 0, .movi 63 1048576] : List Instr).all
      (fun i => !i.encodable && !WellFormed i) = true := by decide +kernel

/-- Terms that break a limit of their chapter (03 R67, 04 R106, R107, R116, R118, 05 R129, R136 to R145). -/
theorem test_not_legal_core : ([
    .csrr 1 0x003, .csrw 1 2 0x015, .csrs 1 2 0x048, .csrc 1 2 0xFFF, .bfx 1 2 63 1 false, .bfi 1 2 32 32,
    .loopSt 0 1 0, .loopSt 9 1 0, .wait 65 0 0 0, .wait 0 65 0 0, .wait 0 0 33 0, .wait 0 0 0 17,
    .fcvt 1 2 15 false .rne false, .fcvt 1 2 0 false .rne true, .fcvt 1 2 1 false .rne false,
    .vadd 1 2 3 false true 0, .vsub 1 2 3 false true 0, .vcvt 1 2 16 .rne 0, .vpack 1 2 0x08 .rne 0,
    .vpack 1 2 0x00 .rne 2, .vunpack 1 2 0x02 4, .vunpack 1 2 0x14 0, .vmxnorm 1 2 0 .rne 4, .vmxnorm 1 2 4 .rne 0,
    .vmxscale 1 2 3 .rne 4, .vcmp 1 2 3 6 0, .vfcmp 1 2 3 4 0] : List Instr).all
      (fun i => i.encodable && !WellFormed i) = true := by decide +kernel

/-- The same of memory, synchronisation, chain and system instructions (07 R199, 08 R210 to R231, 09 R249, R254). -/
theorem test_not_legal_memory : ([
    .ld 1 2 0 false 7, .st 1 2 0 false 4, .vld 1 2 3 false true 0, .vld 1 2 0 false true 1, .vst 1 2 3 false true 0,
    .vst 1 2 0 false true 1, .pref 1 2 2, .clean 1 2 2, .amoSwap 1 2 3 6, .amoCas 1 2 3 7, .amoAdd 1 2 3 4,
    .amoAnd 1 2 3 5, .amoOr 1 2 3 4, .amoXor 1 2 3 4, .amoMin 1 2 3 4, .amoMax 1 2 3 5, .amoFadd 1 2 3 3,
    .amoFmin 1 2 3 0, .amoFmax 1 2 3 6, .redAdd 1 2 4, .redAnd 1 2 4, .redOr 1 2 4, .redXor 1 2 4, .redMin 1 2 4,
    .redMax 1 2 4, .redFadd 1 2 3, .redFmin 1 2 6, .redFmax 1 2 0, .ldAcq 1 2 5 0, .ldAcq 1 2 0 7, .stRel 1 2 5 0,
    .stRel 1 2 0 4, .fence 5 false, .flagSet 1 2 5, .flagWait 1 2 3 false 0, .flagWait 0 2 3 false 5,
    .flagWaitAny 1 2 3 false 5, .trig 1 2 false 5, .chk 1 2 3, .chk 16 1 2, .chk 1 16 2, .invr 1 2 3 true,
    .chainClose 1 8 3 .rne false] : List Instr).all
      (fun i => i.encodable && !WellFormed i) = true := by decide +kernel

/-! ### Decoding, stepping, traps -/

/-- Every reserved major, 0x3E among them, under each header that adds nothing; a header in slot 1, 2 or 3. -/
theorem wit_ReservedMajorsRefused :
    ([0x0E, 0x0F, 0x16, 0x17, 0x1F, 0x21, 0x22, 0x23, 0x29, 0x2A, 0x2B, 0x33, 0x37, 0x3D, 0x3E].all fun m =>
      [m * 2 ^ 26, m * 2 ^ 26 + (2 ^ 26 - 1)].all fun w => decide (w < 2 ^ 32) && w / 2 ^ 26 == m) = true ∧
    (isHeader 0xFC000000 = true ∧ isHeader 0xFFFFFFFF = true ∧ isHeader 0xF8000000 = false) ∧
    (parseBundle decode [0, 0xFC000000, 0, 0]).isNone = true ∧ (parseBundle decode [0, 0, 0, 0xFE000000]).isNone = true := by
  decide +kernel

/-- Encodable instructions at the ends of the ranges of majors that the round trips name; none is an event. -/
theorem wit_RoundTrips :
    ([.nop, .addImm 63 63 (-1), .movi 0 (-(2 ^ 28)), .jmp (2 ^ 32 - 1), .frsqs 63 0 63 .rmm true] : List Instr).all
      (fun i => !isEvent i && i.encodable && decide (encodeWord i / 2 ^ 26 ≤ 0x15)) = true ∧
    ([.vadd 31 31 31 true true 7, .tzero 7, .chainFree 31] : List Instr).all (fun i => !isEvent i && i.encodable &&
      decide (0x18 ≤ encodeWord i / 2 ^ 26 ∧ encodeWord i / 2 ^ 26 ≤ 0x28)) = true ∧
    ([.ld 0 0 (-(2 ^ 19)) true 7, .cp 31 31 31 31 (some 31), .graphSignal 63] : List Instr).all (fun i =>
      !isEvent i && i.encodable && decide (0x2C ≤ encodeWord i / 2 ^ 26)) = true := by decide +kernel

/-- The base state with ADD s29, s18, s7 in slot 3 of its bundle, which its agenda issues. -/
def adding : State :=
  { base with mem := (bootTables []).setBytes 0x200C (toBytes 4 0x07B23800), agenda := [.issue {}] }

/-- The state after the fetch of that bundle. -/
noncomputable def fetched : State :=
  (fetchBundle (issuing adding [] {}) (issuing adding [] {}).ctx (issuing adding [] {}).ctx.pc).2

/-- What fetching that bundle answers. -/
theorem wit_StepRunsTheDecodedInstruction :
    (({ adding with agenda := [] } : State).ctx? {}).any (mayIssue { adding with agenda := [] }) = true ∧
    deferredDue (issuing adding [] {}).ctx = false ∧ (issuing adding [] {}).ctx.rowStop = none ∧
    (match fetchBundle (issuing adding [] {}) (issuing adding [] {}).ctx (issuing adding [] {}).ctx.pc with
      | (.ok l, _) => l == [0, 0, 0, 0x07B23800]
      | _ => false) = true ∧
    has (parseBundle decode [0, 0, 0, 0x07B23800]) (fun l => l.map Slot.ins ==
      [some .nop, some .nop, some .nop, some (.add 29 18 7 false)]) = true ∧
    fetched.ctx.harrow.vacated = [] ∧ fetched.ctx.badRegs = [] ∧ fetched.ctx.detl ≠ 2 ∧
    slotClass (.add 29 18 7 false) ≠ .t ∧
    decodeTrap (atLastSlot fetched 0x07B23800 (.add 29 18 7 false))
      (sigOf (atLastSlot fetched 0x07B23800 (.add 29 18 7 false)) (.add 29 18 7 false)) = none ∧
    ran (exec (.add 29 18 7 false) (atLastSlot fetched 0x07B23800 (.add 29 18 7 false))) (fun t =>
      t.bun.status == .done) = true ∧
    ran (step adding) (fun t => t.ctx.pc == 0x2010 && t.ctx.s.get 29 == 0xFEDCBA9876543210) = true := by
  decide +kernel

/-- A turn that names FLIT_CRC_FAILURE on furrow 2. -/
theorem wit_StepRunsTheNamedEvent :
    isEvent .flitCrcFailure = true ∧ ran (exec .flitCrcFailure { base with arg := { id := 2 } }) (fun _ => true) = true ∧
    ran (step { base with agenda := [.event .flitCrcFailure { id := 2 }] }) (fun t =>
      t.mgmt.crcRetries == [0, 0, 8, 0, 0, 0, 0, 0]) = true := by decide +kernel

/-- A state in form that steps. -/
theorem wit_StepKeepsMemoryForm : base.memOk = true ∧ adding.memOk = true ∧ ran (step adding) State.memOk = true := by
  decide +kernel

/-- Slots that break a limit, an element size, the mode, the core kind. -/
theorem wit_DecodeTimeTrapsInOrder :
    let legal (i : Instr) (s : State) : Bool :=
      i.limits && elemSizeOk (encodeWord i / 2 ^ 26) (encodeWord i / 64 % 32) s.src.ew
    let here (i : Instr) (s : State) : Bool :=
      unitPresent s (encodeWord i / 2 ^ 26) (encodeWord i / 64 % 32) (encodeWord i)
    let byte : State := ctxOf (fun c => { c with vshape := 0 }) vbase
    legal (.ld 1 2 0 false 7) base = false ∧ legal (.vfadd 1 2 3 .rne 0) byte = false ∧
      (legal (.hrules 1 2) base = true ∧ slotPrivileged (.hrules 1 2) = true ∧ base.src.mode = .user) ∧
      (legal (.csrw 1 2 0x073) base = true ∧ slotPrivileged (.csrw 1 2 0x073) = true) ∧
      (legal (.fexp 1 2 .rne false) base = true ∧ slotPrivileged (.fexp 1 2 .rne false) = false ∧
        here (.fexp 1 2 .rne false) base = false) ∧
      (legal (.tzero 1) vbase = true ∧ slotPrivileged (.tzero 1) = false ∧ here (.tzero 1) vbase = false) := by
  decide +kernel

/-- The base state is quiet, and so in privileged mode; s7 is a legal crossbar pattern. -/
theorem wit_QuietSlotIssues :
    Quiet base ∧ Quiet (priv base) ∧ (Instr.add 1 2 3 false).limits = true ∧ xbOk (rdS base 7).toNat = true ∧
      slotPrivileged (.add 1 2 3 false) = false ∧ (priv base).src.mode = .privileged := by
  unfold Quiet; decide +kernel

/-- A user context with a handler at 0x5000, in slot 2 of its bundle. -/
def handled : State := { ctxOf (fun c => { c with tvec := 0x5000 }) base with bun := { slot := 2, word := 0xC0DE } }

/-- The hypotheses of taking a trap, and the record of a PAGE_FAULT at 0x123: TRAPC 0x12310, TRAPPC the bundle, SLOT 2 and
the word in TRAPX. -/
theorem wit_TrapRecordsAndEntersHandler :
    (handled.pre = none ∧ handled.ctx.mode = .user ∧ handled.ctx.tvec ≠ 0 ∧ handled.ctx.harrow.cancelled = none ∧
      handled.bun.slot < 4) ∧
    (let t := slotTrap handled { cause := .pageFault, xinfo := 0xC0DE, faddr := 0x123 }
     t.ctx.trapc = 0x12310 ∧ t.ctx.trappc = 0x2000 ∧ t.ctx.trapx = 0xC0DE00000002 ∧ t.ctx.mode = .privileged ∧
       t.ctx.pc = 0x5000) := by decide +kernel

/-- A context without a handler, one in privileged mode, and a context of another gang beside it; TRAP with the code of
ALIGN and with one of no cause. -/
theorem wit_UnhandledTrapEndsTheGang :
    let s : State := { base with others := [{ bootCtx 0 with id := { gang := 3, gix := 0 } }] }
    (s.ctx.tvec = 0 ∧ (s.gang? s.ctx.id.gang).map Gang.run = some .running ∧ s.others.map (fun c => c.id.gang) = [3]) ∧
      (priv s).ctx.mode = .privileged ∧ causeCodes.contains 0x0A = true ∧ causeCodes.contains 0x06 = false ∧
      ((slotTrap s { cause := .align }).gang? 0).map Gang.run = some (.killing 0x4A) ∧
      ((slotTrap (priv s) { cause := .software } (some 0x06)).gang? 0).map Gang.run = some (.killing 0x78) := by
  decide +kernel

/-- TRAP, ERET and HFLUSH issue. -/
theorem wit_TrapEretAndFlush : ∀ i ∈ ([.trap 0, .trap 32767, .eret, .hflush] : List Instr), Issues i base :=
  all_issue _ _ (by decide +kernel)

/-- Slots of class S and F and NOP that are done. -/
theorem wit_RegisterInstructionsLeaveTheRest :
    ([.nop, .add 0 7 7 false, .cmpEq 15 7 7 true, .fdiv true 63 7 0 .rdn] : List Instr).all (fun i =>
      !isEvent i && (slotClass i == .s || slotClass i == .f || i == .nop) &&
        ran (exec i base) fun t => t.bun.status == .done) = true := by decide +kernel

/-! ### Scalar instructions -/

/-- Scalar register-register, immediate, move, field, compare and predicate forms issue, s0 and p0 as destinations among
them. -/
theorem wit_ScalarResults : ∀ i ∈ ([
    .add 0 7 7 true, .sub 63 32 7 false, .mul 1 2 3 true, .mulh 1 2 3 false, .mulhn 1 2 3 true, .div 1 2 3 false,
    .divn 1 2 3 true, .rem 1 2 3 false, .remn 1 2 3 true, .and 1 2 3 true, .or 1 2 3 false, .xor 1 2 3 true,
    .andn 1 2 3 false, .shl 1 2 3 true, .shr 1 2 3 false, .sra 1 2 3 true, .rotl 1 2 3 false, .min 1 2 3 true,
    .minn 1 2 3 false, .max 1 2 3 true, .maxn 1 2 3 false, .clz 1 2 false, .ctz 1 2 true, .popc 1 0 false,
    .addImm 0 2 (-1), .mulImm 1 2 0, .andImm 1 2 1, .orImm 1 2 1, .xorImm 1 2 1, .andnImm 1 2 1, .minImm 1 2 (-524288),
    .maxImm 1 2 524287, .minnImm 1 2 0, .maxnImm 1 2 1048575, .shlImm 1 2 0, .shrImm 1 2 63, .sraImm 1 2 63,
    .rotlImm 1 2 0, .movi 1 (-1), .movhi 1 3 65535, .sel 1 2 3 0, .lea 1 2 3 7, .bfx 1 2 0 63 true, .bfi 1 2 63 0,
    .cmpEq 0 2 3 false, .cmpNe 1 2 3 true, .cmpLt 1 2 3 false, .cmpGe 1 2 3 true, .cmpLtn 1 2 3 false,
    .cmpGen 1 2 3 true, .pand 0 0 15, .por 1 2 3, .pxor 1 2 3, .pandn 1 2 3, .pnot 1 0, .pmov 15 0] : List Instr),
    Issues i base := all_issue _ _ (by decide +kernel)

/-- The limit case of DIV and REM, and by hand: -2^63 / -1, -7 / 2 and -7 rem 2, and 7 / 0 (R100). -/
theorem wit_DivisionResultsWithLimitCases :
    (let s := regs [(2, BitVec.intMin 64), (3, -1)] base
     rdS s 2 = BitVec.intMin 64 ∧ rdS s 3 = -1 ∧ ok (.div 1 2 3 false) s = true ∧ ok (.rem 1 2 3 false) s = true) ∧
    (let s := regs [(2, -7), (3, 2), (4, 0)] base
     ran (exec (.div 1 2 3 false) s) (fun t => t.ctx.s.get 1 == -3) = true ∧
       ran (exec (.rem 1 2 3 false) s) (fun t => t.ctx.s.get 1 == -1) = true ∧
       ran (exec (.divn 1 2 4 true) s) (fun t => t.ctx.s.get 1 == 0xFFFFFFFF) = true ∧
       ran (exec (.div 1 2 4 true) s) (fun t => t.ctx.s.get 1 == -1) = true) := by decide +kernel

/-- A write of s0 and one of p0 that only move pc. -/
theorem wit_HardWiredRegisters :
    ran (exec (.add 0 7 7 false) base) (fun t => t == finished base (wrS (begun base) 0 (rdS base 7 + rdS base 7))) = true ∧
      ran (exec (.pnot 0 0) base) (fun t => t == finished base (wrP (begun base) 0 (!rdP base 0))) = true := by
  decide +kernel

/-- Branches taken and not; targets that are legal, misaligned, and above bit 55; loops with counts 0 and more, PASS 0, 1
and more. -/
theorem wit_ControlTransfers :
    (∀ i ∈ ([.br 0 false 1, .br 0 true 1, .br 1 false (-1), .jmp (-1), .call 2, .jmpr 1, .jmpr 2, .jmpr 3, .callr 1,
      .callr 2, .callr 3, .ret, .loopSt 8 4 1, .loopSt 1 0 (-1), .loopBr (-1)] : List Instr),
      Issues i (regs [(1, 0x4000), (2, 0x4008), (3, 0x100000000000000), (4, -1), (31, 0x3000)] base)) ∧
    (let s := regs [(1, 0x4000), (2, 0x4008), (3, 0x100000000000000), (4, -1)] base
     ((rdS s 1).toNat % 16 = 0 ∧ (rdS s 1).toNat / 2 ^ 56 = 0) ∧ (rdS s 2).toNat % 16 ≠ 0 ∧
       ((rdS s 3).toNat % 16 = 0 ∧ (rdS s 3).toNat / 2 ^ 56 ≠ 0) ∧ rdS s 4 ≠ 0 ∧ rdS s 0 = 0 ∧
       rdP s 0 = true ∧ rdP s 1 = false ∧ (target s 1).toNat / 2 ^ 56 = 0 ∧ (target s (-0x300)).toNat / 2 ^ 56 ≠ 0) ∧
    (let s (n : Word) := ctxOf (fun c => { c with pass := n }) base
     (s 0).src.pass = 0 ∧ (s 1).src.pass = 1 ∧ (s 2).src.pass ≠ 0 ∧ (s 2).src.pass ≠ 1 ∧ ok (.loopBr (-1)) (s 0) = true ∧
       ok (.loopBr (-1)) (s 1) = true ∧ ok (.loopBr (-1)) (s 2) = true) ∧
    base.ctx.rbs < 32 ∧ base.ctx.rbv < 16 := by
  refine ⟨all_issue _ _ (by decide +kernel), ?_⟩; decide +kernel

/-- CSR forms of declared tiles and of an undeclared one, in privileged mode; fields that are stored whole and reserved
values of RM and SC. -/
theorem wit_CsrInstructions :
    (∀ i ∈ ([.csrr 1 0x000, .csrw 1 2 0x010, .csrs 0 2 0x011, .csrc 1 0 0x073, .csrw 1 2 0x041, .csrs 1 2 0x042,
      .csrc 1 2 0x047, .csrw 1 2 0x047] : List Instr), Issues i (priv base)) ∧
    (tcfgTile 0x041 = some 1 ∧ ¬base.src.ntiles ≤ 1) ∧ (tcfgTile 0x042 = some 2 ∧ base.src.ntiles ≤ 2) ∧
    tcfgTile 0x010 = none ∧ stored 0x010 0x3F05 = some 0x3F00 ∧ stored 0x010 0x3F04 = some 0x3F04 ∧
    stored 0x031 9 = some 0 ∧ stored 0x031 8 = some 8 ∧ base.ctx.stopTok.get 0 = none ∧
    ((csrWrite base 0x050 0x1D).arrays.map fun x => (x.id, x.nextEven, x.nextOdd)) = [(base.src.array, some 8, none)] := by
  refine ⟨all_issue _ _ (by decide +kernel), ?_⟩; decide +kernel

/-! ### Floating-point and vector instructions -/

/-- Every scalar floating-point form issues, the exact functions on a V-core. -/
theorem wit_FloatSlotsWriteOrTrap :
    (∀ i ∈ ([.fadd true 0 2 3 .dyn, .fsub false 1 2 3 .rne, .fmul true 1 2 3 .rtz, .fdiv false 1 2 3 .rup,
      .fma true 1 2 3 .rmm, .fms true 1 2 3 .rne, .fnma true 1 2 3 .rne, .fsqrt true 1 2 .rne, .fmin true 1 2 3,
      .fmax true 1 2 3, .frint 1 2 .rdn true, .fneg true 1 2, .fabs true 1 2, .fcpsgn true 1 2 3, .fmov true 1 2,
      .fneg false 1 2, .fabs false 1 2, .fcpsgn false 1 2 3, .fmov false 1 2, .fclass 1 2 true, .fcvt 1 2 0 true .rne false,
      .fcvt 1 2 14 false .rne true, .fcmpEq 1 2 3 true, .fcmpLt 1 2 3 true, .fcmpLe 1 2 3 false, .fcmpUn 0 2 3 true,
      .frcps 1 2 3 .rne true, .frsqs 1 2 3 .rne true] : List Instr), Issues i base) ∧
    ∀ i ∈ ([.fexp 1 2 .rne true, .fexp2 1 2 .rne false, .flog 1 2 .rne true, .flog2 1 2 .rne false, .ferf 1 2 .rne true,
      .ferfc 1 2 .rne false, .frcp 1 2 .rne true, .frsq 1 2 .rne false] : List Instr), Issues i vbase :=
  ⟨all_issue _ _ (by decide +kernel), all_issue _ _ (by decide +kernel)⟩

/-- FP32 operands by class: 1.0, 2.0, +0, -0, the infinities, the canonical NaN and a signalling one. -/
theorem wit_FloatOperandClasses :
    (Fmt.f32.unpack 0x3F800000 = .fin false (2 ^ 23) (-23) ∧ Fmt.f32.unpack 0xBF800000 = .fin true (2 ^ 23) (-23)) ∧
    (∃ e, Fmt.f32.unpack 0 = .fin false 0 e ∧ Fmt.f32.unpack 0x80000000 = .fin true 0 e) ∧
    Fmt.f32.unpack 0x7F800000 = .inf false ∧ Fmt.f32.unpack 0xFF800000 = .inf true ∧
    Fmt.f32.isInf 0x7F800000 = true ∧ Fmt.f32.isNan 0x7FC00000 = true ∧ Fmt.f32.isSig 0x7FC00000 = false ∧
    Fmt.f32.isSig 0x7F800001 = true ∧ Fmt.f64.isNan 0x7FF8000000000000 = true ∧ Fmt.f64.isInf 0xFFF0000000000000 = true := by
  refine ⟨by decide +kernel, ⟨-149, by decide +kernel⟩, ?_⟩; decide +kernel

/-- Those classes by hand: 1 / 0 raises DZ, ∞ - ∞ and 0 × ∞ give the canonical NaN and NV, a quiet NaN no flag (R50,
R51). -/
theorem test_float_special_cases :
    fdiv .f32 .rne 0x3F800000 0x80000000 = { bits := 0xFF800000, flags := flagDZ } ∧
    fadd .f32 .rne 0x7F800000 0xFF800000 = { bits := 0x7FC00000, flags := flagNV } ∧
    fmul .f64 .rne 0 0x7FF0000000000000 = { bits := 0x7FF8000000000000, flags := flagNV } ∧
    fadd .f32 .rne 0x7FC00000 0x3F800000 = { bits := 0x7FC00000 } ∧
    fsqrt .f32 .rne 0x80000000 = { bits := 0x80000000 } ∧
    fminmax .f32 false 0 0x80000000 = { bits := 0x80000000 } ∧ frint .f32 .rne 0x3FC00000 = { bits := 0x40000000, flags := flagNX } := by
  decide +kernel

/-- Operands of the exact functions at their ends: 8.0, 1.0, -1.0, 4096.0, -4096.0, zero, infinities and NaNs; log2 of 8 is 3
and 2^-1 is 0.5. Conversions by hand: 2.5 to an integer, 300 to 8 bits, -1 to BIN1; the classes of a subnormal and of -1. -/
theorem wit_FloatSpecialCasesAndConversions :
    (valueOf .f32 0x41000000 = some 8 ∧ valueOf .f32 0x3F800000 = some 1 ∧ valueOf .f32 0xBF800000 = some (-1) ∧
      valueOf .f32 0x45800000 = some 4096 ∧ valueOf .f32 0xC5800000 = some (-4096) ∧ valueOf .f32 0 = some 0) ∧
    (Fmt.f32.unpack 0xFF800000 = .inf true ∧ Fmt.f32.unpack 0x7FC00000 = .nan false) ∧
    exactFn .log2 .f32 .rne 0x41000000 = { bits := 0x40400000 } ∧ exactFn .exp2 .f32 .rne 0xBF800000 = { bits := 0x3F000000 } ∧
    numTyOf 0x0B = some (.int { width := 8, signed := true }) ∧
    convertNum (.fp .f32) (.int { width := 8, signed := true }) .rne 2 0x40200000 = { bits := 2, flags := flagNX } ∧
    convertNum (.fp .f32) (.int { width := 8, signed := true }) .rne 2 0x43960000 = { bits := 127, flags := flagNV } ∧
    convertNum (.int { width := 8, signed := true }) .bin .rne 2 0xFF = { bits := 0 } ∧
    convertNum (.int { width := 8, signed := true }) (.fp .f32) .rne 2 0xFF = { bits := 0xBF800000 } ∧
    fclassify .f32 1 = 5 ∧ fclassify .f32 0xBF800000 = 1 := by decide +kernel

/-- An FP_EXCEPTION in a user context with a handler: FPM enables DZ. -/
theorem wit_EnabledFlagTraps :
    let s : State := ctxOf (fun c => { c with fpm := 0x0800, tvec := 0x5000 }) base
    enabledFlags s flagDZ ≠ 0 ∧ enabledFlags s flagNX = 0 ∧ s.ctx.mode = .user ∧ s.src.harrow.cancelled = none ∧
      s.bun.slot < 4 ∧ ran (exec (.fdiv true 1 7 0 .rne) s) (fun t =>
        t.bun.status == .trapped && t.ctx.fxf == flagDZ && t.ctx.trapx == 0x800000000 && t.ctx.s.get 1 == 0) = true := by
  decide +kernel

/-- 2^24 + 1 in FP32 is a tie without overflow: RNE takes 2^24, RUP and RMM 2^24 + 2 (R44). -/
theorem wit_RoundingIsCorrect :
    (Fmt.f32.round .rne false (2 ^ 24 + 1) 0).flags &&& flagOF = 0 ∧
    Fmt.f32.round .rne false (2 ^ 24 + 1) 0 = { bits := 0x4B800000, flags := flagNX } ∧
    Fmt.f32.round .rup false (2 ^ 24 + 1) 0 = { bits := 0x4B800001, flags := flagNX } ∧
    Fmt.f32.round .rmm true (2 ^ 24 + 1) 0 = { bits := 0xCB800001, flags := flagNX } ∧
    (Fmt.f64.round .rtz false 1 (-1074)) = { bits := 1 } := by decide +kernel

/-- FP32 operands that are positive, negative, zero and infinite. 1.5 + 2.25, 1.5 × 2.25, 1.5 × 2.25 - 1, 1 / 3, the root of
2, 2.5 rounded to an integer, the reciprocal of 3 to 13 bits (1.010101010101 in binary, times 2^-2) and 2 - 1.5 × 0.5. -/
theorem wit_SumsAndProductsRoundOnce :
    (∃ u v, valueOf .f32 0x3FC00000 = some u ∧ valueOf .f32 0x40100000 = some v) ∧
    (valueOf .f32 0x3FC00000 = some (3 / 2) ∧ valueOf .f32 0xBF800000 = some (-1) ∧ valueOf .f32 0x80000000 = some 0 ∧
      Fmt.f32.unpack 0x7F800000 = .inf false) ∧
    fdiv .f32 .rne 0x3F800000 0x40400000 = { bits := 0x3EAAAAAB, flags := flagNX } ∧
    fsqrt .f32 .rne 0x40000000 = { bits := 0x3FB504F3, flags := flagNX } ∧
    frint .f32 .rne 0x40200000 = { bits := 0x40000000, flags := flagNX } ∧ (frcp .f32 0x40400000).bits = 0x3EAAA800 ∧
    newton .f32 .rne 2 false 0x3FC00000 0x3F000000 = { bits := 0x3FA00000 } ∧
    fadd .f32 .rne 0x3FC00000 0x40100000 = { bits := 0x40700000 } ∧
    fmul .f32 .rne 0x3FC00000 0x40100000 = { bits := 0x40580000 } ∧
    fms .f32 .rne 0x3FC00000 0x40100000 0x3F800000 = { bits := 0x40180000 } :=
  ⟨⟨_, _, rfl, rfl⟩, by decide +kernel, by decide +kernel⟩

/-- Vector forms issue in elements of 4 bytes, with and without a mask; floating-point elements of 8 bytes on a V-core. -/
theorem wit_VectorResults :
    (∀ i ∈ ([.vadd 1 2 3 false false 0, .vadd 1 2 3 true false 1, .vadd 1 2 3 true true 7, .vsub 1 2 3 false false 0,
      .vsub 1 2 3 true false 0, .vsub 31 31 31 true true 0, .vmul 1 2 3 0, .vmulh 1 2 3 0, .vmulhn 1 2 3 0, .vdiv 1 2 3 0,
      .vdivn 1 2 3 0, .vrem 1 2 3 0, .vremn 1 2 3 0, .vand 1 2 3 0, .vor 1 2 3 0, .vxor 1 2 3 0, .vandn 1 2 3 0,
      .vshl 1 2 3 0, .vshr 1 2 3 0, .vsra 1 2 3 0, .vrotl 1 2 3 0, .vmin 1 2 3 0, .vmax 1 2 3 0, .vminn 1 2 3 0,
      .vmaxn 1 2 3 0, .vclz 1 2 0, .vctz 1 2 0, .vpopc 1 2 0, .vfadd 1 2 3 .rne 0, .vfsub 1 2 3 .rne 0, .vfmul 1 2 3 .rne 0,
      .vfma 1 2 3 .rne 0, .vfms 1 2 3 .rne 0, .vfnma 1 2 3 .rne 0, .vfmin 1 2 3 0, .vfmax 1 2 3 0, .vfneg 1 2 0,
      .vfabs 1 2 0, .vfcpsgn 1 2 3 0, .vfmov 1 2 0, .vfrcps 1 2 3 .rne 0, .vfrsqs 1 2 3 .rne 0, .vcvt 1 2 0 .rne 0,
      .vpack 1 2 0 .rne 1, .vunpack 1 2 0 1, .vmxnorm 1 2 2 .rne 7, .vmxscale 1 2 0 .rne 3] : List Instr),
      Issues i base) ∧
    (∀ i ∈ ([.vfdiv 1 2 3 .rne 0, .vfsqrt 1 2 .rne 0, .vfexp 1 2 .rne 0, .vfexp2 1 2 .rne 0, .vflog 1 2 .rne 0,
      .vflog2 1 2 .rne 0, .vferf 1 2 .rne 0, .vferfc 1 2 .rne 0, .vfrcp 1 2 .rne 0, .vfrsq 1 2 .rne 0, .vfadd 1 2 3 .rne 1]
      : List Instr), Issues i (ctxOf (fun c => { c with vshape := 3 }) vbase)) ∧
    (mxElem (xcFormat 0)).isSome = true ∧ (mxElem (xcFormat 2)).isSome = true :=
  ⟨all_issue _ _ (by decide +kernel), all_issue _ _ (by decide +kernel), by decide +kernel, by decide +kernel⟩

/-- Reductions, with no exception enabled, moves, masks; rows of VSHAPE from one to as many as elements; crossbar patterns
that repeat a lane and that do not. -/
theorem wit_ReductionsMovesAndMasks :
    (∀ i ∈ ([.vredFsum 1 2 false .rne 0, .vredFsum 1 2 true .rne 1, .vredFmin 1 2 false 0, .vredFmax 1 2 true 0,
      .vredIsum 1 2 false true false 0, .vredIsum 1 2 true true true 0, .vredImin 1 2 false 0, .vredImax 1 2 true 0,
      .vredNmin 1 2 false 0, .vredNmax 0 2 false 0, .vmov 1 2 0, .vmov 1 2 3, .vbcast 1 2 0, .vextr 1 2 0, .vextr 1 2 7,
      .vxb 1 2 7 0, .mand 1 2 3, .mor 1 2 3, .mxor 1 2 3, .mandn 0 0 0, .mnot 7 0, .mpopc 1 2, .vcmp 1 2 3 0 0,
      .vcmp 1 2 3 5 1, .vfcmp 1 2 3 0 0, .vfcmp 1 2 3 3 0] : List Instr), Issues i base) ∧
    base.src.enables = 0 ∧ 2 ^ base.src.rowl2 = 1 ∧ 2 ^ (ctxOf (fun c => { c with vshape := 0x72 }) base).src.rowl2 ≤ base.src.elems ∧
    (rdS base 0).toNat < base.src.elems ∧ ¬(rdS base 7).toNat < base.src.elems ∧
    (xbOk (rdS base 0).toNat = false ∧ unitPresent base 0x20 0 (encodeWord (.vxb 1 2 0 0)) = true) ∧
    ([] : List (Option Nat)).filterMap id = [] ∧ [none, some 3].filterMap id ≠ [] :=
  ⟨all_issue _ _ (by decide +kernel), by decide +kernel⟩

/-- Lists of one element, of four in the tree of four and of five in that of eight; FP32 elements that are finite, NaN,
signalling, infinite of one sign and of both, and none. -/
theorem wit_ReductionsFollowTheTree :
    ((1 ≤ 2 ^ 0) ∧ (4 ≤ 2 ^ 2 ∧ 2 ^ (2 - 1) < 4) ∧ (5 ≤ 2 ^ 3 ∧ 2 ^ (3 - 1) < 5)) ∧
    [0, 0x3F800000, 0x80000001].all (fun w => match Fmt.f32.unpack w with | .fin _ _ _ => true | _ => false) = true ∧
    (Fmt.f32.unpack 0x7FC00000 = .nan false ∧ Fmt.f32.unpack 0x7F800001 = .nan true) ∧
    (Fmt.f32.unpack 0x7F800000 = .inf false ∧ Fmt.f32.unpack 0xFF800000 = .inf true) ∧
    (∀ w : Nat, some w ∉ ([none, none] : List (Option Nat))) ∧ Fmt.f64.isNan 0x3FF0000000000000 = false := by
  refine ⟨by decide, by decide +kernel, by decide +kernel, by decide +kernel, by simp, by decide +kernel⟩

/-- Elements 1 to 5 and an absent one, summed by hand: as a tree, ((1 + 2) + (3 + 4)) + 5; FMIN with a NaN beside 2.0 gives
2.0 (R52, R62). -/
theorem test_reductions :
    treeReduce (fun a b => a * 10 + b) [some 1, some 2, none, some 4, some 5] = some ((12 * 10 + 4) * 10 + 5) ∧
    fpMinMax .f32 false [some 0x7FC00000, none, some 0x40000000] = { bits := 0x40000000 } ∧
    fpSum .f32 .rne 2 [some 0x7F800000, some 0xFF800000] = { bits := 0x7FC00000, flags := flagNV } ∧
    fpSum .f32 .rne 2 [none, some 0xFF800000, some 0x3F800000] = { bits := 0xFF800000 } := by decide +kernel

/-- R142's block of 3.0, -0.75 and 0.1 in E4M3, and its elements scaled back. -/
theorem test_mx_block :
    mxNorm (.fp .e4m3) 8 .rne 2
        ([0x40400000, 0xBF400000, 0x3DCCCCCD].map Fmt.f32.unpack ++ List.replicate 29 (Fmt.f32.unpack 0)) =
      (0x78, [0x7C, 0xEC, 0x55] ++ List.replicate 29 0, flagNX) ∧
    mxScale (.fp .e4m3) .rne 0x78 0x55 = { bits := 0x3DD00000 } := by decide +kernel

/-- The conversions to E4M3 that 02 works out (449, 464, 465, 0.0013 and infinity), R125's fused sum, and an overflow
toward zero (R45). -/
theorem test_worked_conversions :
    let c (nbv w : Nat) (rm : Rnd) : FR := convertNum (.fp .f32) (.fp .e4m3) rm nbv w
    let ovf : Flags := flagOF ||| flagNX ||| flagSAT
    c 2 0x43E08000 .rne = { bits := 0x7E, flags := flagNX } ∧ c 2 0x43E80000 .rne = { bits := 0x7E, flags := flagNX } ∧
      c 2 0x43E88000 .rne = { bits := 0x7E, flags := ovf } ∧
      c 1 0x43E88000 .rne = { bits := 0x7F, flags := flagOF ||| flagNX } ∧
      c 2 0x3AAA64C3 .rne = { bits := 0x01, flags := flagUF ||| flagNX } ∧
      c 2 0x3AAA64C3 .rdn = { bits := 0x00, flags := flagUF ||| flagNX } ∧
      c 2 0x7F800000 .rne = { bits := 0x7E, flags := flagSAT } ∧
      fma .f64 .rdn 0x3FF0000000400000 0x3FF0000000400000 0xBFF0000000000000 = { bits := 0x3E20000000200000 } ∧
      fadd .f32 .rtz 0x7F7FFFFF 0x7F7FFFFF = { bits := 0x7F7FFFFF, flags := flagOF ||| flagNX } := by decide +kernel

/-! ### Accesses -/

/-- The next state that exec answers; a state without contexts otherwise. -/
def after (o : Host.Outcome State Fault Refusal) : State :=
  match o with
  | .next t => t
  | _ => State.reset

/-- Whether an access would go in flight: Ready, for the bytes to which it resolves. -/
def ready (s : State) (sp : Bool) (n : Need) (q : QClass) (vas : List Nat) : Bool :=
  match (resolve s sp n vas).1 with
  | .ok l => !countFull s q &&
      if sp then !banksBusy s s.src.lc (banksOf (l.map Pa.pa)) else !portHeld s (l.map Pa.pa)
  | .error _ => false

/-- Pages without permission, of the host and of a reserved address at 1, 2 and 3 GiB; the gang holds every bank; s2 is
0x3000 and s3 0x3004. -/
def mapped : State :=
  regs [(2, 0x3000), (3, 0x3004), (4, 0x40000000), (5, 1), (6, 64)]
    { base with
      mem := (((bootTables []).setBytes 0x12008 (toBytes 8 0x40000003)).setBytes 0x12010 (toBytes 8 0x80000000000F3)).setBytes
        0x12018 (toBytes 8 0xC0000000000F3)
      gangs := [{ bootGang with clusters := [{ gcl := 0, lc := 0, banks := BitVec.allOnes 48 }] }] }

/-- A registered reduction window at 0x100000. -/
def windowed : State :=
  { mapped with fleet := { mapped.fleet with
      windows := [{ wid := 1, home := 0, base := 0x100000, len := 0x10000, spill := 0x200000, spilllen := 0x10000 }] } }

/-- A tainted upper half of s5 taints the second word of the 8 bytes that it is stored to, and no other (R274). -/
theorem test_store_taints_its_words :
    (let s := ctxOf (fun c => { c with detl := 2, taint := [(.s 5, 1)] }) mapped
     ran (exec (.st 5 2 0 false 3) s) (fun t => t.flights.map Access.hot == [[taintKey false 0xC01]]) &&
       ran (exec (.st 5 2 0 false 2) s) (fun t => t.flights.map Access.hot == [[]])) = true := by decide +kernel

/-- The state with every die's epoch as far ahead of the slices as it may get (10 R269). -/
def aheadOf (s : State) : State := { s with clocks := { s.clocks with dies := List.replicate 5 { ep := 0x4000 } } }

/-- Aligned and misaligned addresses of every size, global and in the scratchpad; a mod-scope release. -/
theorem wit_LoadsAndStores :
    (∀ i ∈ ([.ld 1 2 0 false 6, .ld 1 2 1 false 1, .ld 0 2 0 true 3, .st 1 2 8 false 3, .st 1 2 1 true 1, .ldAcq 1 2 4 0,
      .ldAcq 1 3 0 3, .stRel 1 2 3 3, .stRel 1 3 0 3, .vld 1 2 0 false false 0, .vst 1 2 6 false false 1,
      .vld 1 2 5 true false 0, .vld 1 2 0 true true 0, .vst 1 3 0 false true 0] : List Instr), Issues i mapped) ∧
    ([0, 1, 2, 3].all fun z => ready (begun mapped) false .read .l (byteRange 0x3000 (2 ^ z)) &&
      ready (begun mapped) true .write .s (byteRange 0x3000 (2 ^ z))) = true ∧
    (epochHeld mapped mapped.src.pdie = false ∧ epochHeld (aheadOf mapped) mapped.src.pdie = true ∧
      ready (begun (aheadOf mapped)) false .write .s (byteRange 0x3000 8) = true) ∧
    (rdS mapped 2 + BitVec.ofInt 64 1).toNat % 2 ≠ 0 ∧ (rdS mapped 3).toNat % 8 ≠ 0 ∧ (rdS mapped 3).toNat % 4 = 0 := by
  refine ⟨all_issue _ _ (by decide +kernel), ?_⟩; decide +kernel

/-- Vector accesses: the whole register, the elements of an empty mask, sidecars; a stride that is no multiple of 4. -/
theorem wit_VectorLoadsAndStores :
    ready (begun mapped) false .read .l ((vecCells (begun mapped) 0x3000 2048 1).map Prod.fst) = true ∧
    ready (begun mapped) true .write .s (byteRange 0x3000 128) = true ∧
    ready (begun mapped) false .read .l (byteRange 0x3000 128) = true ∧
    (rdS mapped 2).toNat % mapped.src.ebytes = 0 ∧ (rdS mapped 5).toNat % mapped.src.ebytes ≠ 0 ∧
    (rdS mapped 2).toNat % 128 = 0 ∧ (rdS mapped 3).toNat % 128 ≠ 0 := by decide +kernel

/-- Atomics of both classes: misaligned, to HBM, and to a window. -/
theorem wit_AtomicsGoInFlight :
    (∀ i ∈ ([.amoSwap 1 2 7 1, .amoCas 0 2 7 5, .amoAdd 1 2 7 0, .amoAnd 1 2 7 3, .amoOr 1 2 7 1, .amoXor 1 2 7 2,
      .amoMin 1 2 7 1, .amoMax 1 3 7 1, .amoFadd 1 2 7 4, .amoFmin 1 2 7 5, .amoFmax 1 2 7 4, .redAdd 2 7 1, .redAnd 2 7 0,
      .redOr 2 7 2, .redXor 2 7 3, .redMin 2 7 1, .redMax 2 7 1, .redFadd 2 7 4, .redFmin 2 7 5, .redFmax 3 7 5]
      : List Instr), Issues i windowed) ∧
    ready (begun windowed) false .amo .l (byteRange 0x3000 4) = true ∧
    ready (begun windowed) false .amo .l (byteRange 0x100000 8) = true ∧
    ready (begun windowed) false .red .s (byteRange 0x10FFF8 8) = true ∧
    inWindow windowed 0x100000 = true ∧ inWindow windowed 0x10FFF8 = true ∧ inWindow windowed 0x110000 = false ∧
    inWindow windowed 0x3000 = false ∧ (rdS windowed 3).toNat % 8 ≠ 0 := by
  refine ⟨all_issue _ _ (by decide +kernel), ?_⟩; decide +kernel

/-- An atomic at the greatest word, by hand: ADD of 1 wraps to 0, MAX signed of 1 and -1 keeps 1. -/
theorem wit_AtomicResults :
    (0xFFFFFFFF : Nat) < 2 ^ (8 * AtomTy.n32.bytes) ∧
    ({ op := .add, ty := .n32, val := 1 } : Atom).apply 0xFFFFFFFF = (0, 0) ∧
    ({ op := .max, ty := .i32, val := 1 } : Atom).apply 0xFFFFFFFF = (1, 0) ∧
    (({ op := .cas, ty := .i64, val := 5, cmp := 4 } : Atom).apply 4).1 = 5 := by decide +kernel

/-- Maintenance of empty, one-granule and greatest ranges, and of one byte more. -/
theorem wit_Maintenance :
    (∀ i ∈ ([.pref 2 5 0, .clean 2 0 1, .clean 2 6 0, .invl 2 6] : List Instr), Issues i mapped) ∧
    (rdS mapped 0).toNat = 0 ∧ ready (begun mapped) false .write .s (granuleBases 0x3000 64) = true ∧
    ready (begun mapped) false .write .s (granuleBases 0x3FFF 2) = true ∧ granuleBases 0x3FFF 2 = [0x3FC0, 0x4000] ∧
    (rdS (regs [(5, 2097152)] mapped) 5).toNat ≤ 2 ^ 21 ∧ 2 ^ 21 < (rdS (regs [(5, 2097153)] mapped) 5).toNat := by
  refine ⟨all_issue _ _ (by decide +kernel), ?_⟩; decide +kernel

/-- Whether a walk of the mapped state finds a leaf that satisfies p. -/
def leafAt (va : Nat) (p : Leaf → Bool) : Bool := has (walkRoot mapped 0x10000 va) p

/-- Addresses at and beyond 2^56, without a leaf, on a page without permission, on one of a reserved address and on one of
the host; scratchpad offsets at and beyond the end and in a bank not held; 64 accesses of each class outstanding. -/
theorem wit_AddressTrapsAndCountStalls :
    (mapped.tlb = [] ∧ mapped.walkCache = [] ∧ mapped.hbmNew = []) ∧ mapped.src.xl.root = 0x10000 ∧ mapped.src.xl.priv = false ∧
    (walkRoot mapped 0x10000 (2 ^ 56 - 1)).isNone = true ∧
    leafAt 0x3000 (fun l => leafPermits false .read l.entry && paKind mapped (leafPa l 0x3000) == .hbm &&
      decide (paNorm mapped (leafPa l 0) + l.size ≤ mapped.saveBase)) = true ∧
    leafAt 0x3000 (fun l => decide (({ mapped with mgmt := { mapped.mgmt with saveg := 512 } } : State).saveBase <
      paNorm mapped (leafPa l 0) + l.size)) = true ∧
    leafAt 0x40000000 (fun l => !leafPermits false .read l.entry) = true ∧
    leafAt 0xC0000000 (fun l => paKind mapped (leafPa l 0xC0000000) == .reserved) = true ∧
    leafAt 0x80000000 (fun l => leafPermits false .read l.entry && paKind mapped (leafPa l 0x80000000) == .host) = true ∧
    (∀ y ∈ [0, 0xBFFFFF], y < 0xC00000 ∧ (BitVec.allOnes 48).getLsbD (y / 262144) = true) ∧
    (0x7F : BitVec 48).getLsbD (7 * 262144 / 262144) = false ∧
    (let s := ctxOf (fun c => { c with ocl := 64, ocs := 64 }) mapped
     ok (.ld 1 2 0 false 3) s = true ∧ ok (.st 1 2 0 false 3) s = true ∧ 64 ≤ s.ctx.ocl ∧ 64 ≤ s.ctx.ocs) ∧
    (match (resolve (begun mapped) false .read (byteRange 0x40000000 8)).1 with
      | .error t => t == { cause := .accessFault, faddr := 0x40000000 }
      | _ => false) = true := by decide +kernel

/-- A state with one access in flight, that of an instruction, and the event of a granule of it. -/
def flying (i : Instr) (g : Nat) (s : State) : State :=
  let t := after (exec i s)
  { t with arg := { id := (t.flights.head?.elim 0 Access.id), val := g } }

/-- Whether an access of a state may be performed in the granule of the event, and satisfies p. -/
def due (s : State) (p : Access → Bool) : Bool :=
  s.memOk && s.arg.write.isNone && s.arg.sig.isEmpty && s.arg.val2 != 1 && has (s.flight? s.arg.id) fun a =>
    mayPerform s a && (a.openTodo s).contains s.arg.val && !s.hbmNew.contains s.arg.val && p a

/-- A store, a load of each kind, the ordered one and one that finds no copy among them, FLAG.SET, TRIG and CLEAN that may be performed. -/
theorem wit_AccessesPerformTheirGranule :
    due (flying (.st 7 2 0 false 3) 0xC0 mapped) (fun a => match a.kind with | .store d => d.length == 8 | _ => false) = true ∧
    due (flying (.st 7 2 0 true 3) 0xC0 mapped) (fun a => a.spad) = true ∧
    due (flying (.ld 1 2 0 false 3) 0xC0 mapped) (fun a => a.kind == .load) = true ∧
    due (flying (.ld 1 2 0 true 3) 0xC0 (ctxOf (fun c => { c with detl := 1 }) mapped)) (fun a =>
      a.kind == .load && a.spad && a.detl != 0) = true ∧
    due (flying (.ldAcq 1 2 3 0) 0xC0 (ctxOf (fun c => { c with detl := 1 }) mapped)) (fun a =>
      a.kind == .load && !a.spad && a.detl != 0 && a.acq.isSome) = true ∧
    (let s := flying (.ld 1 2 0 false 3) 0xC0 (ctxOf (fun c => { c with detl := 1 }) mapped)
     due s (fun a => a.kind == .load && a.detl != 0) = true ∧ (s.flights.all fun f => f.l1.isNone) = true ∧ s.l1 = [] ∧
       ran (exec .memoryAccessPerform { s with mem := s.mem.setBytes 0x3000 (toBytes 8 0x1122334455667788) }) (fun t =>
         t.flights.map (fun f => ofBytes f.data) == [0x1122334455667788]) = true) ∧
    due (flying (.flagSet 2 5 4) 0xC0 mapped) (fun a => a.kind == .flagSet 1) = true ∧
    due (flying (.trig 2 7 false 0) 0xC0 mapped) (fun a => a.cells.head? == some 0x3000 && a.kind == .trig false 0x76543210) = true ∧
    due (flying (.clean 2 6 1) 0xC0 mapped) (fun a => a.kind == .clean true) = true ∧
    due (flying (.invl 2 6) 0xC0 mapped) (fun a => a.kind == .invl) = true := by decide +kernel

/-- An AMO at home, returns to a vector register and a sidecar, its return to a running and to an exited context, a store's acknowledgement, and an END marker. -/
theorem wit_AtomicsPerformAndAccessesReturn :
    due (flying (.amoAdd 1 2 7 1) 0xC0 mapped) (fun a => a.place == .home && a.todo == [0xC0] &&
      a.cells.head? == some 0x3000) = true ∧
    (let s := after (exec .homeAtomicPerform (flying (.amoAdd 1 2 7 1) 0xC0 mapped))
     has (s.flight? s.arg.id) (fun a => a.todo == [] && a.cls == .l && (match a.dest with | .scalar 1 8 _ => true | _ => false) &&
       (s.ctx? a.who).isSome) = true ∧ s.mem.le 0x3000 8 = 0xFEDCBA9876543210 ∧
       (ctxOf (fun c => { c with status := .exited }) s).ctx.status = .exited) ∧
    (([.vld 1 2 0 true false 0, .vld 1 2 0 true true 0] : List Instr).all fun i =>
      let s := (flying i 0 mapped)
      has (s.flight? s.arg.id) fun a => a.cls == .l && (s.ctx? a.who).isSome && (match a.dest with
        | .vector 1 offs => a.spad && offs.length == 2048 && offs.all (· < 2048) && decide (offs.head? = some 0)
        | .sidecar 1 => true
        | _ => false)) = true ∧
    (let s := after (exec .memoryAccessPerform (flying (.st 7 2 0 false 3) 0xC0 mapped))
     has (s.flight? s.arg.id) (fun a => a.todo == [] && a.cls == .s && (s.ctx? a.who).isSome) = true) ∧
    (let s : State := { base with clocks := { markers := [{ id := 5, die := 0, slice := 3 }] }, arg := { id := 5, val := 3 } }
     has (s.clocks.markers.find? fun m => m.id == s.arg.id && m.slice == s.arg.val) (fun m => !behindMarker s m) = true) := by
  decide +kernel

/-! ### Synchronisation, engines, phases and the system group -/

/-- A record of (size, value) fields in memory at an address. -/
def put (a : Nat) (l : List (Nat × Nat)) (s : State) : State :=
  { s with mem := s.mem.setBytes a (l.flatMap fun x => toBytes x.1 x.2) }

/-- The state of a slot that issues again: what it has done is on record. -/
def again (p : Progress) (s : State) : State := ctxOf (fun c => { c with prog := [{ p with pc := c.pc, slot := 0 }] }) s

/-- The gang of the mapped state changed. -/
def gangOf (f : Gang → Gang) (s : State) : State := { s with gangs := s.gangs.map f }

/-- A neighbour on another core of the gang. -/
def neighbour : Ctx := { bootCtx 0 with id := { gang := 0, gix := 1 }, lcore := 2, pcore := 2 }

/-- NOP, YIELD with and without a ready context on the core, EXIT, and WAIT at and above a limit. -/
theorem wit_NopsExitsWaitsAndFences :
    (∀ i ∈ ([.nop, .yield, .exit, .wait 0 64 32 16, .wait 64 0 0 0, .fence 0 false, .fence 1 false, .fence 3 false,
      .fence 4 false, .fence 0 true, .fence 4 true] : List Instr), Issues i mapped) ∧ mapped.ctx.live = true ∧
    (let s : State := { mapped with others := [{ neighbour with lcore := 0, slotNo := 1 }] }
     (s.others.any fun c => c.live && c.status == .ready && c.lc == s.ctx.lc && c.lcore == s.ctx.lcore) = true ∧
       ok .yield s = true) ∧
    (let s := ctxOf (fun c => { c with ocl := 1, ocs := 64, occ := 32, oct := 16 }) mapped
     (s.src.ocl ≤ 1 ∧ s.src.ocs ≤ 64 ∧ s.src.occ ≤ 32 ∧ s.src.oct ≤ 16) ∧ ¬s.src.ocl ≤ 0 ∧ ok (.wait 1 64 32 16) s = true ∧
       ok (.wait 0 64 32 16) s = true) ∧
    (findProg (begun mapped)).isNone = true ∧ (findProg (begun (again { pc := 0, slot := 0, round := 1 } mapped))).isSome = true ∧
    epochHeld mapped mapped.src.pdie = false ∧ epochHeld (aheadOf mapped) mapped.src.pdie = true ∧ ok (.fence 3 true) (aheadOf mapped) = true ∧
    has ((gangOf (fun g => { g with fenceRounds := 1 }) mapped).gang? 0) (fun g => decide (1 ≤ g.fenceRounds) && g.windows.isEmpty) = true ∧
    has (mapped.gang? 0) (fun g => !decide (1 ≤ g.fenceRounds)) = true ∧
    ok (.fence 4 true) (again { pc := 0, slot := 0, round := 1, met := true } mapped) = true := by
  refine ⟨all_issue _ _ (by decide +kernel), ?_⟩; decide +kernel

/-- A barrier 5 that expects two contexts: no arrival, an arrival of this context in the present phase, in an earlier one,
and a dropped context; press windows waiting and not; expiry met and passed. -/
theorem wit_BarriersCountAndWait :
    let bar (k : Barrier) (me : CtxBar) (s : State) : State := ctxOf
      (fun c => { c with bar := c.bar.set 5 me }) (gangOf (fun g => { g with barriers := g.barriers.set 5 k }) s)
    let s0 := bar { e := 2 } {} mapped
    let s1 := bar { e := 2, arrivals := 1 } { arrph := some 0 } mapped
    let s2 := bar { e := 2, phase := 1, completedAt := 7 } { arrph := some 0 } { mapped with time := 9 }
    let s3 := bar { e := 1 } { dropped := true } mapped
    (epochHeld (aheadOf s0) s0.src.pdie = true ∧ ok (.barArrive 5) (aheadOf s0) = true) ∧
    (∀ s ∈ [s0, s1, s2, s3], epochHeld s s.src.pdie = false ∧ s.ctx.live = true ∧ s.ctx.id = s.src.id ∧ (s.gang? s.ctx.id.gang).isSome = true ∧
      (([.barArrive 5, .barDrop 5, .barWait 5 false, .barWait 5 true, .barTwait 1 2 5 false, .barTwait 1 0 5 true]
        : List Instr).all fun i => ok i s) = true) ∧
    ((s0.ctx.bar.get 5).dropped = false ∧ (s0.ctx.bar.get 5).arrph = none) ∧ (s1.ctx.bar.get 5).arrph = some 0 ∧
    has (s2.gang? 0) (fun g => (s2.ctx.bar.get 5).arrph != some (g.barriers.get 5).phase && g.windows.isEmpty &&
      decide ((g.barriers.get 5).completedAt ≤ s2.time + 0x3000)) = true ∧
    has ((again { pc := 0, slot := 0, expiry := some 6 } s2).gang? 0) (fun g => decide (6 < (g.barriers.get 5).completedAt)) = true ∧
    (s3.ctx.bar.get 5).dropped = true ∧
    has (findProg (begun (again { pc := 0, slot := 0, expiry := some 6 } s2))) (fun p => decide (p.expiry.getD 0 < s2.time)) = true ∧
    has ((gangOf (fun g => { g with windows := [{ cuts := [] }] }) s2).gang? 0) (fun g => !g.windows.isEmpty) = true ∧
    (rdS s1 0).toNat = 0 ∧ (rdS s1 2).toNat ≠ 0 ∧
    has ((bar { e := 1 } {} mapped).gang? 0) (fun g => (g.barriers.get 5).e == (g.barriers.get 5).arrivals + 1 &&
      g.windows.isEmpty && !pressBusy mapped 0) = true := by
  decide +kernel

/-- A flag object at 0x3000 in which flags 2 and then 1 have arrived, flag 1 locally. -/
def flags : State :=
  put 0x3000 [(8, 0x6), (8, 0x2), (48, 2 + 64 * 1)] (regs [(8, 6), (9, 8), (10, 14)] mapped)

/-- Masks that are empty, arrived, partly arrived and not; a timed wait of limit 0; misaligned objects. -/
theorem wit_FlagsAndTriggers :
    (∀ i ∈ ([.flagSet 2 5 0, .flagSet 3 5 3, .trig 2 7 true 3, .trig 5 7 false 0, .flagWait 0 2 8 false 0,
      .flagWait 1 2 9 true 4, .flagWait 1 3 9 true 4, .flagWaitAny 1 2 10 true 0, .flagWaitAny 0 2 0 false 0] : List Instr),
      Issues i flags) ∧
    (rdS flags 2).toNat % 64 = 0 ∧ (rdS flags 3).toNat % 64 ≠ 0 ∧ ok (.flagWaitAny 1 3 10 true 0) flags = true ∧ (rdS flags 5).toNat % 4 ≠ 0 ∧
    ready (begun flags) false .write .s (byteRange 0x3000 64) = true ∧
    (match (resolve (begun flags) false .read (byteRange 0x3000 64)).1 with
      | .ok (p :: l) => !readHeld (begun flags) false (((p :: l).map Pa.pa).take 16) true && p.pa == 0x3000
      | _ => false) = true ∧
    flags.hbmNew = [] ∧ (findProg (begun flags)).isNone = true ∧
    leAt (granuleBytes flags 0xC0) 0 8 = 6 ∧ leAt (granuleBytes flags 0xC0) 8 8 = 2 ∧
    (rdS flags 8).toNat &&& 6 = 6 ∧ (rdS flags 9).toNat &&& 6 = 0 ∧ (6 &&& (rdS flags 10).toNat ≠ 14) ∧ (rdS flags 1).toNat = 0 ∧
    flagConsistent 6 (leAt (granuleBytes flags 0xC0) 16 48) = true ∧
    ran (exec (.flagWaitAny 1 2 10 false 0) flags) (fun t => t.bun.status == .done && t.ctx.s.get 1 == 1) = true := by
  refine ⟨all_issue _ _ (by decide +kernel), ?_⟩; decide +kernel

/-- Blocks at 0x3000: a copy of 8 bytes from 0x4000 to 0x5000. -/
def copying : State :=
  put 0x3000 [(4, 0x101), (4, 8), (4, 1), (4, 1), (8, 0x4000), (8, 0x5000)] (put 0x4000 [(8, 0x1122334455667788)] mapped)

/-- Whether the block of an engine instruction reads as a command. -/
def reads? (s : State) (k : CmdKind) (addr : Nat) : Bool :=
  match readBlock (begun s) k addr with
  | .ok body banks t => !banksBusy t s.src.lc banks && !queueFull t body.engine (s.src.engineUnit body.engine)
  | _ => false

/-- Blocks of the five kinds; one read as another; a misaligned one; an incomplete token; a full queue of 128 copies. -/
theorem wit_EngineCommands :
    (∀ i ∈ ([.cp 1 2 0 1 none, .gather 1 2 2 3 (some 4), .scatter 1 2 0 0 none, .collReshard 1 2 0 0 none,
      .combine 1 3 0 0 none] : List Instr), Issues i copying) ∧ copying.hbmNew = [] ∧
    reads? copying .copy 0x3000 = true ∧
    reads? (put 0x3000 [(4, 0x2), (4, 2), (4, 4), (4, 0), (8, 0x4000), (8, 0x5000), (8, 0x6000), (8, 8)] mapped) .gather 0x3000 = true ∧
    reads? (put 0x3000 [(4, 0x103), (4, 1), (4, 4096), (4, 0), (8, 0x4000), (8, 0x5000), (8, 0x6000), (8, 8)] mapped) .scatter 0x3000 = true ∧
    reads? (put 0x3000 [(4, 0x00010104), (4, 0), (2, 1), (2, 1), (2, 1), (2, 1), (4, 4), (4, 1), (4, 1), (4, 1), (16, 0),
      (8, 0x4000), (8, 0x5000), (8, 0x6000), (8, 0), (4, 1)] mapped) .reshard 0x3000 = true ∧
    reads? (put 0x3000 [(4, 0x00010205), (4, 2), (8, 0x100000)] windowed) .combine 0x3000 = true ∧
    (match readRecord (begun copying) false 0x3000 16 64 with
      | .ok b _ => leAt b 0 1 != CmdKind.gather.code
      | _ => false) = true ∧
    (rdQ copying 1).done = true ∧ (rdS copying 3).toNat % 16 ≠ 0 ∧ copying.ctx.occ < 32 ∧
    (rdQ (ctxOf (fun c => { c with q := c.q.set 1 { done := false } }) copying) 1).done = false ∧
    (let k : Cmd := mkCmd (begun copying) 0 (.copy { ssp := false, dsp := false, n0 := 1, n1 := 1, n2 := 1, src := 0, dst := 0, sstr1 := 0, sstr2 := 0, dstr1 := 0, dstr2 := 0 }) 0 [] 1 0
     queueFull { copying with cmds := List.replicate 128 k } k.body.engine k.unit = true) := by
  refine ⟨all_issue _ _ (by decide +kernel), ?_⟩; decide +kernel

/-- Tokens complete with each status, and incomplete; ARM on a counter that lets the command through and on one that does
not. -/
theorem wit_TokensAndArm :
    let tok (t : Token) : State := ctxOf (fun c => { c with q := c.q.set 3 t }) copying
    (∀ s ∈ [tok {}, tok { done := false }, tok { status := .cancelled }, tok { status := .fault 0x11 0xABC }],
      (([.tokwait 3 false, .tokwait 3 true, .toktest 1 3, .tokjoin 3 1 2 4, .tokjoin 1 3 3 3, .arm 2 11 9 1, .arm 2 5 9 3]
        : List Instr).all fun i => ok i s) = true) ∧
    (tok {}).ctx.occ < 32 ∧ (rdS copying 5).toNat % 4 ≠ 0 ∧ (rdS copying 2).toNat % 16 = 0 ∧ (rdS copying 5).toNat % 16 ≠ 0 ∧
    (let s := regs [(11, 0x6000), (9, 3)] (put 0x6000 [(4, 3)] copying)
     s.hbmNew = [] ∧ (match armFaults (begun s) 0x6000 0x3000 (armSize (begun s) 0x3000) with
       | (.ok (p :: _), s1) => (match readRecord s1 false 0x3000 16 16 with
           | .ok hdr s2 => armKind (leAt hdr 0 1) == some .copy && (match readBlock s2 .copy 0x3000 with
               | .ok _ banks s3 => !banksBusy s3 s.src.lc banks && s3.armed.isEmpty && !readHeld s3 false [p.pa] true
               | _ => false)
           | _ => false)
       | _ => false) = true ∧
     (BitVec.ofNat 32 (s.mem.le 0x6000 4) - (rdS s 9).setWidth 32).toNat < 2 ^ 31 ∧
     ¬(BitVec.ofNat 32 (s.mem.le 0x6000 4) - (rdS (regs [(9, 4)] s) 9).setWidth 32).toNat < 2 ^ 31) ∧
    ran (exec (.toktest 1 3) (tok { status := .fault 0x11 0xABC })) (fun t => t.ctx.s.get 1 == 0xABC47) = true := by
  decide +kernel

/-- A phase record that keeps its rules with a length of 1 and of 4 MiB less a bank's worth, one of length 0, and one
beyond the scratchpad. -/
def phased (len bufa : Nat) : State := put 0x3000 [(8, 0x10000), (4, len), (4, 0), (4, bufa), (4, 0x400000)] mapped

theorem wit_PhasesBeginAndCommit :
    (∀ i ∈ ([.phaseBegin 2, .phaseBegin 3, .phaseCommit 1, .phaseCommit 0] : List Instr), Issues i (phased 1 0)) ∧
    (rdS (phased 1 0) 3).toNat % 16 ≠ 0 ∧ (phased 1 0).hbmNew = [] ∧
    ([(1, 0, true), (4194304, 0, true), (0, 0, false), (4194305, 0, false), (16, 0xBFFFF1, false)].all fun x =>
      match readRecord (begun (phased x.1 x.2.1)) false 0x3000 16 32 with
      | .ok r _ => (decide (1 ≤ leAt r 8 4 ∧ leAt r 8 4 ≤ 4 * 2 ^ 20 ∧ leAt r 0xC 4 = 0 ∧
          leAt r 0x18 8 = 0 ∧ leAt r 0x10 4 + leAt r 8 4 ≤ 0xC00000 ∧ leAt r 0x14 4 + leAt r 8 4 ≤ 0xC00000)) == x.2.2
      | _ => false) = true ∧
    gangBanks mapped 0 0 = BitVec.allOnes 48 ∧
    (mapped.src.ocl = 0 ∧ mapped.src.ocs = 0 ∧ mapped.src.occ = 0 ∧ mapped.src.oct = 0) ∧ mapped.ctx.live = true ∧
    (ctxOf (fun c => { c with oct := 1 }) mapped).src.oct ≠ 0 ∧ mapped.ctx.exited = false ∧
    has (mapped.gang? 0) (fun g => mapped.ctx.commits == g.commitRounds) = true ∧
    (let s : State := { mapped with others := [{ neighbour with commits := 1 }] }
     has (s.gang? 0) (fun g => ((s.gangCtx 0).filter fun c => !c.exited).all fun c => c.id == s.ctx.id || decide (g.commitRounds < c.commits)) = true) ∧
    (let s : State := { mapped with others := [neighbour] }
     has (s.gang? 0) (fun g => s.others.any fun c => c.live && !c.exited && c.id.gang == 0 && decide (c.commits ≤ g.commitRounds)) = true) ∧
    (let s := again { pc := 0, slot := 0, round := 1 } mapped
     (findProg (begun s)).map Progress.round = some 1 ∧
       has ((gangOf (fun g => { g with commitRounds := 1 }) s).gang? 0) (fun g => decide (1 ≤ g.commitRounds)) = true ∧
       has (s.gang? 0) (fun g => decide (g.commitRounds < 1)) = true) := by
  refine ⟨all_issue _ _ (by decide +kernel), ?_⟩; decide +kernel

/-- CHK of equal and unequal registers of each kind. -/
theorem wit_ChkCompares :
    (∀ i ∈ ([.chk 2 2 0, .chk 2 3 0, .chk 1 2 1, .chk 0 0 2, .chk 0 1 2] : List Instr), Issues i mapped) ∧
    rdS mapped 2 ≠ rdS mapped 3 ∧ rdV mapped 1 = rdV mapped 2 ∧ rdP mapped 0 ≠ rdP mapped 1 ∧
    ran (exec (.chk 2 3 0) (ctxOf (fun c => { c with tvec := 0x5000 }) mapped)) (fun t =>
      t.mgmt.chkMismatch == 1 && t.ctx.trapc == 0x09) = true := by
  refine ⟨all_issue _ _ (by decide +kernel), ?_⟩; decide +kernel

/-- The privileged state with a rule-set image at 0x3000 of n entries, and a node of its gang. -/
def system (n fmt : Nat) : State :=
  put 0x3000 [(4, 0x31535248), (2, fmt), (2, n), (8, 1), (16, 0x55), (4, 128 * n), (4, 0x40 + 128 * n), (4, 2500), (20, 0),
      (128, if n = 0 then 0 else 0xFF)]
    { priv mapped with
      granary := { mapped.granary with nodes := [{ id := 0, queue := 1, packet := 0, index := 2, tag := 9, cmp := true, rec? := none, state := .running 0 }] } }

/-- Images with a good and a bad header, without entries and with one that is malformed. -/
theorem wit_HrulesImages :
    (∀ i ∈ ([.hrules 1 2, .hrules 1 3] : List Instr), Issues i (system 0 1)) ∧ (rdS (system 0 1) 3).toNat % 16 ≠ 0 ∧
    ([(0, 1, true), (0, 2, false), (1, 1, true)].all fun x =>
      match readRecord (begun (system x.1 x.2.1)) false 0x3000 1 64 with
      | .ok h _ => imageHeaderOk (system x.1 x.2.1) h == x.2.2
      | _ => false) = true ∧
    (allSome ((List.range 0).map fun i => parseEntry (sliceBytes [] (0x40 + 128 * i) 128))).isSome = true ∧
    (parseEntry (toBytes 128 0xFF)).isNone = true ∧ (parseEntry (toBytes 128 0)).isSome = true := by
  refine ⟨all_issue _ _ (by decide +kernel), ?_⟩; decide +kernel

/-- INVR at first issue and again, acknowledged and not; DETSET at the ends of its ranges; NODE.DONE and GRAPH.SIGNAL with
and without an earlier store in flight. -/
theorem wit_SystemInstructions :
    (∀ i ∈ ([.invr 0 2 3 true, .invr 1 2 3 false, .detset 10 11, .detset 12 11, .detset 10 13, .nodeDone 7, .graphSignal 7]
      : List Instr), Issues i (regs [(10, 65535), (11, 3), (12, 65536), (13, 4)] (system 0 1))) ∧
    (findProg (begun (system 0 1))).isNone = true ∧
    (let s := again { pc := 0, slot := 0, round := 5 } (system 0 1)
     has (findProg (begun s)) (fun p => s.invals.all fun v => v.id != p.round) = true ∧
       has (findProg (begun s)) (fun p => ({ s with invals := [{ id := 5, who := {}, lo := 0, len := 1, asid := none }] } : State).invals.any
         fun v => v.id == p.round) = true) ∧
    has ((system 0 1).gang? 0) (fun g => has ((system 0 1).node? g.node) fun n =>
      !releaseHeld (begun (system 0 1)) && decide (((system 0 1).queue n.queue).events.length < 256)) = true ∧
    releaseHeld (begun (ctxOf (fun c => { c with bundles := 1 }) (after (exec (.st 7 2 0 false 3) (system 0 1))))) = true := by
  refine ⟨all_issue _ _ (by decide +kernel), ?_⟩; decide +kernel

/-! ### Tiles, contributions and chains -/

/-- A TCFG word (03 R72). -/
def tcfgWord (fmt rows cols : Nat) : Word := BitVec.ofNat 64 (fmt + cols * 256 + rows * 2 ^ 21)

/-- FP32 tiles: t0 and t1 of 2 by 4, t2 of 4 by 2, t3 declared but of no valid shape, t4 of 2 by 2, t5 an MX tile of 2 by
32, t6 of BF16 2 by 4, t7 not declared. s1 is 1, s4 is 2. -/
def tiled : State :=
  regs [(1, 1), (4, 2)] (ctxOf (fun c => { c with
    ntiles := 7
    tcfg := Vector.ofFn (fun i : Fin 8 => ([tcfgWord 1 2 4, tcfgWord 1 2 4, tcfgWord 1 4 2, tcfgWord 1 257 1, tcfgWord 1 2 2,
      tcfgWord 0x10 2 32, tcfgWord 3 2 4, tcfgWord 1 1 1][i.val]?).getD 0) }) mapped)

/-- The same with every tile of a valid shape. -/
def tiledAll : State := ctxOf (fun c => { c with tcfg := c.tcfg.set 3 (tcfgWord 1 1 1) }) tiled

/-- Tiles that keep and that break each rule; the last row and the row beyond; 16 operations outstanding. -/
theorem wit_TileInstructionsIssue :
    (∀ i ∈ ([.tzero 0, .tzero 3, .tfill 0 7, .tfill 7 7, .tmov 0 1, .tmov 0 5, .tmovFromVector 0 1 1, .tmovFromVector 0 1 4,
      .tmovToVector 1 0 1, .tmovToVector 1 0 4, .ttrans 0 2, .ttrans 0 1, .tcvt 0 6 .rne, .tcvt 0 2 .rne, .tscale 0 1 7 .rtz,
      .tscale 0 6 7 .rne] : List Instr), Issues i tiled) ∧ tiled.ctx.oct < 16 ∧
    16 ≤ (ctxOf (fun c => { c with oct := 16 }) tiled).ctx.oct ∧
    ((tiled.src.sideShape? 0).isSome = true ∧ (tiled.src.sideShape? 5).isSome = true ∧ tiled.src.sideShape? 3 = none ∧
      tiled.src.shape? 7 = none ∧ (rdS tiled 1).toNat < 2 ∧ ¬(rdS tiled 4).toNat < 2) ∧
    (tiled.src.shape? 0).map Shape.rows = (tiled.src.shape? 2).map Shape.cols ∧
    (tiled.src.shape? 0).map Shape.cols = (tiled.src.shape? 2).map Shape.rows ∧
    (tiled.src.shape? 0).map (fun h => (h.isSc, h.isMx)) = some (false, false) := by
  refine ⟨all_issue _ _ (by decide +kernel), ?_⟩; decide +kernel

/-- The same with an FP32 tile t3 of the MX tile's rows and columns. -/
def tiledMx : State := ctxOf (fun c => { c with tcfg := c.tcfg.set 3 (tcfgWord 1 2 32) }) tiled

/-- A tile instruction in flight and the event of its completion. -/
def tileFlying (i : Instr) (s : State) : State :=
  let t := after (exec i s)
  { t with arg := { id := t.tileOps.head?.elim 0 TileFlight.id } }

/-- Each whole-tile operation in flight with tiles of valid shape, conversions into and out of an MX tile among them; a
TFILL by hand: 2.0 in every element. -/
theorem wit_TileOperationsWriteTheirResults :
    (([.tzero 0, .tfill 0 7, .tmov 0 1, .tmovFromVector 0 1 1, .tmovToVector 1 0 1, .ttrans 0 2, .tcvt 0 6 .rne,
      .tscale 0 1 7 .rtz] : List Instr).all fun i =>
        let s := tileFlying i tiledAll
        has (s.tileOp? s.arg.id) fun f => has (s.ctx? f.who) fun c => c.fpm == 0 && !unsettled s f.who f.bundle f.op.touches &&
          (f.op.tileOut.isNone || f.hd.valid) && (f.op.tileIn.isNone || f.ha.valid)) = true ∧
    (([.tcvt 5 3 .rne, .tcvt 3 5 .rne] : List Instr).all fun i =>
        let s := tileFlying i tiledMx
        has (s.tileOp? s.arg.id) fun f => has (s.ctx? f.who) fun c => c.fpm == 0 && f.hd.valid && f.ha.valid &&
          f.hd.rows == f.ha.rows && f.hd.cols == f.ha.cols && f.hd.cols % 32 == 0) = true ∧
    (mxElem 0x10).isSome = true ∧ numTyOf 0x10 = none ∧
    numTyOf 3 = some (.fp .bf16) ∧ numTyOf 1 = some (.fp .f32) ∧ mxElem 1 = none ∧
    ran (exec .tileOpComplete (tileFlying (.tfill 0 7) (regs [(7, 0x40000000)] tiledAll))) (fun t =>
      tileElem t.ctx 0 (Shape.ofWord (tcfgWord 1 2 4)) 1 3 == some 0x40000000 && t.ctx.oct == 0) = true := by decide +kernel

/-- TLD and TST with an incomplete token, a tile of no valid shape, misaligned base, 16 operations outstanding, fresh and as
the continuation of a stopped transfer; from the scratchpad and from memory; a first and a later row on a page without
permission; the event of all rows and of one of two. -/
theorem wit_TileLoadsAndStores :
    (∀ i ∈ ([.tld 0 2 0 5 false, .tld 0 2 4 5 true, .tld 3 2 0 5 false, .tst 0 1 0 5 false, .tst 0 2 0 5 true] : List Instr),
      Issues i tiled) ∧
    (rdQ tiled 5).done = true ∧ (rdS tiled 2).toNat % 4 = 0 ∧ (rdS tiled 1).toNat % 4 ≠ 0 ∧
    (rdQ (ctxOf (fun c => { c with q := c.q.set 5 { done := false } }) tiled) 5).done = false ∧
    (let s := ctxOf (fun c => { c with tcfg := c.tcfg.set 0 (tcfgWord 1 2 4 ||| BitVec.ofNat 64 (2 ^ 41 + 2 ^ 32)), stopTok := c.stopTok.set 0 (some 5) }) tiled
     (s.src.tcfg.get 0).getLsbD 41 = true ∧ s.src.stopTok.get 0 = some 5 ∧ (s.src.sideShape? 0).isSome = true ∧
       (s.src.tcfg.get 0).toNat / 2 ^ 32 % 512 = 1) ∧
    16 ≤ (ctxOf (fun c => { c with oct := 16 }) tiled).ctx.oct ∧ tiled.ctx.oct < 16 ∧ tiled.src.rowStop = none ∧
    (tiled.src.tcfg.get 0).getLsbD 41 = false ∧ banksBusy (begun tiled) tiled.src.lc (BitVec.allOnes 48) = false ∧
    (match checkRows false true 0x40000000 16 16 [0, 1] (begun tiled) with
      | (_, _, some (r, _), _) => r == 0
      | _ => false) = true ∧
    (match checkRows false true 0x3000 0x3FFFD000 16 [0, 1] (begun tiled) with
      | (rows, _, some (r, _), t) =>
        let probe := flightOf t t.nextId (.load 0 rows false) none 0 false
        r == 1 && rowsFree t probe probe.cells
      | _ => false) = true ∧
    ([true, false].all fun sp => match checkRows sp true 0x3000 16 16 [0, 1] (begun tiled) with
      | (rows, _, none, t) => rows.length == 2 && !portHeld t (rows.flatMap fun x => x.2.2)
      | _ => false) = true ∧
    (([.tld 0 2 0 5 true, .tst 0 2 0 5 true, .tst 0 2 0 5 false] : List Instr).all fun i =>
      let s := tileFlying i tiled
      s.memOk && has (s.tileOp? s.arg.id) fun f => has (s.ctx? f.who) fun c => f.who == c.id &&
        rowsFree s f (cellsNow s f) && rowsFree { s with arg := { s.arg with val := 1 } } f (cellsNow { s with arg := { s.arg with val := 1 } } f) &&
        (match f.op with | .load _ rows _ => rows.length == 2 | .store _ rows _ => rows.length == 2 | _ => false) &&
        has f.tok fun q => !(c.q.get q.1).done && (c.q.get q.1).gen == q.2) = true := by
  refine ⟨all_issue _ _ (by decide +kernel), ?_⟩; decide +kernel

/-- A transfer of the scratchpad whose rows of 16 bytes lie in the gang's banks. -/
theorem wit_TileTransfersIssueAndEnd :
    (∀ i ∈ ([.tld 0 2 0 5 true, .tst 0 2 0 5 true] : List Instr), Issues i tiled) ∧ tiled.ctx.oct < 16 ∧
    (rdQ tiled 5).done = true ∧ (rdS tiled 2).toNat = 0x3000 ∧
    (tiled.src.sideShape? 0).map (fun h => (h.rows, h.irs, h.pitch)) = some (2, 16, 16) ∧
    (tiled.src.tcfg.get 0).getLsbD 41 = false ∧ tiled.src.rowStop = none ∧
    banksBusy (begun tiled) tiled.src.lc (BitVec.allOnes 48) = false ∧
    gangBanks tiled tiled.src.id.gang tiled.src.lc = BitVec.allOnes 48 ∧
    (([.tld 0 2 0 5 true, .tst 0 2 0 5 true] : List Instr).all fun i =>
      let s := tileFlying i tiled
      s.arg.val == 0 && has (s.tileOp? s.arg.id) fun f => has (s.ctx? f.who) fun c => f.who == c.id &&
        rowsFree s f (cellsNow s f) &&
        has f.tok fun q => !(c.q.get q.1).done && (c.q.get q.1).gen == q.2) = true := by
  refine ⟨all_issue _ _ (by decide +kernel), ?_⟩; decide +kernel

/-- Links 0 and 1 of the gang, and the spare 2. Chain 3, of 2 by 2 and two hops of one contribution each, is in a state. -/
def chained (c : Chain) : State :=
  let hop (i : Nat) : Hop := { link := i, count := 1, fmt := .fp32, wide := false, scale := none }
  gangOf (fun g => { g with chains := g.chains.set 3 { c with m := 2, n := 2, hops := [hop 0, hop 1] } })
    { tiled with links := [{ id := 0, gang := 0, chain := some 3 }, { id := 1, gang := 0, chain := some 3 },
                           { id := 2, gang := 0, spare := true }] }

/-- A state with a link replaced. -/
def linkOf (i : Nat) (f : Link → Link) (s : State) : State := { s with links := s.links.map fun l => if l.id = i then f l else l }

/-- The contribution of R192 with and without a token in each state of the chain, of shapes that fit and that do not, at a
full link, at a link of another array; the array's other core. -/
theorem wit_ContributionsIssue :
    (([.idle, .built, .active, .frozen, .closed] : List ChainState).all fun st =>
      ([.mma 3 0 2 0 false false false 0, .mma 3 0 2 31 true false true 7, .mmaMx 3 5 5 0 true, .mmaSc 3 0 2 1 false]
        : List Instr).all fun i => ok i (chained { state := st })) = true ∧
    (chained { state := .built }).ctx.oct < 16 ∧ windowOpen (chained { state := .built }) = true ∧
    windowOpen { chained { state := .built } with arrays := [{ id := 0, on := true, window := 1 }] } = false ∧
    mmaShape (chained { state := .built }) .plain 3 0 2 0 false false = none ∧
    mmaShape (chained { state := .built }) .plain 3 0 0 0 false false ≠ none ∧
    mmaShape (chained { state := .idle }) .plain 3 0 2 0 false false = none ∧
    mmaShape (chained { state := .closed }) .plain 3 0 2 0 false false = none ∧
    mmaShape (chained { state := .frozen }) .plain 3 0 2 1 false false = none ∧
    ((chained { state := .built }).chain 0 3).hops.length = 2 ∧
    ((chained { state := .built }).link? 0 0).map Link.accepted = some 0 ∧ soloOther (chained { state := .built }) = false ∧
    ((linkOf 0 (fun l => { l with accepted := 1 }) (chained { state := .active })).link? 0 0).map Link.accepted = some 1 ∧
    (chained { state := .built }).src.array = 0 ∧ (ctxOf (fun c => { c with lcore := 4 }) (chained { state := .built })).src.array ≠ 0 ∧
    ran (exec (.mma 3 0 2 0 false false false 1) (chained { state := .built })) (fun t =>
      (t.chain 0 3).state == .active && !(t.ctx.q.get 25).done && t.ctx.oct == 1) = true := by decide +kernel

/-- A descriptor of chain 3 at 0x3000 and one of format 9. -/
def described (fmt : Nat) : State :=
  put 0x3000 [(4, 0x201), (2, 2), (2, 2), (8, 0), (2, 0), (2, 1), (1, fmt), (11, 0), (2, 1), (2, 0), (1, fmt), (11, 0)]
    (chained { state := .idle })

/-- CHAIN instructions in each state of the chain: descriptors that keep and break the rules, close of a tile and of one of
another size, with a factor beyond 32 bits, splice and resume after a fault, free with and without a close that writes. -/
theorem wit_ChainInstructions :
    (([.idle, .built, .active, .frozen, .closed] : List ChainState).all fun st =>
      ([.chainBuild 3 2 false, .chainBuild 4 2 true, .chainClose 3 4 0 .rne false, .chainClose 3 0 0 .rne false,
        .chainClose 3 4 7 .dyn false, .chainClose 3 2 0 .rne true, .chainStat 1 0 3 false, .chainStat 1 2 3 false, .chainStat 1 3 3 true,
        .chainSplice 3 4 0, .chainSplice 3 4 2, .chainResume 3, .chainFree 3] : List Instr).all fun i =>
          ok i (chained { state := st })) = true ∧
    (match readRecord (begun (described 0)) false 0x3000 16 48 with
      | .ok r _ => leAt r 1 1 == 2 && has (parseChain r) fun x => has ((described 0).gang? 0) fun g =>
          linksOk (described 0) g 3 x.2.2.2 && !linksOk (described 0) g 3 (x.2.2.2 ++ x.2.2.2)
      | _ => false) = true ∧
    (match readRecord (begun (described 9)) false 0x3000 16 48 with
      | .ok r _ => (parseChain r).isNone
      | _ => false) = true ∧
    (let s := chained { state := .active }
     s.ctx.oct < 16 ∧ (rdS s 0).toNat < 2 ^ 32 ∧ ¬(rdS s 7).toNat < 2 ^ 32 ∧ lowTile 4 = 4 ∧
       ((s.src.shape? 4).map fun h => (h.rows, h.cols, h.fmt)) = some (2, 2, 1) ∧
       ((s.src.shape? 0).map fun h => (h.rows, h.cols)) = some (2, 4) ∧ (s.chain 0 3).close = none) ∧
    (let s := chained { state := .active }
     banksBusy (begun s) s.src.lc (banksOf ((byteRange 0x3000 (closeSpan 0 2 2)).filter fun x => x < 0xC00000)) = false ∧
       (match (resolve (begun s) true .write (byteRange 0x3000 (closeSpan 0 2 2))).1 with | .ok _ => true | _ => false) = true ∧
       (match (resolve (begun s) true .write (byteRange 0xC00000 (closeSpan 0 2 2))).1 with | .ok _ => false | _ => true) = true) ∧
    (let s := ctxOf (fun c => { c with bundles := 1 }) (after (exec (.tld 0 2 0 5 true) (chained { state := .built })))
     banksBusy (begun s) s.src.lc (recordBanks 0x3000 48) = true ∧ ok (.chainStat 1 2 3 true) s = true ∧
       banksBusy (begun s) s.src.lc (recordBanks 0x43000 48) = false) ∧
    64 ≤ (ctxOf (fun c => { c with ocs := 64 }) (chained { state := .built })).ctx.ocs ∧
    ready (begun (chained { state := .built })) false .write .s
      (byteRange 0x3000 (statRecord (chained { state := .built }) 0 ((chained { state := .built }).chain 0 3)).length) = true ∧
    (let s := linkOf 0 (fun l => { l with state := .faulted }) (chained { state := .frozen, cause := .fault, left := .active })
     (s.link? 0 0).map Link.state = some .faulted ∧ (rdS s 4).toNat = 2 ∧
       has (s.gang? 0) (fun g => has ((s.chain 0 3).hops[0]?) fun h => spliceOk s g 3 h 2 && !spliceOk s g 3 h 1) = true) ∧
    (let s := chained { state := .active, close := some { gix := 0, dst := .tile 4, ofmt := 1, rm := 0, oscale := 0, acting := true } }
     (s.chain 0 3).close.map CloseArm.acting = some true) := by decide +kernel

/-- The state of an event on a link of chain 3. -/
def atLink (i : Nat) (s : State) : State := { s with arg := { gang := 0, id := i } }

/-- A waiting contribution, a COMPLETE head, a second link with its partial whose cluster is sliced in, a partial in transit,
and links that fail, one of them FAULTED already. -/
theorem wit_ChainsPromoteHandOffAndClose :
    (let s := atLink 0 (after (exec (.mma 3 0 2 0 false false false 0) (chained { state := .built })))
     has (s.gang? 0) (fun g => has (s.link? 0 0) fun l => l.chain == some 3 && l.waiting.length == 1 &&
       (l.waiting.all fun y => !unsettled s y.who y.bundle [.t y.regs.1, .t y.regs.2]) &&
       ((g.chains.get 3).hopOf l.id).isSome) = true) ∧
    (let s := atLink 0 (linkOf 0 (fun l => { l with state := .complete }) (chained { state := .active }))
     s.fleet.step = .idle ∧ (s.link? 0 0).map Link.state = some .complete ∧ ((s.chain 0 3).hopOf 0).map Prod.fst = some 0) ∧
    (let s := atLink 1 (linkOf 1 (fun l => { l with state := .complete, inbound := some {} }) (chained { state := .active }))
     s.fleet.step = .idle ∧ clusterIn s 0 = true ∧ ((s.chain 0 3).hopOf 1).map Prod.fst = some 1 ∧
       has (s.link? 0 1) (fun l => l.state == .complete && l.inbound.isSome) = true) ∧
    (let s := atLink 0 (linkOf 0 (fun l => { l with state := .sent, partialOut := some {}, inTransit := true }) (chained { state := .active }))
     has (s.link? 0 0) (fun l => l.partialOut.isSome && l.inTransit) = true ∧ (s.link? 0 1).map Link.state = some .empty) ∧
    ([LinkState.empty, .faulted].all fun st =>
      let s := atLink 1 (linkOf 1 (fun l => { l with state := st }) (chained { state := .frozen, left := .active, cause := .fault }))
      has (s.gang? 0) (fun g => g.run != .preempted) &&
        has (s.links.find? fun y => y.id == s.arg.id && (s.gang? y.gang).any fun g => g.run != .preempted) (fun l =>
          l.state != .done)) = true := by decide +kernel

/-- An armed close of a chain whose links have formed their partials, before and while it acts, into a tile and into the
scratchpad, there behind a store of its context too; an array whose window is over. -/
theorem wit_ClosesWriteTheirDestination :
    ([(false, .tile 4), (true, .tile 4), (true, .spad 0 0x3000)].all fun x =>
      let arm : CloseArm := { gix := 0, dst := x.2, ofmt := 1, rm := 0, oscale := 0, acting := x.1, cfg := tcfgWord 1 2 2 }
      let s : State := { linkOf 0 (fun l => { l with state := .sent, partialOut := some {} })
          (linkOf 1 (fun l => { l with state := .sent, partialOut := some {} })
          (chained { state := .active, close := some arm })) with arg := { gang := 0, id := 3 } }
      s.memOk &&
      has (s.gang? 0) (fun g => (g.chains.get 3).close == some arm && has ((g.chains.get 3).hops.getLast?) fun h =>
        has (s.link? 0 h.link) fun l => l.partialOut.isSome && allFormed s 0 (g.chains.get 3) &&
          !closeWaits s 0 (g.chains.get 3)) &&
      decide (0x3000 + closeSpan 1 2 2 ≤ 0xC00000) &&
      has (s.ctx? { gang := 0, gix := 0 }) fun c => c.fpm == 0 && Shape.ofWord arm.cfg == { fmt := 1, rows := 2, cols := 2 }) = true ∧
    (let arm : CloseArm := { gix := 0, dst := .spad 0 0x3000, ofmt := 1, rm := 0, oscale := 0, bundle := 1 }
     let t := gangOf (fun g => { g with chains := g.chains.set 3 { g.chains.get 3 with close := some arm } })
       (after (exec (.st 7 2 0 true 3) (chained { state := .active })))
     has (t.gang? 0) (fun g => closeWaits t 0 (g.chains.get 3)) = true) ∧
    (let s : State := { mapped with arrays := [{ id := 0, on := true }], time := 8, arg := { id := 0 } }
     has (s.arrays.find? fun a => a.id == s.arg.id) (windowDue s) = true ∧
       has (({ s with time := 7 } : State).arrays.find? fun a => a.id == s.arg.id) (windowDue { s with time := 7 }) = false) := by
  decide +kernel

/-! ### Events of accesses, waits, harrow and errors -/

/-- A press atomic on its way from a context of level TWORUN. -/
def pressing : State :=
  let t := flying (.redFadd 2 7 4) 0xC0 (ctxOf (fun c => { c with detl := 1 }) mapped)
  { t with arg := { t.arg with gang := 0 } }

/-- An entry of a press. -/
def entry (seq : Nat) : PressEntry :=
  { who := {}, seq := seq, addr := 0x3000, va := 0x3000, atom := { op := .fadd, ty := .f32, val := 0x3F800000 }, dest := none
    die := 0, slice := homeSlice mapped 0x3000 }

/-- The same atomic on its way to the press of package 3. -/
def foreignPress : State :=
  let pa := 2 ^ 50 + 3 * 2 ^ 40 + 0x3000
  { pressing with flights := pressing.flights.map fun f => { f with cells := byteRange pa 4, todo := [pa / 64] } }

/-- A full press, and a gang of 4 KiB of spill area. -/
def spilling : State :=
  gangOf (fun g => { g with spill := 0x8000, spillsz := 0x1000, asid := 0, ptbase := 0x10000 })
    { pressing with press := (List.range 16).map entry }

/-- A press with room, with 16 entries and no spill area, and with 16 and one; the press of another package, which takes the
atomic and which rejects it; a window that holds one entry of two, and one that holds all. -/
theorem wit_PressesEnterAndApplyWindows :
    has (pressing.flight? pressing.arg.id) (fun a => a.place == .press && a.cells.head? == some 0x3000 && mayPerform pressing a &&
      !revoking pressing a.id) = true ∧
    pressSlice pressing 0x3000 < 64 ∧ (heldEntries pressing (pressSlice pressing 0x3000)).length < 16 ∧
    ([0, 1].all fun v =>
      let s : State := { foreignPress with arg := { foreignPress.arg with val := v } }
      has (s.flight? s.arg.id) fun a => a.place == .press && a.cells.head? == some (2 ^ 50 + 3 * 2 ^ 40 + 0x3000) &&
        mayPerform s a && !revoking s a.id && decide (64 ≤ pressSlice s (2 ^ 50 + 3 * 2 ^ 40 + 0x3000))) = true ∧
    (spillGang spilling (heldEntries spilling (pressSlice spilling 0x3000)) = some 0 ∧ spilling.memOk = true ∧
      spilling.hbmNew = [] ∧ has (spilling.gang? 0) (fun y =>
        match xlateAll { priv := true, asid := y.asid.toNat % 2 ^ 16, root := y.ptbase.toNat, tlbs := [],
                         cache := 300 + pressSlice spilling 0x3000 } .write
            (byteRange (y.spill + spillUsed spilling 0) 512) none { spilling with freeIx := spilling.freeIx + 1 } with
        | (.ok l, _) => l.length == 512
        | _ => false) = true) ∧
    (let s : State := { pressing with press := (List.range 16).map entry }
     16 ≤ (heldEntries s (pressSlice s 0x3000)).length ∧ spillGang s (heldEntries s (pressSlice s 0x3000)) = none ∧
       has (s.flight? s.arg.id) (mayPerform s) = true) ∧
    (let w : Window := { cuts := [(0, 1)] }
     let s : State := { gangOf (fun g => { g with windows := [w] }) mapped with press := [entry 0, entry 1] }
     (s.gang? s.arg.gang).map Gang.windows = some [w] ∧ windowReady s 0 w = true ∧ s.fleet.step = .idle ∧
       (∀ e ∈ s.press, w.holds e.who.gix e.seq ≠ none) ∧ w.holds 0 0 = some true ∧ w.holds 0 1 = some false ∧
       s.memOk = true ∧ s.hbmNew = [] ∧ (entry 0).addr % (entry 0).atom.ty.bytes = 0) := by decide +kernel

/-- A contribution to the window in flight, from a context of a level. -/
def contributing (detl : Nat) : State := flying (.redAdd 2 7 1) 0x4000 (regs [(2, 0x100000)] (ctxOf (fun c => { c with detl := detl }) windowed))

/-- Contributions with room at the switch, above FREE and at FREE; an accumulator with one atomic. -/
theorem wit_SwitchesStageAndMerge :
    ([0, 1].all fun l => has ((contributing l).flight? (contributing l).arg.id) fun a => a.place == .switch && a.detl == l &&
      a.cells.head? == some 0x100000 && mayPerform (contributing l) a && (contributing l).fleet.accs.isEmpty &&
      (contributing l).arg.sig.isEmpty) = true ∧
    stagePlace (contributing 1) (furrowOf (contributing 1) 0x100000) 0x100000 = some false ∧
    (let t := after (exec .switchContribution (contributing 0))
     let s : State := { t with arg := { t.arg with val := 0x100000 } }
     s.memOk = true ∧ s.hbmNew = [] ∧ has (s.fleet.accs.find? fun k => k.addr == s.arg.val && planeSends s k.plane) (fun k => k.atoms.length == 1 &&
       k.acks.all fun i => (s.flight? i).isSome) = true) := by decide +kernel

/-- The window of the tests without a spill area. -/
def unspilled : State :=
  { windowed with fleet := { windowed.fleet with
      windows := [{ wid := 1, home := 0, base := 0x100000, len := 0x10000, spill := 0, spilllen := 0 }] } }

theorem windowOf_staged (s : State) (l : List Staged) (pa : Nat) :
    windowOf { s with fleet := { s.fleet with staged := l } } pa = windowOf s pa := rfl

/-- A plane whose 2^21 slots are all taken, of a window without a spill area. -/
theorem wit_NoPlaceToStage (x : Staged) (h : x.plane = 0 ∧ x.spilled = false) :
    stagePlace { unspilled with fleet := { unspilled.fleet with staged := List.replicate planeSlots x } } 0 0x100000 = none := by
  have h1 : ((List.replicate planeSlots x).filter fun y => y.plane == 0 && !y.spilled).length = planeSlots := by
    rw [List.filter_replicate]; simp [h.1, h.2]
  have h2 (p : Staged → Bool) : ((List.replicate planeSlots x).filter fun y => y.spilled && p y).length = 0 := by
    rw [List.filter_replicate]; simp [h.2]
  have h3 : windowOf unspilled 0x100000 =
      some { wid := 1, home := 0, base := 0x100000, len := 0x10000, spill := 0, spilllen := 0 } := by decide +kernel
  unfold stagePlace
  rw [windowOf_staged, h3]
  simp only [h1, h2, Nat.lt_irrefl, if_false]
  rfl

/-- The mapped context blocked on one wait. -/
def blockedOn (b : Block) (s : State) : State := ctxOf (fun c => { c with status := .blocked [b] }) s

/-- Every kind of wait, over and not over; a timed wait with its expiry cycle just passed; a FENCE.sys with and without an
earlier access in flight. -/
theorem wit_BlockedContextsWake :
    (([.counts 0 0 0 0, .token 3, .flag 0x3000 6 false false, .flag 0x3000 8 true false, .commit 0, .commit 1, .pressFence 1,
      .invr 4, .engineQueue 0 0, .barrier 5 false] : List Block).all fun b =>
      let s := blockedOn b flags
      has (s.ctx? s.argCtx) (fun c => c.status == .blocked [b]) && (s.gang? 0).isSome) = true ∧
    (let s := blockedOn (.barrier 5 true) (again { pc := 0, slot := 0, expiry := some 6 } { mapped with time := 7 })
     has (s.ctx? s.argCtx) (fun c => c.prog.any fun p => p.pc == c.pc && p.expiry == some 6 && !p.met) = true ∧ 6 < s.time) ∧
    (let s := blockedOn .fenceSys (again { pc := 0, slot := 0 } mapped)
     has (s.ctx? s.argCtx) (fun c => fenceClear s c && c.prog.any fun p => p.pc == c.pc && p.expiry == none) = true ∧
       s.fleet.step = .idle) ∧
    (let t := after (exec (.st 7 2 0 false 3) mapped)
     let s := blockedOn .fenceSys (again { pc := 0, slot := 0 } (ctxOf (fun c => { c with fenceNo := 1 }) t))
     has (s.ctx? s.argCtx) (fun c => !fenceClear s c) = true) := by decide +kernel

/-- A walk that finds a leaf, one that finds none, a stale one; an INVR before and behind its invalidation points. -/
theorem wit_WalksFillAndInvrDropsTranslations :
    (let w : Walk := { id := 3, cl := 0, asid := 0, root := 0x10000, va := 0x3000 }
     let s : State := { mapped with walks := [w], arg := { id := 3 } }
     s.walkCache = [] ∧ s.hbmNew = [] ∧ (s.walks.find? fun w => w.id == s.arg.id) = some w ∧ (walkRoot s w.root w.va).isSome = true ∧
       walkRoot s w.root (2 ^ 40) = none) ∧
    (let v : Invalidation := { id := 4, who := {}, lo := 0x3000, len := 1, asid := none }
     let s (v : Invalidation) : State := { mapped with invals := [v], arg := { id := 4 } }
     ((s v).invals.find? fun v => v.id == (s v).arg.id) = some v ∧ (s v).fleet.step = .idle ∧
       has ((s v).ctx? v.who) (fenceClear (s v)) = true ∧
       ({ v with points := true, waits := [9] } : Invalidation).waits.all (drained (s v)) = true ∧
       [(after (exec (.st 7 2 0 false 3) mapped)).flights.head?.elim 0 Access.id].all
         (drained (after (exec (.st 7 2 0 false 3) mapped))) = false) := by decide +kernel

/-- Waiting records of two causes in user mode, two of the lower; queues of one record and of seven records of one cause. -/
theorem wit_DeferredTrapsQueueAndDeliver :
    (let s := ctxOf (fun c => { c with deferred := [{ trapc := 0x22, trapx := 0 }, { trapc := 0x11, trapx := 1 }, { trapc := 0x11, trapx := 0 }] }) handled
     ran (exec .deferredTrapDelivery s) (fun t => t.ctx.trapc == 0x11 && t.ctx.trapx == 1) = true ∧ s.ctx.live = true ∧ s.ctx.id = s.argCtx ∧ deferredDue s.ctx = true ∧ s.ctx.tvec ≠ 0) ∧
    (([1, 5] : List Nat).all fun n =>
      let q : List Deferred := List.replicate n { trapc := 0x11, trapx := 0 }
      decide (q.length ≤ 8) && decide (absentCauses q ≤ 8 - q.length)) = true ∧ Cause.atomicUnknown.code ∈ deferredCauses := by
  decide +kernel

/-- An exited context with nothing outstanding, in focus and beside; a time-sliced cluster whose slice is over, and one whose
running cluster has no ready context; a context that waits out the harrow delay of its bundle, and one that does not. -/
theorem wit_SlotsSlicesAndHarrowDecide :
    (let s := ctxOf (fun c => { c with status := .exited }) mapped
     has (s.ctx? s.argCtx) (fun c => c.status == .exited && c.ocl == 0 && c.ocs == 0 && c.occ == 0 && c.oct == 0) = true ∧ s.ctx.live = true) ∧
    (let s : State := { mapped with others := [{ neighbour with status := .exited }], arg := { gix := 1 } }
     has (s.ctx? s.argCtx) (fun c => c.status == .exited) = true ∧ s.ctx.id ≠ s.argCtx) ∧
    (let s : State := { ctxOf (fun c => { c with sliced := true }) mapped with
        granary := { mapped.granary with remap := mapped.granary.remap.set 1 0x8000 }
        others := [{ neighbour with lcl := 1, sliced := true }], time := 32768 }
     sharing s s.arg.id = [0, 1] ∧ sliceOf s s.arg.id = (0, 0) ∧ hasReady s 1 = true ∧ s.links = [] ∧ 0 + 32768 ≤ s.time ∧
       (s.allCtx.all fun c => c.harrow.decided.all fun d => !d.handed) = true ∧
       hasReady { s with ctx := { s.ctx with status := .exited } } 0 = false) ∧
    (let delayed : State := ctxOf (fun c => { c with harrow := { c.harrow with delay := some c.pc } }) mapped
     has (delayed.ctx? delayed.argCtx) (fun c => c.harrow.delay == some c.pc) = true ∧
       has (mapped.ctx? mapped.argCtx) (fun c => c.harrow.delay != some c.pc) = true) := by
  decide +kernel

/-- A word of no instruction; a bundle without translation, beyond 2^56, on a page without permission, on a good page. -/
theorem wit_IllegalWordsAndUnfetchedBundlesTrap :
    (match decode ({ handled with bun := { word := 0x38000000 } } : State).bun.word .none with
      | .error .illegalInstr => true
      | _ => false) = true ∧ handled.ctx.live = true ∧ handled.ctx.status = .ready ∧ handled.ctx.tvec ≠ 0 ∧
    deferredDue handled.ctx = false ∧ (match (fetchBundle (ctxOf (fun c => { c with pc := 0x10000000000 }) handled)
        (ctxOf (fun c => { c with pc := 0x10000000000 }) handled).ctx 0x10000000000).1 with
      | .error e => e == { cause := .pageFault, faddr := 0x10000000000 }
      | _ => false) = true ∧
    mapped.tlb = [] ∧ mapped.walkCache = [] ∧ mapped.ctx.ptbase.toNat = 0x10000 ∧ mapped.hbmNew = [] ∧
    leafAt 0x40000000 (fun l => !leafPermits false .fetch l.entry) = true ∧
    leafAt 0x2000 (fun l => leafPermits false .fetch l.entry && paKind mapped (leafPa l 0x2000) == .hbm &&
      decide (paNorm mapped (leafPa l (0x2000 / l.size * l.size)) + l.size ≤ mapped.saveBase)) = true := by
  decide +kernel

/-- A parity error of a register that the last bundles wrote and of one that they did not; slots that read a bad register,
one by its predicate, and slots that do not. -/
theorem wit_RegisterErrorsReplayOrTrap :
    (let s : State := { ctxOf (fun c => { c with recent := [[.s 5]] }) handled with arg := { reg := .s 5 } }
     has (s.ctx? s.argCtx) (fun c => c.recent.any fun l => l.contains s.arg.reg) = true) ∧
    has (handled.ctx? handled.argCtx) (fun c => c.recent.all fun l => !l.contains handled.arg.reg) = true ∧
    (let s (l : List Res) := ctxOf (fun c => { c with badRegs := l }) handled
     let slot (p : PReg) : Slot := { no := 1, word := 0, ins := some (.add 1 2 3 false), pred := p, neg := p != 0 }
     (s [.s 2]).ctx.tvec ≠ 0 ∧ (s [.s 2]).ctx.mode = .user ∧ (slotReads (.add 1 2 3 false)).contains (.s 2) = true ∧
       ran (runIssued { slot := slot 0 } (s [.s 2])) (fun t => t.ctx.trapc == 0x29 && t.ctx.trapx == 1) = true ∧
       ran (runIssued { slot := slot 5 } (s [.p 5])) (fun t => t.ctx.trapc == 0x29 && t.ctx.trapx == 1) = true ∧
       ran (runIssued { slot := slot 0 } (s [.s 4])) (fun t => t.bun.status == .done) = true) := by decide +kernel

/-- A context with an open phase that has aborted a number of times. -/
def inPhase (aborts : Nat) (s : State) : State :=
  let k (c : Ctx) : Checkpoint :=
    { s := c.s, p := c.p, pass := 0, sc := 0, rbs := 0, rbv := 0, fpm := 0, fxf := 0, vshape := 2 }
  let f (c : Ctx) : Phase :=
    { record := 0, src := 0x10000, len := 64, bufa := 0, bufb := 0x1000, restart := 0x2010, aborts := aborts, chk := k c }
  ctxOf (fun c => { c with phase := some (f c) }) s

/-- An error consumed without a phase, in a phase that has aborted twice and three times, and while it is being aborted, in
the recopy and outside it, where a tile transfer is named and where none is; a
restart that has come to rest. -/
theorem wit_ErrorsAbortPhasesOrKill :
    (has (mapped.ctx? mapped.argCtx) (fun c => c.phase.isNone) = true ∧ has (mapped.gang? mapped.arg.gang) (fun g => !g.aborting) = true) ∧
    ([2, 3].all fun n => has ((inPhase n mapped).ctx? {}) fun c => has c.phase fun f => f.aborts == n && c.status == .ready && !c.inSpan) = true ∧
    (let s : State := { gangOf (fun g => { g with aborting := true }) (inPhase 1 mapped) with arg := { val := 1 } }
     has (s.gang? s.arg.gang) (fun g => g.aborting && abortReady (s.updGangCtx g.id fun c => if c.rowStop.isSome then c else c.stopNow) g &&
       ((s.gangCtx g.id).all fun c => c.phase.isSome)) = true ∧ s.arg.val ≠ 0 ∧ s.hbmNew = [] ∧
       ({ s with arg := {} } : State).arg.val = 0 ∧ rowStops s.arg.data = []) := by decide +kernel

/-- A context blocked at its barrier on a reported cycle; gangs of level DUAL before and in their second run, and one that is
being pre-empted. -/
theorem wit_DeadlockAndSavedDataErrors :
    (let s : State := { again { pc := 0, slot := 0, made := true, bar := some 5 } (blockedOn (.barrier 5 false)
        (ctxOf (fun c => { c with bar := c.bar.set 5 { arrph := some 0 }, tvec := 0x5000 })
          (gangOf (fun g => { g with barriers := g.barriers.set 5 { e := 2, arrivals := 1 } }) mapped))) with
        mgmt := { mapped.mgmt with reported := [{}] } }
     s.ctx.live = true ∧ s.ctx.id.gang = s.arg.gang ∧ s.ctx.id ∈ s.mgmt.reported ∧ s.others = [] ∧
       s.ctx.status = .blocked [.barrier 5 false] ∧ s.ctx.mode = .user ∧
       has (s.gang? 0) (fun g => (s.ctx.bar.get 5).arrph == some (g.barriers.get 5).phase) = true ∧
       (s.ctx.prog.any fun p => p.pc == s.ctx.pc && p.bar == some 5) = true) ∧
    ([false, true].all fun r => has ((gangOf (fun g => { g with detl := 3, run2 := r }) mapped).gang? 0) fun g => g.detl == 3) = true ∧
    has ((gangOf (fun g => { g with run := .preempting }) mapped).gang? 0) (fun g => g.run == .preempting) = true := by
  decide +kernel

/-! ### Commands, queues, nodes -/

/-- The state with one command queued by an engine instruction, and the command as the event's. -/
def queued (i : Instr) (f : Cmd → Cmd) (s : State) : State :=
  let t := after (exec i s)
  { t with cmds := t.cmds.map f, arg := { id := t.cmds.head?.elim 0 Cmd.id } }

/-- Whether the producer of a command's token still owes it. -/
def owed (s : State) (k : Cmd) : Bool := has (s.ctx? k.who) fun c => !(c.q.get k.q).done && (c.q.get k.q).gen == k.gen

/-- Commands with tokens that completed OK and not; running copies, in one turn and in two, and gathers whose bytes translate; TOKJOINs of each
outcome. -/
theorem wit_CommandsStartMoveAndComplete :
    (let s := queued (.cp 1 2 0 1 none) id copying
     has (s.cmd? s.arg.id) (fun k => !k.started && !k.cancel && owed s k && k.deps == [.known 0 .ok] && k.released s) = true) ∧
    (let s := queued (.cp 1 2 0 1 none) id (ctxOf (fun c => { c with bundles := 1 }) (after (exec (.st 7 2 0x800 false 3) copying)))
     has (s.cmd? s.arg.id) (fun k => !k.started && !k.cancel && k.deps == [.known 0 .ok] && !k.released s) = true) ∧
    (let s := queued (.cp 1 2 0 1 none) (fun k => { k with deps := [.known 0 .cancelled] }) copying
     has (s.cmd? s.arg.id) (fun k => owed s k && k.deps.any fun d => d != .known 0 .ok) = true) ∧
    (let s := queued (.cp 1 2 0 1 none) (fun k => { k with started := true }) copying
     s.memOk = true ∧ s.hbmNew = [] ∧ s.fleet.step = .idle ∧ s.fleet.dead = [] ∧ s.flights = [] ∧ s.tileOps = [] ∧
       s.arg.val = 0 ∧ has (s.cmd? s.arg.id) (fun k => k.started && owed s k &&
       match k.body with
       | .copy c => (rowMoves k c.ssp c.dsp (c.part k.stage c.total) s).2.1.isNone &&
           (rowMoves k c.ssp c.dsp (c.part k.stage c.total) s).1.length == 1
       | _ => false) = true ∧
     ran (exec .engineCommandComplete s) (fun t => t.mem.le 0x5000 8 == 0x1122334455667788 && (t.ctx.q.get 1).done) = true) ∧
    (let s0 := queued (.cp 1 2 0 1 none) (fun k => { k with started := true }) (put 0x3004 [(4, 16)] (put 0x4008 [(8, 5)] copying))
     let s := { s0 with arg := { s0.arg with val := 8 } }
     has (s.cmd? s.arg.id) (fun k => match k.body with
       | .copy c => c.turnEnd k.stage 8 != c.total && (rowMoves k c.ssp c.dsp (c.part k.stage 8) s).2.1.isNone
       | _ => false) = true ∧
     ran (exec .engineCommandComplete s) (fun t =>
       t.mem.le 0x5000 8 == 0x1122334455667788 && t.mem.le 0x5008 8 == 0 && !(t.ctx.q.get 1).done) = true) ∧
    (let s := queued (.gather 1 2 0 0 none) (fun k => { k with started := true })
        (put 0x3000 [(4, 0x2), (4, 2), (4, 4), (4, 0), (8, 0x4000), (8, 0x5000), (8, 0x6000), (8, 8)] mapped)
     has (s.cmd? s.arg.id) (fun k => k.started && owed s k && match k.body with
       | .gather g => (elemMoves k g (List.range g.count) s).2.1.isNone
       | _ => false) = true) ∧
    (([.known 0 .ok, .known 0 .cancelled, .known 0 (.fault 0x11 5)] : List Dep).all fun d =>
      let t := after (exec (.tokjoin 1 0 0 0) copying)
      let s : State := { t with joins := t.joins.map fun j => { j with deps := [d] }, arg := { id := t.joins.head?.elim 0 Join.id } }
      has (s.joins.find? fun x => x.id == s.arg.id) fun j => j.deps.all Dep.isKnown &&
        has (s.ctx? j.who) fun c => !(c.q.get j.q).done && (c.q.get j.q).gen == j.gen) = true := by decide +kernel

/-- A reshard of one rank on this package, before its digest exchange and its read; a COMBINE of two elements in a window,
with and without a staged contribution, and one that has folded both. -/
theorem wit_ReshardsAndCombinesProceed :
    (let f (n : Nat) (k : Cmd) : Cmd := { k with stage := n, started := true }
     let s (n : Nat) := queued (.collReshard 1 2 0 0 none) (f n) (put 0x3000 [(4, 0x00010104), (4, 0), (2, 1), (2, 1), (2, 1), (2, 1),
      (4, 4), (4, 1), (4, 1), (4, 1), (16, 0), (8, 0x4000), (8, 0x5000), (8, 0x6000), (8, 0), (4, 1)] mapped)
     (s 0).fleet.step = .idle ∧ has ((s 0).cmd? (s 0).arg.id) (fun k => k.stage == 0 && has (localRanks (s 0) k 0) fun l => l.length == 1) = true ∧
     has ((s 1).cmd? (s 1).arg.id) (fun k => (s 1).arg.val == 0 && k.stage == 1 && k.started && k.fault.isNone && match k.body with
       | .reshard b => leAt b.bytes 0x48 8 == 0 && (match xlateAll k.xl .read (byteRange (leAt b.bytes 0x30 8) (shardBytes b.bytes 0x20)) none (s 1) with
         | (.ok p, _) => p.length == 16
         | _ => false)
       | _ => false) = true) ∧
    (let s (n : Nat) (l : List Staged) : State :=
       let t := queued (.combine 1 2 0 0 none) (fun k => { k with stage := n, started := true })
         (put 0x3000 [(4, 0x00010205), (4, 2), (8, 0x100000)] windowed)
       { t with fleet := { t.fleet with staged := l } }
     let x : Staged := { addr := 0x100000, plane := 0, pkg := 0, gang := 0, gix := 0, seq := 0, atom := { op := .add, ty := .i64, val := 7 } }
     ([s 0 [], s 0 [x], s 1 []].all fun s => s.memOk && has (s.cmd? s.arg.id) fun k => k.started && k.fault.isNone && match k.body with
       | .combine c => (combineDamaged s k c).isEmpty && s.fleet.step == .idle && decide (k.stage < c.count) &&
         s.arg.sig.isEmpty && (match (xlate s k.xl .combine ((c.addr + k.stage * c.ty.bytes) % 2 ^ 64)).1 with
           | .ok p => decide (p.pa < 2 ^ 63)
           | _ => false)
       | _ => false) = true ∧
     ran (exec .combineFold (s 0 [x])) (fun t => t.mem.le 0x100000 8 == 7) = true ∧
     has ((s 2 []).cmd? (s 2 []).arg.id) (fun k => owed (s 2 []) k && k.stage == 2) = true) := by decide +kernel

/-- Queue 1, whose descriptor stands at 0xA040 with rings of four packets at 0xB000 and of two entries at 0xC000; byte 0xF
is given. The packet at its head is of a type with flags, a level and an address. -/
def queueing (en : Nat) (q : Queue) (type flags level va : Nat) (s : State) : State :=
  put 0xB000 [(1, type), (1, flags), (1, level), (5, 0), (8, va), (8, 0x77)]
    (put 0xA040 [(8, 0xB000), (4, 4), (2, 0), (1, 2), (1, en), (8, 0x10000), (8, 0xC000), (4, 2), (2, 5), (2, 3)]
      { s with granary := { s.granary with qtbase := 0xA000, queues := [q] }, arg := { id := 1 } })

/-- Whether the descriptor of queue 1 is plain, and a packet of a type stands at its head. -/
def headIs (s : State) (type : Nat) : Bool :=
  let x := s.queue 1
  s.memOk && s.hbmNew.isEmpty && decide (descAt s 1 64 ≤ 2 ^ 63) &&
    ((List.range 64).all fun i => paNorm s (descAt s 1 i) == descAt s 1 i) && leAt (headPacket s 1).1 0 1 == type &&
    x.en && !x.err && x.head != x.tail && !detsetAtHead x && !s.granary.go && s.granary.packets.isEmpty

/-- A queue that is on with one packet waiting. -/
def on : Queue := { id := 1, en := true, tail := 1 }

/-- Doorbells: with EN clear, forward within the ring to its last place and one beyond, stale ones, and of a queue enabled
again. -/
theorem wit_DoorbellsMoveTailOrSetErr :
    (([(0, on), (1, on), (1, { id := 1 })] : List (Nat × Queue)).all fun x =>
      let s := queueing x.1 x.2 0 0 0 0 mapped
      s.memOk && s.hbmNew.isEmpty && seesQueue s 0 1 && seesQueue s 3 1 && !seesQueue s 2 1 && s.mgmt.boot == 5 &&
        leAt (devRead s (descAt s 1 0) 64).1 0xF 1 % 2 == x.1 && leAt (devRead s (descAt s 1 0) 64).1 8 4 == 4) = true ∧
    ((4 : BitVec 32) - on.tail).toNat + (on.tail - on.head).toNat ≤ 4 ∧
      4 < ((5 : BitVec 32) - on.tail).toNat + (on.tail - on.head).toNat ∧ ((1 : BitVec 32) - on.tail).toNat = 0 ∧
    2 ^ 31 ≤ ((0 : BitVec 32) - on.tail).toNat ∧
    ran (exec .doorbell (let s := queueing 1 on 0 0 0 0 mapped; { s with arg := { id := 1, val := 0 } })) (fun t =>
      t.queue 1 == on) = true := by decide +kernel

/-- A node record at 0x9000: class 2, level FREE, NBV 1, one context on core 0, its text at 0x8000. -/
def recorded (s : State) : State :=
  put 0x9000 [(1, 1), (1, 1), (1, 2), (1, 0), (1, 1), (3, 0), (8, 0x8000), (48, 0), (8, 1)]
    { s with granary := { s.granary with images := [{ asid := 0, text := 0x8000, clusters := 1, detl := 0, nbv := 1, fuse := false
                                                      handler := 0, stack := 0, links := [], spares := [], tiles := [], plan := none }] } }

/-- Packets of each type at the head of a queue, with CMP and without; a node record that reads and fits, and an address
without translation. -/
theorem wit_PacketsAreTakenAtHead :
    (([(0, 0), (0, 2), (4, 0), (255, 0), (3, 0), (1, 2)] : List (Nat × Nat)).all fun x =>
      headIs (queueing 1 on x.1 x.2 3 0x9000 (recorded mapped)) x.1) = true ∧
    (let s := queueing 1 on 1 2 0 0x9000 (recorded mapped)
     admitted s < 16384 ∧ s.granary.nodes = [] ∧ s.granary.packets = [] ∧
     (match readNode s 0 0x10000 0x9000 with
       | (.ok r, _, _) => max r.detl (s.queue 1).detl == 0 && fitsEmpty s r ((imageOf s 0 r.text).elim 0 ImageRec.mask)
       | _ => false) = true ∧ desc s 1 0xC 2 = 0 ∧ desc s 1 0x10 8 = 0x10000 ∧
     (devLoad s 0 0x10000 (2 ^ 40) 64).1 = none) := by decide +kernel

/-- A graph of two nodes joined by an edge at 0x9100. -/
def graphed : State :=
  queueing 1 on 2 2 0 0x9100 (put 0x9100 [(2, 2), (2, 1), (12, 0), (8, 0x9000), (8, 0x9000), (2, 0), (2, 1)] (recorded mapped))

/-- A graph whose header ends a page behind which the addresses of its nodes have no permission. -/
def ungraphed : State := queueing 1 on 2 2 0 0x3FFFFFF0 (put 0x3FFFFFF0 [(2, 2), (2, 1), (12, 0)] (recorded mapped))

/-- That graph reads and its records pass; changes of level with and without an earlier packet. -/
theorem wit_GraphsAreAdmittedAndLevelsChange :
    headIs graphed 2 = true ∧ admitted graphed + 2 ≤ 16384 ∧
    (match devLoad graphed 0 0x10000 0x9100 16 with
      | (some h, s1) => leAt h 0 2 == 2 && leAt h 2 2 == 1 && (match devLoad s1 0 0x10000 (0x9100 + 16) 16 with
        | (some a, s2) => (match devLoad s2 0 0x10000 (0x9100 + 32) 4 with
          | (some e, s3) => (graphReason h 2 (parseEdges e 1)).isNone &&
            ((admitNodes 1 (headPacket graphed 1).1 none ((List.range 2).map fun i => (i, leAt a (8 * i) 8)) s3).1.all fun p =>
              p.2.isNone)
          | _ => false)
        | _ => false)
      | _ => false) = true ∧
    (headIs ungraphed 2 = true ∧ ungraphed.granary.nodes = [] ∧ ungraphed.granary.packets = [] ∧ admitted ungraphed = 0 ∧
      leAt (headPacket ungraphed 1).1 1 1 / 2 % 2 = 1 ∧ (match devLoad ungraphed 0 0x10000 0x3FFFFFF0 16 with
        | (some h, s1) => leAt h 0 2 == 2 && (devLoad s1 0 0x10000 (0x3FFFFFF0 + 16) 16).1.isNone
        | _ => false) = true) ∧
    (let s := queueing 1 { on with detWait := some 2 } 0 0 0 0 mapped
     (s.queue 1).detWait = some 2 ∧ s.granary.packets = [] ∧
       (({ s with granary := { s.granary with packets := [{ queue := 1, packet := 0, tag := 0, cmp := false }] } } : State).granary.packets.any
         fun p => p.queue == 1) = true) ∧
    (let s := queueing 1 { on with insns := [(0, 3)] } 0 0 0 0 mapped
     (s.queue 1).detWait = none ∧ (s.queue 1).insns.find? (fun i => i.1 == (s.queue 1).head) = some (0, 3)) := by decide +kernel

/-- A queue with an entry and room for it, and a full ring; REMAP entries that are ignored, by a die that is not fitted and
by a third logical cluster, that are kept, and that are what the entry holds, beside a write that waits; entries that take effect at once and that
wait. -/
theorem wit_EntriesAreWrittenAndRemapTakesEffect :
    (let s := queueing 1 { on with events := [entryBytes 3 0 0 9 0 0] } 0 0 0 0 mapped
     let d := (devRead s (descAt s 1 0) 64).1
     (s.queue 1).events.map List.length = [32] ∧
       (BitVec.ofNat 32 (leAt d 0x2C 4) - BitVec.ofNat 32 (leAt d 0x30 4)).toNat < leAt d 0x20 4 ∧
       leAt d 0x18 8 + 32 ≤ 2 ^ 63 ∧ paNorm s (leAt d 0x18 8) = leAt d 0x18 8 ∧ descAt s 1 64 ≤ leAt d 0x18 8) ∧
    (let s := put 0xA06C [(4, 2), (4, 0)] (queueing 1 { on with events := [entryBytes 3 0 0 9 0 0] } 0 0 0 0 mapped)
     leAt (devRead s (descAt s 1 0) 64).1 0x20 4 ≤ (BitVec.ofNat 32 (leAt (devRead s (descAt s 1 0) 64).1 0x2C 4) -
       BitVec.ofNat 32 (leAt (devRead s (descAt s 1 0) 64).1 0x30 4)).toNat) ∧
    (remapBad { mapped with part := .q2 } 1 0x8018 = true ∧ remapBad mapped 1 0x8000 = false ∧ remapBad mapped 1 0 = false ∧
      remapBad { mapped with granary := { mapped.granary with remap := mapped.granary.remap.set 2 0x8000 } } 1 0x8000 = true) ∧
    mapped.granary.remapPending = [] ∧
    (let s : State := { mapped with granary := { mapped.granary with remap := mapped.granary.remap.set 2 0x8000 } }
     physOf s 0 = some 0 ∧ physOf s 2 = some 0 ∧ physOf mapped 2 ≠ some 0) ∧
    (let s : State := { mapped with granary := { mapped.granary with remapPending := [{ lc := 1, value := 0x8005 }] }
                                    arg := { val := 0x8003800280018000 } }
     ran (exec .remapWrite s) (fun t => t == s) = true) ∧
    (mapped.granary.remap[1]?).getD 0 ≠ 0x8000 ∧ (mapped.granary.remap[0]?).getD 0 = 0x8000 ∧
    occupied mapped 0 = true ∧ occupied mapped 1 = false := by decide +kernel

/-- BAR0 writes and reads within the window and beyond it, a doorbell that has been written; a RESYNC that is asked for; host accesses of the last byte of HBM and of
one beyond, during a quiesce and outside it. -/
theorem wit_HostRegistersAndAccesses :
    (2 ^ 26 < 0x3FFFFFF + 8 ∧ ¬2 ^ 26 < 0x3FFFFF8 + 8) ∧
    (let s : State := { mapped with
        arg := { sig := [1], val2 := 8, id := 0x1000040 }, granary := { mapped.granary with doorbells := [(1, 7)] } }
     s.arg.sig ≠ [] ∧ seesQueue s s.arg.gix 1 = true ∧ s.granary.doorbells.find? (fun d => d.1 == 1) = some (1, 7) ∧
       s.arg.id % 8 = 0 ∧ s.arg.id + s.arg.val2 ≤ 2 ^ 26) ∧
    (let s : State := { mapped with granary := { mapped.granary with go := true, rsaddr := 0x4000, rslen := 64 } }
     s.memOk = true ∧ s.hbmNew = [] ∧ paNorm s s.granary.rsaddr = s.granary.rsaddr) ∧ mapped.granary.go = false ∧
    mapped.hbmSize - 1 + 1 ≤ mapped.hbmSize ∧ mapped.hbmSize < mapped.hbmSize + 1 ∧ mapped.memOk = true ∧
    mapped.fleet.step = .idle ∧ ({ mapped.fleet with step := .stopping } : Fleet).step ≠ .idle ∧ mapped.hbmDirty = [] := by
  decide +kernel

/-- A gang with a node, which the summary lists, and one of its contexts with a pending fault. -/
theorem wit_SummaryHoldsItsEntries :
    let s : State := { ctxOf (fun c => { c with deferred := [{ trapc := 0x11, trapx := 0 }] }) mapped with
      granary := { mapped.granary with nodes := [{ id := 0, queue := 1, packet := 0, index := 0, tag := 9, cmp := true, rec? := none, state := .running 0 }] }
      gangs := mapped.gangs.map fun g => { g with node := 0 } }
    ((gangsInOrder s).map fun p => (p.1.id, p.2.map Node.queue)) = [(0, some 1)] ∧
    ((gangsInOrder s).flatMap fun p => faultsOf s p.1) = [({}, { trapc := 0x11, trapx := 0 })] := by decide +kernel

/-! ### Nodes, furrows, management -/

/-- A node record as read, with n + 1 contexts on core 0. -/
def recOf (n : Nat) : NodeRec :=
  { prio := 2, detl := 0, nbv := 1, fuse := false, text := 0x8000, entry := 0, handler := 0, optab := 0, opers := [], spill := 0
    spillsz := 0, crec := 0, stackva := 0, clusters := [{ cores := 1, counts := n, altw := 0 }], links := [], spares := []
    tiles := [] }

/-- A node of queue 1. -/
def nodeOf (i : Nat) (st : NodeState) (n : Nat) : Node :=
  { id := i, queue := 1, packet := 0, index := 0, tag := 9, cmp := true, rec? := some (recOf n), state := st, cls := 2
    ptbase := 0x10000 }

/-- The recorded image, nodes, and REMAP with logical cluster 0 alone. -/
def granaryOf (l : List Node) (s : State) : State :=
  { recorded s with granary := { (recorded s).granary with nodes := l, remap := [0x8000], queues := [on] } }

/-- A package without a gang and a ready node that fits, of an image without data sections and of one that has two within
its operand; one more ready than an interval ago and one less. -/
theorem wit_NodesAgeAndAreDispatchedInOrder :
    (let s := granaryOf [nodeOf 0 (.ready 0) 0] { mapped with ctx := {}, gangs := [] }
     nextNode s = some (nodeOf 0 (.ready 0) 0) ∧ (imageOf s 0 0x8000).isSome = true) ∧
    ((0 : Nat) < 0x3 ∧ (0x18 : BitVec 48).toNat = 0x3 * 2 ^ 3 ∧ baseOf 0x3 0x18 = 786432) ∧
    (let o : Operand := { va := 0x6000, size := 16, mode := 0 }
     let n : Node := { nodeOf 0 (.ready 0) 0 with rec? := some { recOf 0 with opers := [o] } }
     let d : List (Nat × List Byte) := [(0x6004, [1, 2]), (0x6008, [3])]
     let t := granaryOf [n] { mapped with ctx := {}, gangs := [] }
     let s : State := { t with granary := { t.granary with images := t.granary.images.map fun m => { m with data := d } } }
     nextNode s = some n ∧ has (imageOf s 0 0x8000) (fun m => [o].filter (fun o => m.data.any o.holds) == [o]) = true ∧
       (∀ x ∈ d, o.holds x = true) ∧ d.Pairwise (fun d e => d.1 + d.2.length ≤ e.1 ∨ e.1 + e.2.length ≤ d.1) ∧
       (match xlateAll (devXl n.asid n.ptbase) .fill (byteRange o.va o.size) none s with
         | (.ok l, _) => l.map Pa.pa == (List.range 16).map (0x6000 + ·)
         | _ => false) = true ∧ s.memOk = true ∧ s.hbmNew = [] ∧
       o.filled d = [0, 0, 0, 0, 1, 2, 0, 0, 3, 0, 0, 0, 0, 0, 0, 0]) ∧
    (let s : State := { granaryOf [nodeOf 0 (.ready 0) 0] mapped with time := 0x100000 }
     has (s.node? s.arg.id) (fun n => inReadySet s n && s.granary.aging != 0 && decide (n.agedAt + s.granary.aging ≤ s.time)) = true ∧
       has (({ s with time := 0xFFFFF } : State).node? 0) (fun n => !decide (n.agedAt + s.granary.aging ≤ 0xFFFFF)) = true) := by
  decide +kernel

/-- A gang of class 4 in the way of a node of class 2 that has waited twice, its running context in a tile transfer that the
event names; a gang that stops, one that can be saved, one
whose pre-emption is 65,536 cycles old and one cycle older; a saved gang that fits again. -/
theorem wit_GangsArePreemptedAndResume :
    (let s := granaryOf [{ nodeOf 0 (.running 0) 0 with cls := 4 }, { nodeOf 1 (.ready 0) 3 with waits := 2 }] mapped
     (victim s).isSome = true ∧ (s.gangs.all fun g => g.run != .preempting) = true) ∧
    (let s : State := { granaryOf [{ nodeOf 0 (.running 0) 0 with cls := 4 }, { nodeOf 1 (.ready 0) 3 with waits := 2 }]
        (ctxOf (fun c => { c with running := true }) mapped) with arg := { data := toBytes 2 0 ++ toBytes 2 1 } }
     rowStops s.arg.data = [(0, 1)] ∧ s.ctx.running = true ∧ s.ctx.status = .ready ∧ s.ctx.inSpan = false ∧
       (victim s).isSome = true) ∧
    (let s (f : Ctx → Ctx) := gangOf (fun g => { g with run := .preempting }) (ctxOf f mapped)
     has ((s id).gangs.find? fun g => g.id == (s id).arg.gang && g.run == .preempting) (fun g =>
       readyToSave ((s id).updGangCtx g.id fun c => if c.rowStop.isSome then c else c.stopNow) g) = true ∧
     has ((s fun c => { c with ocl := 1 }).gangs.find? fun g => g.run == .preempting) (fun g =>
       !readyToSave ((s fun c => { c with ocl := 1 }).updGangCtx g.id fun c => if c.rowStop.isSome then c else c.stopNow) g) = true ∧
     has ((s fun c => { c with rowStop := some 1 }).gangs.find? fun g => g.run == .preempting) (fun g => !readyToSave
       ((s fun c => { c with rowStop := some 1 }).updGangCtx g.id fun c => if c.rowStop.isSome then c else c.stopNow) g) = true ∧
     has ((s fun c => { c with status := .stopped [] }).gangs.find? fun g => g.run == .preempting) (fun g =>
       owesNothing (s fun c => { c with status := .stopped [] }) g) = true ∧
     ((s id).gangs.all fun g => !g.late (s id).time && g.late 65537 && !{ g with drained := true }.late 65537) = true ∧
     (s id).time ≤ 0 + 65536 ∧ 0 + 65536 < ({ s id with time := 65537 } : State).time ∧
     (let t := allocSave { s id with mgmt := { mapped.mgmt with saveAllocs := [] } } 0 0 0x10001
      (blockCells t 0 0).length = 0x20000 ∧ (blockCells t 0 0).head? = some t.saveBase ∧ t.memOk = true ∧ t.hbmNew = [])) ∧
    (let s : State := { granaryOf [nodeOf 0 (.running 0) 0] (gangOf (fun g => { g with run := .preempted }) mapped) with
        ctx := {}, saved := [{ mapped.ctx with status := .stopped [] }] }
     nextNode s = some (nodeOf 0 (.running 0) 0)) := by decide +kernel

/-- A gang whose contexts have exited: with a press entry held, with none and a completion record, killed, and of level DUAL
with a shadow. -/
theorem wit_NodesCompleteAndRunTwice :
    (let n : Node := { nodeOf 0 (.running 0) 0 with crec := 0x4000 }
     let s (f : Gang → Gang) : State := { granaryOf [n] (gangOf (fun g => f { g with exited := [0] }) mapped) with ctx := {}, others := [] }
     has ((s id).gang? 0) (fun g => g.run == .running && g.exited.length == g.n && tokensDone (s id) g.id && !pressBusy (s id) g.id &&
       g.windows.isEmpty && g.detl != 3) = true ∧
     (let t : State := { s id with press := [entry 0] }
      pressBusy t 0 = true ∧ has (t.gang? 0) (fun g => !g.final) = true) ∧
     has ((s fun g => { g with run := .killing 0xC0 }).gang? 0) (fun g => g.run == .killing 0xC0) = true ∧
     has ((s fun g => { g with exited := [] }).gang? 0) (fun g => g.exited.length != g.n) = true ∧
     (match xlateAll (devXl n.asid n.ptbase) .write (byteRange n.crec 32) none (s id) with
       | (.ok l, _) => l.map Pa.pa == (List.range 32).map (0x4000 + ·)
       | _ => false) = true ∧ (s id).memOk = true ∧ (s id).walkCache = [] ∧ (s id).hbmNew = [] ∧
     (let d := s fun g => { g with detl := 3, shadow := [(0x5000, [1, 2])], seats := [(0, 0, 0)] }
      has (d.gang? 0) (fun g => !g.run2 && (g.seats.all fun p => g.clusters.any fun k => k.lc == p.1) && g.shadow == [(0x5000, [1, 2])]) = true ∧ d.allCtx = [] ∧
        d.flights = [] ∧ (imageOf d 0 0x8000).isSome = true)) := by decide +kernel

/-- Live and dead furrows; a master and a package that is none; the last live furrow; masks that are here and new; a drained
and an undrained package; DRAINED from the last member and from one before it; a quiesce of 700,000 cycles and of one more. -/
theorem wit_QuiesceOfTheFurrows :
    let fl (f : Fleet) (s : State) : State := { s with fleet := f }
    (mapped.fleet.live.getLsbD 7 = true ∧ 7 ∉ mapped.fleet.dead) ∧
    (fl { live := 0x7F, dead := [7] } mapped).fleet.live.getLsbD 7 = false ∧
    (mapped.fleet.master = true ∧ mapped.fleet.domainFail = false ∧ mapped.fleet.step = .idle ∧
      mapped.fleet.live &&& ~~~(BitVec.twoPow 8 3) ≠ 0) ∧
    (let s := fl { live := 0x08 } mapped
     s.fleet.live.getLsbD 3 = true ∧ s.fleet.live &&& ~~~(BitVec.twoPow 8 3) = 0) ∧
    (furrowLimit mapped = 0xFF ∧ furrowLimit { mapped with part := .q2 } = 0x0F ∧ (furrowLimit { mapped with part := .q2 }).getLsbD 5 = false) ∧
    (mapped.fpln = 8 ∧ ({ mapped with arg := { data := [8] } } : State).arg.data = [8]) ∧
    ((0xFF : BitVec 8) = mapped.fleet.live ∧ (0x7F : BitVec 8) ≠ mapped.fleet.live) ∧
    mayDrain (fl { step := .stopping, master := false } mapped) = true ∧
    mayDrain (fl { step := .stopping } (after (exec (.st 7 2 0 false 3) mapped))) = false ∧
    (let f : Fleet := { step := .stopping, members := [0, 1], drainedFrom := [1] }
     (∀ q ∈ f.members, q = 0 ∨ q ∈ f.drainedFrom) ∧ 0 ∈ f.members ∧ 0 ∉ f.drainedFrom ∧ 0 ∉ f.installedFrom ∧
       ¬∀ q ∈ ({ f with drainedFrom := [] } : Fleet).members, q = 0 ∨ q ∈ ({ f with drainedFrom := [] } : Fleet).drainedFrom) ∧
    (let s : State := { fl { step := .draining } mapped with time := 700001 }
     s.fleet.master = true ∧ s.fleet.step ≠ .idle ∧ s.fleet.since + 700000 < s.time ∧ ¬s.fleet.since + 700000 < 700000) := by
  decide +kernel

/-- A drained package that is no master, an installed one with a lost atomic and its tag, a package at another mask, and one
that goes on in the mask that it is told. -/
theorem wit_InstallAndResumeChangeTheMap :
    (BitVec.ofNat 8 ({ mapped with arg := { val := 0xFF } } : State).arg.val = mapped.fleet.live ∧ mapped.fleet.step = .idle) ∧
    (let s : State := { mapped with fleet := { step := .drained, master := false, target := 0x7F }, arg := { val := 0x7F } }
     BitVec.ofNat 8 s.arg.val = s.fleet.target ∧ s.fleet.step = .drained ∧ s.fleet.master = false ∧
       BitVec.ofNat 8 s.arg.val ≠ s.fleet.live) ∧
    (let t := after (exec (.amoAdd 1 2 7 1) mapped)
     let s : State := { t with
       flights := t.flights.map fun f => { f with lost := true, tag := some 65535 }
       fleet := { step := .installed, master := false, target := 0xFF }, arg := { val := 0xFF } }
     (s.flights.filter Access.lost).map Access.tag = [some 65535] ∧ s.fleet.step = .installed ∧
       has (s.ctx? {}) (fun c => c.deferred.isEmpty) = true) := by decide +kernel

/-- Counters, thresholds and power at the ends of their ranges; an array in service, one whose cluster is out, and one beyond
the last; an error window that is over and one that is not, with an array over its threshold. -/
theorem wit_CountersArraysAndPower :
    (leAt (toBytes 4 (127 + 65536 * 9)) 0 2 < mapped.narr ∧ mapped.narr ≤ 128 ∧ 128 ≠ 0xFFFF ∧ leAt (toBytes 2 127) 0 2 < mapped.narr) ∧
    ((3 < mapped.dies ∧ 64 - 64 % 5 = 60 ∧ ¬65 ≤ 64) ∧ mapped.dies ≤ 4 ∧ mapped.part = .q4) ∧
    outIgnored mapped 0 = false ∧
    outIgnored { mapped with mgmt := { mapped.mgmt with arrays := [{ arr := 3, out := true }] } } 0 = true ∧
    hosted mapped 0 = [0] ∧ (mapped.mgmt.cap < 1801 ∧ mapped.mgmt.throttle = false) ∧
    (let s : State := { mapped with time := 700000000, mgmt := { mapped.mgmt with arrays := [{ arr := 3, window := 9, pft := 8 }] } }
     s.mgmt.windowStart + 700000000 ≤ s.time ∧ s.arg.data = [] ∧ (s.arrayCount 3).pft < (s.arrayCount 3).window ∧
       (s.arrayCount 4).pft = 0 ∧ s.mgmt.uv[3 / 32]? = some 0) ∧
    (0 : Nat) < mapped.mgmt.windowStart + 700000000 := by decide +kernel

/-- Gangs that exist and do not; a window record at the limits and one misaligned; a wait-for walk that is due; keys, clocks
and save regions at the ends of their ranges. -/
theorem wit_KillsWindowsKeysAndClocks :
    (mapped.gang? (leAt [1, 0] 0 2) = none ∧ (mapped.gang? (leAt [0, 0] 0 2)).map Gang.run = some .running) ∧
    (let d (base : Nat) : List Byte := toBytes 2 63 ++ toBytes 1 0 ++ toBytes 1 1 ++ toBytes 4 0 ++ toBytes 8 base ++
       toBytes 8 (2 ^ 21) ++ toBytes 8 0x4000000 ++ toBytes 8 (2 ^ 26) ++ List.replicate 24 0
     (d (2 ^ 21)).length = 64 ∧ windowOk mapped (d (2 ^ 21)) = true ∧ windowOk mapped (d 1) = false) ∧
    ((windowed.fleet.windows.any fun w => w.wid == 1) = true ∧ (windowed.fleet.windows.all fun w => w.wid != 2) = true) ∧
    (let s : State := { blockedOn (.token 3) (ctxOf (fun c => { c with q := c.q.set 3 { done := false } }) mapped) with time := 7000000 }
     s.mgmt.lastWalk + 7000000 ≤ s.time ∧ s.allCtx.length = 1 ∧ (s.allCtx.map fun c => waitEntry s c) = [some ({}, [])]) ∧
    (let s := blockedOn (.barrier 5 false) (ctxOf (fun c => { c with bar := c.bar.set 5 { arrph := some 0 } })
        (gangOf (fun g => { g with n := 2, barriers := g.barriers.set 5 { e := 2, arrivals := 1 } }) { mapped with others := [neighbour] }))
     (s.allCtx.map fun c => waitEntry s c) = [some ({}, [{ gix := 1 }]), none]) ∧
    (mapped.mgmt.identityUsed < 2 ^ 20 ∧ ({ mapped.mgmt with identityUsed := 2 ^ 20 } : Mgmt).identityUsed = 2 ^ 20) ∧
    ((BitVec.ofNat 32 (leAt (toBytes 4 500000) 0 4)).toInt ≤ 500000 ∧
      (BitVec.ofNat 32 (leAt (toBytes 4 (2 ^ 32 - 500001)) 0 4)).toInt < -500000) ∧
    leAt (toBytes 1 64) 0 1 ≤ 64 ∧ 64 < leAt (toBytes 1 65) 0 1 := by decide +kernel

/-- A word placed by withFetchWord is the next bundle's: the first step after it runs ADDI, and a word of class C from slot
3 (log 15). -/
theorem test_placed_word_runs :
    ran (step (State.reset.withFetchWord 32 0x0BB20FFB)) (fun t => t.ctx.s.get 29 == -5 && t.ctx.pc == 0x2010) = true ∧
    ran (step (State.reset.withFetchWord 32 0x2800000A)) (fun t => t.ctx.pc != 0x2010) = true := by decide +kernel


end Sys2Proof.Tests
end

section
/-! SUPPORT. What reset leaves, and a reset of the package (01 R25, 20 R418 to R422): PMAP of a live mask read entry by entry,
and the state that PACKAGE_RESET leaves, written out once. -/
open Sys2Proof Sys2Proof.Machine Sys2Proof.Claim

/-- Settles O9: every clause reads a field of one closed state. -/
theorem resetLeavesStatedValues : Obligations.ResetLeavesStatedValues := by
  refine ⟨rfl, rfl, rfl, rfl, rfl, rfl, ?_, rfl, ?_⟩
  · decide
  · decide

namespace Sys2Proof.Machine

/-- The number whose octal digits a function gives, n of them, least significant first. -/
def octal (f : Nat → Nat) (n : Nat) : Nat := ((List.range n).map fun j => f j * 2 ^ (3 * j)).sum

theorem octal_succ (f : Nat → Nat) (n : Nat) : octal f (n + 1) = f 0 + 8 * octal (fun j => f (j + 1)) n := by
  have h : (fun j => f (j + 1) * 2 ^ (3 * (j + 1))) = fun j => 8 * (f (j + 1) * 2 ^ (3 * j)) := by
    funext j
    rw [Nat.mul_add, Nat.pow_add]
    ring
  simp [octal, List.range_succ_eq_map, List.map_map, Function.comp_def, h, List.sum_map_mul_left]

theorem octal_lt {f : Nat → Nat} (h : ∀ j, f j < 8) (n : Nat) : octal f n < 2 ^ (3 * n) := by
  induction n generalizing f with
  | zero => simp [octal]
  | succ n ih =>
    have h0 := h 0
    have hn := ih (f := fun j => f (j + 1)) fun j => h (j + 1)
    rw [octal_succ, Nat.mul_add, Nat.pow_add]
    omega

/-- A digit read back from the number that the digits make. -/
theorem octal_digit {f : Nat → Nat} (h : ∀ j, f j < 8) {n i : Nat} (hi : i < n) : octal f n / 2 ^ (3 * i) % 8 = f i := by
  induction n generalizing f i with
  | zero => omega
  | succ n ih =>
    have h0 := h 0
    rw [octal_succ]
    cases i with
    | zero => omega
    | succ i =>
      rw [Nat.mul_add, Nat.add_comm (3 * i), Nat.pow_add, ← Nat.div_div_eq_div_mul,
        show (f 0 + 8 * octal (fun j => f (j + 1)) n) / 2 ^ (3 * 1) = octal (fun j => f (j + 1)) n by omega]
      exact ih (fun j => h (j + 1)) (by omega)

/-- The furrow that serves index i under a live mask (19 R397). -/
def liveTarget (m : BitVec 8) (i : Nat) : Nat :=
  if m.getLsbD i then i else ((liveList m)[i % (liveList m).length]?).getD 0

theorem liveTarget_lt (m : BitVec 8) (i : Nat) : liveTarget m i < 8 := by
  unfold liveTarget
  split
  next h => exact Nat.lt_of_not_le fun hle => by simp [BitVec.getLsbD_of_ge m i hle] at h
  next =>
    cases h : (liveList m)[i % (liveList m).length]? with
    | none => simp
    | some x =>
      have hx := List.mem_of_getElem? h
      simp only [liveList, List.mem_filter, List.mem_range] at hx
      exact hx.1

/-- PMAP of a live mask, entry by entry (19 R397). -/
theorem pmapEntry_pmapOf (m : BitVec 8) {i : Nat} (hi : i < 8) : pmapEntry (pmapOf m) i = liveTarget m i := by
  have e : pmapOf m = BitVec.ofNat 24 (octal (liveTarget m) 8) := rfl
  have lt : octal (liveTarget m) 8 < 2 ^ 24 := octal_lt (liveTarget_lt m) 8
  rw [pmapEntry, e, BitVec.toNat_ofNat, Nat.mod_eq_of_lt lt]
  exact octal_digit (liveTarget_lt m) hi

/-- Raising an event changes the management core's event ring and what it has sent unasked, and nothing else (20 R412). -/
theorem raiseEvent_eq (s : State) (code source arg : Nat) : ∃ ev o u,
    raiseEvent s code source arg = { s with mgmt := { s.mgmt with events := ev, overflow := o, unsolicited := u } } := by
  unfold raiseEvent
  dsimp only
  split <;> exact ⟨_, _, _, rfl⟩

theorem firmwareSigLow_eq (s : State) (sig : List Byte) : ∃ ev o u,
    firmwareSigLow s sig = { s with mgmt := { s.mgmt with events := ev, overflow := o, unsolicited := u } } := by
  unfold firmwareSigLow
  dsimp only
  split
  · exact raiseEvent_eq ..
  · exact ⟨_, _, _, rfl⟩

/-- The start of a quiesce, or the failure of the domain, leaves the installed mask and all but the fleet and the event ring
as they stood (19 R398, R400). -/
theorem startQuiesce_eq (s : State) (m : BitVec 8) : ∃ fl ev o u,
    startQuiesce s m = { s with fleet := fl, mgmt := { s.mgmt with events := ev, overflow := o, unsolicited := u } } ∧
      fl.live = s.fleet.live := by
  unfold startQuiesce
  dsimp only
  split
  · obtain ⟨ev, o, u, h⟩ := raiseEvent_eq
      (sendMaster (s.updFleet fun f => { f with domainFail := true }) .domainFail s.fleet.live.toNat) 0x06 s.pkg
      s.fleet.live.toNat
    exact ⟨_, ev, o, u, h, rfl⟩
  · exact ⟨_, _, _, _, rfl, rfl⟩

/-- The mask that a package joins at its reset (20 R418, 19 R397): the one that the event names, within what is fitted. -/
def joinedMask (s : State) : BitVec 8 :=
  let full : BitVec 8 := if s.part = .q4 then 0xFF else 0x0F
  if s.arg.val % 256 = 0 then full else BitVec.ofNat 8 s.arg.val &&& full

/-- The package as its reset leaves it, the protocol and the event ring apart. -/
def resetPackage (s : State) (fl : Fleet) (ev : List MgmtEvent) (o : Bool) (u : List MgmtEvent) : State :=
  { State.resetOf s.part with
    pkg := s.pkg, freeIx := s.freeIx, nextId := s.nextId, agenda := s.agenda
    pmap := pmapOf (joinedMask s)
    fleet := fl
    mgmt := { bootMgmt s.mgmt s.part with events := ev, overflow := o, unsolicited := u } }

/-- The master of a domain that may not use the whole mask starts a quiesce as it joins (19 R397). -/
theorem joinDomain_eq {s t : State} (ht : ∃ fl ev o u, t = resetPackage s fl ev o u ∧ fl.live = joinedMask s) :
    ∃ fl ev o u, (.next (if t.fleet.master ∧ joinedMask s &&& domainMask t ≠ joinedMask s then
      startQuiesce t (joinedMask s) else t) : Host.Outcome State Fault Refusal) = .next (resetPackage s fl ev o u) ∧
        fl.live = joinedMask s := by
  split
  · obtain ⟨fl, ev, o, u, rfl, hl⟩ := ht
    obtain ⟨fl', ev', o', u', h, hl'⟩ := startQuiesce_eq (resetPackage s fl ev o u) (joinedMask s)
    exact ⟨fl', ev', o', u', congrArg _ h, hl'.trans hl⟩
  · obtain ⟨fl, ev, o, u, rfl, hl⟩ := ht
    exact ⟨fl, ev, o, u, rfl, hl⟩

theorem execPackageReset_eq (s : State) : ∃ fl ev o u,
    execPackageReset s = .next (resetPackage s fl ev o u) ∧ fl.live = joinedMask s := by
  unfold execPackageReset
  refine joinDomain_eq ?_
  split
  · obtain ⟨ev, o, u, h⟩ := firmwareSigLow_eq _ _
    exact ⟨_, ev, o, u, h, rfl⟩
  · exact ⟨_, _, _, _, rfl, rfl⟩

theorem bootGood_iff (m : Mgmt) : bootGood m = true ↔
    xmssVerify m.fwKey (m.coreStaged.getD (m.running false)).image (m.coreStaged.getD (m.running false)).sig = true ∧
      xmssVerify m.fwKey (m.sowerStaged.getD (m.running true)).image (m.sowerStaged.getD (m.running true)).sig = true :=
  Bool.and_eq_true_iff

/-- Where both images are signed, they run after the reset; else what ran goes on (20 R418). -/
theorem bootMgmt_running (m : Mgmt) (p : Part) (sower : Bool) : (bootMgmt m p).running sower =
    if bootGood m then (if sower then m.sowerStaged else m.coreStaged).getD (m.running sower) else m.running sower := by
  cases good : bootGood m with
  | false => cases sower <;> simp [bootMgmt, Mgmt.running, good]
  | true =>
    cases sower with
    | false => cases h : m.coreStaged <;> simp [bootMgmt, Mgmt.running, good, h]
    | true => cases h : m.sowerStaged <;> simp [bootMgmt, Mgmt.running, good, h]

theorem resetPackage_running (s : State) (fl : Fleet) (ev : List MgmtEvent) (o : Bool) (u : List MgmtEvent) (b : Bool) :
    (resetPackage s fl ev o u).mgmt.running b = (bootMgmt s.mgmt s.part).running b := rfl

theorem resetPackage_boot (s : State) (fl : Fleet) (ev : List MgmtEvent) (o : Bool) (u : List MgmtEvent) :
    (resetPackage s fl ev o u).mgmt.boot = if bootGood s.mgmt then 5 else 1 := rfl

theorem resetPackage_cap (s : State) (fl : Fleet) (ev : List MgmtEvent) (o : Bool) (u : List MgmtEvent) :
    (resetPackage s fl ev o u).mgmt.cap = if s.part = .q4 then 1800 else 1000 := rfl

end Sys2Proof.Machine

/-- Settles O60: the state that a reset leaves is written out once (`resetPackage`), and each clause reads a field of it. -/
theorem packageResetStartsAfresh : Obligations.PackageResetStartsAfresh := by
  intro s
  obtain ⟨fl, ev, o, u, h, hl⟩ := execPackageReset_eq s
  refine ⟨_, h, rfl, rfl, rfl, rfl, rfl, rfl, rfl, rfl, rfl, rfl, rfl, rfl, resetPackage_cap .., rfl, rfl, rfl, rfl, rfl,
    rfl, rfl, ⟨fun good => ?_, fun bad => ?_⟩, hl, fun i hi => pmapEntry_pmapOf _ hi⟩
  · have g := (bootGood_iff s.mgmt).mpr good
    simp [resetPackage_boot, resetPackage_running, bootMgmt_running, g]
  · have g : bootGood s.mgmt = false := Bool.eq_false_iff.mpr fun e => bad ((bootGood_iff s.mgmt).mp e)
    exact ⟨by simp [resetPackage_boot, g], funext fun b => by simp [resetPackage_running, bootMgmt_running, g]⟩
end

section
/-! SUPPORT. The turn that issues a bundle (01 R18, R86, 03 R92): from the agenda to the fetched words, through three NOPs, which
change the record of the bundle alone, to slot 3. -/
open Sys2Proof Sys2Proof.Machine Sys2Proof.Claim

namespace Sys2Proof.Machine

/-! ### The turn -/

/-- A turn that issues the bundle of a context that may issue. -/
theorem step_issue {s : State} {rest : List Turn} {w : CtxId} (h : s.agenda = .issue w :: rest)
    (m : (({ s with agenda := rest } : State).ctx? w).any (mayIssue { s with agenda := rest }) = true) :
    step s = afterIssue (issueBundle (startRunning (focusOn { s with agenda := rest } w))) := by
  simp [step, h, takeTurn, m, issueOf]

/-- Where no pre-emption has told the context to stop, the outcome of its bundle stands. -/
theorem issueBundle_next {s t : State} (h : s.ctx.rowStop = none) (e : issueFocus s = .next t) :
    issueBundle s = .next t := by
  simp [issueBundle, orStop, e, h]

/-- Where no deferred trap waits, the slots of the fetched bundle run. -/
theorem issueFocus_fetched {s s1 : State} {ws : List Nat} {l : List Slot} (d : deferredDue s.between.ctx = false)
    (f : fetchBundle s.between s.between.ctx s.between.ctx.pc = (.ok ws, s1)) (p : parseBundle decode ws = some l) :
    issueFocus s = runBundle s1 l := by
  unfold issueFocus
  simp only [d, f, p]
  rfl

/-! ### The bundle -/

/-- The state in which a bundle's slots are judged: operands come from the context as it stands now (03 R92). -/
def bundleStart (s : State) : State := { s.withCtx Ctx.dropProg with pre := some s.ctx.dropProg, bun := {} }

@[simp] theorem dropProg_harrow (c : Ctx) : c.dropProg.harrow = c.harrow := by
  unfold Ctx.dropProg
  split <;> rfl

@[simp] theorem dropProg_badRegs (c : Ctx) : c.dropProg.badRegs = c.badRegs := by
  unfold Ctx.dropProg
  split <;> rfl

@[simp] theorem dropProg_detl (c : Ctx) : c.dropProg.detl = c.detl := by
  unfold Ctx.dropProg
  split <;> rfl

/-- A bundle's run, with the state in which its slots are judged named. -/
theorem runBundle_eq (s : State) (l : List Slot) : runBundle s l =
    let l := l.map (vacate s.ctx.dropProg)
    match l.find? fun x => decodeBad (bundleStart s) x || patternWaits (bundleStart s) x with
    | some x => if decodeBad (bundleStart s) x then decodeOut (bundleStart s) x else .next (stallBundle (bundleStart s))
    | none => match l.find? fun x => x.cls == .t with
      | none => runPlain (atIssue s l) l
      | some h => if (bundleStart s).ctx.rowStop.isSome then runPlain (atIssue s l) l else runHead (bundleStart s) l h.no :=
  rfl

/-- A bundle with no vacated slot, no decode-time trap, no pattern that is still owed and no T slot runs as it is written. -/
theorem runBundle_plain {s : State} {l : List Slot} (v : s.ctx.dropProg.harrow.vacated = [])
    (good : ∀ x ∈ l, decodeBad (bundleStart s) x = false ∧ patternWaits (bundleStart s) x = false)
    (plain : ∀ x ∈ l, x.cls ≠ .t) : runBundle s l = runPlain (atIssue s l) l := by
  have hv : l.map (vacate s.ctx.dropProg) = l := by
    rw [List.map_congr_left (g := id) fun x _ => by rw [vacate, v]; rfl, List.map_id]
  have hb : l.find? (fun x => decodeBad (bundleStart s) x || patternWaits (bundleStart s) x) = none := by
    rw [List.find?_eq_none]
    intro x hx
    simp [good x hx]
  have ht : l.find? (fun x => x.cls == .t) = none := by
    rw [List.find?_eq_none]
    intro x hx
    simp [plain x hx]
  rw [runBundle_eq]
  simp only [hv, hb, ht]

/-- Beginning the windows of an array changes the arrays alone. -/
theorem startWindows_eq (s : State) (l : List Slot) : ∃ a, startWindows s l = { s with arrays := a } := by
  unfold startWindows startFor
  dsimp only
  split
  · exact ⟨_, rfl⟩
  · split <;> exact ⟨_, rfl⟩

/-! ### NOP in a slot -/

theorem unitPresent_nop (s : State) : unitPresent s 0 0 0 = true := by
  unfold unitPresent
  cases s.src.isV <;> simp

theorem sigOf_nop (s : State) : sigOf s .nop = {} := by
  show ({ unit := unitPresent s 0 0 0 } : Sig) = {}
  rw [unitPresent_nop]

theorem issues_nop (s : State) : Issues .nop s := by
  rw [Issues, sigOf_nop]
  exact ⟨by simp [decodeTrap], rfl⟩

/-- NOP is done in every state. -/
theorem exec_nop_next (s : State) : exec .nop s = .next (finished s (begun s)) := by
  rw [exec_nop]
  exact runSlot_done (issues_nop s) rfl

/-! ### The slots of a bundle, one after another -/

/-- A slot that is done: the attempt goes on with what it leaves. -/
theorem attemptSlot_done {a : Attempt} {x : Slot} {t : State} (stop : a.stop = none) (on : slotOn a.st x = true)
    (run : runIssued { slot := x } a.st = .next t) (d : t.bun.status = .done) :
    attemptSlot a { slot := x } = { a with st := noteTaint t x, saw := (x.no, a.st) :: a.saw } := by
  simp [attemptSlot, stop, on, run, d]

/-- Where no register has an error, a slot runs its instruction. -/
theorem runIssued_ins {x : Slot} {s : State} {i : Instr} (bad : s.src.badRegs = []) (h : x.ins = some i) :
    runIssued { slot := x } s = exec i (atSlot s { slot := x }) := by
  have b : (atSlot s { slot := x }).src.badRegs = [] := bad
  simp [runIssued, readsBad, b, h]

theorem noteTaint_below {s : State} (x : Slot) (h : s.src.detl ≠ 2) : noteTaint s x = s := by
  simp [noteTaint, h]

/-- The record of the bundle as a slot that is done leaves it (03 R91). -/
def doneAt (s : State) (x : Slot) : State :=
  { s with bun := { s.bun with
      slot := x.no, word := x.word, ext := x.ext, dup := x.dup, status := .done, tainted := false, fold := none } }

/-- A NOP in a slot changes the record of the bundle alone. -/
theorem attemptSlot_nop {a : Attempt} (n : Nat) (stop : a.stop = none) (bad : a.st.src.badRegs = [])
    (detl : a.st.src.detl ≠ 2) (pc : a.st.ctx.pc = a.st.src.pc + 16) :
    attemptSlot a { slot := nopSlot n } =
      { a with st := doneAt a.st (nopSlot n), saw := (n, a.st) :: a.saw } := by
  have on : slotOn a.st (nopSlot n) = true := by simp [slotOn, nopSlot]
  have run : runIssued { slot := nopSlot n } a.st = .next (doneAt a.st (nopSlot n)) := by
    rw [runIssued_ins bad rfl, exec_nop_next]
    congr 1
    show ({ doneAt a.st (nopSlot n) with ctx := { a.st.ctx with pc := a.st.src.pc + 16 } } : State) = _
    rw [← pc]
    rfl
  rw [attemptSlot_done stop on run rfl, noteTaint_below (s := doneAt a.st (nopSlot n)) _ detl]
  rfl

/-- Where no slot drops from a barrier, slots act in the order of their numbers (08 R227). -/
theorem actOrder_same {l : List Issued} (h : ∀ x ∈ l, isDrop x = false) : actOrder l = l := by
  have e : l.filter isDrop = [] := List.filter_eq_nil_iff.mpr fun x hx => by simp [h x hx]
  have k : (l.filter fun x => !isDrop x) = l := List.filter_eq_self.mpr fun x hx => by simp [h x hx]
  rw [actOrder, e, k, List.nil_append]

/-- An attempt in which every slot is done completes its bundle. -/
theorem endAttempt_complete {s : State} {l : List Issued} {a : Attempt} (stop : a.stop = none) (st : a.stalled = false)
    (ht : a.halted = []) (tr : a.trapped = []) (bl : a.blocked = []) :
    endAttempt s l a = .next (completeBundle a.st l) := by
  simp [endAttempt, stop, st, ht, tr, bl, lowestSlot]

/-- A bundle of three NOPs whose slot 3 is done completes with what slot 3 leaves. -/
theorem runPlain_lastSlot {s t : State} {word : Nat} {i : Instr} (bad : s.src.badRegs = []) (detl : s.src.detl ≠ 2)
    (pre : s.pre ≠ none) (bun : s.bun = {}) (nodrop : ∀ b, i ≠ .barDrop b)
    (e : exec i { s with ctx := { s.ctx with pc := s.src.pc + 16 }, bun := { slot := 3, word := word } } = .next t)
    (done : t.bun.status = .done) :
    runPlain s (lastSlotBundle word i) =
      .next (completeBundle (noteTaint t { no := 3, word := word, ins := some i }) (asWritten (lastSlotBundle word i))) := by
  have order : actOrder (asWritten (lastSlotBundle word i)) = asWritten (lastSlotBundle word i) := by
    refine actOrder_same fun x hx => ?_
    simp only [asWritten, lastSlotBundle, List.map_cons, List.map_nil, List.mem_cons, List.not_mem_nil, or_false] at hx
    rcases hx with rfl | rfl | rfl | rfl
    iterate 3 rfl
    unfold isDrop
    split
    next b h => exact absurd (Option.some.inj h) (nodrop b)
    next => rfl
  obtain ⟨c, hc⟩ := Option.ne_none_iff_exists'.mp pre
  have src (u : State) (h : u.pre = s.pre) : u.src = s.src := by simp [State.src, h, hc]
  have ubad (u : State) (h : u.pre = s.pre) : u.src.badRegs = [] := by rw [src u h, bad]
  have udetl (u : State) (h : u.pre = s.pre) : u.src.detl ≠ 2 := by rwa [src u h]
  have upc (u : State) (h : u.pre = s.pre) (p : u.ctx.pc = s.src.pc + 16) : u.ctx.pc = u.src.pc + 16 := by
    rw [src u h, p]
  have ran : (attempt s (asWritten (lastSlotBundle word i))).st = noteTaint t { no := 3, word := word, ins := some i } ∧
      endAttempt s (asWritten (lastSlotBundle word i)) (attempt s (asWritten (lastSlotBundle word i))) =
        .next (completeBundle (attempt s (asWritten (lastSlotBundle word i))).st (asWritten (lastSlotBundle word i))) := by
    rw [attempt, order]
    simp only [asWritten, lastSlotBundle, List.map_cons, List.map_nil, List.foldl_cons, List.foldl_nil]
    rw [attemptSlot_nop 0 rfl (ubad _ rfl) (udetl _ rfl) (upc _ rfl rfl),
      attemptSlot_nop 1 rfl (ubad _ rfl) (udetl _ rfl) (upc _ rfl rfl),
      attemptSlot_nop 2 rfl (ubad _ rfl) (udetl _ rfl) (upc _ rfl rfl),
      attemptSlot_done (t := t) rfl (by simp [slotOn]) (by
        refine Eq.trans (runIssued_ins (ubad _ rfl) rfl) (Eq.trans ?_ e)
        simp only [atSlot, doneAt, withCtx_bun, bun]
        rfl) done]
    exact ⟨rfl, endAttempt_complete rfl rfl rfl rfl rfl⟩
  rw [runPlain, ran.2, ran.1]

/-! ### What the slot in slot 3 finds -/

/-- Slot 3 finds the state in which the bundle is judged, but for arrays, pc and the record of the bundle. -/
theorem atLastSlot_eq (s : State) (word : Nat) (i : Instr) : ∃ a, atLastSlot s word i = { bundleStart s with
    arrays := a, ctx := { (bundleStart s).ctx with pc := (bundleStart s).ctx.pc + 16 }
    bun := { slot := 3, word := word } } := by
  obtain ⟨a, h⟩ := startWindows_eq (bundleStart s) (lastSlotBundle word i)
  refine ⟨a, ?_⟩
  unfold atLastSlot atIssue
  dsimp only
  rw [show startWindows { s.withCtx Ctx.dropProg with pre := some s.ctx.dropProg, bun := {} } (lastSlotBundle word i) = _ from h]

theorem readStalls_atLastSlot (s : State) (word : Nat) (i : Instr) :
    readStalls (bundleStart s) = readStalls (atLastSlot s word i) := by
  obtain ⟨a, e⟩ := atLastSlot_eq s word i
  rw [e]
  rfl

theorem unitPresent_congr {s t : State} (h : s.src = t.src) (p : s.part = t.part) : unitPresent s = unitPresent t := by
  funext maj minor word
  unfold unitPresent State.efx64
  rw [h, p]

/-- What the frame of a slot knows of an instruction rests on the context before the bundle, the part, and what is owed. -/
theorem sigOf_congr {s t : State} (h : s.src = t.src) (p : s.part = t.part) (r : readStalls s = readStalls t) (i : Instr) :
    sigOf s i = sigOf t i := by
  simp only [sigOf, rdS, unitPresent_congr h p, h, r]

theorem decodeTrap_atLastSlot (s : State) (word : Nat) (i : Instr) :
    decodeTrap (bundleStart s) (sigOf (bundleStart s) i) =
      decodeTrap (atLastSlot s word i) (sigOf (atLastSlot s word i) i) := by
  obtain ⟨a, e⟩ := atLastSlot_eq s word i
  have src : (bundleStart s).src = (atLastSlot s word i).src := by rw [e]; rfl
  rw [sigOf_congr src (by rw [e]) (readStalls_atLastSlot s word i)]
  simp only [decodeTrap, src]

theorem patternWaits_atLastSlot (s : State) (word : Nat) (i : Instr) (x : Slot) :
    patternWaits (bundleStart s) x = patternWaits (atLastSlot s word i) x := by
  obtain ⟨a, e⟩ := atLastSlot_eq s word i
  have src : (bundleStart s).src = (atLastSlot s word i).src := by rw [e]; rfl
  simp only [patternWaits, readStalls_atLastSlot s word i, src]

theorem sigOf_reads (s : State) (i : Instr) : (sigOf s i).reads = slotReads i := rfl

/-- A VXB stalls while its pattern register is owed its value. -/
theorem regStall_vxb {s : State} {d a : VIdx} {b : SReg} {mk : MReg} (stalls : readStalls s s.src (.s b) = true) :
    regStall s (sigOf s (.vxb d a b mk)) = true := by
  have reads : slotReads (.vxb d a b mk) = mergeRead mk (.v d) ++ [.v a, .s b] := rfl
  simp [regStall, sigOf_reads, reads, stalls]

theorem runSig_stalled {s : State} {g : Sig} {body : State → SlotEnd} (good : decodeTrap s g = none)
    (h : regStall s g = true) : runSig g s body = .next (s.ended .stalled) := by
  simp [runSig, good, h]

/-- A VXB whose pattern register is still owed its value stalls (05 R146), so one that is done has its pattern. -/
theorem patternWaits_of_done {s t : State} {x : Slot} {i : Instr} (h : x.ins = some i) (e : exec i s = .next t)
    (good : decodeTrap s (sigOf s i) = none) (done : t.bun.status = .done) : patternWaits s x = false := by
  unfold patternWaits
  split
  next d a b mk hx =>
    obtain rfl : i = .vxb d a b mk := Option.some.inj (h.symm.trans hx)
    refine Bool.eq_false_iff.mpr fun stalls => ?_
    have stalled : exec (.vxb d a b mk) s = .next (s.ended .stalled) := by
      rw [exec_vxb, execVxb, runSlot, runSig_stalled good (regStall_vxb stalls)]
    obtain rfl : s.ended .stalled = t := Host.Outcome.next.inj (stalled.symm.trans e)
    exact SlotStatus.noConfusion done
  next => rfl

end Sys2Proof.Machine

/-- Settles O5: the turn leads to the bundle, the three NOPs change the record of the bundle alone, and slot 3 runs. -/
theorem stepRunsTheDecodedInstruction : Obligations.StepRunsTheDecodedInstruction := by
  intro s s1 t rest w word i agenda may quiet stays fetched parsed vacated bad detl plain nodrop good ran done
  have judged : ∀ x ∈ lastSlotBundle word i,
      decodeBad (bundleStart s1) x = false ∧ patternWaits (bundleStart s1) x = false := by
    intro x hx
    simp only [lastSlotBundle, List.mem_cons, List.not_mem_nil, or_false] at hx
    have nop (n : Nat) : decodeBad (bundleStart s1) (nopSlot n) = false ∧ patternWaits (bundleStart s1) (nopSlot n) = false :=
      ⟨by simp [decodeBad, nopSlot, (issues_nop (bundleStart s1)).1], rfl⟩
    rcases hx with rfl | rfl | rfl | rfl
    · exact nop 0
    · exact nop 1
    · exact nop 2
    · exact ⟨by simp [decodeBad, decodeTrap_atLastSlot s1 word i, good],
        (patternWaits_atLastSlot s1 word i _).trans (patternWaits_of_done rfl ran good done)⟩
  have classes : ∀ x ∈ lastSlotBundle word i, x.cls ≠ .t := by
    intro x hx
    simp only [lastSlotBundle, List.mem_cons, List.not_mem_nil, or_false] at hx
    rcases hx with rfl | rfl | rfl | rfl
    iterate 3 exact by decide
    exact plain
  obtain ⟨a, start⟩ := startWindows_eq (bundleStart s1) (lastSlotBundle word i)
  have issue : atIssue s1 (lastSlotBundle word i) = { bundleStart s1 with arrays := a } := start
  have slots : runBundle s1 (lastSlotBundle word i) = .next (completeBundle
      (noteTaint t { no := 3, word := word, ins := some i }) (asWritten (lastSlotBundle word i))) := by
    rw [runBundle_plain (by rwa [dropProg_harrow]) judged classes]
    refine runPlain_lastSlot ?_ ?_ ?_ ?_ nodrop ?_ done
    · rw [issue]; exact (dropProg_badRegs _).trans bad
    · rw [issue]; exact fun h => detl ((dropProg_detl _).symm.trans h)
    · rw [issue]; exact Option.some_ne_none _
    · rw [issue]; rfl
    · refine Eq.trans (congrArg (exec i) ?_) ran
      unfold atLastSlot
      dsimp only
      rw [issue]
      rfl
  exact (step_issue agenda may).trans (congrArg afterIssue
    (issueBundle_next stays ((issueFocus_fetched quiet fetched parsed).trans slots)))
end

section
/-! SUPPORT. NOP, YIELD, EXIT, WAIT and FENCE (04 R118 to R122, 08 R224): what each part of an EXIT and of a FENCE can change,
written once as an equation of states. -/
open Sys2Proof Sys2Proof.Machine Sys2Proof.Claim

namespace Sys2Proof.Machine

/-! ### Rounds and windows of a gang -/

theorem closeWindow_eq (s : State) (g : Nat) (w : Window) : ∃ gs, closeWindow s g w = { s with gangs := gs } := by
  unfold closeWindow
  split <;> exact ⟨_, rfl⟩

theorem checkFenceRound_eq (s : State) (g : Nat) : ∃ gs, checkFenceRound s g = { s with gangs := gs } := by
  unfold checkFenceRound
  split
  · exact ⟨_, rfl⟩
  · dsimp only
    split
    · obtain ⟨gs, h⟩ := closeWindow_eq s g { cuts := ((s.gangCtx g).filter fun c => !c.exited).map fun c => (c.id.gix, c.fenceSeq) }
      rw [h]
      exact ⟨_, rfl⟩
    · exact ⟨_, rfl⟩

theorem tryComplete_eq (s : State) (g : Nat) (b : Fin 16) (n : Nat) : ∃ gs, tryComplete s g b n = { s with gangs := gs } := by
  unfold tryComplete
  split
  · exact ⟨_, rfl⟩
  · dsimp only
    split
    · unfold updBarrier
      rw [(closeWindow_eq s g _).choose_spec]
      exact ⟨_, rfl⟩
    · exact ⟨_, rfl⟩

/-- A commit point touches of a context its open phase, its parity and what COMMIT returned. -/
theorem checkCommit_eq (s : State) (g : Nat) : ∃ gs m os ph pa v, checkCommit s g =
    { s with gangs := gs, mgmt := m, others := os, ctx := { s.ctx with phase := ph, parity := pa, commitVal := v } } := by
  unfold checkCommit
  split
  · exact ⟨_, _, _, _, _, _, rfl⟩
  · dsimp only
    split
    · unfold State.updGangCtx
      split
      · dsimp only
        split <;> exact ⟨_, _, _, _, _, _, rfl⟩
      · exact ⟨_, _, _, _, _, _, rfl⟩
    · exact ⟨_, _, _, _, _, _, rfl⟩

/-! ### EXIT -/

theorem vector_get_set {α : Type} {n : Nat} (v : Vector α n) (i j : Fin n) (a : α) :
    (v.set i.val a i.isLt).get j = if i = j then a else v.get j := by
  rw [Vector.get_eq_getElem, Vector.getElem_set, Vector.get_eq_getElem]
  simp only [Fin.ext_iff]

/-- The context in focus drops from a barrier: of it only the barrier's record changes, and of the rest only gangs. -/
theorem dropFrom_eq {s : State} (live : s.ctx.live = true) (b : Fin 16) (n : Nat) : ∃ gs v,
    dropFrom s s.ctx.id b n = { s with gangs := gs, ctx := { s.ctx with bar := v } } ∧ (v.get b).dropped = true ∧
      ∀ x, (s.ctx.bar.get x).dropped = true → (v.get x).dropped = true := by
  have find : s.ctx? s.ctx.id = some s.ctx := by simp [State.ctx?, live]
  have upd (f : Ctx → Ctx) : s.updCtx s.ctx.id f = { s with ctx := f s.ctx } := by simp [State.updCtx, live]
  unfold dropFrom
  rw [find]
  dsimp only
  split
  next h => exact ⟨s.gangs, s.ctx.bar, rfl, h, fun _ hx => hx⟩
  next h =>
    rw [upd, (tryComplete_eq _ s.ctx.id.gang b n).choose_spec]
    refine ⟨_, _, rfl, ?_, fun x hx => ?_⟩
    · rw [vector_get_set, if_pos rfl]
    · rw [vector_get_set]
      split
      · rfl
      · exact hx

theorem dropEach_eq (w : CtxId) (l : List (Fin 16)) : ∀ s : State, s.ctx.live = true → s.ctx.id = w → ∃ gs v,
    l.foldl (fun s b => dropFrom s w b (s.time + 1)) s = { s with gangs := gs, ctx := { s.ctx with bar := v } } ∧
      (∀ b ∈ l, (v.get b).dropped = true) ∧ ∀ x, (s.ctx.bar.get x).dropped = true → (v.get x).dropped = true := by
  induction l with
  | nil => exact fun s _ _ => ⟨s.gangs, s.ctx.bar, rfl, by simp, fun _ h => h⟩
  | cons b l ih =>
    intro s live hw
    obtain ⟨gs, v, e, hb, keep⟩ := dropFrom_eq live b (s.time + 1)
    rw [hw] at e
    obtain ⟨gs', v', e', hl, keep'⟩ := ih { s with gangs := gs, ctx := { s.ctx with bar := v } } live hw
    refine ⟨gs', v', ?_, fun x hx => ?_, fun x hx => keep' x (keep x hx)⟩
    · rw [List.foldl_cons, e, e']
    rcases List.mem_cons.mp hx with rfl | hx
    · exact keep' x hb
    · exact hl x hx

theorem dropAll_eq {s : State} (live : s.ctx.live = true) : ∃ gs v,
    dropAll s s.ctx.id = { s with gangs := gs, ctx := { s.ctx with bar := v } } ∧ ∀ b, (v.get b).dropped = true := by
  obtain ⟨gs, v, e, all, -⟩ := dropEach_eq s.ctx.id (List.finRange 16) s live rfl
  exact ⟨gs, v, e, fun b => all b (List.mem_finRange b)⟩

/-- A context that exits with no transfer stopped is listed in its gang. -/
theorem listExited_eq (s : State) (w : CtxId) : ∃ gs, (if s.ctx.stopTok.toList.all Option.isNone then
    s.updGang w.gang fun g => { g with exited := w.gix :: g.exited } else s) = { s with gangs := gs } := by
  split <;> exact ⟨_, rfl⟩

/-- EXIT drops the context from every barrier and ends it; no register, no byte and no access changes. -/
theorem exitCtx_eq {s : State} (live : s.ctx.live = true) : ∃ gs m os v ph pa cv, exitCtx s =
    { s with gangs := gs, mgmt := m, others := os, ctx := { s.ctx with
        bar := v, status := .exited, running := false, phase := ph, parity := pa, commitVal := cv } } ∧
      ∀ b, (v.get b).dropped = true := by
  obtain ⟨gs, v, e, all⟩ := dropAll_eq live
  unfold exitCtx
  dsimp only
  rw [e]
  rw [(listExited_eq _ _).choose_spec, (checkFenceRound_eq _ s.ctx.id.gang).choose_spec]
  obtain ⟨gs', m, os, ph, pa, cv, h⟩ := checkCommit_eq _ s.ctx.id.gang
  exact ⟨gs', m, os, v, ph, pa, cv, h, all⟩

/-! ### A slot that blocks -/

/-- A body that blocks leaves the context off its core at the bundle, where the body has kept the registers and the status. -/
theorem blocks_of_body {i : Instr} {s t : State} {body : State → SlotEnd} {why : Block} (run : exec i s = runSlot i s body)
    (issues : Issues i s) (b : body (begun s) = .block t why) (src : t.src = s.src) (status : t.ctx.status = s.ctx.status)
    (regs : t.ctx.s = s.ctx.s) (preds : t.ctx.p = s.ctx.p) (mem : t.mem = s.mem) (spad : t.spad = s.spad) : Blocks i s why := by
  refine ⟨_, run.trans (runSlot_block issues b), rfl, ?_, rfl, fun ready => ?_, regs, preds, mem, spad⟩
  · show t.src.pc = s.src.pc
    rw [src]
  · show RunStatus.blocked (match t.ctx.status with | .blocked l => l ++ [why] | _ => [why]) = _
    rw [status, ready]

theorem readyBeside_begun (s : State) : readyBeside (begun s) = true ↔
    ∃ c ∈ s.others, c.live = true ∧ c.status = .ready ∧ c.lc = s.ctx.lc ∧ c.lcore = s.ctx.lcore := by
  simp [readyBeside, begun, Ctx.lc, and_assoc]

/-! ### FENCE -/

theorem modRelease_eq (s : State) (c : Ctx) (n : Option Nat) :
    ∃ i k, modRelease s c n = { s with nextId := i, clocks := k } := ⟨_, _, rfl⟩

theorem dropL1_eq (s : State) (c : Ctx) (scope : Nat) : ∃ l, dropL1 s c scope = { s with l1 := l } := by
  unfold dropL1
  dsimp only
  split <;> exact ⟨_, rfl⟩

/-- A release of the die where one is due. -/
theorem releaseIf_eq (s : State) (c : Ctx) (p : Prop) [Decidable p] :
    ∃ i k, (if p then modRelease s c else s) = { s with nextId := i, clocks := k } := by
  split
  · exact modRelease_eq s c none
  · exact ⟨_, _, rfl⟩

/-- The accesses of the bundle in execution stand behind its FENCE. -/
def fencedFlights (s : State) : List Access :=
  s.flights.map fun f =>
    if (f.who == s.src.id && f.bundle == s.src.bundles) = true then { f with fenceNo := s.ctx.fenceNo + 1 } else f

/-- The order that a FENCE sets touches of the context its fence number and scope, and of the accesses those of its bundle. -/
theorem fenceOrder_eq (s : State) (scope : Nat) : ∃ i k l o sc, fenceOrder s scope =
    { s with nextId := i, clocks := k, l1 := l, tileOps := o, flights := fencedFlights s
             ctx := { s.ctx with fenceNo := s.ctx.fenceNo + 1, fenceScope := sc } } := by
  obtain ⟨i, k, h⟩ := releaseIf_eq s s.src (scope = 3 ∧ epochHeld s s.src.pdie = false)
  unfold fenceOrder
  dsimp only
  rw [h, (dropL1_eq _ s.src scope).choose_spec]
  exact ⟨i, k, _, _, _, rfl⟩

/-- The order that a new FENCE sets; one of scope ctx sets none. -/
def fenceSet (s : State) (scope : Nat) : State := flushHarrow (if scope = 0 then s else fenceOrder s scope)

theorem fenceSet_eq (s : State) (scope : Nat) : ∃ i k l o sc h, fenceSet s scope =
    { s with
      nextId := i, clocks := k, l1 := l, tileOps := o, flights := if scope = 0 then s.flights else fencedFlights s
      ctx := { s.ctx with fenceNo := s.ctx.fenceNo + (if scope = 0 then 0 else 1), fenceScope := sc, harrow := h } } := by
  unfold fenceSet
  split
  · exact ⟨s.nextId, s.clocks, s.l1, s.tileOps, s.ctx.fenceScope, _, rfl⟩
  · obtain ⟨i, k, l, o, sc, order⟩ := fenceOrder_eq s scope
    rw [order]
    exact ⟨i, k, l, o, sc, _, rfl⟩

/-- A FENCE with P = 1 counts once, and may reach its round. -/
def fenceCount (s : State) (press : Bool) : State :=
  if press then
    checkFenceRound (s.withCtx fun c => { c with fences := c.fences + 1, fenceSeq := s.src.seq }) s.src.id.gang
  else s

theorem fenceCount_eq (s : State) (press : Bool) : ∃ gs q, fenceCount s press =
    { s with gangs := gs, ctx := { s.ctx with fences := s.ctx.fences + (if press then 1 else 0), fenceSeq := q } } := by
  cases press
  · exact ⟨s.gangs, s.ctx.fenceSeq, rfl⟩
  · unfold fenceCount
    rw [if_pos rfl, (checkFenceRound_eq _ _).choose_spec]
    exact ⟨_, s.src.seq, rfl⟩

/-- What a FENCE that has not run at its bundle does, before it is asked whether its condition holds. -/
def fenceOnce (s : State) (scope : Nat) (press : Bool) : State := fenceCount (fenceSet s scope) press

theorem fenceOnce_eq (s : State) (scope : Nat) (press : Bool) : ∃ i k l o gs sc h q, fenceOnce s scope press =
    { s with
      nextId := i, clocks := k, l1 := l, tileOps := o, gangs := gs
      flights := if scope = 0 then s.flights else fencedFlights s
      ctx := { s.ctx with
        fenceNo := s.ctx.fenceNo + (if scope = 0 then 0 else 1), fenceScope := sc, harrow := h
        fences := s.ctx.fences + (if press then 1 else 0), fenceSeq := q } } := by
  obtain ⟨i, k, l, o, sc, h, e⟩ := fenceSet_eq s scope
  obtain ⟨gs, q, e'⟩ := fenceCount_eq (fenceSet s scope) press
  rw [fenceOnce, e', e]
  exact ⟨i, k, l, o, gs, sc, h, q, rfl⟩

/-- What follows the effect of a FENCE: its record is kept, and it blocks until its round and its acknowledgements have come. -/
def fenceEnd (s : State) (scope : Nat) (press : Bool) (p : Progress) : SlotEnd :=
  if press ∧ !roundDone (putProg s p) p.round then .block (putProg s p) (.pressFence p.round)
  else if scope = 4 ∧ !p.met then .block (putProg s p) .fenceSys
  else .done (putProg s p)

/-- The record of a FENCE that has had its effect. -/
def fenceRecord (s : State) (scope : Nat) (press : Bool) : Progress :=
  { newProg (fenceOnce s scope press) with made := true, round := (fenceOnce s scope press).ctx.fences }

/-- FENCE in its two parts: an effect, once, and a condition. -/
theorem execFence_eq (scope : Fin 8) (press : Bool) (s : State) : exec (.fence scope press) s =
    runSlot (.fence scope press) s fun s =>
      (findProg s).elim
        (fenceEnd (fenceOnce s scope.val press) scope.val press (fenceRecord s scope.val press))
        (fenceEnd s scope.val press) := by
  rw [exec_fence, execFence]
  congr 1
  funext s
  cases h : findProg s <;> rfl

theorem fenceEnd_done {s : State} {scope : Nat} {press : Bool} {p : Progress}
    (round : press = true → roundDone (putProg s p) p.round = true) (met : scope = 4 → p.met = true) :
    fenceEnd s scope press p = .done (putProg s p) := by
  unfold fenceEnd
  rw [if_neg fun h => by simp [round h.1] at h, if_neg fun h => by simp [met h.1] at h]

theorem fenceEnd_press {s : State} {scope : Nat} {p : Progress} (round : roundDone (putProg s p) p.round = false) :
    fenceEnd s scope true p = .block (putProg s p) (.pressFence p.round) := by
  simp [fenceEnd, round]

theorem fenceEnd_sys {s : State} {p : Progress} (met : p.met = false) :
    fenceEnd s 4 false p = .block (putProg s p) .fenceSys := by
  simp [fenceEnd, met]

theorem roundDone_iff (s : State) (round : Nat) :
    roundDone s round = true ↔ ∀ g, s.gang? s.src.id.gang = some g → round ≤ g.fenceRounds ∧ g.windows = [] := by
  simp [roundDone, Option.all_eq_true]

end Sys2Proof.Machine

/-- The first four instructions: what each leaves is read off its body. -/
theorem Sys2Proof.Claim.nopYieldExitAndWait : Sys2Proof.Claim.NopYieldExitAndWait := by
  intro s
  refine ⟨fun h => ?_, fun h => ?_, fun h live => ?_, fun ld st cp tl h => ⟨fun met => ?_, fun unmet => ?_⟩⟩
  · exact (exec_nop s).trans (runSlot_done h rfl)
  · refine (exec_yield s).trans (runSlot_done h ?_)
    simp only [readyBeside_begun]
  · obtain ⟨gs, m, os, v, ph, pa, cv, e, all⟩ := exitCtx_eq (s := begun s) live
    refine ⟨exitCtx (begun s), (exec_exit s).trans (runSlot_done h rfl), ?_⟩
    rw [e]
    exact ⟨rfl, rfl, all, rfl, rfl, rfl, rfl, rfl, rfl, rfl⟩
  · exact (exec_wait ld st cp tl s).trans (runSlot_done h (if_pos met))
  · exact blocks_of_body (exec_wait ld st cp tl s) h (if_neg unmet) rfl rfl rfl rfl rfl rfl

namespace Sys2Proof.Machine

/-- A body that ends as a FENCE's record does: done, or blocked at the bundle, with what the state before the record holds. -/
theorem fenceEnd_ends {i : Instr} {s t : State} {body : State → SlotEnd} {scope : Nat} {press : Bool} {p : Progress}
    (run : exec i s = runSlot i s body) (issues : Issues i s) (b : body (begun s) = fenceEnd t scope press p)
    (pre : t.pre = some s.src) : ∃ u, exec i s = .next u ∧ u.ctx.fences = t.ctx.fences ∧ u.ctx.s = t.ctx.s ∧ u.mem = t.mem ∧
      u.spad = t.spad ∧ (u.bun.status = .done ∨ u.bun.status = .blocked ∧ u.ctx.pc = s.src.pc) := by
  have pc (why : Block) : (blocked s (putProg t p) why).ctx.pc = s.src.pc := by
    show (putProg t p).src.pc = _
    rw [show (putProg t p).src = s.src by simp [State.src, putProg, pre]]
  unfold fenceEnd at b
  split at b
  · exact ⟨_, run.trans (runSlot_block issues b), rfl, rfl, rfl, rfl, .inr ⟨rfl, pc _⟩⟩
  · split at b
    · exact ⟨_, run.trans (runSlot_block issues b), rfl, rfl, rfl, rfl, .inr ⟨rfl, pc _⟩⟩
    · exact ⟨_, run.trans (runSlot_done issues b), rfl, rfl, rfl, rfl, .inl rfl⟩

end Sys2Proof.Machine

/-- FENCE: a new one has its effect and then its condition, one that has blocked before its condition alone. -/
theorem Sys2Proof.Claim.fencesOrderAndWait : Sys2Proof.Claim.FencesOrderAndWait := by
  intro scope press s issues
  obtain ⟨i, k, l, o, gs, sc, hw, q, once⟩ := fenceOnce_eq (begun s) scope.val press
  have run := execFence_eq scope press s
  refine ⟨fun new below plain => ?_, fun new sys plain => ?_, fun new pressed => ?_,
    fun p old => ⟨fun round met => ?_, fun pressed late => ?_, fun plain sys unmet => ?_⟩⟩
  · have body : fenceEnd (fenceOnce (begun s) scope.val press) scope.val press (fenceRecord (begun s) scope.val press) = _ :=
      fenceEnd_done (fun h => absurd (plain.symm.trans h) Bool.false_ne_true) (fun h => absurd h below.ne)
    refine ⟨_, ⟨run.trans (runSlot_done issues (by rw [new]; exact body)), ?_⟩, ?_⟩
    · rw [once]
      exact ⟨rfl, rfl, rfl, rfl, rfl, rfl, rfl, rfl⟩
    · rw [once]
      refine ⟨rfl, ?_⟩
      show (if scope.val = 0 then s.flights else fencedFlights (begun s)) = _
      by_cases h0 : scope.val = 0
      · simp [h0]
      · simp only [h0, if_false, fencedFlights, begun_src, and_true, ne_eq, not_false_eq_true]
        rfl
  · subst plain
    have body : fenceEnd (fenceOnce (begun s) 4 false) 4 false (fenceRecord (begun s) 4 false) = _ := fenceEnd_sys rfl
    rw [sys] at once run
    refine blocks_of_body run issues (by rw [new]; exact body) ?_ ?_ ?_ ?_ ?_ ?_ <;> (rw [once]; rfl)
  · obtain ⟨u, e, fences, regs, mem, spad, ends⟩ := fenceEnd_ends run issues (by rw [new]; rfl) (by rw [once]; rfl)
    refine ⟨u, e, fences.trans ?_, regs.trans ?_, mem.trans ?_, spad.trans ?_, ends⟩
    · rw [once, pressed]; rfl
    all_goals rw [once]; rfl
  · have body : fenceEnd (begun s) scope.val press p = .done (putProg (begun s) p) :=
      fenceEnd_done (fun h => (roundDone_iff _ _).mpr (round h)) met
    exact ⟨_, ⟨run.trans (runSlot_done (t := putProg (begun s) p) issues (by rw [old]; exact body)), rfl, rfl, rfl, rfl, rfl, rfl, rfl, rfl⟩, rfl⟩
  · subst pressed
    have body : fenceEnd (begun s) scope.val true p = .block (putProg (begun s) p) (.pressFence p.round) :=
      fenceEnd_press (Bool.eq_false_iff.mpr fun h => late ((roundDone_iff _ _).mp h))
    exact blocks_of_body (t := putProg (begun s) p) run issues (by rw [old]; exact body) rfl rfl rfl rfl rfl rfl
  · subst plain
    have body : fenceEnd (begun s) scope.val false p = .block (putProg (begun s) p) .fenceSys := by
      rw [sys]; exact fenceEnd_sys unmet
    exact blocks_of_body (t := putProg (begun s) p) run issues (by rw [old]; exact body) rfl rfl rfl rfl rfl rfl

/-- Settles O33: what each body leaves, through the equations of EXIT and of FENCE. -/
theorem nopsExitsWaitsAndFences : Obligations.NopsExitsWaitsAndFences :=
  ⟨Sys2Proof.Claim.nopYieldExitAndWait, Sys2Proof.Claim.fencesOrderAndWait⟩
end

section
/-! SUPPORT. Contexts by name, and the reissue of a blocked bundle (01 R18, 08 R228): what a context waits for, kind by kind. -/
open Sys2Proof Sys2Proof.Machine Sys2Proof.Claim

namespace Sys2Proof.Machine

/-! ### Contexts by name -/

theorem find?_updateFirst {α : Type} {p : α → Bool} {f : α → α} (keep : ∀ x, p x = true → p (f x) = true) (l : List α) :
    (updateFirst p f l).find? p = (l.find? p).map f := by
  induction l with
  | nil => rfl
  | cons x l ih =>
    unfold updateFirst
    by_cases h : p x = true
    · rw [if_pos h, List.find?_cons_of_pos (keep x h), List.find?_cons_of_pos h, Option.map_some]
    · rw [if_neg h, List.find?_cons_of_neg h, List.find?_cons_of_neg h, ih]

/-- A context found by name is live and bears the name. -/
theorem ctx?_some {s : State} {w : CtxId} {c : Ctx} (h : s.ctx? w = some c) : c.live = true ∧ c.id = w := by
  unfold State.ctx? at h
  split at h
  next focus =>
    obtain rfl : s.ctx = c := Option.some.inj h
    exact focus
  next =>
    have := List.find?_some h
    simpa using this

/-- A context that is changed by name is found under it, changed. -/
theorem ctx?_updCtx {s : State} {w : CtxId} {f : Ctx → Ctx} (live : ∀ c, (f c).live = c.live) (id : ∀ c, (f c).id = c.id) :
    (s.updCtx w f).ctx? w = (s.ctx? w).map f := by
  unfold State.updCtx
  by_cases focus : s.ctx.live = true ∧ s.ctx.id = w
  · have after : (f s.ctx).live = true ∧ (f s.ctx).id = w := by rw [live, id]; exact focus
    rw [if_pos focus, State.ctx?, if_pos after, State.ctx?, if_pos focus]
    rfl
  · rw [if_neg focus, State.ctx?, if_neg focus, State.ctx?, if_neg focus]
    exact find?_updateFirst (fun c h => by rw [live, id]; exact h) s.others

theorem ctx?_updCtx_found {s : State} {w : CtxId} {c : Ctx} {f : Ctx → Ctx} (find : s.ctx? w = some c)
    (live : ∀ c, (f c).live = c.live) (id : ∀ c, (f c).id = c.id) : (s.updCtx c.id f).ctx? c.id = some (f c) := by
  obtain ⟨-, rfl⟩ := ctx?_some find
  rw [ctx?_updCtx live id, find, Option.map_some]

@[simp] theorem wake_live (c : Ctx) : c.wake.live = c.live := by
  unfold Ctx.wake
  split <;> rfl

@[simp] theorem wake_id (c : Ctx) : c.wake.id = c.id := by
  unfold Ctx.wake
  split <;> rfl

theorem wake_blocked {c : Ctx} {l : List Block} (h : c.status = .blocked l) : c.wake = { c with status := .ready } := by
  rw [Ctx.wake, h]

/-! ### What a context waits for -/

theorem mayWake_one {s : State} {c : Ctx} {b : Block} (h : c.status = .blocked [b]) :
    mayWake s c = (blockDone s c b || blockExpired s c b) := by
  simp [mayWake, h]

/-- BUNDLE_REISSUE makes a context that waits for one thing ready exactly when it has come. -/
theorem wakes_of_done {s : State} {c : Ctx} {b : Block} {ready : Prop} (find : s.ctx? s.argCtx = some c)
    (h : c.status = .blocked [b]) (late : blockExpired s c b = false) (done : blockDone s c b = true ↔ ready) :
    Wakes s c ready := by
  have may : mayWake s c = true ↔ ready := by rw [mayWake_one h, late, Bool.or_false, done]
  have run : exec .bundleReissue s = if mayWake s c then .next (s.updCtx c.id Ctx.wake) else .next s := by
    rw [exec_bundleReissue, execBundleReissue, find]
  refine ⟨fun r => ⟨_, by rw [Acts, run, if_pos (may.mpr r)], ⟨updCtx_mem _ _ _, updCtx_spad _ _ _⟩, ?_⟩, fun r => ?_⟩
  · rw [ctx?_updCtx_found find wake_live wake_id, wake_blocked h]
  · rw [Acts, run, if_neg fun m => r (may.mp m)]

theorem flagCond_iff (l : List Byte) (m : Nat) (any : Bool) : flagCond l m any = true ↔
    (m = 0 ∨ if any then leAt l 0 8 &&& m ≠ 0 else leAt l 0 8 &&& m = m) := by
  cases any <;> simp [flagCond]

/-- What TIMED_WAIT_EXPIRY makes of the context: the records whose expiry cycle has passed say so, and it is ready. -/
def expireWait (time : Nat) (c : Ctx) : Ctx :=
  (c.updProg fun p => if p.expiry.any fun e => decide (e < time) then { p with expired := true } else p).wake

/-- What FENCE_SYS_ACKNOWLEDGE makes of the context: the record of its FENCE is marked. -/
def noteFence (c : Ctx) : Ctx := c.updProg fun p => if p.expiry.isNone then { p with met := true } else p

end Sys2Proof.Machine

/-- The three events: what ends each kind of wait, and what the event then leaves. -/
theorem Sys2Proof.Claim.blockedContextsWakeWhenTheirWaitIsOver : Sys2Proof.Claim.BlockedContextsWakeWhenTheirWaitIsOver := by
  refine ⟨fun s c b find h => ?_, fun s c b p e find h timed hp pc expiry met late => ?_,
    fun s c l p find h sys hp pc expiry => ?_⟩
  · have wakes {ready : Prop} (late : blockExpired s c b = false) (done : blockDone s c b = true ↔ ready) : Wakes s c ready :=
      wakes_of_done find h late done
    refine ⟨?_, ?_, ?_, ?_, ?_, ?_, ?_, ?_⟩
    · rintro l t p k rfl
      exact wakes rfl (by simp [blockDone])
    · rintro q rfl
      exact wakes rfl (by simp [blockDone])
    · rintro pa m any rfl
      exact wakes rfl (by rw [← flagCond_iff]; simp [blockDone, granule])
    · rintro r g rfl hg
      exact wakes rfl (by simp [blockDone, hg])
    · rintro r g rfl hg
      exact wakes rfl (by simp [blockDone, hg])
    · rintro i rfl
      exact wakes rfl (by simp [blockDone])
    · rintro e place rfl
      exact wakes rfl (by simp [blockDone])
    · rintro n g rfl hg
      exact wakes rfl (by simp [blockDone, hg])
  · have past : blockExpired s c b = true := by
      have hit : (c.prog.any fun p => p.pc == c.pc && (p.expiry.any fun e => decide (e < s.time)) && !p.met) = true :=
        List.any_eq_true.mpr ⟨p, hp, by simp [pc, expiry, met, late]⟩
      obtain ⟨n, rfl⟩ | ⟨pa, m, any, rfl⟩ := timed <;> exact hit
    have may : mayWake s c = true := by rw [mayWake_one h, past, Bool.or_true]
    have run : exec .timedWaitExpiry s = .next (s.updCtx c.id (expireWait s.time)) := by
      rw [exec_timedWaitExpiry, execTimedWaitExpiry, find]
      simp only [h]
      rw [if_pos ⟨by simp [past], may⟩]
      rfl
    refine ⟨_, _, { p with expired := true }, run, ⟨updCtx_mem _ _ _, updCtx_spad _ _ _⟩,
      ctx?_updCtx_found find (fun c => wake_live _) (fun c => wake_id _), ?_⟩
    rw [expireWait, wake_blocked (c := c.updProg _) h]
    exact ⟨rfl, rfl, rfl, List.mem_map.mpr ⟨p, hp, by simp [pc, expiry, late]⟩, pc, rfl⟩
  · have run : exec .fenceSysAcknowledge s =
        if fenceClear s c ∧ s.fleet.step = .idle then .next (s.updCtx c.id noteFence) else .next s := by
      rw [exec_fenceSysAcknowledge, execFenceSysAcknowledge, find]
      simp only [h]
      rw [if_congr (and_iff_right sys) rfl rfl]
      rfl
    refine ⟨fun clear idle => ⟨s.updCtx c.id noteFence, noteFence c, by rw [Acts, run, if_pos ⟨clear, idle⟩],
      ⟨updCtx_mem _ _ _, updCtx_spad _ _ _⟩, ctx?_updCtx_found find (fun c => rfl) (fun c => rfl), rfl, rfl, ?_⟩, fun early => ?_⟩
    · exact List.any_eq_true.mpr ⟨{ p with met := true }, List.mem_map.mpr ⟨p, hp, by simp [pc, expiry]⟩,
        by simp [noteFence, Ctx.updProg, pc]⟩
    · rw [Acts, run, if_neg]
      rintro ⟨clear, idle⟩
      rcases early with h | h
      · rw [clear] at h
        exact Bool.noConfusion h
      · exact h idle
end

section
/-! SUPPORT. Translations (17 R359 to R364): what a walk, a lookup and a translation can change, and what they find where the
walk cache holds nothing but what the tables hold. -/
open Sys2Proof Sys2Proof.Machine Sys2Proof.Claim

namespace Sys2Proof.Machine

/-! ### What the service of a granule and a translation can change -/

/-- What homes, TLBs and walk caches hold, and the free choices made. -/
structure Homes where
  mem : Memory
  dirty : List Nat
  new : List Nat
  host : Memory
  tlb : List TlbEntry
  cache : List WalkCopy
  free : Nat

/-- The state with other homes, TLBs and walk caches. -/
def State.setHomes (s : State) (h : Homes) : State :=
  { s with mem := h.mem, hbmDirty := h.dirty, hbmNew := h.new, hbmHost := h.host, tlb := h.tlb, walkCache := h.cache
           freeIx := h.free }

/-- t differs from s by the service of granules, fills of TLBs and walk caches and free choices alone; where the host has
written nothing behind L2, no byte has changed. -/
def Serves (s t : State) : Prop :=
  ∃ h, t = s.setHomes h ∧ (s.hbmNew = [] → h.mem = s.mem ∧ h.dirty = s.hbmDirty ∧ h.new = [] ∧ h.host = s.hbmHost)

theorem Serves.refl (s : State) : Serves s s :=
  ⟨⟨s.mem, s.hbmDirty, s.hbmNew, s.hbmHost, s.tlb, s.walkCache, s.freeIx⟩, rfl, fun h => ⟨rfl, rfl, h, rfl⟩⟩

theorem Serves.trans {s t u : State} (a : Serves s t) (b : Serves t u) : Serves s u := by
  obtain ⟨h, rfl, qa⟩ := a
  obtain ⟨k, rfl, qb⟩ := b
  refine ⟨k, rfl, fun q => ?_⟩
  obtain ⟨m, d, n, o⟩ := qa q
  obtain ⟨m', d', n', o'⟩ := qb n
  exact ⟨m'.trans m, d'.trans d, n', o'.trans o⟩

/-- Another TLB, walk cache and choice. -/
theorem serves_of_fill (s : State) (l : List TlbEntry) (c : List WalkCopy) (f : Nat) :
    Serves s { s with tlb := l, walkCache := c, freeIx := f } :=
  ⟨⟨s.mem, s.hbmDirty, s.hbmNew, s.hbmHost, l, c, f⟩, rfl, fun h => ⟨rfl, rfl, h, rfl⟩⟩

theorem serves_setTlb (s : State) (l : List TlbEntry) : Serves s { s with tlb := l } := serves_of_fill s l s.walkCache s.freeIx

theorem serves_setWalkCache (s : State) (l : List WalkCopy) : Serves s { s with walkCache := l } :=
  serves_of_fill s s.tlb l s.freeIx

theorem serves_free (s : State) (w : Nat) : Serves s (s.free w).2 := serves_of_fill s s.tlb s.walkCache (s.freeIx + 1)

theorem serves_foldl {α : Type} {f : State → α → State} (step : ∀ s x, Serves s (f s x)) (l : List α) (s : State) :
    Serves s (l.foldl f s) := by
  induction l generalizing s with
  | nil => exact Serves.refl s
  | cons x l ih => exact (step s x).trans (ih (f s x))

theorem serve_quiet {s : State} (h : s.hbmNew = []) (g : Nat) : serve s g = s := by simp [serve, h]

theorem serves_serve (s : State) (g : Nat) : Serves s (serve s g) := by
  by_cases quiet : s.hbmNew = []
  · rw [serve_quiet quiet]
    exact Serves.refl s
  · unfold serve
    split
    · dsimp only
      split
      · exact ⟨⟨_, _, _, _, s.tlb, s.walkCache, s.freeIx + 1⟩, rfl, fun h => absurd h quiet⟩
      · exact serves_free s 1
    · exact Serves.refl s

theorem serves_boundBy {α : Type} (p : α → Bool) (n : Nat) (l : List α) (s : State) : Serves s (boundBy p n l s).2 := by
  unfold boundBy
  dsimp only
  split
  · exact Serves.refl s
  · exact serves_free s 32

theorem serves_walkEntry (s : State) (x : Xl) (level va e : Nat) : Serves s (walkEntry s x level va e).2 := by
  unfold walkEntry
  split
  · exact Serves.refl s
  · exact serves_free s 1

theorem serves_walkVia (x : Xl) (va level : Nat) : ∀ g64 table s, Serves s (walkVia x va level g64 table s).2 := by
  induction level with
  | zero =>
    intro g64 table s
    unfold walkVia
    dsimp only
    have entry := (serves_serve s (granule (table + 8 * walkIndex 0 g64 va))).trans (serves_walkEntry _ x 0 va
      ((serve s (granule (table + 8 * walkIndex 0 g64 va))).mem.le (table + 8 * walkIndex 0 g64 va) 8))
    split
    · exact Serves.refl s
    · split
      · exact entry
      · split <;> exact entry
  | succ level ih =>
    intro g64 table s
    unfold walkVia
    dsimp only
    have entry := (serves_serve s (granule (table + 8 * walkIndex (level + 1) g64 va))).trans (serves_walkEntry _ x (level + 1) va
      ((serve s (granule (table + 8 * walkIndex (level + 1) g64 va))).mem.le (table + 8 * walkIndex (level + 1) g64 va) 8))
    split
    · exact Serves.refl s
    · split
      · exact entry
      · split
        · exact entry
        · exact entry.trans (ih _ _ _)

/-- The entries that a walk fills. -/
def filledEntries (x : Xl) (va : Nat) (l : Leaf) : List TlbEntry :=
  x.tlbs.map fun t => { kind := t.1, place := t.2, asid := if testBit l.entry 8 then none else some x.asid, page := va / l.size
                        size := l.size, leaf := l.entry }

/-- Room for one more entry in a TLB. -/
def roomInTlb (s : State) (t : Nat × Nat) : State :=
  let r := boundBy (fun e : TlbEntry => e.kind == t.1 && e.place == t.2) (tlbSize t.1 - 1) s.tlb s
  { r.2 with tlb := r.1 }

/-- The TLBs with those entries gone that a fill replaces, and room for the new ones. -/
def clearedTlbs (s : State) (x : Xl) (va : Nat) : State :=
  x.tlbs.foldl roomInTlb { s with tlb := s.tlb.filter fun e => !(e.hits x va) }

theorem fillTlb_eq (s : State) (x : Xl) (va : Nat) (l : Leaf) : fillTlb s x va l =
    { clearedTlbs s x va with tlb := filledEntries x va l ++ (clearedTlbs s x va).tlb } := rfl

/-- What a walk cache keeps beside one more entry, and the choice of what goes. -/
def roomInWalkCache (x : Xl) (s : State) (k : WalkCopy) : List WalkCopy × State :=
  boundBy (fun y : WalkCopy => y.cache == x.cache) (walkCacheSize - 1)
    (s.walkCache.filter fun y => !(y.cache == k.cache && y.asid == k.asid && y.level == k.level && y.key == k.key)) s

/-- One more entry in a walk cache. -/
def putWalkCopy (x : Xl) (s : State) (k : WalkCopy) : State :=
  { (roomInWalkCache x s k).2 with walkCache := k :: (roomInWalkCache x s k).1 }

theorem fillWalkCache_eq (s : State) (x : Xl) (l : List WalkCopy) : fillWalkCache s x l = l.foldl (putWalkCopy x) s := rfl

theorem serves_clearedTlbs (s : State) (x : Xl) (va : Nat) : Serves s (clearedTlbs s x va) :=
  (serves_setTlb s _).trans (serves_foldl (fun t _ => (serves_boundBy _ _ _ t).trans (serves_setTlb _ _)) x.tlbs _)

theorem serves_fillTlb (s : State) (x : Xl) (va : Nat) (l : Leaf) : Serves s (fillTlb s x va l) := by
  rw [fillTlb_eq]
  exact (serves_clearedTlbs s x va).trans (serves_setTlb _ _)

theorem serves_roomInWalkCache (x : Xl) (s : State) (k : WalkCopy) : Serves s (roomInWalkCache x s k).2 := by
  unfold roomInWalkCache
  exact serves_boundBy _ _ _ s

theorem serves_putWalkCopy (x : Xl) (s : State) (k : WalkCopy) : Serves s (putWalkCopy x s k) :=
  (serves_roomInWalkCache x s k).trans (serves_setWalkCache _ _)

theorem serves_fillWalkCache (s : State) (x : Xl) (l : List WalkCopy) : Serves s (fillWalkCache s x l) := by
  rw [fillWalkCache_eq]
  exact serves_foldl (serves_putWalkCopy x) l s

/-- The table that a walk begins with. -/
def Xl.table (x : Xl) : Nat := bits x.root 12 40 * 2 ^ 12

-- walkNow is unfolded as a function by itself: where it is applied, the kernel would run the walk to compare the two sides.
theorem walkNow_none {s t : State} {x : Xl} {va : Nat} (h : walkVia x va 4 false x.table s = (none, t)) :
    walkNow s x va = (none, t) := by
  rw [Xl.table] at h
  generalize body : walkNow = f
  delta walkNow at body
  subst body
  beta_reduce
  rw [h]

theorem walkNow_some {s t : State} {x : Xl} {va : Nat} {l : Leaf} {path : List WalkCopy}
    (h : walkVia x va 4 false x.table s = (some (l, path), t)) :
    walkNow s x va = (some l, fillWalkCache (fillTlb t x va l) x path) := by
  rw [Xl.table] at h
  generalize body : walkNow = f
  delta walkNow at body
  subst body
  beta_reduce
  rw [h]

theorem serves_walkNow (s : State) (x : Xl) (va : Nat) : Serves s (walkNow s x va).2 := by
  have via := serves_walkVia x va 4 false x.table s
  rcases h : walkVia x va 4 false x.table s with ⟨_ | ⟨l, path⟩, t⟩
  · rw [h] at via
    rw [walkNow_none h]
    exact via
  · rw [h] at via
    rw [walkNow_some h]
    exact via.trans ((serves_fillTlb t x va l).trans (serves_fillWalkCache _ x path))

theorem serves_lookup (s : State) (x : Xl) (va : Nat) : Serves s (lookup s x va).2 := by
  unfold lookup
  dsimp only
  split
  · split
    · exact Serves.refl s
    · exact serves_walkNow s x va
  · split
    · exact serves_free s 1
    · exact (serves_free s 1).trans (serves_walkNow _ x va)

theorem serves_xlate (s : State) (x : Xl) (n : Need) (va : Nat) : Serves s (xlate s x n va).2 := by
  unfold xlate
  split
  · exact Serves.refl s
  · have look := serves_lookup s x va
    split
    next h => rwa [h] at look
    next h =>
      rw [h] at look
      dsimp only
      split
      · exact look
      · split
        · exact look
        · split <;> exact look

section
variable (x : Xl) (n : Need) (va : Nat) (l : List Nat)

/-- The rest of a list of addresses is translated, and its head answered by f. -/
def headed (f : List Pa → List Pa) (r : Except TrapInfo (List Pa) × State) : Except TrapInfo (List Pa) × State :=
  (r.1.map f, r.2)

theorem headed_snd (f : List Pa → List Pa) (r : Except TrapInfo (List Pa) × State) : (headed f r).2 = r.2 := rfl

theorem headed_fst (f : List Pa → List Pa) (r : Except TrapInfo (List Pa) × State) : (headed f r).1 = r.1.map f := rfl

/-- Within a page the translation of its first byte serves. -/
theorem xlateAll_samePage {v0 : Nat} (p0 : Pa) (page : v0 / 4096 = va / 4096) (s : State) :
    xlateAll x n (va :: l) (some (v0, p0)) s =
      headed ({ p0 with pa := p0.pa / 4096 * 4096 + va % 4096, va := va } :: ·) (xlateAll x n l (some (v0, p0)) s) := by
  rw [xlateAll, if_pos page]
  rcases xlateAll x n l (some (v0, p0)) s with ⟨_ | _, _⟩ <;> rfl

theorem xlateAll_nextPage {v0 : Nat} (p0 : Pa) (page : ¬v0 / 4096 = va / 4096) (s : State) :
    xlateAll x n (va :: l) (some (v0, p0)) s = xlateAll x n (va :: l) none s := by
  rw [xlateAll, if_neg page, xlateAll]

theorem xlateAll_error {s t : State} {c : Cause} (h : xlate s x n va = (.error c, t)) :
    xlateAll x n (va :: l) none s = (.error { cause := c, faddr := va % 2 ^ 56 }, t) := by
  rw [xlateAll, h]

theorem xlateAll_ok {s t : State} {p : Pa} (h : xlate s x n va = (.ok p, t)) :
    xlateAll x n (va :: l) none s = headed (p :: ·) (xlateAll x n l (some (va, p)) t) := by
  rw [xlateAll, h]
  dsimp only
  rcases xlateAll x n l (some (va, p)) t with ⟨_ | _, _⟩ <;> rfl

end

theorem serves_xlateAll (x : Xl) (n : Need) (l : List Nat) : ∀ last s, Serves s (xlateAll x n l last s).2 := by
  induction l with
  | nil => exact fun _ s => Serves.refl s
  | cons va l ih =>
    have first (s : State) : Serves s (xlateAll x n (va :: l) none s).2 := by
      have one := serves_xlate s x n va
      rcases h : xlate s x n va with ⟨c | p, t⟩
      · rw [h] at one
        rw [xlateAll_error x n va l h]
        exact one
      · rw [h] at one
        rw [xlateAll_ok x n va l h, headed_snd]
        exact one.trans (ih _ t)
    intro last s
    match last with
    | none => exact first s
    | some (v0, p0) =>
      by_cases page : v0 / 4096 = va / 4096
      · rw [xlateAll_samePage x n va l p0 page, headed_snd]
        exact ih _ s
      · rw [xlateAll_nextPage x n va l p0 page]
        exact first s

theorem serveAll_quiet {s : State} (h : s.hbmNew = []) (sp : Bool) (cells : List Nat) : serveAll s sp cells = s := by
  unfold serveAll
  split
  · rfl
  · generalize granulesOf cells = l
    induction l with
    | nil => rfl
    | cons g l ih => rw [List.foldl_cons, serve_quiet h, ih]

theorem serves_serveAll (s : State) (sp : Bool) (cells : List Nat) : Serves s (serveAll s sp cells) := by
  unfold serveAll
  split
  · exact Serves.refl s
  · exact serves_foldl serves_serve _ s

/-! ### What a walk finds -/

/-- The entry that a walk of the tables reads at a level, if it reads one there. -/
def readAt (s : State) (va level : Nat) : Nat → Bool → Nat → Option Nat
  | l, g64, table =>
    if !tableOk s table then none
    else
      let e := s.mem.le (table + 8 * walkIndex l g64 va) 8
      if l = level then some e
      else if !entryOk l g64 e || testBit e 1 then none
      else match l with
        | 0 => none
        | l + 1 => readAt s va level l (testBit e 3) (bits e 12 40 * 2 ^ 12)

theorem readAt_here {s : State} {va level table : Nat} {g64 : Bool} (ok : tableOk s table = true) :
    readAt s va level level g64 table = some (s.mem.le (table + 8 * walkIndex level g64 va) 8) := by
  unfold readAt
  simp [ok]

theorem readAt_down {s : State} {va l level table e : Nat} {g64 : Bool} (ok : tableOk s table = true)
    (he : s.mem.le (table + 8 * walkIndex (level + 1) g64 va) 8 = e) (good : entryOk (level + 1) g64 e = true)
    (leaf : testBit e 1 = false) (other : level + 1 ≠ l) :
    readAt s va l (level + 1) g64 table = readAt s va l level (testBit e 3) (bits e 12 40 * 2 ^ 12) := by
  rw [readAt]
  simp [ok, he, good, leaf, other]

/-- The walk cache of x holds no non-leaf entry but those that the tables hold. -/
def Coherent (s : State) (x : Xl) : Prop :=
  ∀ k ∈ s.walkCache, k.cache = x.cache → k.asid = x.asid → ∀ va, va / levelBase k.level = k.key →
    readAt s va k.level 4 false x.table = some k.entry

theorem coherent_of_empty {s : State} (x : Xl) (h : s.walkCache = []) : Coherent s x := by
  intro k hk
  rw [h] at hk
  exact absurd hk List.not_mem_nil

/-- A coherent walk cache changes no entry of a walk. -/
theorem walkEntry_coherent {s : State} {x : Xl} (coherent : Coherent s x) {level va e : Nat}
    (h : readAt s va level 4 false x.table = some e) : walkEntry s x level va e = (e, s) := by
  have none : s.walkCache.find? (fun k => k.cache == x.cache && k.asid == x.asid && k.level == level &&
      k.key == va / levelBase level && k.entry != e) = none := by
    rw [List.find?_eq_none]
    intro k hk hit
    simp only [Bool.and_eq_true, beq_iff_eq, bne_iff_ne] at hit
    obtain ⟨⟨⟨⟨cache, asid⟩, rfl⟩, key⟩, other⟩ := hit
    have found := coherent k hk cache asid va key.symm
    exact other (Option.some.inj (found.symm.trans h))
  rw [walkEntry, none]

/-- The non-leaf entries that a walk of the tables passes. -/
def pathOf (s : State) (x : Xl) (va : Nat) : Nat → Bool → Nat → List WalkCopy
  | 0, _, _ => []
  | l + 1, g64, table =>
    let e := s.mem.le (table + 8 * walkIndex (l + 1) g64 va) 8
    if testBit e 1 then []
    else { cache := x.cache, asid := x.asid, level := l + 1, key := va / levelBase (l + 1), entry := e } ::
      pathOf s x va l (testBit e 3) (bits e 12 40 * 2 ^ 12)

/-- Where no service is free and the walk cache is coherent, a walk finds what the tables hold and changes nothing. -/
theorem walkVia_coherent {s : State} {x : Xl} (quiet : s.hbmNew = []) (coherent : Coherent s x) (va level : Nat) :
    ∀ g64 table, (∀ l, l ≤ level → readAt s va l level g64 table = readAt s va l 4 false x.table) →
      walkVia x va level g64 table s =
        ((walkFrom s va level g64 table).map fun l => (l, pathOf s x va level g64 table), s) := by
  induction level with
  | zero =>
    intro g64 table reads
    unfold walkVia walkFrom
    by_cases ok : tableOk s table = true
    · have here : readAt s va 0 4 false x.table = some (s.mem.le (table + 8 * walkIndex 0 g64 va) 8) := by
        rw [← reads 0 le_rfl, readAt_here ok]
      simp only [ok, serve_quiet quiet, walkEntry_coherent coherent here]
      by_cases good : entryOk 0 g64 (s.mem.le (table + 8 * walkIndex 0 g64 va) 8) = true
      · by_cases leaf : testBit (s.mem.le (table + 8 * walkIndex 0 g64 va) 8) 1 = true <;> simp [good, leaf, pathOf]
      · simp [good]
    · simp [ok]
  | succ level ih =>
    intro g64 table reads
    unfold walkVia walkFrom
    by_cases ok : tableOk s table = true
    · have here : readAt s va (level + 1) 4 false x.table = some (s.mem.le (table + 8 * walkIndex (level + 1) g64 va) 8) := by
        rw [← reads (level + 1) le_rfl, readAt_here ok]
      simp only [ok, serve_quiet quiet, walkEntry_coherent coherent here]
      generalize he : s.mem.le (table + 8 * walkIndex (level + 1) g64 va) 8 = e
      by_cases good : entryOk (level + 1) g64 e = true
      · by_cases leaf : testBit e 1 = true
        · simp [good, leaf, pathOf, he]
        · have next := ih (testBit e 3) (bits e 12 40 * 2 ^ 12) fun l hl => by
            rw [← reads l (by omega), readAt_down ok he good (Bool.eq_false_iff.mpr leaf) (by omega)]
          simp only [good, leaf, next, pathOf, he]
          cases walkFrom s va level (testBit e 3) (bits e 12 40 * 2 ^ 12) <;> simp
      · simp [good]
    · simp [ok]

/-- Addresses that a level's entry does not tell apart have the same index at that level and above. -/
theorem walkIndex_congr {l level va va' : Nat} (g64 : Bool) (low : 1 ≤ l) (high : l ≤ level) (top : level ≤ 4)
    (same : va / levelBase l = va' / levelBase l) : walkIndex level g64 va = walkIndex level g64 va' := by
  have up : va / levelBase level = va' / levelBase level := by
    obtain ⟨d, rfl⟩ := Nat.exists_eq_add_of_le high
    have split : levelBase (l + d) = levelBase l * 2 ^ (9 * d) := by
      rw [levelBase, levelBase, ← pow_add]
      congr 1
      omega
    rw [split, ← Nat.div_div_eq_div_mul, ← Nat.div_div_eq_div_mul, same]
  have pos : 1 ≤ level := le_trans low high
  have index (n k : Nat) (h : levelBase level = 2 ^ n) : bits va n k = bits va' n k := by
    rw [bits, bits, ← h, up]
  obtain rfl | rfl | rfl | rfl : level = 1 ∨ level = 2 ∨ level = 3 ∨ level = 4 := by omega
  · exact index 21 9 rfl
  · exact index 30 9 rfl
  · exact index 39 9 rfl
  · exact index 48 8 rfl

theorem readAt_congr {s : State} {va va' l : Nat} (low : 1 ≤ l) (same : va / levelBase l = va' / levelBase l) (level : Nat) :
    ∀ g64 table, l ≤ level → level ≤ 4 → readAt s va l level g64 table = readAt s va' l level g64 table := by
  induction level with
  | zero => exact fun _ _ h => absurd (le_trans low h) (by omega)
  | succ level ih =>
    intro g64 table high top
    unfold readAt
    rw [walkIndex_congr g64 low high top same]
    by_cases h : level + 1 = l
    · simp [h]
    · simp only [h, if_false]
      rw [ih _ _ (by omega) (by omega)]

/-- What a walk passes on its way to a leaf are entries that it reads. -/
theorem mem_pathOf {s : State} {x : Xl} {va level : Nat} {k : WalkCopy} : ∀ {g64 table leaf},
    walkFrom s va level g64 table = some leaf → k ∈ pathOf s x va level g64 table →
      k.cache = x.cache ∧ k.asid = x.asid ∧ k.key = va / levelBase k.level ∧ 1 ≤ k.level ∧ k.level ≤ level ∧
        readAt s va k.level level g64 table = some k.entry := by
  induction level with
  | zero => exact fun _ h => absurd h List.not_mem_nil
  | succ level ih =>
    intro g64 table leaf walk mem
    unfold walkFrom at walk
    unfold pathOf at mem
    by_cases ok : tableOk s table = true
    · generalize he : s.mem.le (table + 8 * walkIndex (level + 1) g64 va) 8 = e at walk mem
      by_cases good : entryOk (level + 1) g64 e = true
      · by_cases hl : testBit e 1 = true
        · simp [hl] at mem
        · simp only [ok, good, hl, Bool.not_true, Bool.false_eq_true, if_false] at walk mem
          rcases List.mem_cons.mp mem with rfl | mem
          · exact ⟨rfl, rfl, rfl, by simp, le_rfl, by rw [readAt_here ok, he]⟩
          · obtain ⟨cache, asid, key, low, high, read⟩ := ih walk mem
            exact ⟨cache, asid, key, low, by omega,
              by rw [readAt_down ok he good (Bool.eq_false_iff.mpr hl) (by omega), read]⟩
      · simp [ok, good] at walk
    · simp [ok] at walk

theorem mem_of_mem_dropNth {α : Type} {p : α → Bool} {y : α} (l : List α) : ∀ n, y ∈ dropNth p n l → y ∈ l := by
  induction l with
  | nil => exact fun _ h => h
  | cons x l ih =>
    intro n h
    unfold dropNth at h
    split at h
    · exact (List.mem_cons.mp h).elim (fun e => e ▸ List.mem_cons_self) fun m => List.mem_cons_of_mem _ (ih n m)
    · split at h
      · exact List.mem_cons_of_mem _ h
      · exact (List.mem_cons.mp h).elim (fun e => e ▸ List.mem_cons_self) fun m => List.mem_cons_of_mem _ (ih _ m)

theorem mem_of_mem_boundBy {α : Type} {p : α → Bool} {n : Nat} {l : List α} {s : State} {y : α}
    (h : y ∈ (boundBy p n l s).1) : y ∈ l := by
  unfold boundBy at h
  dsimp only at h
  split at h
  · exact h
  · exact mem_of_mem_dropNth l _ h

/-- What a walk cache holds after a fill it held before, or is filled. -/
theorem mem_fillWalkCache {x : Xl} {k : WalkCopy} (l : List WalkCopy) : ∀ s : State,
    k ∈ (fillWalkCache s x l).walkCache → k ∈ s.walkCache ∨ k ∈ l := by
  induction l with
  | nil => exact fun s h => .inl h
  | cons y l ih =>
    intro s h
    rw [fillWalkCache_eq, List.foldl_cons, ← fillWalkCache_eq] at h
    rcases ih _ h with h | h
    · rcases List.mem_cons.mp h with rfl | h
      · exact .inr List.mem_cons_self
      · exact .inl (List.mem_filter.mp (mem_of_mem_boundBy h)).1
    · exact .inr (List.mem_cons_of_mem _ h)

/-! ### A translation without a TLB -/

/-- The tables and the address map, on which a walk of the tables rests. -/
def SameTables (s t : State) : Prop :=
  t.mem = s.mem ∧ t.part = s.part ∧ t.pkg = s.pkg ∧ t.mgmt.saveg = s.mgmt.saveg

theorem Serves.sameTables {s t : State} (h : Serves s t) (quiet : s.hbmNew = []) : SameTables s t := by
  obtain ⟨h, rfl, q⟩ := h
  exact ⟨(q quiet).1, rfl, rfl, rfl⟩

theorem Serves.quiet {s t : State} (h : Serves s t) (quiet : s.hbmNew = []) : t.hbmNew = [] := by
  obtain ⟨h, rfl, q⟩ := h
  exact (q quiet).2.2.1

section
variable {s t : State} (h : SameTables s t)
include h

theorem hbmSize_tables : t.hbmSize = s.hbmSize := by
  unfold State.hbmSize
  rw [h.2.1]

theorem saveBase_tables : t.saveBase = s.saveBase := by
  unfold State.saveBase
  rw [hbmSize_tables h, h.2.2.2]

theorem tableOk_tables (a : Nat) : tableOk t a = tableOk s a := by
  unfold tableOk
  rw [saveBase_tables h]

theorem walkFrom_tables (va level : Nat) : ∀ g64 table, walkFrom t va level g64 table = walkFrom s va level g64 table := by
  induction level with
  | zero =>
    intro g64 table
    unfold walkFrom
    rw [tableOk_tables h, h.1]
  | succ level ih =>
    intro g64 table
    unfold walkFrom
    rw [tableOk_tables h, h.1]
    simp only [ih]

theorem readAt_tables (va l level : Nat) : ∀ g64 table, readAt t va l level g64 table = readAt s va l level g64 table := by
  induction level with
  | zero =>
    intro g64 table
    unfold readAt
    rw [tableOk_tables h, h.1]
  | succ level ih =>
    intro g64 table
    unfold readAt
    rw [tableOk_tables h, h.1]
    simp only [ih]

theorem walkRoot_tables (root va : Nat) : walkRoot t root va = walkRoot s root va := walkFrom_tables h va 4 _ _

theorem paNorm_tables (a : Nat) : paNorm t a = paNorm s a := by
  unfold paNorm
  rw [h.2.2.1]

theorem paKind_tables (a : Nat) : paKind t a = paKind s a := by
  unfold paKind
  rw [hbmSize_tables h, h.2.2.1]

end

theorem boundBy_walkCache {α : Type} (p : α → Bool) (n : Nat) (l : List α) (s : State) :
    (boundBy p n l s).2.walkCache = s.walkCache := by
  unfold boundBy
  dsimp only
  split <;> rfl

theorem clearedTlbs_walkCache (s : State) (x : Xl) (va : Nat) : (clearedTlbs s x va).walkCache = s.walkCache := by
  unfold clearedTlbs
  have fold (l : List (Nat × Nat)) : ∀ s : State, (l.foldl roomInTlb s).walkCache = s.walkCache := by
    induction l with
    | nil => exact fun _ => rfl
    | cons p l ih => exact fun s => (ih _).trans (boundBy_walkCache _ _ _ s)
  exact fold _ _

/-- The walks of x find what the tables hold. -/
def Plain (s : State) (x : Xl) : Prop := s.hbmNew = [] ∧ Coherent s x

theorem walkVia_plain {s : State} {x : Xl} (plain : Plain s x) (va : Nat) :
    walkVia x va 4 false x.table s =
      ((walkRoot s x.root va).map fun l => (l, pathOf s x va 4 false x.table), s) :=
  walkVia_coherent plain.1 plain.2 va 4 false x.table fun _ _ => rfl

theorem plain_fillWalkCache {s : State} {x : Xl} (plain : Plain s x) {va : Nat} {l : Leaf}
    (walk : walkRoot s x.root va = some l) :
    Plain (fillWalkCache (fillTlb s x va l) x (pathOf s x va 4 false x.table)) x := by
  have serves := (serves_fillTlb s x va l).trans (serves_fillWalkCache _ x (pathOf s x va 4 false x.table))
  refine ⟨serves.quiet plain.1, fun k hk cache asid va' key => ?_⟩
  rw [readAt_tables (serves.sameTables plain.1)]
  rcases mem_fillWalkCache _ _ hk with old | new
  · rw [fillTlb_eq] at old
    exact plain.2 k ((clearedTlbs_walkCache s x va) ▸ old) cache asid va' key
  · obtain ⟨-, -, here, low, high, read⟩ := mem_pathOf (table := x.table) walk new
    rw [readAt_congr low (key.trans here) 4 false x.table high le_rfl, read]

theorem walkNow_plain {s : State} {x : Xl} (plain : Plain s x) (va : Nat) :
    (walkNow s x va).1 = walkRoot s x.root va ∧ Plain (walkNow s x va).2 x := by
  have via := walkVia_plain plain va
  cases walk : walkRoot s x.root va with
  | none =>
    rw [walk] at via
    rw [walkNow_none via]
    exact ⟨rfl, plain⟩
  | some l =>
    rw [walk] at via
    rw [walkNow_some via]
    exact ⟨rfl, plain_fillWalkCache plain walk⟩

theorem lookup_noTlb {x : Xl} (noTlb : x.tlbs = []) (s : State) (va : Nat) : lookup s x va = walkNow s x va := by
  have miss (e : TlbEntry) : e.hits x va = false := by simp [TlbEntry.hits, noTlb]
  have none : s.tlb.find? (fun e => e.hits x va && some e.asLeaf != walkRoot s x.root va) = none :=
    List.find?_eq_none.mpr fun e _ => by simp [miss]
  have any : (s.tlb.any fun e => e.hits x va) = false := List.any_eq_false.mpr fun e _ => by simp [miss]
  unfold lookup
  simp only [none, any]
  exact if_neg Bool.false_ne_true

/-- What a translation answers, from the leaf of its address. -/
def answerOf (s : State) (x : Xl) (n : Need) (va : Nat) : Option Leaf → Except Cause Pa
  | none => .error .pageFault
  | some l =>
    if !leafPermits x.priv n l.entry then .error .accessFault
    else if paKind s (leafPa l va) = .reserved then .error .accessFault
    else if paKind s (leafPa l va) = .hbm ∧ s.saveBase < paNorm s (leafPa l (va / l.size * l.size)) + l.size then
      .error .accessFault
    else .ok { pa := paNorm s (leafPa l va), rwn := testBit l.entry 9, va := va, page := some (x.page l va) }

theorem answerOf_tables {s t : State} (h : SameTables s t) (x : Xl) (n : Need) (va : Nat) (l : Option Leaf) :
    answerOf t x n va l = answerOf s x n va l := by
  cases l with
  | none => rfl
  | some l => simp only [answerOf, paKind_tables h, paNorm_tables h, saveBase_tables h]

/-- A lookup turned into the answer of a translation. -/
def answered (x : Xl) (n : Need) (va : Nat) (r : Option Leaf × State) : Except Cause Pa × State :=
  (answerOf r.2 x n va r.1, r.2)

theorem answered_fst (x : Xl) (n : Need) (va : Nat) (r : Option Leaf × State) :
    (answered x n va r).1 = answerOf r.2 x n va r.1 := rfl

theorem answered_snd (x : Xl) (n : Need) (va : Nat) (r : Option Leaf × State) : (answered x n va r).2 = r.2 := rfl

theorem xlate_far {va : Nat} (far : 2 ^ 56 ≤ va) (s : State) (x : Xl) (n : Need) :
    xlate s x n va = (.error .accessFault, s) := if_pos far

theorem xlate_near {va : Nat} (near : ¬2 ^ 56 ≤ va) (s : State) (x : Xl) (n : Need) :
    xlate s x n va = answered x n va (lookup s x va) := by
  unfold xlate
  rw [if_neg near]
  rcases lookup s x va with ⟨_ | l, t⟩
  · rfl
  · dsimp only [answered, answerOf]
    split
    · rfl
    · split
      · rfl
      · split <;> rfl

/-- Without a TLB and with plain walks, a translation leaves plain walks. -/
theorem xlate_plain {s : State} {x : Xl} (noTlb : x.tlbs = []) (plain : Plain s x) (n : Need) (va : Nat) :
    Plain (xlate s x n va).2 x := by
  by_cases far : 2 ^ 56 ≤ va
  · rw [xlate_far far]
    exact plain
  · rw [xlate_near far, answered_snd, lookup_noTlb noTlb]
    exact (walkNow_plain plain va).2

/-- Without a TLB and with plain walks, a translation answers what the tables hold. -/
theorem xlate_answer {s : State} {x : Xl} (noTlb : x.tlbs = []) (plain : Plain s x) (n : Need) {va : Nat} (near : ¬2 ^ 56 ≤ va) :
    (xlate s x n va).1 = answerOf s x n va (walkRoot s x.root va) := by
  rw [xlate_near near, answered_fst, lookup_noTlb noTlb]
  exact (answerOf_tables ((serves_walkNow s x va).sameTables plain.1) x n va _).trans
    (congrArg (answerOf s x n va) (walkNow_plain plain va).1)

/-- Translations under the same tables agree. -/
theorem xlate_same {s t : State} {x : Xl} (noTlb : x.tlbs = []) (h : SameTables s t) (ps : Plain s x) (pt : Plain t x)
    (n : Need) (va : Nat) : (xlate t x n va).1 = (xlate s x n va).1 := by
  by_cases far : 2 ^ 56 ≤ va
  · rw [xlate_far far, xlate_far far]
  · rw [xlate_answer noTlb pt n far, xlate_answer noTlb ps n far, walkRoot_tables h]
    exact answerOf_tables h x n va _

theorem xlateAll_same {x : Xl} (noTlb : x.tlbs = []) (n : Need) (l : List Nat) : ∀ last (s t : State), SameTables s t →
    Plain s x → Plain t x →
      (xlateAll x n l last t).1 = (xlateAll x n l last s).1 ∧ Plain (xlateAll x n l last s).2 x := by
  induction l with
  | nil => exact fun _ s t _ ps _ => ⟨rfl, ps⟩
  | cons va l ih =>
    have first (s t : State) (h : SameTables s t) (ps : Plain s x) (pt : Plain t x) :
        (xlateAll x n (va :: l) none t).1 = (xlateAll x n (va :: l) none s).1 ∧
          Plain (xlateAll x n (va :: l) none s).2 x := by
      have same := xlate_same noTlb h ps pt n va
      have ps' := xlate_plain noTlb ps n va
      have pt' := xlate_plain noTlb pt n va
      have ss := (serves_xlate s x n va).sameTables ps.1
      have st := (serves_xlate t x n va).sameTables pt.1
      rcases hs : xlate s x n va with ⟨c | p, s'⟩ <;> rcases ht : xlate t x n va with ⟨c' | p', t'⟩ <;>
        rw [hs] at same ps' ss <;> rw [ht] at same pt' st
      · obtain rfl : c' = c := Except.error.inj same
        rw [xlateAll_error x n va l hs, xlateAll_error x n va l ht]
        exact ⟨rfl, ps'⟩
      · exact nomatch same
      · exact nomatch same
      · obtain rfl : p' = p := Except.ok.inj same
        have tables : SameTables s' t' :=
          ⟨st.1.trans (h.1.trans ss.1.symm), st.2.1.trans (h.2.1.trans ss.2.1.symm),
            st.2.2.1.trans (h.2.2.1.trans ss.2.2.1.symm), st.2.2.2.trans (h.2.2.2.trans ss.2.2.2.symm)⟩
        obtain ⟨eq, plain⟩ := ih (some (va, p')) s' t' tables ps' pt'
        rw [xlateAll_ok x n va l hs, xlateAll_ok x n va l ht, headed_fst, headed_fst, headed_snd, eq]
        exact ⟨rfl, plain⟩
    intro last s t h ps pt
    match last with
    | none => exact first s t h ps pt
    | some (v0, p0) =>
      by_cases page : v0 / 4096 = va / 4096
      · obtain ⟨eq, plain⟩ := ih (some (v0, p0)) s t h ps pt
        rw [xlateAll_samePage x n va l p0 page, xlateAll_samePage x n va l p0 page, headed_fst, headed_fst, headed_snd, eq]
        exact ⟨rfl, plain⟩
      · rw [xlateAll_nextPage x n va l p0 page, xlateAll_nextPage x n va l p0 page]
        exact first s t h ps pt

end Sys2Proof.Machine
end

section
/-! SUPPORT. Table walks that end, and INVR (17 R364 to R366). -/
open Sys2Proof Sys2Proof.Machine Sys2Proof.Claim

namespace Sys2Proof.Machine

/-! ### The end of a walk -/

/-- Who translates in a walk: it fills the TLBs of its core and cluster. -/
def Walk.xl (w : Walk) : Xl := { priv := true, asid := w.asid, root := w.root, tlbs := [(0, w.core), (1, w.cl)], cache := w.cl }

/-- The state without a walk. -/
def withoutWalk (s : State) (w : Walk) : State := { s with walks := s.walks.filter fun x => x.id != w.id }

theorem exec_walk_stale {s : State} {w : Walk} (find : s.walks.find? (fun w => w.id == s.arg.id) = some w)
    (stale : w.stale = true) : Acts .tableWalkComplete s (withoutWalk s w) := by
  rw [Acts, exec_tableWalkComplete, execTableWalkComplete, find]
  simp only [stale, if_true]
  rfl

theorem exec_walk_live {s : State} {w : Walk} (find : s.walks.find? (fun w => w.id == s.arg.id) = some w)
    (live : w.stale = false) : Acts .tableWalkComplete s (walkNow (withoutWalk s w) w.xl w.va).2 := by
  rw [Acts, exec_tableWalkComplete, execTableWalkComplete, find]
  simp only [live, Bool.false_eq_true, if_false]
  exact congrArg (fun r => Host.Outcome.next (Prod.snd r)) (Eq.refl (walkNow (withoutWalk s w) w.xl w.va))

theorem boundBy_tlb {α : Type} (p : α → Bool) (n : Nat) (l : List α) (s : State) : (boundBy p n l s).2.tlb = s.tlb := by
  unfold boundBy
  dsimp only
  split <;> rfl

theorem fillWalkCache_tlb (x : Xl) (l : List WalkCopy) : ∀ s : State, (fillWalkCache s x l).tlb = s.tlb := by
  induction l with
  | nil => exact fun _ => rfl
  | cons k l ih =>
    intro s
    rw [fillWalkCache_eq, List.foldl_cons, ← fillWalkCache_eq, ih]
    exact boundBy_tlb _ _ _ s

/-- Each TLB of x holds the leaf that a walk has filled. -/
theorem mem_filledEntries {x : Xl} {va : Nat} {l : Leaf} {p : Nat × Nat} (h : p ∈ x.tlbs) : ∃ e ∈ filledEntries x va l,
    e.kind = p.1 ∧ e.place = p.2 ∧ e.page = va / l.size ∧ e.size = l.size ∧ e.leaf = l.entry ∧
      e.asid = if l.entry.testBit 8 then none else some x.asid := by
  refine ⟨_, List.mem_map.mpr ⟨p, h, rfl⟩, rfl, rfl, rfl, rfl, rfl, ?_⟩
  have bit : testBit l.entry 8 = l.entry.testBit 8 := by
    rw [Nat.testBit_eq_decide_div_mod_eq]
    rfl
  rw [bit]

/-! ### INVR -/

/-- The revocation of press entries reaches contexts and flights alone: bytes, translations and INVRs stand. -/
def KeepsTranslations (s t : State) : Prop :=
  t.mem = s.mem ∧ t.spad = s.spad ∧ t.tlb = s.tlb ∧ t.walkCache = s.walkCache ∧ t.invals = s.invals

theorem keepsTranslations_pressFault (s : State) (w : CtxId) (va : Nat) : KeepsTranslations s (pressFault s w va) := by
  simp [KeepsTranslations, pressFault]

theorem keepsTranslations_revokeEntry (s : State) (e : PressEntry) : KeepsTranslations s (revokeEntry s e) := by
  have fault (t : State) (h : KeepsTranslations s t) : KeepsTranslations s (pressFault t e.who e.va) := by
    obtain ⟨m, p, l, c, i⟩ := h
    obtain ⟨m', p', l', c', i'⟩ := keepsTranslations_pressFault t e.who e.va
    exact ⟨m'.trans m, p'.trans p, l'.trans l, c'.trans c, i'.trans i⟩
  unfold revokeEntry
  split
  · exact fault _ (by simp [KeepsTranslations])
  · split
    · exact fault _ (by simp [KeepsTranslations, dropFlight])
    · exact fault _ ⟨rfl, rfl, rfl, rfl, rfl⟩

theorem keepsTranslations_revokeAll (l : List PressEntry) : ∀ s : State, KeepsTranslations s (l.foldl revokeEntry s) := by
  induction l with
  | nil => exact fun _ => ⟨rfl, rfl, rfl, rfl, rfl⟩
  | cons e l ih =>
    intro s
    obtain ⟨m, p, l', c, i⟩ := keepsTranslations_revokeEntry s e
    obtain ⟨m', p', l'', c', i'⟩ := ih (revokeEntry s e)
    exact ⟨m'.trans m, p'.trans p, l''.trans l', c'.trans c, i'.trans i⟩

/-- The invalidation points drop translations, and no byte changes. -/
theorem invalidate_keeps (s : State) (v : Invalidation) : ∃ waits, sameBytes s (invalidate s v) ∧
    (invalidate s v).tlb = s.tlb.filter (fun e => !dropsEntry v e) ∧
    (invalidate s v).walkCache = s.walkCache.filter (fun k => !dropsWalkCopy v k) ∧
    (invalidate s v).invals =
      updateFirst (fun x => x.id == v.id) (fun x => { x with points := true, waits := waits }) s.invals := by
  obtain ⟨m, p, l, c, i⟩ := keepsTranslations_revokeAll (s.press.filter fun e => e.page.any (coversPage v)) { s with
    tlb := s.tlb.filter fun e => !dropsEntry v e
    walkCache := s.walkCache.filter fun k => !dropsWalkCopy v k
    l1 := s.l1.filter fun x => !dropsL1 s (s.tlb.filter (dropsEntry v)) x
    walks := if 0 < v.len then s.walks.map fun w => { w with stale := true } else s.walks
    press := s.press.filter fun e => !e.page.any (coversPage v)
    invals := updateFirst (fun x => x.id == v.id) (fun x => { x with points := true, waits :=
      ((s.flights.filter fun f => f.pages.any (coversPage v)).map fun f => f.id) ++
        ((s.tileOps.filter fun t => t.pages.any (coversPage v)).map fun t => t.id) }) s.invals }
  exact ⟨_, ⟨m, p⟩, l, c, i⟩

end Sys2Proof.Machine

/-- TABLE_WALK_COMPLETE: what any walk leaves, and what one finds under an empty walk cache. -/
theorem Sys2Proof.Claim.walkFills (s : State) (w : Walk) (find : s.walks.find? (fun w => w.id == s.arg.id) = some w) :
    let fresh := s.walkCache = [] ∧ s.hbmNew = []
    ∃ t, Acts .tableWalkComplete s t ∧ t.walks = s.walks.filter (fun x => x.id != w.id) ∧ (s.hbmNew = [] → sameBytes s t) ∧
    t.flights = s.flights ∧ (w.stale = true → t.tlb = s.tlb) ∧ (fresh → walkRoot s w.root w.va = none → t.tlb = s.tlb) ∧
    ∀ l, fresh → w.stale = false → walkRoot s w.root w.va = some l → ∀ k place, (k, place) = (0, w.core) ∨ (k, place) = (1, w.cl) →
      ∃ e ∈ t.tlb, e.kind = k ∧ e.place = place ∧ e.page = w.va / l.size ∧ e.size = l.size ∧ e.leaf = l.entry ∧
        e.asid = if l.entry.testBit 8 then none else some w.asid := by
  intro fresh
  cases hw : w.stale with
  | true =>
    exact ⟨_, exec_walk_stale find hw, rfl, fun _ => ⟨rfl, rfl⟩, rfl, fun _ => rfl, fun _ _ => rfl,
      (fun _ _ h => nomatch h)⟩
  | false =>
    have tables : SameTables s (withoutWalk s w) := ⟨rfl, rfl, rfl, rfl⟩
    have via (h : fresh) := walkVia_plain (s := withoutWalk s w) (x := w.xl) ⟨h.2, coherent_of_empty _ h.1⟩ w.va
    obtain ⟨h, e, quiet⟩ := serves_walkNow (withoutWalk s w) w.xl w.va
    refine ⟨_, exec_walk_live find hw, ?_, fun q => ?_, ?_, (fun h => nomatch h), fun f faults => ?_, fun l f _ leaf k place here => ?_⟩
    · rw [e]; rfl
    · rw [e]; exact ⟨(quiet q).1, rfl⟩
    · rw [e]; rfl
    · have walk := via f
      rw [walkRoot_tables tables, show walkRoot s w.xl.root w.va = none from faults] at walk
      rw [walkNow_none walk]
      rfl
    · have walk := via f
      rw [walkRoot_tables tables, show walkRoot s w.xl.root w.va = some l from leaf] at walk
      have mem : (k, place) ∈ w.xl.tlbs := by
        rcases here with h | h
        · exact h ▸ List.mem_cons_self
        · exact h ▸ List.mem_cons_of_mem _ List.mem_cons_self
      obtain ⟨e, he, fields⟩ := mem_filledEntries (va := w.va) (l := l) mem
      refine ⟨e, ?_, fields⟩
      rw [walkNow_some walk, fillWalkCache_tlb, fillTlb_eq]
      exact List.mem_append_left _ he

/-- INVR_ACKNOWLEDGE: the invalidation points, then the end. -/
theorem Sys2Proof.Claim.invrDrops (s : State) (v : Invalidation) (find : s.invals.find? (fun v => v.id == s.arg.id) = some v) :
    (v.points = false → (∀ c, s.ctx? v.who = some c → fenceClear s c = true) → s.fleet.step = .idle →
      ∃ t u, Acts .invrAcknowledge s t ∧ sameBytes s t ∧ (∀ k ∈ t.walkCache, k ∈ s.walkCache ∧ dropsWalkCopy v k = false) ∧
        t.invals.find? (fun v => v.id == s.arg.id) = some u ∧
        u.points = true ∧ u.who = v.who ∧
        t.tlb = s.tlb.filter fun e => !(decide (0 < v.len) && decide (e.page * e.size < v.lo + v.len) &&
          decide (v.lo < (e.page + 1) * e.size) && (v.asid.isNone || e.asid.isNone || e.asid == v.asid))) ∧
    (v.points = true → v.waits.all (drained s) = true →
      Acts .invrAcknowledge s { s with invals := s.invals.filter fun x => x.id != v.id }) ∧
    (v.points = true → v.waits.all (drained s) = false → Acts .invrAcknowledge s s) := by
  have number : v.id = s.arg.id := by simpa using List.find?_some find
  refine ⟨fun points clear idle => ?_, fun points drained => ?_, fun points drained => ?_⟩
  · obtain ⟨waits, bytes, tlb, cache, invals⟩ := invalidate_keeps s v
    refine ⟨invalidate s v, { v with points := true, waits := waits }, ?_, bytes, fun k hk => ?_, ?_, rfl, rfl, tlb⟩
    · have all : ((s.ctx? v.who).all fun c => fenceClear s c) = true := Option.all_eq_true _ _ |>.mpr clear
      rw [Acts, exec_invrAcknowledge, execInvrAcknowledge, find]
      simp only [points, Bool.not_false, if_true]
      rw [if_pos ⟨all, idle⟩]
    · rw [cache, List.mem_filter] at hk
      simpa using hk
    · rw [invals, number]
      refine (find?_updateFirst ?_ s.invals).trans (by rw [find, ← number]; rfl)
      exact fun _ h => h
  · rw [Acts, exec_invrAcknowledge, execInvrAcknowledge, find]
    simp [points, drained]
  · rw [Acts, exec_invrAcknowledge, execInvrAcknowledge, find]
    simp [points, drained]

/-- Settles O47: kind by kind of wait, and through what a walk finds and what an invalidation keeps. -/
theorem waitsWalksAndInvalidations : Obligations.WaitsWalksAndInvalidations :=
  ⟨Sys2Proof.Claim.blockedContextsWakeWhenTheirWaitIsOver, Sys2Proof.Claim.walkFills, Sys2Proof.Claim.invrDrops⟩
end

section
/-! SUPPORT. The order of dispatch, aging, and the numbers that a dispatch works out: the base of a plan, and the bytes of an
operand that holds data sections (01 R28, 15 R337, R340). -/
open Sys2Proof Sys2Proof.Machine Sys2Proof.Claim

namespace Sys2Proof.Machine

/-! ### The order of dispatch -/

/-- Of two nodes one is not behind the other by class, nor by the time of becoming ready. -/
def Node.notBehind (n m : Node) : Prop := n.cls < m.cls ∨ (n.cls = m.cls ∧ n.readyAt ≤ m.readyAt)

theorem notBehind_of_ahead {n m : Node} (h : n.ahead m = true) : n.notBehind m := by
  unfold Node.ahead at h
  unfold Node.notBehind
  split at h
  · exact .inl (by simpa using h)
  next same =>
    refine .inr ⟨not_not.mp same, ?_⟩
    split at h
    · exact le_of_lt (by simpa using h)
    next same => exact le_of_eq (not_not.mp same)

theorem notBehind_of_not_ahead {n m : Node} (h : n.ahead m = false) : m.notBehind n := by
  unfold Node.ahead at h
  unfold Node.notBehind
  split at h
  next other =>
    have := of_decide_eq_false h
    exact .inl (by omega)
  next same =>
    refine .inr ⟨(not_not.mp same).symm, ?_⟩
    split at h
    · have := of_decide_eq_false h
      omega
    next same => exact le_of_eq (not_not.mp same).symm

theorem Node.notBehind.trans {a b c : Node} (h : a.notBehind b) (k : b.notBehind c) : a.notBehind c := by
  unfold Node.notBehind at *
  omega

theorem Node.notBehind.refl (n : Node) : n.notBehind n := .inr ⟨rfl, le_rfl⟩

/-- The first node of a list is in it, and behind none of it. -/
theorem firstNode_some {l : List Node} : ∀ {n}, firstNode l = some n → n ∈ l ∧ ∀ m ∈ l, n.notBehind m := by
  induction l with
  | nil => exact fun h => nomatch h
  | cons a l ih =>
    intro n h
    unfold firstNode at h
    split at h
    next m hm =>
      obtain ⟨mem, least⟩ := ih hm
      split at h
      next ahead =>
        obtain rfl : a = n := Option.some.inj h
        refine ⟨List.mem_cons_self, fun x hx => ?_⟩
        rcases List.mem_cons.mp hx with rfl | hx
        · exact .refl _
        · exact (notBehind_of_ahead ahead).trans (least x hx)
      next behind =>
        obtain rfl : m = n := Option.some.inj h
        refine ⟨List.mem_cons_of_mem _ mem, fun x hx => ?_⟩
        rcases List.mem_cons.mp hx with rfl | hx
        · exact notBehind_of_not_ahead (Bool.eq_false_iff.mpr behind)
        · exact least x hx
    next none =>
      obtain rfl : a = n := Option.some.inj h
      refine ⟨List.mem_cons_self, fun x hx => ?_⟩
      rcases List.mem_cons.mp hx with rfl | hx
      · exact .refl _
      · cases l with
        | nil => exact absurd hx List.not_mem_nil
        | cons b l =>
          unfold firstNode at none
          split at none
          · split at none <;> exact nomatch none
          · exact nomatch none

/-- What the granary takes next. -/
theorem nextNode_some {s : State} {n : Node} (h : nextNode s = some n) : s.granary.go = false ∧ n ∈ s.granary.nodes ∧
    inReadySet s n = true ∧ nodeFits s n = true ∧
    ∀ m ∈ s.granary.nodes, inReadySet s m = true → nodeFits s m = true → n.notBehind m := by
  unfold nextNode at h
  split at h
  · exact nomatch h
  next go =>
    obtain ⟨mem, least⟩ := firstNode_some h
    obtain ⟨mem, fits⟩ := List.mem_filter.mp mem
    obtain ⟨ready, fits⟩ := Bool.and_eq_true_iff.mp fits
    exact ⟨Bool.eq_false_iff.mpr go, mem, ready, fits,
      fun m hm r f => least m (List.mem_filter.mpr ⟨hm, by simp [r, f]⟩)⟩

/-! ### Nodes by number -/

/-- A node that is changed by number is found under it, changed. -/
theorem node?_updNode {s : State} {i : Nat} {f : Node → Node} (id : ∀ n, (f n).id = n.id) :
    (s.updNode i f).node? i = (s.node? i).map f :=
  find?_updateFirst (fun n h => by rw [id]; exact h) _

theorem node?_id {s : State} {i : Nat} {n : Node} (h : s.node? i = some n) : n.id = i := by
  simpa using List.find?_some h

/-! ### The base of a plan (15 R337) -/

theorem trailingZeros_shift (n v d : Nat) : trailingZeros (n + d) (v * 2 ^ d) = d + trailingZeros n v := by
  induction d with
  | zero => simp
  | succ d ih =>
    have even : v * 2 ^ (d + 1) = v * 2 ^ d * 2 := by ring
    rw [← add_assoc, trailingZeros, even, Nat.mul_mod_left, Nat.mul_div_cancel _ (by omega), ih]
    simp only [Nat.zero_ne_one, if_false]
    omega

theorem trailingZeros_bound (k : Nat) (n : Nat) : ∀ v, 0 < v → v < 2 ^ n → trailingZeros (n + k) v = trailingZeros n v := by
  induction n with
  | zero => intro v pos small; omega
  | succ n ih =>
    intro v pos small
    rw [Nat.add_right_comm, trailingZeros, trailingZeros]
    split
    · rfl
    · rw [ih (v / 2) (by omega) (by omega)]

theorem baseOf_shift {mask d : Nat} {banks : BitVec 48} (pos : 0 < mask) (h : banks.toNat = mask * 2 ^ d) :
    baseOf mask banks = 262144 * d := by
  have small : mask * 2 ^ d < 2 ^ 48 := h ▸ banks.isLt
  have fits : d < 48 := (Nat.pow_lt_pow_iff_right (by omega : 1 < 2)).mp
    (lt_of_le_of_lt (Nat.le_mul_of_pos_left _ pos) small)
  obtain ⟨n, hn⟩ : ∃ n, n + d = 48 := ⟨48 - d, by omega⟩
  have high : trailingZeros 48 (mask * 2 ^ d) = d + trailingZeros n mask := by
    rw [← hn, trailingZeros_shift]
  have low : trailingZeros 48 mask = trailingZeros n mask := by
    rw [← hn, pow_add] at small
    rw [← hn, trailingZeros_bound d n mask pos (Nat.lt_of_mul_lt_mul_right small)]
  rw [baseOf, if_neg (by omega), h, high, low, Nat.add_sub_cancel]

/-! ### The bytes of an operand (15 R340) -/

/-- Byte k of a number. -/
def byteOf (v k : Nat) : Nat := v / 256 ^ k % 256

theorem getD_toBytes {n k : Nat} (v : Nat) (h : k < n) : (toBytes n v).getD k 0 = BitVec.ofNat 8 (v / 256 ^ k) := by
  induction n generalizing v k with
  | zero => omega
  | succ n ih =>
    cases k with
    | zero => simp [toBytes]
    | succ k =>
      rw [toBytes, List.getD_cons_succ, ih _ (by omega), Nat.div_div_eq_div_mul, pow_succ']

theorem length_toBytes (n v : Nat) : (toBytes n v).length = n := by
  induction n generalizing v with
  | zero => rfl
  | succ n ih => rw [toBytes, List.length_cons, ih]

theorem byteOf_ofBytes (l : List Byte) (k : Nat) : byteOf (ofBytes l) k = (l.getD k 0).toNat := by
  unfold byteOf
  induction l generalizing k with
  | nil => simp [ofBytes]
  | cons b l ih =>
    have small : b.toNat < 256 := b.isLt
    cases k with
    | zero =>
      rw [ofBytes, List.getD_cons_zero, pow_zero, Nat.div_one]
      omega
    | succ k =>
      rw [ofBytes, List.getD_cons_succ, ← ih, pow_succ', ← Nat.div_div_eq_div_mul]
      congr 2
      omega

theorem testBit_setBits (v lo n x i : Nat) :
    (setBits v lo n x).testBit i = if lo ≤ i ∧ i < lo + n then x.testBit (i - lo) else v.testBit i := by
  have low : v % 2 ^ lo < 2 ^ lo := Nat.mod_lt _ (by positivity)
  have mid : 2 ^ lo * (x % 2 ^ n) + v % 2 ^ lo < 2 ^ (lo + n) := by
    have := Nat.mod_lt x (show 0 < 2 ^ n by positivity)
    calc 2 ^ lo * (x % 2 ^ n) + v % 2 ^ lo < 2 ^ lo * (x % 2 ^ n) + 2 ^ lo := by omega
      _ = 2 ^ lo * (x % 2 ^ n + 1) := by ring
      _ ≤ 2 ^ lo * 2 ^ n := Nat.mul_le_mul_left _ this
      _ = 2 ^ (lo + n) := (pow_add 2 lo n).symm
  have parts : setBits v lo n x = 2 ^ (lo + n) * (v / 2 ^ (lo + n)) + (2 ^ lo * (x % 2 ^ n) + v % 2 ^ lo) := by
    rw [setBits]
    ring
  rw [parts, Nat.testBit_two_pow_mul_add _ mid, Nat.testBit_two_pow_mul_add _ low]
  by_cases above : i < lo + n
  · by_cases below : i < lo
    · rw [if_pos above, if_pos below, if_neg (by omega), Nat.testBit_mod_two_pow]
      simp [below]
    · rw [if_pos above, if_neg below, if_pos ⟨by omega, above⟩, Nat.testBit_mod_two_pow]
      simp only [Bool.and_eq_right_iff_imp, decide_eq_true_eq]
      intro
      omega
  · rw [if_neg above, if_neg (by omega), Nat.testBit_div_two_pow]
    congr 1
    omega

theorem testBit_byteOf (v k i : Nat) : (byteOf v k).testBit i = (decide (i < 8) && v.testBit (8 * k + i)) := by
  rw [byteOf, show 256 = 2 ^ 8 from rfl, ← pow_mul, Nat.testBit_mod_two_pow, Nat.testBit_div_two_pow, Nat.add_comm]

/-- Bytes put into a number: those, and the others that it had. -/
theorem byteOf_setBits (v a n x k : Nat) :
    byteOf (setBits v (8 * a) (8 * n) x) k = if a ≤ k ∧ k < a + n then byteOf x (k - a) else byteOf v k := by
  refine Nat.eq_of_testBit_eq fun i => ?_
  rw [testBit_byteOf, testBit_setBits]
  by_cases small : i < 8
  · by_cases here : a ≤ k ∧ k < a + n
    · rw [if_pos here, if_pos (by omega), testBit_byteOf]
      congr 2
      omega
    · rw [if_neg here, if_neg (by omega), testBit_byteOf]
  · have high (u j : Nat) : (byteOf u j).testBit i = false := by rw [testBit_byteOf, decide_eq_false small, Bool.false_and]
    rw [decide_eq_false small, Bool.false_and]
    split <;> exact (high _ _).symm

/-- A data section put into an operand's bytes. -/
def Operand.put (o : Operand) (v : Nat) (d : Nat × List Byte) : Nat :=
  setBits v (8 * (d.1 - o.va)) (8 * d.2.length) (leAt d.2 0 d.2.length)

/-- Whether a data section gives an address its byte. -/
def gives (a : Nat) (d : Nat × List Byte) : Bool := decide (d.1 ≤ a ∧ a < d.1 + d.2.length)

theorem leAt_all (l : List Byte) : leAt l 0 l.length = ofBytes l := by
  simp [leAt, sliceBytes]

theorem byteOf_put {o : Operand} {d : Nat × List Byte} (holds : o.holds d = true) (v k : Nat) : byteOf (o.put v d) k =
    if gives (o.va + k) d then (d.2.getD (o.va + k - d.1) 0).toNat else byteOf v k := by
  simp only [Operand.holds, Bool.and_eq_true, decide_eq_true_eq] at holds
  rw [Operand.put, byteOf_setBits, leAt_all, byteOf_ofBytes]
  have same : (d.1 - o.va ≤ k ∧ k < d.1 - o.va + d.2.length) ↔ gives (o.va + k) d = true := by
    simp only [gives, decide_eq_true_eq]
    omega
  have offset : k - (d.1 - o.va) = o.va + k - d.1 := by omega
  rw [if_congr same rfl rfl, offset]

/-- Sections that lie apart give each address at most one byte. -/
theorem byteOf_puts (o : Operand) (k : Nat) (l : List (Nat × List Byte)) : ∀ v, (∀ d ∈ l, o.holds d = true) →
    l.Pairwise (fun d e => d.1 + d.2.length ≤ e.1 ∨ e.1 + e.2.length ≤ d.1) →
    byteOf (l.foldl o.put v) k = match l.find? (gives (o.va + k)) with
      | some d => (d.2.getD (o.va + k - d.1) 0).toNat
      | none => byteOf v k := by
  induction l with
  | nil => exact fun _ _ _ => rfl
  | cons d l ih =>
    intro v holds apart
    obtain ⟨first, rest⟩ := List.pairwise_cons.mp apart
    rw [List.foldl_cons, ih _ (fun e he => holds e (List.mem_cons_of_mem _ he)) rest]
    by_cases here : gives (o.va + k) d = true
    · have none : l.find? (gives (o.va + k)) = none := List.find?_eq_none.mpr fun e he there => by
        have := first e he
        simp only [gives, decide_eq_true_eq] at here there
        omega
      rw [none, List.find?_cons_of_pos here]
      simp only [byteOf_put (holds d List.mem_cons_self), here, if_true]
    · rw [List.find?_cons_of_neg here]
      simp only [byteOf_put (holds d List.mem_cons_self), here]
      rfl

theorem filled_bytes {o : Operand} {l : List (Nat × List Byte)} (holds : ∀ d ∈ l, o.holds d = true)
    (apart : l.Pairwise fun d e => d.1 + d.2.length ≤ e.1 ∨ e.1 + e.2.length ≤ d.1) {k : Nat} (h : k < o.size) :
    (o.filled l).getD k 0 = match l.find? (gives (o.va + k)) with
      | some d => d.2.getD (o.va + k - d.1) 0
      | none => 0 := by
  have byte := byteOf_puts o k l 0 holds apart
  rw [show o.filled l = toBytes o.size (l.foldl o.put 0) from rfl, getD_toBytes _ h]
  refine BitVec.eq_of_toNat_eq ?_
  rw [BitVec.toNat_ofNat]
  refine Eq.trans byte ?_
  split
  · rfl
  · simp [byteOf]

/-! ### Aging (01 R28) -/

/-- A node that has waited one more aging interval. -/
def Node.aged (interval : Nat) (n : Node) : Node :=
  { n with cls := n.cls - 1, waits := n.waits + 1, agedAt := n.agedAt + interval }

theorem exec_aging {s : State} {n : Node} (find : s.node? s.arg.id = some n) : exec .agingIntervalExpiry s =
    if agingDue s n then .next (s.updNode n.id (Node.aged s.granary.aging)) else .next s := by
  rw [exec_agingIntervalExpiry, execAgingIntervalExpiry, find]
  rfl

theorem agingDue_iff (s : State) (n : Node) : agingDue s n = true ↔
    inReadySet s n = true ∧ s.granary.aging ≠ 0 ∧ n.agedAt + s.granary.aging ≤ s.time := by
  simp [agingDue, and_assoc]

end Sys2Proof.Machine
end

section
/-! SUPPORT. The device's writes (10 R255, R260): what a write of global memory can change, and the bytes that it leaves. -/
open Sys2Proof Sys2Proof.Machine Sys2Proof.Claim

namespace Sys2Proof.Machine

/-! ### What a write of global memory can change -/

/-- What homes hold, with what a write wakes or marks beside them. -/
structure Works where
  homes : Homes
  clocks : Clocks
  poison : List Nat
  armed : List Armed
  cmds : List Cmd

/-- The state with other homes, stamps, poison and commands. -/
def State.setWorks (s : State) (w : Works) : State :=
  { s.setHomes w.homes with clocks := w.clocks, poison := w.poison, armed := w.armed, cmds := w.cmds }

/-- t differs from s by writes of global memory alone. -/
def Writes (s t : State) : Prop := ∃ w, t = s.setWorks w

theorem Serves.writes {s t : State} (h : Serves s t) : Writes s t := by
  obtain ⟨h, rfl, -⟩ := h
  exact ⟨⟨h, s.clocks, s.poison, s.armed, s.cmds⟩, rfl⟩

theorem Writes.refl (s : State) : Writes s s := (Serves.refl s).writes

theorem Writes.trans {s t u : State} (a : Writes s t) (b : Writes t u) : Writes s u := by
  obtain ⟨v, rfl⟩ := a
  obtain ⟨w, rfl⟩ := b
  exact ⟨w, rfl⟩

theorem writes_foldl {α : Type} {f : State → α → State} (step : ∀ s x, Writes s (f s x)) (l : List α) (s : State) :
    Writes s (l.foldl f s) := by
  induction l generalizing s with
  | nil => exact Writes.refl s
  | cons x l ih => exact (step s x).trans (ih (f s x))

/-- Other bytes, other granules in L2, other stamps, poison and commands. -/
theorem writes_set (s : State) (m : Memory) (d n : List Nat) (h : Memory) (k : Clocks) (p : List Nat) (a : List Armed)
    (c : List Cmd) : Writes s { s with
      mem := m, hbmDirty := d, hbmNew := n, hbmHost := h, clocks := k, poison := p, armed := a, cmds := c } :=
  ⟨⟨⟨m, d, n, h, s.tlb, s.walkCache, s.freeIx⟩, k, p, a, c⟩, rfl⟩

theorem writes_settleHbm (s : State) (g : Nat) : Writes s (settleHbm s g) := by
  unfold settleHbm
  exact writes_set s _ _ _ _ _ _ _ _

/-- L2 takes a granule: HBM may take others, and no byte of a home changes. -/
theorem holdDirty_writes (s : State) (g : Nat) : Writes s (holdDirty s g) ∧ (holdDirty s g).mem = s.mem ∧
    (s.hbmNew = [] → (holdDirty s g).hbmNew = []) := by
  have list (t : State) (d : List Nat) : Writes t { t with hbmDirty := d } := writes_set t _ _ _ _ _ _ _ _
  unfold holdDirty
  dsimp only
  split
  · exact ⟨list s _, rfl, id⟩
  · refine ⟨((serves_free s 32).writes.trans (writes_settleHbm _ _)).trans (list _ _), rfl, fun quiet => ?_⟩
    show s.hbmNew.filter _ = []
    rw [quiet]
    rfl

/-- The first half of a write at the home: the granule is served, and L2 takes it. -/
def takenByL2 (s : State) (g : Nat) : State :=
  let s := serve s g
  if paKind s (g * 64) = .hbm ∧ !s.hbmDirty.contains g ∧ !s.hbmNew.contains g then
    holdDirty { s with hbmHost := s.hbmHost.setBytes (g * 64) (granuleBytes s g) } g
  else if s.hbmNew.contains g ∧ !s.hbmDirty.contains g then holdDirty s g
  else s

/-- The second half: the bytes, the stamp of the granule, its poison and the commands that wait for it. -/
def writtenAt (s : State) (g : Nat) (stamp : List (BitVec 16)) (w : List (Nat × Byte)) : State :=
  fireArmed (clearPoison { s with
    mem := s.mem.setAll w
    clocks := { s.clocks with
      stamps := (g, vcMax (((s.clocks.stamps.find? fun p => p.1 == g).map fun p => p.2).getD []) stamp) ::
        s.clocks.stamps.filter fun p => p.1 != g } } false g w.length) g

theorem writeHome_eq (s : State) (g : Nat) (stamp : List (BitVec 16)) (w : List (Nat × Byte)) :
    writeHome s g stamp w = writtenAt (takenByL2 s g) g stamp w := rfl

theorem takenByL2_writes (s : State) (g : Nat) : Writes s (takenByL2 s g) := by
  have host (t : State) (m : Memory) : Writes t { t with hbmHost := m } := writes_set t _ _ _ _ _ _ _ _
  have served := (serves_serve s g).writes
  unfold takenByL2
  dsimp only
  split
  · exact served.trans ((host _ _).trans (holdDirty_writes _ g).1)
  · split
    · exact served.trans (holdDirty_writes _ g).1
    · exact served

theorem takenByL2_quiet {s : State} (quiet : s.hbmNew = []) (g : Nat) :
    (takenByL2 s g).mem = s.mem ∧ (takenByL2 s g).hbmNew = [] := by
  unfold takenByL2
  rw [serve_quiet quiet]
  dsimp only
  split
  · exact ⟨(holdDirty_writes _ g).2.1, (holdDirty_writes _ g).2.2 quiet⟩
  · split
    · exact ⟨(holdDirty_writes s g).2.1, (holdDirty_writes s g).2.2 quiet⟩
    · exact ⟨rfl, quiet⟩

theorem clearPoison_eq (s : State) (sp : Bool) (g n : Nat) : ∃ p, clearPoison s sp g n = { s with poison := p } := by
  unfold clearPoison
  split <;> exact ⟨_, rfl⟩

theorem writtenAt_eq (s : State) (g : Nat) (stamp : List (BitVec 16)) (w : List (Nat × Byte)) : ∃ k p a c,
    writtenAt s g stamp w = { s with mem := s.mem.setAll w, clocks := k, poison := p, armed := a, cmds := c } := by
  unfold writtenAt
  rw [(clearPoison_eq _ false g w.length).choose_spec]
  exact ⟨_, _, _, _, rfl⟩

theorem writes_writeHome (s : State) (g : Nat) (stamp : List (BitVec 16)) (w : List (Nat × Byte)) :
    Writes s (writeHome s g stamp w) := by
  obtain ⟨k, p, a, c, e⟩ := writtenAt_eq (takenByL2 s g) g stamp w
  rw [writeHome_eq, e]
  exact (takenByL2_writes s g).trans (writes_set _ _ _ _ _ _ _ _ _)

theorem writes_writeGlobal (s : State) (stamp : List (BitVec 16)) (w : List (Nat × Byte)) :
    Writes s (writeGlobal s stamp w) :=
  writes_foldl (fun s g => writes_writeHome s g stamp _) _ s

theorem writes_devStore (s : State) (asid root : Word) (va : Nat) (d : List Byte) (n : Need) :
    Writes s (devStore s asid root va d n) := by
  have moved := (serves_xlateAll (devXl asid root) n (byteRange va d.length) none s).writes
  unfold devStore
  split
  next h => rwa [h] at moved
  next h =>
    rw [h] at moved
    exact moved.trans (writes_writeGlobal _ _ _)

/-! ### The bytes that a write leaves -/

theorem writeHome_quiet {s : State} (quiet : s.hbmNew = []) (g : Nat) (stamp : List (BitVec 16)) (w : List (Nat × Byte)) :
    (writeHome s g stamp w).mem = s.mem.setAll w ∧ (writeHome s g stamp w).hbmNew = [] := by
  obtain ⟨k, p, a, c, e⟩ := writtenAt_eq (takenByL2 s g) g stamp w
  obtain ⟨mem, new⟩ := takenByL2_quiet quiet g
  rw [writeHome_eq, e]
  exact ⟨congrArg (fun m => Memory.setAll m w) mem, new⟩

/-- A byte written once reads back. -/
theorem memory_get_setAll_in {m : Memory} {x : Nat} {b : Byte} (l : List (Nat × Byte)) (wf : m.wf = true)
    (once : (l.map Prod.fst).Nodup) (h : (x, b) ∈ l) : (m.setAll l).get x = b := by
  induction l generalizing m with
  | nil => exact absurd h List.not_mem_nil
  | cons c l ih =>
    obtain ⟨fresh, once⟩ := List.nodup_cons.mp once
    rw [Memory.setAll]
    rcases List.mem_cons.mp h with rfl | h
    · rw [memory_get_setAll_out l (memory_wf_set _ _ wf) (fun c hc e => fresh (List.mem_map.mpr ⟨c, hc, e⟩)),
        memory_get_set x b wf]
    · exact ih (memory_wf_set _ _ wf) once h

section
variable {w : List (Nat × Byte)} (stamp : List (BitVec 16)) {x : Nat}

/-- The writes of one granule. -/
def ofGranule (w : List (Nat × Byte)) (g : Nat) : List (Nat × Byte) := w.filter fun p => granule p.1 == g

theorem writeGranules_out {gs : List Nat} (untouched : ∀ c ∈ w, granule c.1 ∈ gs → c.1 ≠ x) : ∀ s : State, s.hbmNew = [] →
    s.mem.wf = true → (gs.foldl (fun s g => writeHome s g stamp (ofGranule w g)) s).mem.get x = s.mem.get x := by
  induction gs with
  | nil => exact fun _ _ _ => rfl
  | cons g gs ih =>
    intro s quiet wf
    obtain ⟨mem, quiet'⟩ := writeHome_quiet quiet g stamp (ofGranule w g)
    have rest := ih (fun c hc h => untouched c hc (List.mem_cons_of_mem _ h)) _ quiet'
      (by rw [mem]; exact memory_wf_setAll _ wf)
    rw [List.foldl_cons, rest, mem]
    refine memory_get_setAll_out (ofGranule w g) wf fun c hc => ?_
    obtain ⟨hc, here⟩ := List.mem_filter.mp hc
    exact untouched c hc (List.mem_cons.mpr (.inl (by simpa using here)))

theorem writeGranules_in {b : Byte} (once : (w.map Prod.fst).Nodup) (h : (x, b) ∈ w) (gs : List Nat) : ∀ s : State,
    s.hbmNew = [] → s.mem.wf = true → granule x ∈ gs →
    (gs.foldl (fun s g => writeHome s g stamp (ofGranule w g)) s).mem.get x = b := by
  induction gs with
  | nil => exact fun _ _ _ h => absurd h List.not_mem_nil
  | cons g gs ih =>
    intro s quiet wf mem_gs
    obtain ⟨mem, quiet'⟩ := writeHome_quiet quiet g stamp (ofGranule w g)
    have wf' : (writeHome s g stamp (ofGranule w g)).mem.wf = true := by rw [mem]; exact memory_wf_setAll _ wf
    rw [List.foldl_cons]
    by_cases later : granule x ∈ gs
    · exact ih _ quiet' wf' later
    · obtain rfl : granule x = g := (List.mem_cons.mp mem_gs).resolve_right later
      rw [writeGranules_out stamp (x := x) (fun c _ h e => later (by rwa [e] at h)) _ quiet' wf', mem]
      exact memory_get_setAll_in _ wf (once.sublist (List.filter_sublist.map _)) (List.mem_filter.mpr ⟨h, by simp⟩)

theorem writeGlobal_eq (s : State) : writeGlobal s stamp w =
    (w.map fun p => granule p.1).dedup.foldl (fun s g => writeHome s g stamp (ofGranule w g)) s := rfl

theorem writeGlobal_out {s : State} (quiet : s.hbmNew = []) (wf : s.mem.wf = true) (untouched : ∀ c ∈ w, c.1 ≠ x) :
    (writeGlobal s stamp w).mem.get x = s.mem.get x := by
  rw [writeGlobal_eq]
  exact writeGranules_out stamp (fun c hc _ => untouched c hc) s quiet wf

theorem writeGlobal_in {s : State} (quiet : s.hbmNew = []) (wf : s.mem.wf = true) {b : Byte} (once : (w.map Prod.fst).Nodup)
    (h : (x, b) ∈ w) : (writeGlobal s stamp w).mem.get x = b := by
  rw [writeGlobal_eq, writeGranules_in stamp once h _ s quiet wf
    (List.mem_dedup.mpr (List.mem_map.mpr ⟨(x, b), h, rfl⟩))]

end

/-- Bytes written from an address on. -/
theorem wrote_writeGlobal {s : State} (quiet : s.hbmNew = []) (wf : s.mem.wf = true) (stamp : List (BitVec 16)) (pa : Nat)
    (d : List Byte) : wrote s (writeGlobal s stamp (((List.range d.length).map (pa + ·)).zip d)) pa d := by
  have fst : (((List.range d.length).map (pa + ·)).zip d).map Prod.fst = (List.range d.length).map (pa + ·) :=
    List.map_fst_zip (by simp)
  intro x
  show (writeGlobal s stamp _).mem.get x = if _ then _ else s.mem.get x
  by_cases here : pa ≤ x ∧ x < pa + d.length
  · rw [if_pos here]
    have lt : x - pa < d.length := by omega
    refine writeGlobal_in stamp quiet wf ?_ ?_
    · rw [fst]
      exact List.nodup_range.map fun a b h => Nat.add_left_cancel h
    · refine List.mem_iff_getElem.mpr ⟨x - pa, by simpa using lt, ?_⟩
      rw [List.getElem_zip, List.getElem_map, List.getElem_range, List.getD_eq_getElem _ _ lt]
      congr 1
      omega
  · rw [if_neg here]
    refine writeGlobal_out stamp quiet wf fun c hc e => here ?_
    have := List.mem_map_of_mem (f := Prod.fst) hc
    rw [fst, List.mem_map] at this
    obtain ⟨i, hi, eq⟩ := this
    rw [List.mem_range] at hi
    omega

/-! ### The device's write at a virtual address -/

/-- Where nothing translates nothing is written; else the translation stands and the bytes are written. -/
theorem devStore_ok {s s1 : State} {asid root : Word} {va : Nat} {d : List Byte} {n : Need} {l : List Pa}
    (h : xlateAll (devXl asid root) n (byteRange va d.length) none s = (.ok l, s1)) :
    devStore s asid root va d n = writeGlobal s1 [] ((l.map fun p => p.pa).zip d) := by
  rw [devStore, h]

theorem memOk_wf {s : State} (h : s.memOk = true) : s.mem.wf = true := by
  simp only [State.memOk, Bool.and_eq_true] at h
  exact h.1.1

/-- A write of the device at addresses that translate to one run of bytes. -/
theorem wrote_devStore {s s1 : State} {asid root : Word} {va pa : Nat} {d : List Byte} {n : Need} {l : List Pa}
    (wf : s.mem.wf = true) (quiet : s.hbmNew = [])
    (h : xlateAll (devXl asid root) n (byteRange va d.length) none s = (.ok l, s1))
    (cells : l.map Pa.pa = (List.range d.length).map (pa + ·)) : wrote s (devStore s asid root va d n) pa d := by
  have serves := serves_xlateAll (devXl asid root) n (byteRange va d.length) none s
  rw [h] at serves
  have mem : s1.mem = s.mem := (serves.sameTables quiet).1
  have w := wrote_writeGlobal (s := s1) (serves.quiet quiet) (mem ▸ wf) [] pa d
  rw [devStore_ok h, show (l.map fun p => p.pa) = _ from cells]
  intro x
  refine (w x).trans ?_
  rw [show s1.byteAt x = s.byteAt x from congrArg (fun m => Memory.get m x) mem]

end Sys2Proof.Machine
end

section
/-! SUPPORT. The drain of a killed gang (17 R379, R380): whatever of its commands and accesses is done in part, the granary and
the time stand, and no access enters flight. -/
open Sys2Proof Sys2Proof.Machine Sys2Proof.Claim

namespace Sys2Proof.Machine

/-- The granary and the time stand, and every access in flight was in flight before, under its number and issuer. -/
def Kept (s t : State) : Prop :=
  t.granary = s.granary ∧ t.time = s.time ∧ ∀ f ∈ t.flights, ∃ g ∈ s.flights, g.id = f.id ∧ g.who = f.who

theorem kept_of_flights {s t : State} (granary : t.granary = s.granary) (time : t.time = s.time)
    (flights : t.flights = s.flights) : Kept s t :=
  ⟨granary, time, fun f h => ⟨f, flights ▸ h, rfl, rfl⟩⟩

theorem Kept.refl (s : State) : Kept s s := kept_of_flights rfl rfl rfl

theorem Kept.trans {s t u : State} (a : Kept s t) (b : Kept t u) : Kept s u := by
  obtain ⟨granary, time, flights⟩ := a
  obtain ⟨granary', time', flights'⟩ := b
  refine ⟨granary'.trans granary, time'.trans time, fun f hf => ?_⟩
  obtain ⟨g, hg, id, who⟩ := flights' f hf
  obtain ⟨h, hh, id', who'⟩ := flights g hg
  exact ⟨h, hh, id'.trans id, who'.trans who⟩

theorem kept_foldl {α : Type} {f : State → α → State} (step : ∀ s x, Kept s (f s x)) (l : List α) (s : State) :
    Kept s (l.foldl f s) := by
  induction l generalizing s with
  | nil => exact Kept.refl s
  | cons x l ih => exact (step s x).trans (ih (f s x))

theorem Writes.kept {s t : State} (h : Writes s t) : Kept s t := by
  obtain ⟨w, rfl⟩ := h
  exact kept_of_flights rfl rfl rfl

theorem Serves.kept {s t : State} (h : Serves s t) : Kept s t := h.writes.kept

/-- Accesses in flight that change keep their numbers and issuers. -/
theorem kept_map {s t : State} {f : Access → Access} (granary : t.granary = s.granary) (time : t.time = s.time)
    (flights : t.flights = s.flights.map f) (same : ∀ a, (f a).id = a.id ∧ (f a).who = a.who) : Kept s t := by
  refine ⟨granary, time, fun a ha => ?_⟩
  rw [flights, List.mem_map] at ha
  obtain ⟨b, hb, rfl⟩ := ha
  exact ⟨b, hb, (same b).1.symm, (same b).2.symm⟩

theorem kept_updCtx (s : State) (w : CtxId) (f : Ctx → Ctx) : Kept s (s.updCtx w f) := kept_of_flights (by simp) (by simp) (by simp)

/-! ### Parts of an access -/

theorem kept_refreshL1 (s : State) (w : CtxId) (g : Nat) : Kept s (refreshL1 s w g) := by
  unfold refreshL1
  split <;> exact kept_of_flights rfl rfl rfl

theorem kept_fillL1 (s : State) (p : Bool × Nat) (g : Nat) (d : List Byte) (v : List (BitVec 16)) : Kept s (fillL1 s p g d v) :=
  (serves_boundBy _ _ _ s).kept.trans (kept_of_flights rfl rfl rfl)

theorem kept_acquire (s : State) (c : Ctx) (scope : Nat) (v : List (BitVec 16)) : Kept s (acquire s c scope v) := by
  obtain ⟨l, drop⟩ := dropL1_eq s c scope
  have dropped : Kept s (dropL1 s c scope) := by
    rw [drop]
    exact kept_of_flights rfl rfl rfl
  unfold acquire
  dsimp only
  split
  · exact dropped.trans (kept_of_flights rfl rfl rfl)
  · split
    · exact dropped.trans (kept_updCtx _ _ _)
    · exact dropped

theorem kept_raiseStamps (s : State) (w : CtxId) (p : Nat → Nat → Bool) (v : List (BitVec 16)) :
    Kept s (raiseStamps s w p v) := by
  refine kept_map rfl rfl rfl fun a => ?_
  split <;> exact ⟨rfl, rfl⟩

theorem kept_noteRead (s : State) (w : CtxId) (v : List (BitVec 16)) : Kept s (noteRead s w v) := kept_updCtx _ _ _

theorem kept_noteReadBy (s : State) (w : CtxId) (b i : Nat) (v : List (BitVec 16)) : Kept s (noteReadBy s w b i v) := by
  refine (kept_noteRead s w v).trans (kept_map rfl rfl rfl fun a => ?_)
  split <;> exact ⟨rfl, rfl⟩

theorem kept_raiseRemote (s : State) (g : Nat) (fl : Flags) : Kept s (raiseRemote s g fl) := by
  unfold raiseRemote
  split
  · exact Kept.refl s
  · exact kept_of_flights rfl rfl rfl

theorem kept_applyAtom (s : State) (w : CtxId) (v : List (BitVec 16)) (pa : Nat) (a : Atom) : Kept s (applyAtom s w v pa a).2 :=
  ((serves_serve s (granule pa)).kept.trans (writes_writeHome _ _ _ _).kept).trans
    ((kept_noteRead _ _ _).trans ((kept_refreshL1 _ _ _).trans (kept_raiseRemote _ _ _)))

theorem kept_completeToken (s : State) (w : CtxId) (q : QReg) (n : Nat) (st : TokStatus) : Kept s (completeToken s w q n st) :=
  kept_of_flights (completeToken_granary s w q n st) (completeToken_time s w q n st) (completeToken_flights s w q n st)

/-- A reset of a counter cancels what is armed on it. -/
theorem kept_cancelArmed (s : State) (pa : Nat) (reset : Bool) : Kept s (if reset then
    (s.armed.filter fun k => k.counter == pa).foldl
      (fun s k => (completeToken s k.cmd.who k.cmd.q k.cmd.gen .cancelled).updCtx k.cmd.who fun c => { c with occ := c.occ - 1 })
      { s with armed := s.armed.filter fun k => k.counter != pa }
    else s) := by
  split
  · refine Kept.trans (t := { s with armed := s.armed.filter fun k => k.counter != pa }) (kept_of_flights rfl rfl rfl)
      (kept_foldl (fun t k => ?_) _ _)
    exact (kept_completeToken t _ _ _ _).trans (kept_updCtx _ _ _)
  · exact Kept.refl s

theorem kept_trigAt (s : State) (v : List (BitVec 16)) (pa : Nat) (reset : Bool) (x : BitVec 32) :
    Kept s (trigAt s v pa reset x) :=
  (serves_serve s (granule pa)).kept.trans ((kept_cancelArmed _ pa reset).trans (writes_writeHome _ _ _ _).kept)

theorem kept_settleInvl (s : State) (g : Nat) : Kept s (settleInvl s g) := by
  have settled (t : State) : Kept t (settleHbm t g) := (writes_settleHbm t g).kept
  have host (t : State) : Kept t (takeHostBytes t g) := by
    unfold takeHostBytes
    exact ((writes_set t _ _ _ _ _ _ _ _).trans (writes_settleHbm _ g)).kept
  unfold settleInvl
  split
  · split
    · dsimp only
      split
      · exact (serves_free s 1).kept.trans (host _)
      · exact (serves_free s 1).kept.trans (settled _)
    · exact host s
  · split
    · exact settled s
    · exact Kept.refl s

theorem kept_loadGranule (s : State) (c : Ctx) (g : Nat) : Kept s (loadGranule s c g).2 := by
  have served := (serves_serve s g).kept
  unfold loadGranule
  dsimp only
  split
  · exact served.trans (kept_fillL1 _ _ _ _ _)
  · split
    · exact served
    · split
      · exact served.trans (serves_free _ 1).kept
      · exact (served.trans (serves_free _ 1).kept).trans (kept_fillL1 _ _ _ _ _)

/-- What an acquire notes of what it has read. -/
theorem kept_acquired (s : State) (a : Access) (g : Nat) (c : Ctx) (scope : Nat) (v : List (BitVec 16)) :
    Kept s (acquire (refreshL1 (noteReadBy s a.who a.bundle a.id v) a.who g) c scope v) :=
  (kept_noteReadBy s a.who a.bundle a.id v).trans ((kept_refreshL1 _ a.who g).trans (kept_acquire _ c scope v))

theorem kept_performGranule (s : State) (a : Access) (g : Nat) : Kept s (performGranule s a g).2 := by
  have poison (t : State) (b : Bool) (n : Nat) : Kept t (clearPoison t b g n) := by
    obtain ⟨p, h⟩ := clearPoison_eq t b g n
    rw [h]
    exact kept_of_flights rfl rfl rfl
  unfold performGranule
  dsimp only
  split
  · split
    · exact Kept.refl s
    · split
      · exact Kept.refl s
      · split
        · split
          · exact (serves_serve s g).kept.trans ((kept_acquired _ a g _ _ _).trans (kept_raiseStamps _ _ _ _))
          · exact (serves_serve s g).kept.trans (kept_acquired _ a g _ _ _)
        · exact (kept_loadGranule _ _ _).trans (kept_noteReadBy _ _ _ _ _)
  · split
    · exact Kept.trans (kept_of_flights rfl rfl rfl) (poison _ _ _)
    · split
      · exact (writes_writeHome _ _ _ _).kept.trans (kept_of_flights rfl rfl rfl)
      · exact (writes_writeHome _ _ _ _).kept
  · split
    · exact Kept.refl s
    · exact (kept_noteReadBy _ _ _ _ _).trans (kept_applyAtom _ _ _ _ _)
  · exact (serves_serve s g).kept.trans ((writes_writeHome _ _ _ _).kept.trans (kept_refreshL1 _ _ _))
  · split
    · exact Kept.refl s
    · exact (kept_trigAt _ _ _ _ _).trans (kept_refreshL1 _ _ _)
  · split
    · exact kept_of_flights rfl rfl rfl
    · exact Kept.refl s
  · split
    · exact (kept_settleInvl s g).trans (kept_of_flights rfl rfl rfl)
    · exact kept_settleInvl s g

/-- An access of a killed gang is performed in part and leaves flight. -/
theorem loseAccess_eq (s : State) (a : Access) : ∃ t, Kept s t ∧ loseAccess s a = dropFlight t a.id := by
  refine ⟨_, kept_foldl (fun t g => ?_) a.todo s, rfl⟩
  split
  · dsimp only
    split
    · exact (serves_free t 1).kept.trans (kept_performGranule _ a g)
    · exact (serves_free t 1).kept
  · exact Kept.refl t

theorem kept_dropFlight (s : State) (i : Nat) : Kept s (dropFlight s i) :=
  ⟨rfl, rfl, fun f h => ⟨f, (List.mem_filter.mp h).1, rfl, rfl⟩⟩

theorem kept_loseAccess (s : State) (a : Access) : Kept s (loseAccess s a) := by
  obtain ⟨t, kept, e⟩ := loseAccess_eq s a
  rw [e]
  exact kept.trans (kept_dropFlight t a.id)

/-- What has left flight stays out of it. -/
theorem Kept.absent {s t : State} (h : Kept s t) {i : Nat} (gone : ∀ f ∈ s.flights, f.id ≠ i) : ∀ f ∈ t.flights, f.id ≠ i := by
  intro f hf e
  obtain ⟨g, hg, id, -⟩ := h.2.2 f hf
  exact gone g hg (id.trans e)

/-- Accesses that are lost, one after another, are out of flight. -/
theorem loseAll_absent (l : List Access) : ∀ (s : State), ∀ a ∈ l, ∀ f ∈ (l.foldl loseAccess s).flights, f.id ≠ a.id := by
  induction l with
  | nil => exact fun _ _ h => absurd h List.not_mem_nil
  | cons b l ih =>
    intro s a ha
    rcases List.mem_cons.mp ha with rfl | ha
    · refine (kept_foldl kept_loseAccess l (loseAccess s a)).absent fun f hf => ?_
      obtain ⟨t, -, e⟩ := loseAccess_eq s a
      rw [e] at hf
      simpa using (List.mem_filter.mp hf).2
    · exact ih _ a ha

/-! ### Parts of a command -/

theorem kept_freeSubset {α : Type} (l : List α) : ∀ s : State, Kept s (freeSubset l s).2 := by
  induction l with
  | nil => exact fun s => Kept.refl s
  | cons x l ih => exact fun s => (serves_free s 1).kept.trans (ih _)

theorem kept_freeOrder {α : Type} (n : Nat) : ∀ (l : List α) (s : State), Kept s (freeOrder n l s).2 := by
  induction n with
  | zero => exact fun _ s => Kept.refl s
  | succ n ih =>
    intro l s
    unfold freeOrder
    split
    · exact Kept.refl s
    · dsimp only
      split
      · exact (serves_free s 32).kept
      · exact (serves_free s 32).kept.trans (ih _ _)

theorem kept_chaseUnits (before : State) (sp : Bool) (l : List (List (Pa × Pa))) : ∀ done (s : State),
    Kept s (chaseUnits before sp l done s).2 := by
  induction l with
  | nil => exact fun _ s => Kept.refl s
  | cons u l ih =>
    intro done s
    unfold chaseUnits
    dsimp only
    split
    · exact (serves_free s 32).kept.trans (ih _ _)
    · exact ih _ _

theorem kept_moveBytes (before : State) (ssp dsp ordered : Bool) (ms : List Move) (s : State) :
    Kept s (moveBytes before ssp dsp ordered ms s).2 := by
  unfold moveBytes
  dsimp only
  split
  · exact Kept.refl s
  · split
    · exact kept_chaseUnits _ _ _ _ _
    · exact (kept_freeOrder _ _ s).trans (kept_chaseUnits _ _ _ _ _)

theorem kept_putBytes (s : State) (sp : Bool) (w : List (Nat × Byte)) : Kept s (putBytes s sp w) := by
  unfold putBytes
  split
  · exact kept_of_flights rfl rfl rfl
  · exact (writes_writeGlobal s [] w).kept

theorem kept_moveTaint (s : State) (g : Nat) (ssp dsp : Bool) (ps : List (Pa × Pa)) : Kept s (moveTaint s g ssp dsp ps) := by
  have written (t : State) (l : List (Nat × Nat)) : Kept t (noteWritten t g l) := by
    unfold noteWritten
    split <;> exact kept_of_flights rfl rfl rfl
  unfold moveTaint
  split
  · exact Kept.refl s
  · dsimp only
    split
    · exact kept_of_flights rfl rfl rfl
    · exact Kept.trans (kept_of_flights rfl rfl rfl) (written _ _)

theorem kept_addPoison (s : State) (sp : Bool) (l : List Nat) : Kept s (addPoison s sp l) := by
  unfold addPoison
  split <;> exact kept_of_flights rfl rfl rfl

theorem kept_makeMoves (s : State) (k : Cmd) (ssp dsp ordered : Bool) (ms : List Move) :
    Kept s (makeMoves s k ssp dsp ordered ms freeSubset) :=
  (serves_serveAll s ssp _).kept.trans ((kept_moveBytes _ ssp dsp ordered ms _).trans ((kept_freeSubset _ _).trans
    ((kept_putBytes _ dsp _).trans ((kept_moveTaint _ _ ssp dsp _).trans (kept_addPoison _ dsp _)))))

theorem serves_sideCells (s : State) (k : Cmd) (sp : Bool) (n : Need) (a len : Nat) : Serves s (sideCells s k sp n a len).2 := by
  unfold sideCells
  split
  · split <;> exact Serves.refl s
  · exact serves_xlateAll _ _ _ _ _

theorem serves_rowBytes (k : Cmd) (ssp dsp : Bool) (sa da : Nat) (l : List Nat) : ∀ s : State,
    Serves s (rowBytes k ssp dsp sa da l s).2 := by
  induction l with
  | nil => exact fun s => Serves.refl s
  | cons i l ih =>
    intro s
    have both := (serves_sideCells s k ssp .read ((sa + i) % 2 ^ 64) 1).trans
      ((serves_sideCells _ k dsp .write ((da + i) % 2 ^ 64) 1).trans (ih _))
    unfold rowBytes
    dsimp only
    split <;> exact both

theorem serves_reachable (k : Cmd) (ssp dsp : Bool) (rows : List (Nat × Nat × Nat)) (s : State) :
    Serves s (reachable k ssp dsp rows s).2 := by
  unfold reachable
  generalize ([] : List Move) = done
  induction rows generalizing done s with
  | nil => exact Serves.refl s
  | cons r rows ih => exact (serves_rowBytes k ssp dsp r.1 r.2.1 (List.range r.2.2) s).trans (ih _ _)

theorem serves_readIndex (s : State) (k : Cmd) (b : GatherBlock) (e : Nat) : Serves s (readIndex s k b e).2 := by
  have side := serves_sideCells s k b.isp .read ((b.index + e * (if b.wide then 8 else 4)) % 2 ^ 64) (if b.wide then 8 else 4)
  unfold readIndex
  dsimp only
  split
  · exact side
  · exact side.trans (serves_serveAll _ _ _)

theorem serves_elemRows (k : Cmd) (b : GatherBlock) (l : List Nat) : ∀ s : State, Serves s (elemRows k b l s).2 := by
  induction l with
  | nil => exact fun s => Serves.refl s
  | cons e l ih =>
    intro s
    have both := (serves_readIndex s k b e).trans (ih _)
    unfold elemRows
    dsimp only
    split <;> exact both

theorem serves_elemReachable (k : Cmd) (b : GatherBlock) (l : List Nat) (s : State) :
    Serves s (elemReachable k b l s).2 :=
  (serves_elemRows k b l s).trans (serves_reachable k b.ssp b.dsp _ _)

theorem serves_fillFree (n : Nat) (l : List Byte) (s : State) : Serves s (fillFree n l s).2 := by
  unfold fillFree
  split
  · exact Serves.refl s
  · exact serves_free s (8 * (n - l.length))

theorem serves_allShards (k : Cmd) (size : Nat) (l : List (Nat × Nat)) : ∀ remote (s : State),
    Serves s (allShards s k size remote l).2 := by
  induction l with
  | nil => exact fun _ s => Serves.refl s
  | cons p l ih =>
    intro remote s
    unfold allShards
    exact (serves_fillFree _ _ s).trans (ih _ _)

/-- A fold with a state beside what it gathers. -/
theorem kept_gather {α β : Type} (state : β → State) {f : β → α → β} (step : ∀ acc x, Kept (state acc) (state (f acc x)))
    (l : List α) : ∀ acc : β, Kept (state acc) (state (l.foldl f acc)) := by
  induction l with
  | nil => exact fun acc => Kept.refl (state acc)
  | cons x l ih => exact fun acc => (step acc x).trans (ih _)

theorem kept_reshardResult (b : List Byte) (detl x : Nat) (shards : List (List Byte)) (s : State) :
    Kept s (reshardResult b detl x shards s).2.2 := by
  unfold reshardResult
  dsimp only
  refine kept_gather (fun acc : List Byte × Flags × State => acc.2.2) (fun acc e => ?_) _ ([], 0, s)
  dsimp only
  split
  · exact kept_freeOrder _ _ _
  · exact Kept.refl _

/-- The bytes of a destination shard whose addresses translate, one by one. -/
theorem serves_reached (x : Xl) (l : List (Nat × Byte)) (s : State) :
    Serves s (l.foldr (fun p (acc : List (Nat × Byte) × State) => match xlate acc.2 x .write p.1 with
      | (.ok y, s) => ((y.pa, p.2) :: acc.1, s)
      | (.error _, s) => (acc.1, s)) ([], s)).2 := by
  induction l with
  | nil => exact Serves.refl s
  | cons p l ih =>
    rw [List.foldr_cons]
    refine ih.trans ?_
    generalize l.foldr _ ([], s) = acc
    have one := serves_xlate acc.2 x .write p.1
    split
    next h => rwa [h] at one
    next h => rwa [h] at one

theorem kept_reshardWrites (s : State) (k : Cmd) (b : ReshardBlock) (remote : List Byte) :
    Kept s (reshardWrites s k b remote).2.2.2 := by
  have start := (serves_allShards k (shardBytes b.bytes 0x20) b.ranks remote s).kept.trans
    (kept_reshardResult b.bytes k.detl (leAt b.bytes 6 2) (allShards s k (shardBytes b.bytes 0x20) remote b.ranks).1 _)
  unfold reshardWrites
  dsimp only
  generalize reshardResult b.bytes k.detl (leAt b.bytes 6 2) (allShards s k (shardBytes b.bytes 0x20) remote b.ranks).1
    (allShards s k (shardBytes b.bytes 0x20) remote b.ranks).2 = r at start ⊢
  have moved := start.trans (serves_xlateAll k.xl .write (byteRange (leAt b.bytes 0x38 8) r.1.length) none r.2.2).kept
  split
  · exact moved
  · exact moved.trans (serves_reached k.xl _ _).kept

/-- A running command of a killed gang stops with a part of its bytes written. -/
theorem kept_stopCmd (s : State) (k : Cmd) : Kept s (stopCmd s k) := by
  unfold stopCmd
  split
  · exact (serves_reachable k _ _ _ s).kept.trans (kept_makeMoves _ k _ _ _ _)
  · exact (serves_elemReachable k _ _ s).kept.trans (kept_makeMoves _ k _ _ _ _)
  · split
    · exact Kept.refl s
    · exact (kept_reshardWrites s k _ []).trans ((kept_freeSubset _ _).trans (kept_putBytes _ false _))
  · exact Kept.refl s

theorem kept_loseRows (s : State) (t : TileFlight) : Kept s (loseRows s t) := by
  unfold loseRows
  split
  · exact (kept_freeSubset _ s).trans (kept_putBytes _ _ _)
  · exact Kept.refl s

/-! ### The drain -/

/-- The state with the commands of a gang stopped. -/
def withStopped (s : State) (g : Nat) : State :=
  { (s.cmds.filter fun k => k.who.gang == g).foldl stopCmd s with
    cmds := ((s.cmds.filter fun k => k.who.gang == g).foldl stopCmd s).cmds.filter fun k => k.who.gang != g }

/-- The state with the accesses of a gang lost. -/
def withLost (s : State) (g : Nat) : State := (s.flights.filter fun f => f.who.gang == g).foldl loseAccess s

theorem drainKilled_eq (s : State) (g : Nat) : drainKilled s g =
    ((withLost (withStopped s g) g).tileOps.filter fun t => t.who.gang == g).foldl loseRows (withLost (withStopped s g) g) := rfl

theorem kept_withStopped (s : State) (g : Nat) : Kept s (withStopped s g) :=
  (kept_foldl kept_stopCmd _ s).trans (kept_of_flights rfl rfl rfl)

theorem withLost_kept (s : State) (g : Nat) : Kept s (withLost s g) ∧ ∀ f ∈ (withLost s g).flights, f.who.gang ≠ g := by
  have lost : Kept s (withLost s g) := kept_foldl kept_loseAccess _ s
  refine ⟨lost, fun a ha own => ?_⟩
  obtain ⟨b, hb, id, who⟩ := lost.2.2 a ha
  have mine : b ∈ s.flights.filter fun f => f.who.gang == g := List.mem_filter.mpr ⟨hb, by simp [who, own]⟩
  exact loseAll_absent _ s b mine a ha id.symm

/-- The drain of a killed gang keeps the granary and the time, and none of the gang's accesses stays in flight. -/
theorem drainKilled_kept (s : State) (g : Nat) : Kept s (drainKilled s g) ∧ ∀ f ∈ (drainKilled s g).flights, f.who.gang ≠ g := by
  obtain ⟨lost, gone⟩ := withLost_kept (withStopped s g) g
  have rows := kept_foldl kept_loseRows ((withLost (withStopped s g) g).tileOps.filter fun t => t.who.gang == g)
    (withLost (withStopped s g) g)
  rw [drainKilled_eq]
  refine ⟨(kept_withStopped s g).trans (lost.trans rows), fun f hf own => ?_⟩
  obtain ⟨a, ha, -, who⟩ := rows.2.2 f hf
  exact gone a ha (by rw [who, own])

end Sys2Proof.Machine
end

section
/-! SUPPORT. The end of a node (01 R27, 16 R353 to R357, 17 R380): completion entries are put behind those of their queue, a gang
releases what it owns, and the completion record is written. -/
open Sys2Proof Sys2Proof.Machine Sys2Proof.Claim

namespace Sys2Proof.Machine

/-! ### Queues by number -/

theorem find?_putQueue_same (x : Queue) (l : List Queue) : (putQueue x l).find? (fun y => y.id == x.id) = some x := by
  induction l with
  | nil => simp [putQueue]
  | cons y l ih =>
    unfold putQueue
    split
    · simp
    · split
      · simp
      next other => rw [List.find?_cons_of_neg (by simpa using fun h => other h.symm), ih]

theorem find?_putQueue_other {q : Nat} {x : Queue} (other : x.id ≠ q) (l : List Queue) :
    (putQueue x l).find? (fun y => y.id == q) = l.find? fun y => y.id == q := by
  induction l with
  | nil => simp [putQueue, other]
  | cons y l ih =>
    unfold putQueue
    split
    · rw [List.find?_cons_of_neg (by simpa using other)]
    · split
      next same =>
        rw [List.find?_cons_of_neg (by simpa using other), List.find?_cons_of_neg (by simpa [← same] using other)]
      next => rw [List.find?_cons, List.find?_cons, ih]

theorem queue_id (s : State) (q : Nat) : (s.queue q).id = q := by
  unfold State.queue
  cases h : s.granary.queues.find? (fun x => x.id == q) with
  | none => rfl
  | some x => simpa using List.find?_some h

theorem queue_updQueue_same {s : State} {q : Nat} {f : Queue → Queue} (id : (f (s.queue q)).id = q) :
    (s.updQueue q f).queue q = f (s.queue q) := by
  have found := find?_putQueue_same (f (s.queue q)) s.granary.queues
  rw [id] at found
  show ((putQueue (f (s.queue q)) s.granary.queues).find? fun x => x.id == q).getD _ = _
  rw [found]
  rfl

theorem queue_updQueue_other {s : State} {q r : Nat} {f : Queue → Queue} (id : (f (s.queue q)).id = q) (other : q ≠ r) :
    (s.updQueue q f).queue r = s.queue r := by
  show ((putQueue (f (s.queue q)) s.granary.queues).find? fun x => x.id == r).getD _ = _
  rw [find?_putQueue_other (q := r) (by rw [id]; exact other)]
  rfl

/-! ### What the end of a node can change -/

/-- Every queue keeps its completion entries, and may gain others behind them. -/
def Appends (s t : State) : Prop := ∀ q, ∃ more, (t.queue q).events = (s.queue q).events ++ more

/-- t differs from s by the granary, and by writes of global memory; completion entries stay in order. -/
def Concludes (s t : State) : Prop := (∃ w gr, t = { s.setWorks w with granary := gr }) ∧ Appends s t

theorem appends_of_queues {s t : State} (h : t.granary.queues = s.granary.queues) : Appends s t := by
  intro q
  refine ⟨[], ?_⟩
  rw [State.queue, h, List.append_nil]
  rfl

theorem Concludes.trans {s t u : State} (a : Concludes s t) (b : Concludes t u) : Concludes s u := by
  obtain ⟨⟨v, gr, rfl⟩, first⟩ := a
  obtain ⟨⟨w, gr', rfl⟩, second⟩ := b
  refine ⟨⟨w, gr', rfl⟩, fun q => ?_⟩
  obtain ⟨m, hm⟩ := first q
  obtain ⟨m', hm'⟩ := second q
  exact ⟨m ++ m', by rw [hm', hm, List.append_assoc]⟩

theorem Writes.concludes {s t : State} (h : Writes s t) : Concludes s t := by
  obtain ⟨w, rfl⟩ := h
  exact ⟨⟨w, s.granary, rfl⟩, appends_of_queues rfl⟩

theorem Concludes.keeps {s t : State} (h : Concludes s t) : t.gangs = s.gangs ∧ t.links = s.links ∧ t.flights = s.flights := by
  obtain ⟨⟨w, gr, rfl⟩, -⟩ := h
  exact ⟨rfl, rfl, rfl⟩

theorem Concludes.refl (s : State) : Concludes s s := (Writes.refl s).concludes

theorem concludes_granary (s : State) (gr : Granary) (h : gr.queues = s.granary.queues) :
    Concludes s { s with granary := gr } := by
  obtain ⟨w, e⟩ := Writes.refl s
  exact ⟨⟨w, gr, by rw [← e]⟩, appends_of_queues h⟩

/-- A completion entry stands behind those of its queue. -/
theorem postEntry_events (s : State) (q : Nat) (e : List Byte) : ((postEntry s q e).queue q).events = (s.queue q).events ++ [e] := by
  unfold postEntry
  rw [queue_updQueue_same (queue_id s q)]

theorem concludes_postEntry (s : State) (q : Nat) (e : List Byte) : Concludes s (postEntry s q e) := by
  obtain ⟨w, h⟩ := Writes.refl s
  refine ⟨⟨w, _, by rw [← h]; rfl⟩, fun r => ?_⟩
  by_cases same : q = r
  · exact ⟨[e], same ▸ postEntry_events s q e⟩
  · refine ⟨[], ?_⟩
    unfold postEntry
    rw [queue_updQueue_other (queue_id s q) same, List.append_nil]

theorem concludes_updNode (s : State) (i : Nat) (f : Node → Node) : Concludes s (s.updNode i f) := concludes_granary s _ rfl

/-- The completion record of a node is written where it has one. -/
def recorded (s : State) (n : Node) (status : Nat) (p : Report) : State :=
  if n.crec = 0 then s else devStore s n.asid n.ptbase n.crec (recordBytes status p s.time)

/-- The KIND-1 entry of a node. -/
def endEntry (s : State) (n : Node) (status : Nat) : List Byte := entryBytes 1 status n.index n.tag 0 s.time

/-- The KIND-1 entry of a node is posted where it has CMP. -/
def announced (s : State) (n : Node) (status : Nat) : State :=
  if n.cmp then postEntry s n.queue (endEntry s n status) else s

theorem endNode_eq (s : State) (n : Node) (status : Nat) (p : Report) : endNode s n status p =
    (announced (recorded s n status p) n status).updNode n.id fun n => { n with state := .finished status } := rfl

theorem writes_recorded (s : State) (n : Node) (status : Nat) (p : Report) : Writes s (recorded s n status p) := by
  unfold recorded
  split
  · exact Writes.refl s
  · exact writes_devStore s _ _ _ _ _

theorem concludes_announced (s : State) (n : Node) (status : Nat) : Concludes s (announced s n status) := by
  unfold announced
  split
  · exact concludes_postEntry s _ _
  · exact Concludes.refl s

theorem concludes_endNode (s : State) (n : Node) (status : Nat) (p : Report) : Concludes s (endNode s n status p) := by
  rw [endNode_eq]
  exact (writes_recorded s n status p).concludes.trans ((concludes_announced _ n status).trans (concludes_updNode _ _ _))

theorem concludes_skipFrom (k : Nat) : ∀ l (s : State), Concludes s (skipFrom k l s) := by
  induction k with
  | zero => exact fun _ s => Concludes.refl s
  | succ k ih =>
    intro l s
    cases l with
    | nil => exact Concludes.refl s
    | cons i l =>
      unfold skipFrom
      split
      · exact ih _ _
      · split
        · exact ih _ _
        · exact (concludes_endNode s _ _ _).trans (ih _ _)

/-- The end of a packet posts an entry and forgets nodes: no byte of memory changes. -/
theorem endPacket_concludes (s : State) (q p : Nat) : Concludes s (endPacket s q p) ∧ (endPacket s q p).mem = s.mem := by
  have free : Concludes s (s.free 24).2 := (serves_free s 24).writes.concludes
  unfold endPacket
  dsimp only
  split
  · exact ⟨Concludes.refl s, rfl⟩
  · split
    · exact ⟨Concludes.refl s, rfl⟩
    · split
      · exact ⟨(free.trans (concludes_postEntry _ q _)).trans (concludes_granary _ _ rfl), rfl⟩
      · exact ⟨concludes_granary s _ rfl, rfl⟩

/-- What follows the end of a node itself: its successors count it or are skipped, and its packet may end. -/
def followed (s : State) (n : Node) (status : Nat) : State :=
  endPacket (if status = 0 then
      { s with granary := { s.granary with
          nodes := s.granary.nodes.map fun m => if n.succs.contains m.id then satisfied s.time n.id m else m } }
    else skipFrom (skipBound s) n.succs s) n.queue n.packet

theorem finishNode_eq (s : State) (n : Node) (status : Nat) (p : Report) :
    finishNode s n status p = followed (endNode s n status p) n status := rfl

theorem concludes_followed (s : State) (n : Node) (status : Nat) : Concludes s (followed s n status) := by
  unfold followed
  refine Concludes.trans ?_ (endPacket_concludes _ _ _).1
  split
  · exact concludes_granary s _ rfl
  · exact concludes_skipFrom _ _ s

theorem followed_mem (s : State) (n : Node) : (followed s n 0).mem = s.mem := by
  unfold followed
  rw [(endPacket_concludes _ _ _).2, if_pos rfl]

/-- The KIND-1 entry of a node is the first that its end posts. -/
theorem finishNode_posts (s : State) (n : Node) (status : Nat) (p : Report) : posts s (finishNode s n status p) n status := by
  intro cmp
  have before : (recorded s n status p).queue n.queue = s.queue n.queue ∧ (recorded s n status p).time = s.time := by
    obtain ⟨w, e⟩ := writes_recorded s n status p
    rw [e]
    exact ⟨rfl, rfl⟩
  obtain ⟨more, e⟩ := (concludes_followed (endNode s n status p) n status).2 n.queue
  refine ⟨more, ?_⟩
  rw [finishNode_eq, e, endNode_eq]
  have entry : (announced (recorded s n status p) n status).queue n.queue =
      (postEntry (recorded s n status p) n.queue (endEntry (recorded s n status p) n status)).queue n.queue := by
    rw [announced, if_pos cmp]
  have events : (((announced (recorded s n status p) n status).updNode n.id fun n => { n with state := .finished status }).queue
      n.queue).events = (s.queue n.queue).events ++ [entryBytes 1 status n.index n.tag 0 s.time] := by
    refine Eq.trans (congrArg Queue.events entry) ?_
    rw [postEntry_events, before.1, endEntry, before.2]
  rw [events, List.append_assoc]
  rfl

theorem concludes_finishNode (s : State) (n : Node) (status : Nat) (p : Report) : Concludes s (finishNode s n status p) := by
  rw [finishNode_eq]
  exact (concludes_endNode s n status p).trans (concludes_followed _ n status)

/-- A node that ends with status 0 changes no byte but its completion record's. -/
theorem finishNode_mem (s : State) (n : Node) (p : Report) : (finishNode s n 0 p).mem = (recorded s n 0 p).mem := by
  rw [finishNode_eq, followed_mem, endNode_eq]
  unfold announced
  split <;> rfl

/-! ### The end of a gang -/

/-- A gang's end is its release and its node's end. -/
theorem concludeGang_eq {s : State} {g : Gang} {n : Node} (find : s.node? g.node = some n) (status : Nat) :
    concludeGang s g status = finishNode (releaseGang s g.id) n status (reportOf s g) := by
  have same : (releaseGang s g.id).node? g.node = some n := find
  unfold concludeGang
  dsimp only
  rw [same]

/-- Where a gang has ended, neither it nor a link of it is left, and what was in flight is. -/
theorem concludeGang_leaves {s : State} {g : Gang} {n : Node} (find : s.node? g.node = some n) (status : Nat) :
    (∀ x ∈ (concludeGang s g status).gangs, x.id ≠ g.id) ∧ (∀ l ∈ (concludeGang s g status).links, l.gang ≠ g.id) ∧
      (concludeGang s g status).flights = s.flights ∧ posts s (concludeGang s g status) n status := by
  rw [concludeGang_eq find]
  have report := finishNode_posts (releaseGang s g.id) n status (reportOf s g)
  obtain ⟨gangs, links, flights⟩ := (concludes_finishNode (releaseGang s g.id) n status (reportOf s g)).keeps
  refine ⟨?_, ?_, flights, report⟩
  · rw [gangs]
    intro x hx
    simpa using (List.mem_filter.mp hx).2
  · rw [links]
    intro l hl
    simpa using (List.mem_filter.mp hl).2

/-! ### NODE_COMPLETE -/

theorem gang?_updGang {s : State} {i : Nat} {f : Gang → Gang} (id : ∀ g, (f g).id = g.id) :
    (s.updGang i f).gang? i = (s.gang? i).map f :=
  find?_updateFirst (fun g h => by rw [id]; exact h) _

theorem gang?_id {s : State} {i : Nat} {g : Gang} (h : s.gang? i = some g) : g.id = i := by
  simpa using List.find?_some h

section
variable {s : State} {g : Gang} (find : s.gang? s.arg.gang = some g)
include find

theorem exec_nodeComplete_killed {k : Nat} (run : g.run = .killing k) :
    Acts .nodeComplete s (concludeGang (drainKilled s g.id) g k) := by
  rw [Acts, exec_nodeComplete, execNodeComplete, find]
  simp only [run]

theorem exec_nodeComplete_early (run : g.run = .running) (early : ended s g = false) : Acts .nodeComplete s s := by
  rw [Acts, exec_nodeComplete, execNodeComplete, find]
  simp [run, early]

theorem exec_nodeComplete_press (run : g.run = .running) (past : ended s g = true) (final : g.final = false)
    (press : pressBusy s g.id = true) : Acts .nodeComplete s (finalWindow s g.id) := by
  rw [Acts, exec_nodeComplete, execNodeComplete, find]
  simp [run, past, final, press]

theorem exec_nodeComplete_done (run : g.run = .running) (past : ended s g = true) (press : pressBusy s g.id = false)
    (windows : g.windows = []) (once : g.detl ≠ 3) : Acts .nodeComplete s (concludeGang s g 0) := by
  have settled : settled s g = true := by simp [settled, windows, press, once]
  rw [Acts, exec_nodeComplete, execNodeComplete, find]
  simp [run, past, press, settled, once]

end

theorem ended_iff {s : State} {g : Gang} (run : g.run = .running) :
    ended s g = true ↔ g.exited.length = g.n ∧ tokensDone s g.id = true := by
  simp [ended, run, Gang.exitsDone]

theorem length_recordBytes (status : Nat) (p : Report) (time : Nat) : (recordBytes status p time).length = 32 := by
  simp [recordBytes, length_toBytes]

/-- What holds translations, and bytes, is not among what a gang releases. -/
theorem releaseGang_homes (s : State) (g : Nat) : SameTables s (releaseGang s g) ∧ (releaseGang s g).hbmNew = s.hbmNew ∧
    (releaseGang s g).walkCache = s.walkCache ∧ (releaseGang s g).time = s.time := by
  unfold releaseGang leaveArrays freeSave SameTables
  exact ⟨⟨rfl, rfl, rfl, rfl⟩, rfl, rfl, rfl⟩

/-- A device's translation under an empty walk cache answers the same where the tables are the same. -/
theorem devXl_same {s t s1 : State} {asid root : Word} {n : Need} {vas : List Nat} {l : List Pa} (tables : SameTables s t)
    (quiet : s.hbmNew = []) (quiet' : t.hbmNew = []) (plain : Coherent s (devXl asid root)) (plain' : Coherent t (devXl asid root))
    (h : xlateAll (devXl asid root) n vas none s = (.ok l, s1)) :
    ∃ t1, xlateAll (devXl asid root) n vas none t = (.ok l, t1) := by
  have same := (xlateAll_same (x := devXl asid root) rfl n vas none s t tables ⟨quiet, plain⟩ ⟨quiet', plain'⟩).1
  rw [h] at same
  exact ⟨(xlateAll (devXl asid root) n vas none t).2, Prod.ext same rfl⟩

theorem wrote_mem {s r t u : State} {pa : Nat} {d : List Byte} (h : wrote r u pa d) (before : r.mem = s.mem)
    (after : t.mem = u.mem) : wrote s t pa d := by
  intro x
  have e := h x
  unfold State.byteAt at e ⊢
  rw [after, e, before]

/-- The completion record of an ended gang, where its address translates to one run of bytes. -/
theorem wrote_record {s s1 : State} {g : Gang} {n : Node} {l : List Pa} {pa : Nat} (find : s.node? g.node = some n)
    (crec : n.crec ≠ 0) (ok : s.memOk = true) (quiet : s.hbmNew = []) (empty : s.walkCache = [])
    (h : xlateAll (devXl n.asid n.ptbase) .write (byteRange n.crec 32) none s = (.ok l, s1))
    (cells : l.map Pa.pa = (List.range 32).map (pa + ·)) :
    wrote s (concludeGang s g 0) pa (recordBytes 0 (reportOf s g) s.time) := by
  obtain ⟨tables, new, cache, time⟩ := releaseGang_homes s g.id
  have mem : (concludeGang s g 0).mem = (recorded (releaseGang s g.id) n 0 (reportOf s g)).mem := by
    rw [concludeGang_eq find, finishNode_mem]
  rw [recorded, if_neg crec, time] at mem
  generalize hd : recordBytes 0 (reportOf s g) s.time = d at mem ⊢
  have length : d.length = 32 := hd ▸ length_recordBytes 0 _ _
  rw [← length] at h cells
  generalize releaseGang s g.id = r at tables new cache mem
  obtain ⟨t1, there⟩ := devXl_same tables quiet (new.trans quiet) (coherent_of_empty _ empty)
    (coherent_of_empty _ (cache.trans empty)) h
  exact wrote_mem (wrote_devStore (tables.1 ▸ memOk_wf ok) (new.trans quiet) there cells) tables.1 mem

theorem posts_of_kept {s d t : State} {n : Node} {status : Nat} (kept : Kept s d) (h : posts d t n status) :
    posts s t n status := by
  intro cmp
  obtain ⟨more, e⟩ := h cmp
  refine ⟨more, ?_⟩
  rw [e, kept.2.1, show d.queue n.queue = s.queue n.queue by rw [State.queue, kept.1]; rfl]

end Sys2Proof.Machine

/-- NODE_COMPLETE, stage by stage. -/
theorem Sys2Proof.Claim.nodeCompletes (s : State) (g : Gang) (n : Node) (find : s.gang? s.arg.gang = some g)
    (node : s.node? g.node = some n) :
    (∀ k, g.run = .killing k → ∃ t, Acts .nodeComplete s t ∧ (∀ x ∈ t.gangs, x.id ≠ g.id) ∧
      (∀ l ∈ t.links, l.gang ≠ g.id) ∧ (∀ f ∈ t.flights, f.who.gang ≠ g.id) ∧ posts s t n k) ∧
    (g.run = .running → g.exited.length ≠ g.n ∨ tokensDone s g.id = false → Acts .nodeComplete s s) ∧
    (g.run = .running → g.exited.length = g.n → tokensDone s g.id = true →
      (pressBusy s g.id = true → g.final = false → ∃ t, Acts .nodeComplete s t ∧ sameBytes s t ∧ t.press = s.press ∧
        (t.gang? g.id).map Gang.windows = some (g.windows ++ [{ cuts := [], all := true }])) ∧
      (pressBusy s g.id = false → g.windows = [] → g.detl ≠ 3 → ∃ t, Acts .nodeComplete s t ∧
        (∀ x ∈ t.gangs, x.id ≠ g.id) ∧ (∀ l ∈ t.links, l.gang ≠ g.id) ∧ posts s t n 0 ∧
        (n.crec = 0 → t.mem = s.mem) ∧
        ∀ l s1 pa, n.crec ≠ 0 → s.memOk = true → s.hbmNew = [] → s.walkCache = [] →
          xlateAll (devXl n.asid n.ptbase) .write (byteRange n.crec 32) none s = (.ok l, s1) →
          l.map Pa.pa = (List.range 32).map (pa + ·) → pa + 32 ≤ 2 ^ 63 →
          wrote s t pa (recordBytes 0 (reportOf s g) s.time))) := by
  refine ⟨fun k run => ?_, fun run early => ?_, fun run exits tokens => ⟨fun press final => ?_, fun press windows once => ?_⟩⟩
  · obtain ⟨kept, gone⟩ := drainKilled_kept s g.id
    have node' : (drainKilled s g.id).node? g.node = some n := by
      rw [State.node?, kept.1]
      exact node
    obtain ⟨gangs, links, flights, post⟩ := concludeGang_leaves node' k
    exact ⟨_, exec_nodeComplete_killed find run, gangs, links, fun f hf => gone f (flights ▸ hf), posts_of_kept kept post⟩
  · refine exec_nodeComplete_early find run (Bool.eq_false_iff.mpr fun past => ?_)
    obtain ⟨exits, tokens⟩ := (ended_iff run).mp past
    rcases early with h | h
    · exact h exits
    · exact Bool.noConfusion (h.symm.trans tokens)
  · refine ⟨_, exec_nodeComplete_press find run ((ended_iff run).mpr ⟨exits, tokens⟩) final press, ⟨rfl, rfl⟩, rfl, ?_⟩
    have after : (finalWindow s g.id).gang? g.id = (s.gang? g.id).map fun x =>
        { x with windows := x.windows ++ [{ cuts := [], all := true }], final := true } := gang?_updGang fun _ => rfl
    rw [after, gang?_id find, find]
    rfl
  · obtain ⟨gangs, links, -, post⟩ := concludeGang_leaves node 0
    refine ⟨_, exec_nodeComplete_done find run ((ended_iff run).mpr ⟨exits, tokens⟩) press windows once, gangs, links, post,
      fun crec => ?_, fun l s1 pa crec ok quiet empty h cells _ => wrote_record node crec ok quiet empty h cells⟩
    rw [concludeGang_eq node, finishNode_mem, recorded, if_pos crec]
    rfl
end

section
/-! SUPPORT. The state at a gang's first bundle (01 R25, 15 R330): what each of its contexts starts with. -/
open Sys2Proof Sys2Proof.Machine Sys2Proof.Claim

namespace Sys2Proof.Machine

theorem entryRegs_get (r : NodeRec) (base stack : Nat) (k : Fin 64) : (entryRegs r base stack).get k =
    if 1 ≤ k.val ∧ k.val ≤ 8 then BitVec.ofNat 64 ((r.opers[k.val - 1]?).elim 0 fun o => o.va)
    else if k.val = 9 then BitVec.ofNat 64 base
    else if k.val = 10 then BitVec.ofNat 64 r.optab
    else if k.val = 30 then BitVec.ofNat 64 stack
    else 0 := by
  unfold entryRegs
  rw [Vector.get_eq_getElem, Vector.getElem_ofFn]

/-- The address of a handler as TVEC holds it fits in it. -/
theorem tvec_toNat (a : Nat) : (BitVec.ofNat 64 (a % 2 ^ 56 / 16 * 16)).toNat = a % 2 ^ 56 / 16 * 16 := by
  rw [BitVec.toNat_ofNat]
  refine Nat.mod_eq_of_lt ?_
  have := Nat.mod_lt a (show 0 < 2 ^ 56 by positivity)
  omega

/-- A context stands on the logical cluster of its seat. -/
theorem launchCtx_lc (s : State) (n : Node) (r : NodeRec) (m : ImageRec) (g total gix : Nat) (k : Seat) :
    (launchCtx s n r m g total gix k).lc = k.cl.lc := Nat.div_add_mod' k.cl.lc 8

/-- A context of a gang starts as its record and its image say. -/
theorem launchCtx_startsAs (s : State) (n : Node) (r : NodeRec) (m : ImageRec) {clusters : List GangCluster}
    (g total gix : Nat) {k : Seat} (place : k.cl ∈ clusters) :
    startsAs n r m clusters g total gix (launchCtx s n r m g total gix k) := by
  refine ⟨rfl, rfl, rfl, rfl, rfl, rfl, rfl, rfl, rfl, rfl, rfl, rfl, rfl, rfl, rfl, rfl, rfl, rfl, rfl, ?_, ?_, ?_, ?_, ?_, ?_⟩
  · intro q
    show ((Vector.replicate 32 ({} : Token)).get q).done = true
    rw [Vector.get_eq_getElem, Vector.getElem_replicate]
  · intro handled
    show (BitVec.ofNat 64 ((if r.handler = 0 then _ else r.text + 16 * (r.handler - 1)) % 2 ^ 56 / 16 * 16)).toNat = _
    rw [if_neg handled, tvec_toNat]
  · intro i
    show (Vector.ofFn fun i : Fin 8 => if k.core < 8 then ((r.tiles[i.val]?).elim 0 fun w => w.setWidth 64) else 0).get i =
      if k.core < 8 then _ else 0
    rw [Vector.get_eq_getElem, Vector.getElem_ofFn]
  · refine ⟨k.cl, place, (launchCtx_lc s n r m g total gix k).symm, ?_⟩
    exact entryRegs_get r _ _ 9
  · refine (entryRegs_get r _ _ 30).trans ?_
    show BitVec.ofNat 64 (if m.stack = 0 then 0 else _) = _
    split <;> rfl
  · intro i not9 not30
    refine (entryRegs_get r _ _ i).trans ?_
    rw [if_neg not9, if_neg not30]

/-- The contexts of a gang: one for each seat, in the order of the seats. -/
theorem startContexts_get {s : State} {n : Node} {r : NodeRec} {m : ImageRec} {g : Nat} {seats : List Seat} {i : Nat} {c : Ctx}
    (h : (startContexts s n r m g seats)[i]? = some c) :
    ∃ k ∈ seats, c = launchCtx s n r m g (startContexts s n r m g seats).length i k := by
  have total : (startContexts s n r m g seats).length = seats.length := List.length_mapIdx
  rw [startContexts, List.getElem?_mapIdx, Option.map_eq_some_iff] at h
  obtain ⟨k, hk, rfl⟩ := h
  exact ⟨k, List.mem_of_getElem? hk, by rw [total]⟩

theorem startContexts_startAs {s : State} {n : Node} {r : NodeRec} {m : ImageRec} {g : Nat} {seats : List Seat}
    {clusters : List GangCluster} (places : ∀ k ∈ seats, k.cl ∈ clusters) {i : Nat} {c : Ctx}
    (h : (startContexts s n r m g seats)[i]? = some c) :
    startsAs n r m clusters g (startContexts s n r m g seats).length i c := by
  obtain ⟨k, hk, e⟩ := startContexts_get h
  rw [e]
  exact launchCtx_startsAs s n r m g _ i (places k hk)

/-- The contexts of a gang stand in its seats. -/
theorem startContexts_seats (s : State) (n : Node) (r : NodeRec) (m : ImageRec) (g : Nat) (seats : List Seat) :
    (startContexts s n r m g seats).map (fun c => (c.lc, c.lcore, c.slotNo)) = seatKeys seats := by
  refine List.ext_getElem? fun i => ?_
  rw [startContexts, seatKeys, List.getElem?_map, List.getElem?_mapIdx, List.getElem?_map]
  cases seats[i]? with
  | none => rfl
  | some k => exact congrArg (fun x => some (x, k.core, k.slot)) (launchCtx_lc s n r m g _ i k)

/-! ### Seats -/

theorem mem_insertKey {α : Type} {p q : Nat × α} (l : List (Nat × α)) (h : q ∈ insertKey p l) : q ∈ p :: l := by
  induction l with
  | nil => exact h
  | cons y l ih =>
    unfold insertKey at h
    split at h
    · exact h
    · rcases List.mem_cons.mp h with rfl | h
      · exact List.mem_cons_of_mem _ List.mem_cons_self
      · exact List.cons_subset_cons p (List.subset_cons_self y l) (ih h)

theorem mem_sortKeys {α : Type} {q : Nat × α} (l : List (Nat × α)) (h : q ∈ sortKeys l) : q ∈ l := by
  induction l with
  | nil => exact h
  | cons p l ih =>
    rcases List.mem_cons.mp (mem_insertKey _ h) with rfl | h
    · exact List.mem_cons_self
    · exact List.mem_cons_of_mem _ (ih h)

theorem seatsOf_places {s : State} {r : NodeRec} {l : List GangCluster} : ∀ k ∈ seatsOf s r l, k.cl ∈ l := by
  intro k hk
  obtain ⟨p, hp, hk⟩ := List.mem_flatMap.mp hk
  obtain ⟨c, -, hk⟩ := List.mem_flatMap.mp hk
  obtain ⟨i, -, rfl⟩ := List.mem_map.mp hk
  obtain ⟨q, hq, rfl⟩ := List.mem_map.mp (mem_sortKeys _ hp)
  exact hq

theorem keptSeats_places {g : Gang} : ∀ k ∈ keptSeats g, k.cl ∈ g.clusters := by
  intro k hk
  obtain ⟨p, -, hk⟩ := List.mem_filterMap.mp hk
  obtain ⟨c, hc, rfl⟩ := Option.map_eq_some_iff.mp hk
  exact List.mem_of_find?_eq_some hc

/-- Seats that a gang has kept on its own clusters are the seats that it had. -/
theorem seatKeys_keptSeats {g : Gang} (own : ∀ p ∈ g.seats, ∃ k ∈ g.clusters, k.lc = p.1) : seatKeys (keptSeats g) = g.seats := by
  unfold keptSeats seatKeys
  generalize g.seats = l at own
  induction l with
  | nil => rfl
  | cons p l ih =>
    obtain ⟨k, hk, lc⟩ := own p List.mem_cons_self
    obtain ⟨c, hc⟩ := Option.isSome_iff_exists.mp (List.find?_isSome.mpr ⟨k, hk, by simpa using lc⟩ :
      (g.clusters.find? fun k => k.lc == p.1).isSome = true)
    have here : c.lc = p.1 := by simpa using List.find?_some hc
    rw [List.filterMap_cons, hc]
    simp only [Option.map_some, List.map_cons, here]
    rw [ih fun q hq => own q (List.mem_cons_of_mem _ hq)]

/-! ### The number and the arrays of a gang -/

theorem firstUnused_lt (used : List Nat) (k : Nat) : ∀ v, v < 65536 → firstUnused used k v < 65536 := by
  induction k with
  | zero => exact fun _ h => h
  | succ k ih =>
    intro v h
    unfold firstUnused
    split
    · exact ih _ (Nat.mod_lt _ (by omega))
    · exact h

theorem setArrays_eq (s : State) (g : Nat) (r : NodeRec) (l : List GangCluster) :
    ∃ a, setArrays s g r l = { s with arrays := a } := by
  have fold {α : Type} (f : State → α → State) (step : ∀ t x, ∃ a, f t x = { t with arrays := a }) (l : List α) :
      ∀ t, ∃ a, l.foldl f t = { t with arrays := a } := by
    induction l with
    | nil => exact fun t => ⟨t.arrays, rfl⟩
    | cons x l ih =>
      intro t
      obtain ⟨a, e⟩ := step t x
      obtain ⟨b, e'⟩ := ih (f t x)
      exact ⟨b, by rw [List.foldl_cons, e', e]⟩
  refine fold _ (fun t k => fold _ (fun u j => ?_) _ t) l s
  split <;> exact ⟨_, rfl⟩

end Sys2Proof.Machine
end

section
/-! SUPPORT. NODE_DISPATCH (01 R28, 15 R340, 16 R353, R354). -/
open Sys2Proof Sys2Proof.Machine Sys2Proof.Claim

namespace Sys2Proof.Machine

/-! ### The data sections of an image (15 R340) -/

/-- The sections that an operand holds. -/
def sectionsIn (m : ImageRec) (o : Operand) : List (Nat × List Byte) := m.data.filter o.holds

/-- An operand that holds sections is filled, another stands. -/
def fillOperand (n : Node) (m : ImageRec) (s : State) (o : Operand) : State :=
  match sectionsIn m o with
  | [] => s
  | l => devStore s n.asid n.ptbase o.va (o.filled l) .fill

theorem fillOperands_eq (s : State) (n : Node) (r : NodeRec) (m : ImageRec) :
    fillOperands s n r m = r.opers.foldl (fillOperand n m) s := rfl

theorem fillOperand_none {n : Node} {m : ImageRec} {o : Operand} (h : m.data.any o.holds = false) (s : State) :
    fillOperand n m s o = s := by
  have none : sectionsIn m o = [] := List.filter_eq_nil_iff.mpr fun d hd => by simpa using List.any_eq_false.mp h d hd
  rw [fillOperand, none]

theorem fillOperand_some {n : Node} {m : ImageRec} {o : Operand} (h : m.data.any o.holds = true) (s : State) :
    fillOperand n m s o = devStore s n.asid n.ptbase o.va (o.filled (sectionsIn m o)) .fill := by
  obtain ⟨d, hd, holds⟩ := List.any_eq_true.mp h
  unfold fillOperand
  split
  next none => exact absurd (List.mem_filter.mpr ⟨hd, holds⟩) (by rw [show m.data.filter o.holds = [] from none]; exact List.not_mem_nil)
  next => rfl

theorem writes_fillOperands (s : State) (n : Node) (r : NodeRec) (m : ImageRec) : Writes s (fillOperands s n r m) := by
  rw [fillOperands_eq]
  refine writes_foldl (fun t o => ?_) _ s
  by_cases h : m.data.any o.holds = true
  · rw [fillOperand_some h]
    exact writes_devStore _ _ _ _ _ _
  · rw [fillOperand_none (Bool.eq_false_iff.mpr h)]
    exact Writes.refl t

/-- Only the operands that hold sections count. -/
theorem fillOperands_filter (n : Node) (m : ImageRec) (l : List Operand) : ∀ s : State,
    l.foldl (fillOperand n m) s = (l.filter fun o => m.data.any o.holds).foldl (fillOperand n m) s := by
  induction l with
  | nil => exact fun _ => rfl
  | cons o l ih =>
    intro s
    by_cases h : m.data.any o.holds = true
    · rw [List.filter_cons, if_pos h, List.foldl_cons, List.foldl_cons, ih]
    · rw [List.filter_cons, if_neg h, List.foldl_cons, fillOperand_none (Bool.eq_false_iff.mpr h), ih]

theorem fillOperands_none {n : Node} {r : NodeRec} {m : ImageRec} (h : ∀ o ∈ r.opers, ∀ d ∈ m.data, o.holds d = false)
    (s : State) : fillOperands s n r m = s := by
  have none : (r.opers.filter fun o => m.data.any o.holds) = [] := List.filter_eq_nil_iff.mpr fun o ho => by
    simpa using h o ho
  rw [fillOperands_eq, fillOperands_filter, none]
  rfl

theorem fillOperands_one {n : Node} {r : NodeRec} {m : ImageRec} {o : Operand}
    (h : (r.opers.filter fun o => m.data.any o.holds) = [o]) (s : State) :
    fillOperands s n r m = devStore s n.asid n.ptbase o.va (o.filled (m.data.filter o.holds)) .fill := by
  have holds : o ∈ r.opers.filter fun o => m.data.any o.holds := h ▸ List.mem_cons_self
  rw [fillOperands_eq, fillOperands_filter, h, List.foldl_cons, List.foldl_nil, fillOperand_some (List.mem_filter.mp holds).2]
  rfl

theorem length_filled (o : Operand) (l : List (Nat × List Byte)) : (o.filled l).length = o.size := length_toBytes _ _

/-! ### The gang that a dispatch makes -/

/-- The number of the new gang: a free one that no gang has. -/
def newGangId (s : State) : Nat := firstUnused (usedGangs s) ((usedGangs s).length + 1) (s.free 16).1.toNat

/-- The state in which the seats of a new gang are found: its operands are filled, and its number is chosen. -/
def filledFor (s : State) (n : Node) (r : NodeRec) (m : ImageRec) : State := ((fillOperands s n r m).free 16).2

/-- The gang of a node below DETL DUAL as it starts. -/
def newGang (s : State) (n : Node) (r : NodeRec) (m : ImageRec) (pl : List (Nat × Nat)) : Gang :=
  let u := filledFor s n r m
  let seats := seatsOf u r (clustersOf r m.mask pl)
  { id := newGangId (fillOperands s n r m), node := n.id
    n := (startContexts u n r m (newGangId (fillOperands s n r m)) seats).length
    detl := n.level, nbv := r.nbv, fuse := r.fuse, clusters := clustersOf r m.mask pl, spill := r.spill, spillsz := r.spillsz
    asid := n.asid, ptbase := n.ptbase, opers := r.opers
    barriers := Vector.replicate 16
      { e := (startContexts u n r m (newGangId (fillOperands s n r m)) seats).length }
    startTime := u.time, shadow := [], seats := seatKeys seats }

/-- The contexts of a node below DETL DUAL as they start. -/
def newContexts (s : State) (n : Node) (r : NodeRec) (m : ImageRec) (pl : List (Nat × Nat)) : List Ctx :=
  let u := filledFor s n r m
  startContexts u n r m (newGangId (fillOperands s n r m)) (seatsOf u r (clustersOf r m.mask pl))

/-- A node that runs as a gang. -/
def Node.asGang (g time : Nat) (n : Node) : Node := { n with state := .running g, firstRun := n.firstRun.or (some time) }

/-- A dispatch below DETL DUAL: the gang, its links and its contexts join what was there. -/
theorem dispatchNode_eq {n : Node} (once : n.level ≠ 3) (s : State) (r : NodeRec) (m : ImageRec) (pl : List (Nat × Nat)) :
    ∃ a, dispatchNode s n r m pl = { filledFor s n r m with
        arrays := a
        granary := ((filledFor s n r m).updNode n.id
          (Node.asGang (newGangId (fillOperands s n r m)) (filledFor s n r m).time)).granary
        gangs := (filledFor s n r m).gangs ++ [newGang s n r m pl]
        links := (filledFor s n r m).links ++ startLinks r (newGangId (fillOperands s n r m)) pl
        others := (filledFor s n r m).others ++ newContexts s n r m pl } := by
  obtain ⟨a, arrays⟩ := setArrays_eq (filledFor s n r m) (newGangId (fillOperands s n r m)) r (clustersOf r m.mask pl)
  have joined : dispatchNode s n r m pl =
      let t := setArrays (filledFor s n r m) (newGangId (fillOperands s n r m)) r (clustersOf r m.mask pl)
      { t.updNode n.id (Node.asGang (newGangId (fillOperands s n r m)) t.time) with
        gangs := t.gangs ++ [{ newGang s n r m pl with startTime := t.time }]
        links := t.links ++ startLinks r (newGangId (fillOperands s n r m)) pl
        others := t.others ++ newContexts s n r m pl } := by
    unfold dispatchNode
    simp only [once, if_false]
    rfl
  refine ⟨a, joined.trans ?_⟩
  rw [arrays]
  rfl

theorem Writes.keeps {s t : State} (h : Writes s t) : t.gangs = s.gangs ∧ t.links = s.links ∧ t.others = s.others ∧
    t.granary = s.granary ∧ t.spad = s.spad := by
  obtain ⟨w, rfl⟩ := h
  exact ⟨rfl, rfl, rfl, rfl, rfl⟩

theorem writes_filledFor (s : State) (n : Node) (r : NodeRec) (m : ImageRec) : Writes s (filledFor s n r m) :=
  (writes_fillOperands s n r m).trans (serves_free _ 16).writes

theorem newGangId_lt (s : State) : newGangId s < 65536 := firstUnused_lt _ _ _ (s.free 16).1.isLt

theorem newGang_barriers (s : State) (n : Node) (r : NodeRec) (m : ImageRec) (pl : List (Nat × Nat)) (b : Fin 16) :
    (newGang s n r m pl).barriers.get b = { e := (newContexts s n r m pl).length } := by
  show (Vector.replicate 16 ({ e := (newContexts s n r m pl).length } : Barrier)).get b = _
  rw [Vector.get_eq_getElem, Vector.getElem_replicate]

theorem newGang_chains (s : State) (n : Node) (r : NodeRec) (m : ImageRec) (pl : List (Nat × Nat)) (k : Fin 32) :
    ((newGang s n r m pl).chains.get k).state = .idle := by
  show ((Vector.replicate 32 ({} : Chain)).get k).state = .idle
  rw [Vector.get_eq_getElem, Vector.getElem_replicate]

theorem startLinks_empty (r : NodeRec) (g : Nat) (pl : List (Nat × Nat)) :
    (startLinks r g pl).length = r.links.length + r.spares.length ∧
      ∀ l ∈ startLinks r g pl, l.gang = g ∧ l.state = .empty ∧ l.chain = none := by
  refine ⟨by simp [startLinks], fun l hl => ?_⟩
  rcases List.mem_append.mp hl with hl | hl
  all_goals
    obtain ⟨e, -, rfl⟩ := List.mem_map.mp hl
    exact ⟨rfl, rfl, rfl⟩

theorem dispatchNode_leaves {n : Node} (once : n.level ≠ 3) (s : State) (r : NodeRec) (m : ImageRec) (pl : List (Nat × Nat)) :
    (dispatchNode s n r m pl).gangs = s.gangs ++ [newGang s n r m pl] ∧
    (dispatchNode s n r m pl).links = s.links ++ startLinks r (newGangId (fillOperands s n r m)) pl ∧
    (dispatchNode s n r m pl).others = s.others ++ newContexts s n r m pl ∧
    (dispatchNode s n r m pl).spad = s.spad ∧ (dispatchNode s n r m pl).mem = (fillOperands s n r m).mem ∧
    (dispatchNode s n r m pl).node? n.id =
      (s.node? n.id).map (Node.asGang (newGangId (fillOperands s n r m)) (filledFor s n r m).time) := by
  obtain ⟨a, e⟩ := dispatchNode_eq once s r m pl
  obtain ⟨gangs, links, others, granary, spad⟩ := (writes_filledFor s n r m).keeps
  have node : (filledFor s n r m).node? n.id = s.node? n.id := by
    unfold State.node?
    rw [granary]
  have changed := node?_updNode (s := filledFor s n r m) (i := n.id)
    (f := Node.asGang (newGangId (fillOperands s n r m)) (filledFor s n r m).time) fun _ => rfl
  rw [node] at changed
  rw [e, ← changed, ← gangs, ← links, ← others, ← spad]
  exact ⟨rfl, rfl, rfl, rfl, rfl, rfl⟩

/-- A dispatch takes the next node where its gang has not run before. -/
theorem exec_nodeDispatch_next {s : State} {n : Node} {r : NodeRec} {m : ImageRec} {since : Nat} (next : nextNode s = some n)
    (ready : n.state = .ready since) (rec : n.rec? = some r) (image : imageOf s n.asid r.text = some m) :
    ∃ pl, Acts .nodeDispatch s (dispatchNode s n r m pl) := by
  obtain ⟨-, -, -, fits, -⟩ := nextNode_some next
  have mask : maskOf s n r = m.mask := by rw [maskOf, image]; rfl
  unfold nodeFits at fits
  simp only [ready, rec, mask, Bool.and_eq_true] at fits
  obtain ⟨pl, placed⟩ := Option.isSome_iff_exists.mp fits.1
  refine ⟨pl, ?_⟩
  rw [Acts, exec_nodeDispatch, execNodeDispatch, next]
  simp only [ready, rec, image, mask, placed]

end Sys2Proof.Machine

/-- NODE_DISPATCH: what joins the state, and what is written before. -/
theorem Sys2Proof.Claim.dispatchStartsGang (s : State) (n : Node) (r : NodeRec) (m : ImageRec) (since : Nat)
    (next : nextNode s = some n) (ready : n.state = .ready since) (rec : n.rec? = some r)
    (image : imageOf s n.asid r.text = some m) (once : n.level ≠ 3) :
    ∃ t g cs, Acts .nodeDispatch s t ∧ ((∀ o ∈ r.opers, ∀ d ∈ m.data, o.holds d = false) → sameBytes s t) ∧
      (∀ o l s1 pa, r.opers.filter (fun o => m.data.any o.holds) = [o] → s.memOk = true → s.hbmNew = [] →
        xlateAll (devXl n.asid n.ptbase) .fill (byteRange o.va o.size) none s = (.ok l, s1) →
        l.map Pa.pa = (List.range o.size).map (pa + ·) → pa + o.size ≤ 2 ^ 63 →
        wrote s t pa (o.filled (m.data.filter o.holds))) ∧
      g.seats = cs.map (fun c => (c.lc, c.lcore, c.slotNo)) ∧
      t.gangs = s.gangs ++ [g] ∧ t.others = s.others ++ cs ∧
      (t.node? n.id).map Node.state = some (.running g.id) ∧ g.id < 65536 ∧ g.node = n.id ∧ g.n = cs.length ∧
      g.detl = n.level ∧ g.nbv = r.nbv ∧ g.fuse = r.fuse ∧ g.rflags = 0 ∧ g.doneVal = 0 ∧ g.run = .running ∧
      (∀ b : Fin 16, (g.barriers.get b).phase = 0 ∧ (g.barriers.get b).e = cs.length ∧ (g.barriers.get b).arrivals = 0) ∧
      (∀ k : Fin 32, (g.chains.get k).state = .idle) ∧
      (∃ ls, t.links = s.links ++ ls ∧ ls.length = r.links.length + r.spares.length ∧
        ∀ l ∈ ls, l.gang = g.id ∧ l.state = .empty ∧ l.chain = none) ∧
      ∀ i c, cs[i]? = some c → startsAs n r m g.clusters g.id cs.length i c := by
  obtain ⟨pl, acts⟩ := exec_nodeDispatch_next next ready rec image
  obtain ⟨gangs, links, others, spad, mem, nodes⟩ := dispatchNode_leaves once s r m pl
  refine ⟨dispatchNode s n r m pl, newGang s n r m pl, newContexts s n r m pl, acts, fun empty => ?_,
    fun o l s1 pa one ok quiet h cells _ => ?_, ?_, gangs, others, ?_, newGangId_lt _, rfl, rfl, rfl, rfl, rfl, rfl, rfl, rfl,
    fun b => ?_, newGang_chains s n r m pl, ⟨startLinks r (newGangId (fillOperands s n r m)) pl, links, startLinks_empty _ _ _⟩,
    fun i c h => startContexts_startAs seatsOf_places h⟩
  · exact ⟨mem.trans (congrArg State.mem (fillOperands_none empty s)), spad⟩
  · have length := length_filled o (m.data.filter o.holds)
    rw [fillOperands_one one] at mem
    generalize o.filled (m.data.filter o.holds) = d at length mem ⊢
    rw [← length] at h cells
    exact wrote_mem (wrote_devStore (memOk_wf ok) quiet h cells) rfl mem
  · exact (startContexts_seats _ n r m _ _).symm
  · obtain ⟨-, here, -⟩ := nextNode_some next
    have some : (s.node? n.id).isSome = true := List.find?_isSome.mpr ⟨n, here, by simp⟩
    obtain ⟨x, hx⟩ := Option.isSome_iff_exists.mp some
    rw [nodes, hx]
    rfl
  · rw [newGang_barriers]
    exact ⟨rfl, rfl, rfl⟩
end

section
/-! SUPPORT. The second run of a node at DETL DUAL (17 R385). -/
open Sys2Proof Sys2Proof.Machine Sys2Proof.Claim

namespace Sys2Proof.Machine

/-! ### The device's reads -/

theorem devLoad_error {s s1 : State} {asid root : Word} {va n : Nat} {e : TrapInfo}
    (h : xlateAll (devXl asid root) .read (byteRange va n) none s = (.error e, s1)) : devLoad s asid root va n = (none, s1) := by
  rw [devLoad, h]

theorem devLoad_ok {s s1 : State} {asid root : Word} {va n : Nat} {l : List Pa}
    (h : xlateAll (devXl asid root) .read (byteRange va n) none s = (.ok l, s1)) : (devLoad s asid root va n).2 =
      serveAll s1 false (l.map fun p => p.pa) := by
  rw [devLoad, h]

/-- A read of the device serves granules, and leaves plain walks. -/
theorem devLoad_plain {s : State} {asid root : Word} (plain : Plain s (devXl asid root)) (va n : Nat) :
    Serves s (devLoad s asid root va n).2 ∧ Plain (devLoad s asid root va n).2 (devXl asid root) := by
  have serves := serves_xlateAll (devXl asid root) .read (byteRange va n) none s
  have after := (xlateAll_same (x := devXl asid root) rfl .read (byteRange va n) none s s ⟨rfl, rfl, rfl, rfl⟩ plain plain).2
  rcases h : xlateAll (devXl asid root) .read (byteRange va n) none s with ⟨e | l, t⟩
  · rw [h] at serves after
    rw [devLoad_error h]
    exact ⟨serves, after⟩
  · rw [h] at serves after
    rw [devLoad_ok h, serveAll_quiet after.1]
    exact ⟨serves, after⟩

/-- So does the reading of a node's operands. -/
theorem operandBytes_plain (n : Node) (l : List Operand) : ∀ s : State, Plain s (devXl n.asid n.ptbase) →
    Serves s (operandBytes n l s).2 ∧ Plain (operandBytes n l s).2 (devXl n.asid n.ptbase) := by
  induction l with
  | nil => exact fun s plain => ⟨Serves.refl s, plain⟩
  | cons o l ih =>
    intro s plain
    unfold operandBytes
    split
    · exact ih s plain
    · obtain ⟨serves, after⟩ := devLoad_plain plain o.va o.size
      obtain ⟨serves', after'⟩ := ih _ after
      exact ⟨serves.trans serves', after'⟩

/-- The state after the digest of a run. -/
def digested (s : State) (n : Node) (g : Gang) : State := (runDigest s n g).2

theorem digested_eq (s : State) (n : Node) (g : Gang) : digested s n g = (operandBytes n g.opers s).2 := rfl

theorem digested_plain {s : State} {n : Node} (g : Gang) (quiet : s.hbmNew = []) (empty : s.walkCache = []) :
    Serves s (digested s n g) ∧ Plain (digested s n g) (devXl n.asid n.ptbase) := by
  rw [digested_eq]
  exact operandBytes_plain n g.opers s ⟨quiet, coherent_of_empty _ empty⟩

/-! ### The second run -/

/-- The operands of a node restored from its gang's shadow. -/
def restoredFrom (s : State) (n : Node) (l : List (Nat × List Byte)) : State :=
  l.foldl (fun s p => devStore s n.asid n.ptbase p.1 p.2) s

theorem writes_restoredFrom (s : State) (n : Node) (l : List (Nat × List Byte)) : Writes s (restoredFrom s n l) :=
  writes_foldl (fun _ _ => writes_devStore _ _ _ _ _ _) l s

/-- A gang at the start of its second run. -/
def Gang.again (d : BitVec 64) (g : Gang) : Gang :=
  { g with run2 := true, digest1 := some d, exited := [], final := false, rflags := 0, doneVal := 0, fenceRounds := 0
           commitRounds := 0, barriers := Vector.replicate 16 { e := g.n }, chains := Vector.replicate 32 {} }

/-- The package at the start of a second run. -/
def secondRun (s : State) (n : Node) (r : NodeRec) (m : ImageRec) (g : Gang) : State :=
  let u := restoredFrom (digested s n g) n g.shadow
  let v := (leaveArrays u g.id).updGang g.id (Gang.again (runDigest s n g).1)
  { v with
    links := v.links.map fun l => if l.gang = g.id then { id := l.id, gang := l.gang, spare := l.spare } else l
    others := v.others ++ startContexts u n r m g.id (keptSeats g) }

theorem exec_dualSecondRun_due {s : State} {g : Gang} {n : Node} {r : NodeRec} {m : ImageRec}
    (find : s.gang? s.arg.gang = some g) (node : s.node? g.node = some n) (rec : n.rec? = some r)
    (image : imageOf s n.asid r.text = some m) (dual : g.detl = 3) (first : g.run2 = false) (past : ended s g = true)
    (quiet : settled s g = true) (left : s.allCtx.any (fun c => c.id.gang == g.id) = false) :
    Acts .dualSecondRun s (secondRun s n r m g) := by
  have rec' : gangRec s g = some r := by rw [gangRec, node]; exact rec
  rw [Acts, exec_dualSecondRun, execDualSecondRun, find]
  simp only [node, rec', image]
  rw [if_neg (by simp [dual, first, past, quiet, left])]
  rfl

theorem settled_dual {s : State} {g : Gang} (windows : g.windows = []) (press : pressBusy s g.id = false)
    (flights : ∀ f ∈ s.flights, f.who.gang ≠ g.id) : settled s g = true := by
  have none : (s.flights.any fun f => f.who.gang == g.id) = false :=
    List.any_eq_false.mpr fun f hf => by simpa using flights f hf
  simp [settled, windows, press, none]

theorem Writes.secondRun_keeps {s : State} {n : Node} {r : NodeRec} {m : ImageRec} {g : Gang}
    (h : Writes s (restoredFrom (digested s n g) n g.shadow)) :
    (secondRun s n r m g).gang? g.id = (s.gang? g.id).map (Gang.again (runDigest s n g).1) ∧
    (secondRun s n r m g).others =
      s.others ++ startContexts (restoredFrom (digested s n g) n g.shadow) n r m g.id (keptSeats g) := by
  obtain ⟨gangs, -, others, -⟩ := h.keeps
  have changed := gang?_updGang (s := leaveArrays (restoredFrom (digested s n g) n g.shadow) g.id) (i := g.id)
    (f := Gang.again (runDigest s n g).1) fun _ => rfl
  rw [show (leaveArrays (restoredFrom (digested s n g) n g.shadow) g.id).gang? g.id = s.gang? g.id by
    unfold State.gang?
    exact congrArg (List.find? fun x : Gang => x.id == g.id) gangs] at changed
  exact ⟨changed, congrArg (· ++ startContexts (restoredFrom (digested s n g) n g.shadow) n r m g.id (keptSeats g)) others⟩

theorem secondRun_mem (s : State) (n : Node) (r : NodeRec) (m : ImageRec) (g : Gang) :
    (secondRun s n r m g).mem = (restoredFrom (digested s n g) n g.shadow).mem := rfl

end Sys2Proof.Machine

/-- DUAL_SECOND_RUN: the operands are restored from what the reads of the digest leave, and the contexts start again. -/
theorem Sys2Proof.Claim.dualRunsAgain (s : State) (g : Gang) (n : Node) (r : NodeRec) (m : ImageRec)
    (find : s.gang? s.arg.gang = some g) (node : s.node? g.node = some n) (rec : n.rec? = some r)
    (image : imageOf s n.asid r.text = some m) (dual : g.detl = 3) (run : g.run = .running) (first : g.run2 = false)
    (exits : g.exited.length = g.n) (tokens : tokensDone s g.id = true) (windows : g.windows = [])
    (press : pressBusy s g.id = false) (flights : ∀ f ∈ s.flights, f.who.gang ≠ g.id)
    (left : ∀ c ∈ s.allCtx, c.id.gang ≠ g.id) (ok : s.memOk = true) (quiet : s.hbmNew = []) (empty : s.walkCache = []) :
    ∃ t d cs, Acts .dualSecondRun s t ∧ t.others = s.others ++ cs ∧ (∀ i c, cs[i]? = some c →
        startsAs n r m g.clusters g.id cs.length i c) ∧
      ((∀ p ∈ g.seats, ∃ k ∈ g.clusters, k.lc = p.1) → cs.map (fun c => (c.lc, c.lcore, c.slotNo)) = g.seats) ∧
      (∃ x, t.gang? g.id = some x ∧ x.run2 = true ∧ x.digest1 = some d ∧ x.exited = [] ∧ x.rflags = 0 ∧ x.doneVal = 0 ∧
        x.n = g.n) ∧
      (g.shadow = [] → t.mem = s.mem) ∧
      ∀ va bytes l s1 pa, g.shadow = [(va, bytes)] →
        xlateAll (devXl n.asid n.ptbase) .write (byteRange va bytes.length) none s = (.ok l, s1) →
        l.map Pa.pa = (List.range bytes.length).map (pa + ·) → pa + bytes.length ≤ 2 ^ 63 → wrote s t pa bytes := by
  obtain ⟨serves, plain⟩ := digested_plain (n := n) g quiet empty
  have tables := serves.sameTables quiet
  obtain ⟨gang, others⟩ := (serves.writes.trans (writes_restoredFrom _ n g.shadow)).secondRun_keeps (r := r) (m := m)
  have acts := exec_dualSecondRun_due find node rec image dual first ((ended_iff run).mpr ⟨exits, tokens⟩)
    (settled_dual windows press flights) (List.any_eq_false.mpr fun c hc => by simpa using left c hc)
  have mem := secondRun_mem s n r m g
  refine ⟨secondRun s n r m g, (runDigest s n g).1, _, acts, others, fun i c h => startContexts_startAs keptSeats_places h,
    fun own => (startContexts_seats _ n r m _ _).trans (seatKeys_keptSeats own),
    ⟨g.again (runDigest s n g).1, ?_, rfl, rfl, rfl, rfl, rfl, rfl⟩, fun none => ?_, fun va bytes l s1 pa one h cells _ => ?_⟩
  · rw [gang, gang?_id find, find]
    rfl
  · rw [mem, none]
    exact tables.1
  · obtain ⟨t1, there⟩ := devXl_same tables quiet plain.1 (coherent_of_empty _ empty) plain.2 h
    rw [one] at mem
    exact wrote_mem (wrote_devStore (tables.1 ▸ memOk_wf ok) plain.1 there cells) tables.1 mem
end

section
/-! SUPPORT. Pre-emption (17 R372 to R378), and O54. -/
open Sys2Proof Sys2Proof.Machine Sys2Proof.Claim

namespace Sys2Proof.Machine

/-! ### A pre-emption begins -/

theorem worstGang_mem {s : State} (l : List Gang) : ∀ {g}, worstGang s l = some g → g ∈ l := by
  induction l with
  | nil => exact fun h => nomatch h
  | cons a l ih =>
    intro g h
    unfold worstGang at h
    split at h
    · obtain rfl : a = g := Option.some.inj h
      exact List.mem_cons_self
    next b hb =>
      split at h
      · obtain rfl : a = g := Option.some.inj h
        exact List.mem_cons_self
      · obtain rfl : b = g := Option.some.inj h
        exact List.mem_cons_of_mem _ (ih hb)

/-- What the granary pre-empts is a gang of the package. -/
theorem victim_mem {s : State} {g : Gang} (h : victim s = some g) : g ∈ s.gangs := by
  unfold victim at h
  dsimp only at h
  split at h
  · exact nomatch h
  · exact (List.mem_filter.mp (worstGang_mem _ h)).1

/-- A gang of the package is found under its number, or another that bears it. -/
theorem gang?_of_mem {s : State} {g : Gang} (h : g ∈ s.gangs) : ∃ x, s.gang? g.id = some x :=
  Option.isSome_iff_exists.mp (List.find?_isSome.mpr ⟨g, h, by simp⟩)

/-- A gang that a pre-emption begins with. -/
def Gang.begins (time : Nat) (g : Gang) : Gang := { g with run := .preempting, preemptSince := time, drained := false }

theorem exec_preempt_begins {s : State} {g : Gang} (none : ∀ x ∈ s.gangs, x.run ≠ .preempting) (h : victim s = some g) :
    Acts .preempt s (((allocSave s 0 g.id (saveSize s g.id)).updGang g.id (Gang.begins s.time)).updGangCtx g.id
      (Ctx.beginStop (rowStops s.arg.data))) := by
  have idle : s.gangs.find? (fun g => g.id == s.arg.gang && g.run == .preempting) = .none :=
    List.find?_eq_none.mpr fun x hx => by simp [none x hx]
  have quiet : s.gangs.any (fun g => g.run == .preempting) = false :=
    List.any_eq_false.mpr fun x hx => by simp [none x hx]
  rw [Acts, exec_preempt, execPreempt, idle]
  simp only [quiet, Bool.false_eq_true, if_false, h]
  rfl

/-! ### A gang is saved -/

/-- Contexts of a gang that a change leaves as they are. -/
theorem updGangCtx_same {s : State} {g : Nat} {f : Ctx → Ctx} (same : ∀ c ∈ s.gangCtx g, f c = c) : s.updGangCtx g f = s := by
  have one (c : Ctx) (here : c = s.ctx ∨ c ∈ s.others) (live : c.live = true) (own : c.id.gang = g) : f c = c :=
    same c (List.mem_filter.mpr ⟨List.mem_filter.mpr ⟨List.mem_cons.mpr here, live⟩, by simp [own]⟩)
  have focus : (if s.ctx.live = true ∧ s.ctx.id.gang = g then f s.ctx else s.ctx) = s.ctx := by
    split
    next h => exact one _ (.inl rfl) h.1 h.2
    next => rfl
  have rest : updateAll (fun c => c.live && c.id.gang == g) f s.others = s.others := by
    refine (List.map_congr_left fun c hc => ?_).trans (List.map_id _)
    split
    next h =>
      obtain ⟨live, own⟩ := Bool.and_eq_true_iff.mp h
      exact one c (.inr hc) live (by simpa using own)
    next => rfl
  unfold State.updGangCtx
  rw [focus, rest]

theorem stopNow_atRest {c : Ctx} (h : c.status = .exited ∨ ∃ l, c.status = .stopped l) : c.stopNow = c := by
  unfold Ctx.stopNow
  rcases h with h | ⟨l, h⟩ <;> simp [h]

theorem writes_writeBlock (s : State) (kind g : Nat) (d : List Byte) : Writes s (writeBlock s kind g d) := by
  unfold writeBlock
  exact Writes.trans (writes_set s _ _ _ _ _ _ _ _) (writes_foldl writes_settleHbm _ _)

/-- A gang that is saved. -/
def Gang.put (g : Gang) : Gang := { g with run := .preempted, chains := g.chains.map Chain.freeze }

/-- A gang that is saved, in the package. -/
def putAway (s : State) (g : Gang) : State := (leaveArrays s g.id).updGang g.id Gang.put

theorem gangCtx_gone {s : State} {g : Nat} (focus : s.ctx.id.gang = g → s.ctx.live = false)
    (others : ∀ c ∈ s.others, c.id.gang ≠ g) : s.gangCtx g = [] := by
  refine List.filter_eq_nil_iff.mpr fun c hc own => ?_
  obtain ⟨here, live⟩ := List.mem_filter.mp hc
  have own : c.id.gang = g := by simpa using own
  rcases List.mem_cons.mp here with rfl | here
  · rw [focus own] at live
    exact Bool.noConfusion live
  · exact others c here own

theorem saveGang_leaves (s : State) (g : Gang) :
    (saveGang s g).gang? g.id = (s.gang? g.id).map Gang.put ∧ (saveGang s g).gangCtx g.id = [] := by
  have written := writes_writeBlock (putAway s g) 0 g.id (((putAway s g).gang? g.id).elim [] (saveBlock (putAway s g)))
  obtain ⟨w, e⟩ := written
  have changed : (putAway s g).gang? g.id = (s.gang? g.id).map Gang.put := gang?_updGang fun _ => rfl
  have saved : saveGang s g =
      let u := (writeBlock (putAway s g) 0 g.id (((putAway s g).gang? g.id).elim [] (saveBlock (putAway s g)))).updNode g.node
        fun n => { n with agedAt := (writeBlock (putAway s g) 0 g.id
          (((putAway s g).gang? g.id).elim [] (saveBlock (putAway s g)))).time, waits := 0 }
      { u with
        saved := u.saved ++ ((leaveArrays s g.id).gangCtx g.id).map Ctx.flushHarrow
        others := u.others.filter fun c => c.id.gang != g.id
        ctx := if u.ctx.id.gang = g.id then { u.ctx with live := false } else u.ctx } := rfl
  rw [e] at saved
  rw [saved]
  refine ⟨changed, gangCtx_gone (fun own => ?_) fun c hc => ?_⟩
  · dsimp only at own ⊢
    split
    · rfl
    next other =>
      rw [if_neg other] at own
      exact absurd own other
  · simpa using (List.mem_filter.mp hc).2

theorem exec_preempt_saves {s : State} {g : Gang} (h : s.gangs.find? (fun x => x.id == s.arg.gang && x.run == .preempting) = some g)
    (owes : owesNothing s g = true) (early : g.late s.time = false)
    (rest : ∀ c ∈ s.gangCtx g.id, c.rowStop = none ∧ (c.status = .exited ∨ ∃ l, c.status = .stopped l)) :
    Acts .preempt s (saveGang s g) := by
  have same : (s.updGangCtx g.id fun c => if c.rowStop.isSome then c else c.stopNow) = s :=
    updGangCtx_same fun c hc => by rw [(rest c hc).1]; exact stopNow_atRest (rest c hc).2
  have atRest : (s.gangCtx g.id).all Ctx.atRest = true := List.all_eq_true.mpr fun c hc => by
    unfold Ctx.atRest
    rcases (rest c hc).2 with e | ⟨l, e⟩ <;> simp [e]
  have ready : readyToSave s g = true := by rw [readyToSave, atRest, owes]; rfl
  rw [Acts, exec_preempt, execPreempt, h]
  dsimp only
  rw [same, if_pos ⟨ready, by simp [early]⟩]

/-! ### A pre-emption is abandoned, or a gang resumes -/

/-- A gang that goes on. -/
def Gang.goesOn (g : Gang) : Gang := { g with run := .running }

theorem exec_preemptAbandon_late {s : State} {g : Gang} (find : s.gang? s.arg.gang = some g) (run : g.run = .preempting)
    (drained : g.drained = false) (late : g.preemptSince + 65536 < s.time) :
    Acts .preemptAbandon s (((freeSave s 0 g.id).updGang g.id Gang.goesOn).updGangCtx g.id Ctx.goOn) := by
  have past : g.late s.time = true := by simp [Gang.late, drained, preemptLimit, late]
  rw [Acts, exec_preemptAbandon, execPreemptAbandon, find]
  dsimp only
  rw [if_pos ⟨run, past⟩]
  rfl

/-- A gang that resumes. -/
def Gang.resumes (time : Nat) (g : Gang) : Gang := { g with run := .running, startTime := time, chains := g.chains.map Chain.thaw }

/-- The contexts of a saved gang, back in the package. -/
def broughtBack (s : State) (g : Nat) : State :=
  let u := (freeSave s 0 g).updGang g (Gang.resumes s.time)
  { u with
    saved := u.saved.filter fun c => c.id.gang != g
    others := u.others ++ (s.saved.filter fun c => c.id.gang == g).map (Ctx.restored s) }

/-- A resume brings the contexts back, and sets arrays. -/
theorem exec_gangResume_next {s : State} {n : Node} {g : Nat} (next : nextNode s = some n) (run : n.state = .running g) :
    ∃ a, Acts .gangResume s { broughtBack s g with arrays := a } := by
  have set (t : State) : ∃ a, (match t.gang? g, n.rec? with
      | some x, some r => setArrays t g r x.clusters
      | _, _ => t) = { t with arrays := a } := by
    split
    · exact setArrays_eq _ _ _ _
    · exact ⟨t.arrays, rfl⟩
  obtain ⟨a, e⟩ := set (broughtBack s g)
  refine ⟨a, ?_⟩
  rw [Acts, exec_gangResume, execGangResume, next]
  simp only [run]
  exact congrArg Host.Outcome.next e

theorem restored_keeps (s : State) (c : Ctx) :
    (Ctx.restored s c).id = c.id ∧ (Ctx.restored s c).slotNo = c.slotNo ∧ (Ctx.restored s c).pc = c.pc := by
  unfold Ctx.restored
  dsimp only
  split <;> exact ⟨rfl, rfl, rfl⟩

end Sys2Proof.Machine

/-- PREEMPT, PREEMPT_ABANDON and GANG_RESUME, each by the state that it leaves. -/
theorem Sys2Proof.Claim.preemptionBeginsSavesAndEnds : Sys2Proof.Claim.PreemptionBeginsSavesAndEnds := by
  intro s g
  refine ⟨fun none h => ?_, fun h owes early rest => ?_, fun find run drained late => ?_, fun n next run find => ?_⟩
  · obtain ⟨x, hx⟩ := gang?_of_mem (victim_mem h)
    have changed : ((allocSave s 0 g.id (saveSize s g.id)).updGang g.id (Gang.begins s.time)).gang? g.id =
        (s.gang? g.id).map (Gang.begins s.time) := gang?_updGang fun _ => rfl
    refine ⟨_, exec_preempt_begins none h, ?_⟩
    refine (congrArg (Option.map Gang.run) changed).trans ?_
    rw [hx]
    rfl
  · obtain ⟨gang, gone⟩ := saveGang_leaves s g
    obtain ⟨x, hx⟩ := gang?_of_mem (List.mem_of_find?_eq_some h)
    refine ⟨_, exec_preempt_saves h owes early rest, ?_, gone⟩
    rw [gang, hx]
    rfl
  · have changed : ((freeSave s 0 g.id).updGang g.id Gang.goesOn).gang? g.id = (s.gang? g.id).map Gang.goesOn :=
      gang?_updGang fun _ => rfl
    refine ⟨_, exec_preemptAbandon_late find run drained late, (congrArg (Option.map Gang.run) changed).trans ?_⟩
    rw [gang?_id find, find]
    rfl
  · obtain ⟨a, acts⟩ := exec_gangResume_next next run
    have changed : ((freeSave s 0 g.id).updGang g.id (Gang.resumes s.time)).gang? g.id =
        (s.gang? g.id).map (Gang.resumes s.time) := gang?_updGang fun _ => rfl
    refine ⟨_, acts, (congrArg (Option.map Gang.run) changed).trans ?_, fun c hc own => ?_⟩
    · rw [find]
      rfl
    · refine ⟨Ctx.restored s c, List.mem_append_right _ (List.mem_map_of_mem (List.mem_filter.mpr ⟨hc, by simp [own]⟩)), ?_⟩
      exact restored_keeps s c

/-- The order of dispatch, what a dispatch makes, and aging. -/
theorem Sys2Proof.Claim.nodesAgeAndAreDispatchedInOrder : Sys2Proof.Claim.NodesAgeAndAreDispatchedInOrder := by
  refine ⟨fun s n h => nextNode_some h, Sys2Proof.Claim.dispatchStartsGang, rfl,
    fun mask d banks pos h => baseOf_shift pos h, fun o l holds apart => ⟨length_filled o l, fun k hk => filled_bytes holds apart hk⟩,
    fun s n find => ⟨fun due => ?_, fun early => ?_⟩⟩
  · have changed : (s.updNode n.id (Node.aged s.granary.aging)).node? n.id =
        (s.node? n.id).map (Node.aged s.granary.aging) := node?_updNode fun _ => rfl
    have self : s.node? n.id = some n := node?_id find ▸ find
    refine ⟨s.updNode n.id (Node.aged s.granary.aging), ?_, ⟨rfl, rfl⟩, ?_⟩
    · rw [Acts, exec_aging find, if_pos ((agingDue_iff s n).mpr due)]
    · exact changed.trans (congrArg _ self)
  · rw [Acts, exec_aging find, if_neg fun h => early ((agingDue_iff s n).mp h)]

/-- Settles O54: dispatch and aging, completion and the second run, and pre-emption, each through what its event leaves. -/
theorem nodesDispatchCompleteAndRunTwice : Obligations.NodesDispatchCompleteAndRunTwice :=
  ⟨Sys2Proof.Claim.nodesAgeAndAreDispatchedInOrder, ⟨Sys2Proof.Claim.nodeCompletes, Sys2Proof.Claim.dualRunsAgain⟩,
    Sys2Proof.Claim.preemptionBeginsSavesAndEnds⟩
end

section
/-! SUPPORT. Floating-point formats as grids (02 R34 to R37): the magnitudes of a format by code, in strictly rising order, and
what an encoding's value says of its code. -/
namespace Sys2Proof.Machine
open Sys2Proof.Claim

/-- The mantissa of the magnitude that a code stands for. -/
def Fmt.sig (f : Fmt) (c : Nat) : Nat := if c < 2 ^ f.fbits then c else 2 ^ f.fbits + c % 2 ^ f.fbits

/-- The exponent of the magnitude that a code stands for. -/
def Fmt.exp (f : Fmt) (c : Nat) : Int := if c < 2 ^ f.fbits then f.emin else f.emin + (c / 2 ^ f.fbits : Nat) - 1

/-- The magnitude that a code stands for, also beyond the codes that a format has. -/
def Fmt.mag (f : Fmt) (c : Nat) : ℚ := f.sig c * 2 ^ f.exp c

/-- The value of a sign and a code. -/
def Fmt.value (f : Fmt) (n : Bool) (c : Nat) : ℚ := if n then -f.mag c else f.mag c

/-- The code of an encoding: its bits without the sign. -/
def Fmt.code (f : Fmt) (w : Nat) : Nat := w / 2 ^ f.low % 2 ^ f.signPos

/-- The sign of an encoding. -/
def Fmt.neg (f : Fmt) (w : Nat) : Bool := testBit (w / 2 ^ f.low) f.signPos

/-- What every element format of the machine keeps (02 R34, R35): the codes up to maxCode are those of finite values. -/
def Fmt.Sane (f : Fmt) : Prop :=
  0 < f.ebits ∧ 0 < f.fbits ∧ 2 ^ f.fbits ≤ f.maxCode ∧
    f.maxCode + (match f.nan with
      | .ieee => 2 ^ f.fbits + 1
      | .single => 2
      | .none => 1) = 2 ^ f.signPos

theorem sane_of_mem {f : Fmt} (h : f ∈ allFmts) : f.Sane := by
  simp only [allFmts, List.mem_cons, List.not_mem_nil, or_false] at h
  rcases h with rfl | rfl | rfl | rfl | rfl | rfl | rfl | rfl | rfl | rfl <;> exact ⟨by decide, by decide, by decide, by decide⟩

/-- FP32 and FP64 are element formats. -/
theorem mem_of_wide {f : Fmt} (h : f = .f32 ∨ f = .f64) : f ∈ allFmts := by
  rcases h with rfl | rfl <;> decide

theorem sane_of_wide {f : Fmt} (h : f = .f32 ∨ f = .f64) : f.Sane := sane_of_mem (mem_of_wide h)

section
variable {f : Fmt}

/-- In the binade of index K every code is a multiple of one unit, up to the first code of the next binade. -/
theorem mag_binade {K w : Nat} (lo : K = 0 ∨ 2 ^ f.fbits ≤ w) (hi : w ≤ 2 * 2 ^ f.fbits) :
    f.mag (K * 2 ^ f.fbits + w) = w * 2 ^ (f.emin + K) := by
  have pos : 0 < 2 ^ f.fbits := by positivity
  have two : (2 : ℚ) ≠ 0 := two_ne_zero
  rcases Nat.lt_or_ge w (2 ^ f.fbits) with small | big
  · obtain rfl : K = 0 := by omega
    simp [Fmt.mag, Fmt.sig, Fmt.exp, small]
  have out : ¬ K * 2 ^ f.fbits + w < 2 ^ f.fbits := by omega
  rcases hi.lt_or_eq with lt | rfl
  · obtain ⟨r, rfl⟩ := Nat.exists_eq_add_of_le big
    have hr : r < 2 ^ f.fbits := by omega
    have e : K * 2 ^ f.fbits + (2 ^ f.fbits + r) = r + (K + 1) * 2 ^ f.fbits := by ring
    rw [Fmt.mag, Fmt.sig, Fmt.exp, if_neg out, if_neg out, e, Nat.add_mul_mod_self_right, Nat.add_mul_div_right _ _ pos,
      Nat.mod_eq_of_lt hr, Nat.div_eq_of_lt hr]
    congr 2
    push_cast
    ring
  · have e : K * 2 ^ f.fbits + 2 * 2 ^ f.fbits = (K + 2) * 2 ^ f.fbits := by ring
    rw [Fmt.mag, Fmt.sig, Fmt.exp, if_neg out, if_neg out, e, Nat.mul_mod_left, Nat.mul_div_cancel _ pos]
    rw [show f.emin + ((K + 2 : Nat) : Int) - 1 = (f.emin + K) + 1 by push_cast; ring, zpow_add_one₀ two]
    push_cast
    ring

/-- Every code lies in a binade, with the one above it. -/
theorem exists_binade (f : Fmt) (c : Nat) :
    ∃ K w, c = K * 2 ^ f.fbits + w ∧ (K = 0 ∨ 2 ^ f.fbits ≤ w) ∧ w < 2 * 2 ^ f.fbits := by
  rcases Nat.lt_or_ge c (2 ^ f.fbits) with small | big
  · exact ⟨0, c, by omega, .inl rfl, by omega⟩
  · obtain ⟨r, rfl⟩ := Nat.exists_eq_add_of_le big
    have pos : 0 < 2 ^ f.fbits := by positivity
    have split := Nat.div_add_mod r (2 ^ f.fbits)
    have := Nat.mod_lt r pos
    refine ⟨r / 2 ^ f.fbits, 2 ^ f.fbits + r % 2 ^ f.fbits, ?_, .inr (by omega), by omega⟩
    rw [Nat.mul_comm]
    omega

theorem mag_strictMono (f : Fmt) : StrictMono f.mag := by
  refine strictMono_nat_of_lt_succ fun c => ?_
  obtain ⟨K, w, rfl, lo, hi⟩ := exists_binade f c
  have next : f.mag (K * 2 ^ f.fbits + w + 1) = ((w + 1 : Nat) : ℚ) * 2 ^ (f.emin + K) :=
    mag_binade (w := w + 1) (lo.imp id fun h => by omega) hi
  rw [next, mag_binade lo hi.le]
  exact mul_lt_mul_of_pos_right (by exact_mod_cast Nat.lt_succ_self w) (by positivity)

@[simp] theorem mag_zero (f : Fmt) : f.mag 0 = 0 := by simp [Fmt.mag, Fmt.sig]

theorem mag_nonneg (f : Fmt) (c : Nat) : 0 ≤ f.mag c := by unfold Fmt.mag; positivity

theorem mag_pos {c : Nat} (h : c ≠ 0) : 0 < f.mag c := by
  rw [← mag_zero f]
  exact mag_strictMono f (Nat.pos_of_ne_zero h)

/-! ### An encoding's value -/

theorem rational_mag (n : Bool) (c : Nat) : rational n (f.sig c) (f.exp c) = f.value n c := by
  cases n <;> simp [rational, Fmt.mag, Fmt.value]

/-- The exponent field of an encoding is that of its code. -/
theorem bits_code (f : Fmt) (w : Nat) : bits (w / 2 ^ f.low) f.fbits f.ebits = f.code w / 2 ^ f.fbits := by
  rw [bits, Fmt.code, Fmt.signPos, Nat.add_comm, Nat.pow_add, Nat.mod_mul_right_div_self]

theorem code_mod (f : Fmt) (w : Nat) : w / 2 ^ f.low % 2 ^ f.fbits = f.code w % 2 ^ f.fbits := by
  rw [Fmt.code, Fmt.signPos, Nat.add_comm, Nat.pow_add, Nat.mod_mul_right_mod]

theorem code_lt (f : Fmt) (w : Nat) : f.code w < 2 ^ f.signPos := Nat.mod_lt _ (by positivity)

/-- The mantissa and the exponent of a finite encoding. -/
theorem fin_of_code {n : Bool} {c : Nat} :
    (if c / 2 ^ f.fbits = 0 then FVal.fin n (c % 2 ^ f.fbits) f.emin
      else .fin n (2 ^ f.fbits + c % 2 ^ f.fbits) (f.emin + (c / 2 ^ f.fbits : Nat) - 1)) = .fin n (f.sig c) (f.exp c) := by
  have pos : 0 < 2 ^ f.fbits := by positivity
  unfold Fmt.sig Fmt.exp
  rcases Nat.lt_or_ge c (2 ^ f.fbits) with h | h
  · simp [h, Nat.div_eq_of_lt h, Nat.mod_eq_of_lt h]
  · simp [Nat.not_lt.mpr h, (Nat.div_pos h pos).ne']

/-- The greatest exponent field is that of the codes in the last binade, and with a fraction of ones that of the last code. -/
theorem top_iff (f : Fmt) (w : Nat) :
    (f.code w / 2 ^ f.fbits = 2 ^ f.ebits - 1 ↔ 2 ^ f.signPos ≤ f.code w + 2 ^ f.fbits) ∧
      (f.code w / 2 ^ f.fbits = 2 ^ f.ebits - 1 ∧ f.code w % 2 ^ f.fbits = 2 ^ f.fbits - 1 ↔ f.code w + 1 = 2 ^ f.signPos) := by
  have pos : 0 < 2 ^ f.fbits := by positivity
  have lt := code_lt f w
  obtain ⟨t, ht⟩ := Nat.exists_eq_add_of_le' (Nat.one_le_two_pow (n := f.ebits))
  have size : 2 ^ f.signPos = t * 2 ^ f.fbits + 2 ^ f.fbits := by rw [Fmt.signPos, Nat.pow_add, ht]; ring
  have le := Nat.le_div_iff_mul_le pos (x := t) (y := f.code w)
  have below := Nat.div_lt_iff_lt_mul pos (x := f.code w) (y := t + 1)
  have parts := Nat.div_add_mod' (f.code w) (2 ^ f.fbits)
  have small := Nat.mod_lt (f.code w) pos
  rw [Nat.succ_mul] at below
  have e : f.code w / 2 ^ f.fbits = t → f.code w / 2 ^ f.fbits * 2 ^ f.fbits = t * 2 ^ f.fbits := fun h => by rw [h]
  omega

/-- An encoding of a finite value by its sign and code; the codes above maxCode are those of infinities and NaNs. -/
theorem unpack_of_code {f : Fmt} (h : f.Sane) (w : Nat) :
    if f.code w ≤ f.maxCode then f.unpack w = .fin (f.neg w) (f.sig (f.code w)) (f.exp (f.code w))
    else ∀ n m e, f.unpack w ≠ .fin n m e := by
  obtain ⟨-, -, -, rule⟩ := h
  have lt := code_lt f w
  obtain ⟨top, last⟩ := top_iff f w
  unfold Fmt.unpack
  dsimp only
  rw [bits_code, code_mod, ← Fmt.neg, fin_of_code]
  cases kind : f.nan with
  | ieee =>
    rw [kind] at rule
    dsimp only at rule
    split
    next h => rw [if_neg (by rw [top]; omega), if_neg (by simp)]
    next h =>
      rw [if_pos ⟨rfl, by rw [top]; omega⟩]
      intro n m e
      split <;> simp
  | single =>
    rw [kind] at rule
    dsimp only at rule
    split
    next h => rw [if_neg (by simp), if_neg (by rw [last]; omega)]
    next h =>
      rw [if_neg (by simp), if_pos ⟨rfl, by rw [last]; omega⟩]
      simp
  | none =>
    rw [kind] at rule
    dsimp only at rule
    rw [if_pos (by omega), if_neg (by simp), if_neg (by simp)]

theorem unpack_fin (h : f.Sane) {w : Nat} (le : f.code w ≤ f.maxCode) :
    f.unpack w = .fin (f.neg w) (f.sig (f.code w)) (f.exp (f.code w)) := by
  have := unpack_of_code h w
  rwa [if_pos le] at this

theorem of_unpack_fin (h : f.Sane) {w : Nat} {n : Bool} {m : Nat} {e : Int} (u : f.unpack w = .fin n m e) :
    f.code w ≤ f.maxCode ∧ f.neg w = n ∧ f.sig (f.code w) = m ∧ f.exp (f.code w) = e := by
  have := unpack_of_code h w
  split at this
  next le => rw [u] at this; cases this; exact ⟨le, rfl, rfl, rfl⟩
  next => exact absurd u (this n m e)

/-- The finite encodings and their values. -/
theorem valueOf_eq_some (h : f.Sane) {w : Nat} {y : ℚ} :
    valueOf f w = some y ↔ f.code w ≤ f.maxCode ∧ f.value (f.neg w) (f.code w) = y := by
  constructor
  · intro v
    unfold valueOf at v
    split at v
    next n m e u =>
      obtain ⟨le, rfl, rfl, rfl⟩ := of_unpack_fin h u
      exact ⟨le, (rational_mag ..).symm.trans (Option.some.inj v)⟩
    next => cases v
  · rintro ⟨le, rfl⟩
    rw [valueOf, unpack_fin h le, ← rational_mag]
    rfl

theorem maxCode_lt (h : f.Sane) : f.maxCode < 2 ^ f.signPos := by
  obtain ⟨-, -, -, rule⟩ := h
  have pos : 0 < 2 ^ f.fbits := by positivity
  split at rule <;> omega

@[simp] theorem code_pack {c : Nat} (n : Bool) (lt : c < 2 ^ f.signPos) : f.code (f.pack n c) = c := by
  rw [Fmt.code, Fmt.pack, Nat.mul_div_cancel _ (by positivity), Nat.add_mul_mod_self_right, Nat.mod_eq_of_lt lt]

@[simp] theorem neg_pack {c : Nat} (n : Bool) (lt : c < 2 ^ f.signPos) : f.neg (f.pack n c) = n := by
  rw [Fmt.neg, Fmt.pack, Nat.mul_div_cancel _ (by positivity), testBit, Nat.add_mul_div_right _ _ (by positivity),
    Nat.div_eq_of_lt lt]
  cases n <;> rfl

theorem valueOf_pack (h : f.Sane) {c : Nat} (n : Bool) (le : c ≤ f.maxCode) : valueOf f (f.pack n c) = some (f.value n c) := by
  have lt := le.trans_lt (maxCode_lt h)
  rw [valueOf_eq_some h, code_pack n lt, neg_pack n lt]
  exact ⟨le, rfl⟩

theorem abs_value (f : Fmt) (n : Bool) (c : Nat) : |f.value n c| = f.mag c := by
  cases n <;> simp [Fmt.value, abs_of_nonneg (mag_nonneg _ _)]

end
end Sys2Proof.Machine
end

section
/-! SUPPORT. Rounding onto a grid (02 R43, R44): what each mode picks of the two neighbours of a value, and why no other value of
the grid betters it. -/
namespace Sys2Proof.Machine
open Sys2Proof.Claim

/-- Code c is what the mode picks for the magnitude X on a grid g: one of the two neighbours of X, an exact X being its own
lower neighbour. -/
def Picks (g : Nat → ℝ) (rm : Rnd) (neg : Bool) (X : ℝ) (c : Nat) : Prop :=
  ∃ lo, g lo ≤ X ∧ X < g (lo + 1) ∧
    match rm with
    | .rtz => c = lo
    | .rdn => c = if neg ∧ X ≠ g lo then lo + 1 else lo
    | .rup => c = if ¬neg ∧ X ≠ g lo then lo + 1 else lo
    | .rne => (c = lo ∧ 2 * X ≤ g lo + g (lo + 1) ∨ c = lo + 1 ∧ g lo + g (lo + 1) ≤ 2 * X) ∧
        (2 * X = g lo + g (lo + 1) → c % 2 = 0)
    | .rmm => c = lo ∧ 2 * X < g lo + g (lo + 1) ∨ c = lo + 1 ∧ g lo + g (lo + 1) ≤ 2 * X

section
variable {g h : Nat → ℝ} {rm : Rnd} {neg : Bool} {X : ℝ} {c : Nat}

/-- A grid may be renumbered by an even shift. -/
theorem Picks.shift {k : Nat} (p : Picks g rm neg X c) (even : k % 2 = 0)
    (same : ∀ lo, g lo ≤ X → X < g (lo + 1) → h (k + lo) = g lo ∧ h (k + (lo + 1)) = g (lo + 1)) :
    Picks h rm neg X (k + c) := by
  obtain ⟨lo, le, lt, pick⟩ := p
  obtain ⟨hlo, hhi⟩ := same lo le lt
  refine ⟨k + lo, hlo ▸ le, by rw [Nat.add_assoc, hhi]; exact lt, ?_⟩
  rw [Nat.add_assoc, hlo, hhi]
  cases rm with
  | rtz => exact congrArg _ pick
  | rdn => dsimp only at pick ⊢; split at pick <;> simp_all
  | rup => dsimp only at pick ⊢; split at pick <;> simp_all
  | rne =>
    obtain ⟨near, tie⟩ := pick
    exact ⟨near.imp (And.imp_left (congrArg _)) (And.imp_left (congrArg _)), fun t => by have := tie t; omega⟩
  | rmm => exact pick.imp (And.imp_left (congrArg _)) (And.imp_left (congrArg _))

/-- The pick is a neighbour: the lower one, or, of a value that is not on the grid, the upper one. -/
theorem Picks.neighbour (p : Picks g rm neg X c) :
    ∃ lo, g lo ≤ X ∧ X < g (lo + 1) ∧ (c = lo ∨ c = lo + 1 ∧ g lo < X) := by
  obtain ⟨lo, le, lt, pick⟩ := p
  refine ⟨lo, le, lt, ?_⟩
  have off (n : X ≠ g lo) : g lo < X := lt_of_le_of_ne le n.symm
  cases rm with
  | rtz => exact .inl pick
  | rdn => dsimp only at pick; split at pick; exacts [.inr ⟨pick, off (by tauto)⟩, .inl pick]
  | rup => dsimp only at pick; split at pick; exacts [.inr ⟨pick, off (by tauto)⟩, .inl pick]
  | rne => exact pick.1.imp And.left fun h => ⟨h.1, by linarith⟩
  | rmm => exact pick.imp And.left fun h => ⟨h.1, by linarith⟩

section
variable (mono : StrictMono g)
include mono

/-- A magnitude whose pick lies beyond a code lies beyond that code's magnitude. -/
theorem Picks.lt_of_lt (p : Picks g rm neg X c) {k : Nat} (lt : k < c) : g k < X := by
  obtain ⟨lo, le, -, rfl | ⟨rfl, off⟩⟩ := p.neighbour
  · exact (mono lt).trans_le le
  · exact (mono.monotone (Nat.le_of_lt_succ lt)).trans_lt off

/-- A magnitude on the grid is picked as it is. -/
theorem Picks.eq_of_on (p : Picks g rm neg X c) {k : Nat} (on : g k = X) : c = k := by
  subst on
  obtain ⟨lo, le, lt, near⟩ := p.neighbour
  have : lo = k := by
    have := mono.le_iff_le.mp le
    have := mono.lt_iff_lt.mp lt
    omega
  subst this
  exact near.resolve_right fun h => lt_irrefl _ h.2

/-- Towards zero: no code of a magnitude up to X lies above the pick. -/
theorem Picks.rtz_greatest (p : Picks g .rtz neg X c) : g c ≤ X ∧ ∀ k, g k ≤ X → g k ≤ g c := by
  obtain ⟨lo, le, lt, rfl⟩ := p
  exact ⟨le, fun k hk => mono.monotone (Nat.le_of_lt_succ (mono.lt_iff_lt.mp (hk.trans_lt lt)))⟩

/-- A directed mode that rounds the magnitude down. -/
theorem Picks.down_greatest (p : Picks g rm neg X c) (down : rm = .rdn ∧ neg = false ∨ rm = .rup ∧ neg = true) :
    g c ≤ X ∧ ∀ k, g k ≤ X → g k ≤ g c := by
  obtain ⟨lo, le, lt, pick⟩ := p
  have : c = lo := by rcases down with ⟨rfl, rfl⟩ | ⟨rfl, rfl⟩ <;> simpa using pick
  exact Picks.rtz_greatest (neg := neg) mono ⟨lo, le, lt, this⟩

/-- A directed mode that rounds the magnitude up. -/
theorem Picks.up_least (p : Picks g rm neg X c) (up : rm = .rdn ∧ neg = true ∨ rm = .rup ∧ neg = false) :
    X ≤ g c ∧ ∀ k, X ≤ g k → g c ≤ g k := by
  obtain ⟨lo, le, lt, pick⟩ := p
  have : c = if X ≠ g lo then lo + 1 else lo := by rcases up with ⟨rfl, rfl⟩ | ⟨rfl, rfl⟩ <;> simpa using pick
  split at this
  next off =>
    subst this
    refine ⟨lt.le, fun k hk => mono.monotone (Nat.succ_le_of_lt (mono.lt_iff_lt.mp ?_))⟩
    exact (lt_of_le_of_ne le (Ne.symm off)).trans_le hk
  next on =>
    subst this
    rw [not_not] at on
    exact ⟨on.le, fun k hk => on ▸ hk⟩

omit mono in
/-- The picks of the two nearest modes, said alike. -/
theorem Picks.half (p : Picks g rm neg X c) (near : rm = .rne ∨ rm = .rmm) :
    ∃ lo, g lo ≤ X ∧ X < g (lo + 1) ∧ (c = lo ∧ 2 * X ≤ g lo + g (lo + 1) ∨ c = lo + 1 ∧ g lo + g (lo + 1) ≤ 2 * X) ∧
      (2 * X = g lo + g (lo + 1) → (rm = .rne → c % 2 = 0) ∧ (rm = .rmm → c = lo + 1)) := by
  obtain ⟨lo, le, lt, pick⟩ := p
  rcases near with rfl | rfl
  · exact ⟨lo, le, lt, pick.1, fun t => ⟨fun _ => pick.2 t, nofun⟩⟩
  · refine ⟨lo, le, lt, pick.imp_left (And.imp_right LT.lt.le), fun t => ⟨nofun, fun _ => ?_⟩⟩
    exact (pick.resolve_left fun h => h.2.ne t).1

/-- No code lies nearer than the pick of a nearest mode, and one equally near is the other neighbour, at a tie. -/
theorem Picks.nearest (p : Picks g rm neg X c) (near : rm = .rne ∨ rm = .rmm) (k : Nat) :
    |g c - X| ≤ |g k - X| ∧ (|g c - X| = |g k - X| → g k ≠ g c →
      (rm = .rne → c % 2 = 0) ∧ (rm = .rmm → g k < g c)) := by
  obtain ⟨lo, le, lt, pick, tie⟩ := p.half near
  have step := mono (Nat.lt_succ_self lo)
  have low {j : Nat} (h : g j ≤ g lo) : |g j - X| = X - g j := by rw [abs_of_nonpos (by linarith)]; ring
  have high {j : Nat} (h : g (lo + 1) ≤ g j) : |g j - X| = g j - X := abs_of_pos (by linarith)
  rcases Nat.lt_or_ge lo k with above | below
  · have hk : g (lo + 1) ≤ g k := mono.monotone above
    rw [high hk]
    rcases pick with ⟨rfl, h⟩ | ⟨rfl, h⟩
    · rw [low le_rfl]
      refine ⟨by linarith, fun eq _ => ?_⟩
      obtain ⟨even, up⟩ := tie (by linarith)
      exact ⟨even, fun r => absurd (up r) (by omega)⟩
    · rw [high le_rfl]
      exact ⟨by linarith, fun eq ne => absurd (by linarith) ne⟩
  · have hk : g k ≤ g lo := mono.monotone below
    rw [low hk]
    rcases pick with ⟨rfl, h⟩ | ⟨rfl, h⟩
    · rw [low le_rfl]
      exact ⟨by linarith, fun eq ne => absurd (by linarith) ne⟩
    · rw [high le_rfl]
      refine ⟨by linarith, fun eq _ => ?_⟩
      exact ⟨(tie (by linarith)).1, fun _ => hk.trans_lt step⟩

end
end

/-! ### Rounding into a format -/

/-- The magnitudes of a format as real numbers. -/
def Fmt.grid (f : Fmt) (c : Nat) : ℝ := (f.mag c : ℝ)

theorem grid_strictMono (f : Fmt) : StrictMono f.grid := fun _ _ h => Rat.cast_lt.mpr (mag_strictMono f h)

theorem grid_nonneg (f : Fmt) (c : Nat) : 0 ≤ f.grid c := Rat.cast_nonneg.mpr (mag_nonneg f c)

/-- A magnitude under a sign. -/
def under (neg : Bool) (X : ℝ) : ℝ := if neg then -X else X

@[simp] theorem abs_under (neg : Bool) (X : ℝ) : |under neg X| = |X| := by cases neg <;> simp [under]

theorem under_sub (neg : Bool) (X Y : ℝ) : under neg X - under neg Y = under neg (X - Y) := by
  cases neg <;> simp only [under, if_true, Bool.false_eq_true, if_false]
  ring

theorem cast_value (f : Fmt) (n : Bool) (c : Nat) : ((f.value n c : ℚ) : ℝ) = under n (f.grid c) := by
  cases n <;> simp [Fmt.value, under, Fmt.grid]

/-- A value of the other sign lies no nearer than its magnitude, and strictly farther unless it is zero. -/
theorem under_far (n k : Bool) {X Y : ℝ} (hX : 0 ≤ X) (hY : 0 ≤ Y) :
    |Y - X| ≤ |under k Y - under n X| ∧ (|Y - X| = |under k Y - under n X| → under k Y = under n Y ∨ X = 0) := by
  rcases Bool.eq_or_eq_not k n with rfl | rfl
  · simp [under_sub]
  · have far : |under (!n) Y - under n X| = Y + X := by
      cases n <;> simp only [under, Bool.not_false, Bool.not_true, if_true, Bool.false_eq_true, if_false]
      · rw [abs_of_nonpos (by linarith)]; ring
      · rw [abs_of_nonneg (by linarith)]; ring
    rw [far]
    rcases abs_cases (Y - X) with ⟨e, -⟩ | ⟨e, -⟩ <;> rw [e]
    · exact ⟨by linarith, fun h => .inr (by linarith)⟩
    · refine ⟨by linarith, fun h => .inl ?_⟩
      obtain rfl : Y = 0 := by linarith
      simp [under]

/-- What lies as near as the pick of a nearest mode, under either sign, lies at a tie. -/
theorem Picks.tie {f : Fmt} {rm : Rnd} {neg k : Bool} {X : ℝ} {c j : Nat} (p : Picks f.grid rm neg X c)
    (near : rm = .rne ∨ rm = .rmm) (pos : 0 ≤ X) (ne : under k (f.grid j) ≠ under neg (f.grid c))
    (eq : |under neg (f.grid c) - under neg X| = |under k (f.grid j) - under neg X|) :
    (rm = .rne → c % 2 = 0) ∧ (rm = .rmm → f.grid j < f.grid c) := by
  have mono := grid_strictMono f
  obtain ⟨nearer, ties⟩ := p.nearest mono near j
  obtain ⟨far, same⟩ := under_far neg k pos (grid_nonneg f j)
  rw [under_sub, abs_under] at eq
  rcases same (le_antisymm far (eq ▸ nearer)) with same | rfl
  · rw [same, under_sub, abs_under] at eq
    exact ties eq fun e => ne (by rw [same, e])
  · have zero : f.grid c = 0 := by simpa [Fmt.grid] using (p.nearest mono near 0).1
    have flat : under neg 0 = 0 := by cases neg <;> simp [under]
    rw [zero, flat, sub_zero, sub_zero, abs_zero, eq_comm, abs_eq_zero] at eq
    exact absurd (by rw [eq, zero, flat]) ne

/-- The last bit of an encoding is that of its code. -/
theorem pack_parity {f : Fmt} (sane : f.Sane) (n : Bool) (c : Nat) : f.pack n c / 2 ^ f.low % 2 = c % 2 := by
  obtain ⟨he, -⟩ := sane
  obtain ⟨k, hk⟩ : ∃ k, f.signPos = k + 1 := ⟨f.signPos - 1, by unfold Fmt.signPos; omega⟩
  rw [Fmt.pack, Nat.mul_div_cancel _ (by positivity), hk, Nat.pow_succ, ← Nat.mul_assoc, Nat.add_mul_mod_self_right]

section
variable {f : Fmt} (sane : f.Sane) {rm : Rnd} {neg : Bool} {X : ℝ} {c : Nat} {fl : Flags}
include sane

/-- A result whose flags hold OF is rounded rightly where its value lies beyond every finite one. -/
theorem roundedTo_of_overflow {r : FR} (p : Picks f.grid rm neg X c) (beyond : f.maxCode < c) (hf : r.flags &&& flagOF ≠ 0) :
    RoundedTo f rm (under neg X) r := by
  refine ⟨fun _ y => ?_, fun h => absurd h hf⟩
  rintro ⟨w, q, hq, rfl⟩
  obtain ⟨le, rfl⟩ := (valueOf_eq_some sane).mp hq
  have lt := p.lt_of_lt (grid_strictMono f) (le.trans_lt beyond)
  have pos : 0 ≤ X := (grid_nonneg f _).trans lt.le
  rwa [cast_value, abs_under, abs_under, abs_of_nonneg (grid_nonneg f _), abs_of_nonneg pos]

/-- A result that is the code picked, with NX where it is inexact, is rounded rightly. -/
theorem roundedTo_of_picks (p : Picks f.grid rm neg X c) (le : c ≤ f.maxCode) (nx : fl &&& flagNX = 0 ↔ f.grid c = X)
    (hf : fl &&& flagOF = 0) : RoundedTo f rm (under neg X) { bits := f.pack neg c, flags := fl } := by
  have mono := grid_strictMono f
  have pos : 0 ≤ X := by
    obtain ⟨lo, h, -⟩ := p
    exact (grid_nonneg f lo).trans h
  have posc := grid_nonneg f c
  have zero : f.grid 0 = 0 := by simp [Fmt.grid]
  have values {y : ℝ} (v : ∃ n q, valueOf f n = some q ∧ y = (q : ℝ)) : ∃ k j, y = under k (f.grid j) := by
    obtain ⟨w, q, hq, rfl⟩ := v
    obtain ⟨-, rfl⟩ := (valueOf_eq_some sane).mp hq
    exact ⟨_, _, cast_value ..⟩
  refine ⟨fun h => absurd hf h, fun _ => ⟨_, _, valueOf_pack sane neg le, (cast_value f neg c).symm, ?_, ?_, ?_, ?_, ?_, ?_, ?_⟩⟩
  · rw [nx]
    cases neg <;> simp [under]
  · rintro rfl
    obtain ⟨below, greatest⟩ := p.rtz_greatest mono
    simp only [abs_under, abs_of_nonneg posc, abs_of_nonneg pos]
    refine ⟨below, fun y v hy => ?_⟩
    obtain ⟨k, j, rfl⟩ := values v
    rw [abs_under, abs_of_nonneg (grid_nonneg f j)] at *
    exact greatest j hy
  · rintro rfl
    cases neg with
    | false =>
      obtain ⟨below, greatest⟩ := p.down_greatest mono (.inl ⟨rfl, rfl⟩)
      refine ⟨below, fun y v hy => ?_⟩
      obtain ⟨k, j, rfl⟩ := values v
      have posj := grid_nonneg f j
      cases k with
      | false => exact greatest j hy
      | true => exact (neg_nonpos.mpr posj).trans posc
    | true =>
      obtain ⟨above, least⟩ := p.up_least mono (.inl ⟨rfl, rfl⟩)
      refine ⟨neg_le_neg above, fun y v hy => ?_⟩
      obtain ⟨k, j, rfl⟩ := values v
      have posj := grid_nonneg f j
      cases k with
      | false =>
        have hy : f.grid j ≤ -X := hy
        have := least 0 (by linarith)
        show f.grid j ≤ -f.grid c
        linarith
      | true => exact neg_le_neg (least j (neg_le_neg_iff.mp hy))
  · rintro rfl
    cases neg with
    | false =>
      obtain ⟨above, least⟩ := p.up_least mono (.inr ⟨rfl, rfl⟩)
      refine ⟨above, fun y v hy => ?_⟩
      obtain ⟨k, j, rfl⟩ := values v
      have posj := grid_nonneg f j
      cases k with
      | false => exact least j hy
      | true =>
        have hy : X ≤ -f.grid j := hy
        have := least 0 (by linarith)
        show f.grid c ≤ -f.grid j
        linarith
    | true =>
      obtain ⟨below, greatest⟩ := p.down_greatest mono (.inr ⟨rfl, rfl⟩)
      refine ⟨neg_le_neg below, fun y v hy => ?_⟩
      obtain ⟨k, j, rfl⟩ := values v
      have posj := grid_nonneg f j
      cases k with
      | false => exact (neg_nonpos.mpr posc).trans posj
      | true => exact neg_le_neg (greatest j (neg_le_neg_iff.mp hy))
  · intro near y v
    obtain ⟨k, j, rfl⟩ := values v
    rw [under_sub, abs_under]
    exact (p.nearest mono near j).1.trans (under_far neg k pos (grid_nonneg f j)).1
  · rintro rfl y v ne eq
    obtain ⟨k, j, rfl⟩ := values v
    rw [pack_parity sane]
    exact (p.tie (.inl rfl) pos ne eq).1 rfl
  · rintro rfl y v ne eq
    obtain ⟨k, j, rfl⟩ := values v
    rw [abs_under, abs_under, abs_of_nonneg (grid_nonneg f j), abs_of_nonneg posc]
    exact (p.tie (.inr rfl) pos ne eq).2 rfl

end

end Sys2Proof.Machine
end

section
/-! SUPPORT. The model's rounding (02 R44) picks as its mode says: of an exact mantissa, or of one cut off below with a sticky bit. -/
namespace Sys2Proof.Machine
open Sys2Proof.Claim

/-- The magnitude X is m * 2^e, or with a sticky bit lies strictly between that and the next multiple of 2^e. -/
def Held (m : Nat) (e : Int) (sticky : Bool) (X : ℝ) : Prop :=
  if sticky then (m : ℝ) * 2 ^ e < X ∧ X < (m + 1) * 2 ^ e else X = m * 2 ^ e

theorem held_exact (m : Nat) (e : Int) : Held m e false (m * 2 ^ e) := by simp [Held]

theorem Held.le {m : Nat} {e : Int} {sticky : Bool} {X : ℝ} (h : Held m e sticky X) :
    (m : ℝ) * 2 ^ e ≤ X ∧ X < (m + 1) * 2 ^ e ∧ (sticky = true ↔ X ≠ m * 2 ^ e) := by
  have pos : (0 : ℝ) < 2 ^ e := by positivity
  cases sticky with
  | false =>
    obtain rfl : X = m * 2 ^ e := by simpa [Held] using h
    exact ⟨le_rfl, by nlinarith, by simp⟩
  | true =>
    obtain ⟨lo, hi⟩ : (m : ℝ) * 2 ^ e < X ∧ X < (m + 1) * 2 ^ e := by simpa [Held] using h
    exact ⟨lo.le, hi, by simp [lo.ne']⟩

/-- How two numbers compare. -/
def Compares (o : Ordering) (a b : ℝ) : Prop :=
  match o with
  | .lt => a < b
  | .eq => a = b
  | .gt => b < a

theorem Compares.affine {o : Ordering} {a b t d a' b' : ℝ} (h : Compares o a b) (pos : 0 < t) (ha : a' = d + t * a)
    (hb : b' = d + t * b) : Compares o a' b' := by
  subst ha hb
  cases o with
  | lt => exact add_lt_add_right (mul_lt_mul_of_pos_left h pos) d
  | eq => exact congrArg (fun x => d + t * x) h
  | gt => exact add_lt_add_right (mul_lt_mul_of_pos_left h pos) d

section
variable {g : Nat → ℝ} {rm : Rnd} {neg : Bool} {X : ℝ} {lo : Nat}

/-- The unit that the model adds is the one that picks. -/
theorem picks_up {rest : Ordering} {inexact : Bool} (le : g lo ≤ X) (lt : X < g (lo + 1))
    (half : Compares rest (2 * X) (g lo + g (lo + 1))) (off : inexact = true ↔ X ≠ g lo) :
    Picks g rm neg X (lo + (rm.up neg (lo % 2 == 1) rest inexact).toNat) := by
  refine ⟨lo, le, lt, ?_⟩
  cases rm with
  | rtz => rfl
  | rdn => cases neg <;> cases inexact <;> simp_all [Rnd.up]
  | rup => cases neg <;> cases inexact <;> simp_all [Rnd.up]
  | rne =>
    cases rest with
    | lt => exact ⟨.inl ⟨rfl, half.le⟩, fun t => absurd t half.ne⟩
    | gt => exact ⟨.inr ⟨rfl, half.le⟩, fun t => absurd t half.ne'⟩
    | eq =>
      have tie : 2 * X = g lo + g (lo + 1) := half
      rcases Nat.mod_two_eq_zero_or_one lo with even | odd
      · exact ⟨.inl ⟨by simp [Rnd.up, even], tie.le⟩, fun _ => by simp [Rnd.up, even]⟩
      · exact ⟨.inr ⟨by simp [Rnd.up, odd], tie.ge⟩, fun _ => by simp [Rnd.up, odd]; omega⟩
  | rmm =>
    cases rest with
    | lt => exact .inl ⟨rfl, half⟩
    | eq => exact .inr ⟨rfl, Eq.ge half⟩
    | gt => exact .inr ⟨rfl, half.le⟩

/-- A magnitude on the grid is its own pick. -/
theorem picks_exact (mono : StrictMono g) (on : X = g lo) : Picks g rm neg X lo := by
  have step := mono (Nat.lt_succ_self lo)
  have := picks_up (rm := rm) (neg := neg) (rest := .lt) (inexact := false) on.ge (on ▸ step)
    (show 2 * X < _ by linarith) (by simp [on])
  cases rm <;> simpa [Rnd.up] using this

/-- Between two neighbours there is nothing on the grid. -/
theorem off_grid (mono : StrictMono g) {lo : Nat} (c : Nat) (le : g lo ≤ X) (lt : X < g (lo + 1))
    (off : X ≠ g lo) : g c ≠ X := by
  intro on
  have h1 : lo < c := mono.lt_iff_lt.mp (on ▸ lt_of_le_of_ne le off.symm)
  have h2 : c < lo + 1 := mono.lt_iff_lt.mp (on ▸ lt)
  omega

end

/-- The multiples of a unit. -/
noncomputable def multiples (q : Int) (c : Nat) : ℝ := c * 2 ^ q

theorem multiples_strictMono (q : Int) : StrictMono (multiples q) := fun _ _ h =>
  mul_lt_mul_of_pos_right (Nat.cast_lt.mpr h) (by positivity)

/-- What a cut leaves below its unit, compared with half a unit. -/
theorem compares_rest {r k : Nat} {s : ℝ} {sticky : Bool} (hs : 0 ≤ s ∧ s < 1) (hst : sticky = true ↔ s ≠ 0) :
    Compares (if r < 2 ^ (k - 1) then .lt else if 2 ^ (k - 1) < r then .gt else if sticky then .gt else .eq)
      (r + s) (2 ^ (k - 1)) := by
  split
  next h =>
    have : ((r + 1 : Nat) : ℝ) ≤ ((2 ^ (k - 1) : Nat) : ℝ) := Nat.cast_le.mpr h
    push_cast at this
    exact show (r : ℝ) + s < _ by linarith
  next h =>
    split
    next h' =>
      have : ((2 ^ (k - 1) : Nat) : ℝ) < r := Nat.cast_lt.mpr h'
      push_cast at this
      exact show _ < (r : ℝ) + s by linarith
    next h' =>
      obtain rfl : r = 2 ^ (k - 1) := by omega
      split
      next st =>
        have := lt_of_le_of_ne hs.1 (hst.mp st).symm
        refine show (2 : ℝ) ^ (k - 1) < _ from ?_
        push_cast
        linarith
      next st =>
        have : s = 0 := by simpa [st] using hst
        refine show _ = (2 : ℝ) ^ (k - 1) from ?_
        rw [this]
        push_cast
        ring

/-- The cut of a held magnitude at a unit is the pick among the multiples of the unit, and says whether it is inexact. -/
theorem cutAt_picks {m : Nat} {e q : Int} {sticky : Bool} {X : ℝ} (rm : Rnd) (neg : Bool) (h : Held m e sticky X)
    (fine : sticky = true → e < q) :
    Picks (multiples q) rm neg X (cutAt rm neg m e sticky q).1 ∧
      ((cutAt rm neg m e sticky q).2 = true ↔ multiples q (cutAt rm neg m e sticky q).1 ≠ X) := by
  have mono := multiples_strictMono q
  unfold cutAt
  split
  next le =>
    obtain rfl : sticky = false := by cases sticky <;> simp_all; omega
    obtain rfl : X = m * 2 ^ e := by simpa [Held] using h
    have on : multiples q (m * 2 ^ (e - q).toNat) = m * 2 ^ e := by
      rw [multiples]
      push_cast
      rw [mul_assoc, ← zpow_natCast, ← zpow_add₀ two_ne_zero, Int.toNat_of_nonneg (by omega), sub_add_cancel]
    exact ⟨picks_exact mono on.symm, by simp [on]⟩
  next lt =>
    obtain ⟨lo, hi, st⟩ := h.le
    obtain ⟨k, rfl⟩ : ∃ k : Nat, q = e + (k + 1) := ⟨(q - e).toNat - 1, by omega⟩
    have hk : (e + (k + 1) - e).toNat = k + 1 := by omega
    dsimp only
    rw [hk]
    have u : (0 : ℝ) < 2 ^ e := by positivity
    have unit : (2 : ℝ) ^ (e + (k + 1 : Int)) = 2 ^ (k + 1) * 2 ^ e := by
      rw [zpow_add₀ two_ne_zero, mul_comm]
      norm_cast
    have parts : (m : ℝ) = 2 ^ (k + 1) * (m / 2 ^ (k + 1) : Nat) + (m % 2 ^ (k + 1) : Nat) := by
      exact_mod_cast (Nat.div_add_mod m (2 ^ (k + 1))).symm
    have small : ((m % 2 ^ (k + 1) : Nat) : ℝ) + 1 ≤ 2 ^ (k + 1) := by
      exact_mod_cast Nat.mod_lt m (by positivity : 0 < 2 ^ (k + 1))
    generalize m / 2 ^ (k + 1) = w at *
    generalize m % 2 ^ (k + 1) = r at *
    obtain ⟨s, rfl⟩ : ∃ s, X = (m + s) * 2 ^ e := ⟨X / 2 ^ e - m, by field_simp; ring⟩
    have hs : 0 ≤ s ∧ s < 1 := ⟨by nlinarith, by nlinarith⟩
    have hst : sticky = true ↔ s ≠ 0 := by
      rw [st, ne_eq, mul_left_inj' u.ne']
      simp
    have le : multiples (e + (k + 1)) w ≤ (m + s) * 2 ^ e := by
      rw [multiples, unit, parts]
      nlinarith [hs.1, (Nat.cast_nonneg r : (0 : ℝ) ≤ r)]
    have lt' : (m + s) * 2 ^ e < multiples (e + (k + 1)) (w + 1) := by
      rw [multiples, unit, parts]
      push_cast
      nlinarith [hs.2]
    have off : (r != 0 || sticky) = true ↔ (m + s) * 2 ^ e ≠ multiples (e + (k + 1)) w := by
      have zero : (r : ℝ) + s = 0 ↔ (r : ℝ) = 0 ∧ s = 0 := add_eq_zero_iff_of_nonneg (Nat.cast_nonneg r) hs.1
      rw [multiples, unit, ← mul_assoc, ne_eq, mul_left_inj' u.ne', parts, mul_comm, add_assoc, add_eq_left, zero,
        Nat.cast_eq_zero, not_and_or, ← ne_eq s, ← hst]
      simp
    have half : Compares (if r < 2 ^ (k + 1 - 1) then .lt else if 2 ^ (k + 1 - 1) < r then .gt else if sticky then .gt else .eq)
        (2 * ((m + s) * 2 ^ e)) (multiples (e + (k + 1)) w + multiples (e + (k + 1)) (w + 1)) := by
      refine (compares_rest (r := r) (k := k + 1) hs hst).affine (t := 2 * 2 ^ e) (d := 2 * (w * 2 ^ (k + 1) * 2 ^ e))
        (by positivity) ?_ ?_
      · rw [parts]; ring
      · rw [multiples, multiples, unit, Nat.add_sub_cancel]; push_cast; ring
    refine ⟨picks_up le lt' half off, ?_⟩
    rw [off]
    by_cases on : (m + s) * 2 ^ e = multiples (e + (k + 1)) w
    · have none : (r != 0 || sticky) = false := by rw [Bool.eq_false_iff, ne_eq, off]; simp [on]
      obtain ⟨hr, hs0⟩ : r = 0 ∧ sticky = false := by simpa using none
      have : rm.up neg (w % 2 == 1) .lt false = false := by cases rm <;> simp [Rnd.up]
      simp [hr, hs0, this, on]
    · exact iff_of_true on (off_grid mono _ le lt' on)

section
variable {f : Fmt} {m : Nat} {e : Int} {sticky : Bool} {X : ℝ}

/-- The binade of a held magnitude is that of its mantissa. -/
theorem Held.binade (h : Held m e sticky X) (m0 : m ≠ 0) :
    (2 : ℝ) ^ ((m.log2 : Int) + e) ≤ X ∧ X < 2 ^ ((m.log2 : Int) + 1 + e) := by
  obtain ⟨low, high, -⟩ := h.le
  have u : (0 : ℝ) < 2 ^ e := by positivity
  rw [zpow_add₀ two_ne_zero, zpow_add₀ two_ne_zero (_ + 1)]
  exact ⟨(mul_le_mul_of_nonneg_right (by exact_mod_cast Nat.log2_self_le m0) u.le).trans low,
    high.trans_le (mul_le_mul_of_nonneg_right (by exact_mod_cast Nat.lt_log2_self (n := m)) u.le)⟩

/-- The binade in which a magnitude is rounded holds both its neighbours (02 R44). -/
theorem neighbours_in_binade (h : Held m e sticky X) (m0 : m ≠ 0) {lo : Nat}
    (le : multiples (max ((m.log2 : Int) + e - f.fbits) f.emin) lo ≤ X)
    (lt : X < multiples (max ((m.log2 : Int) + e - f.fbits) f.emin) (lo + 1)) :
    ((max ((m.log2 : Int) + e - f.fbits) f.emin - f.emin).toNat = 0 ∨ 2 ^ f.fbits ≤ lo) ∧ lo < 2 * 2 ^ f.fbits := by
  obtain ⟨lower, upper⟩ := h.binade m0
  set q := max ((m.log2 : Int) + e - f.fbits) f.emin with hq
  have unit : (0 : ℝ) < 2 ^ q := by positivity
  constructor
  · by_cases z : (q - f.emin).toNat = 0
    · exact .inl z
    · have top : (m.log2 : Int) + e = f.fbits + q := by omega
      rw [top, zpow_add₀ two_ne_zero, zpow_natCast] at lower
      have := lt_of_mul_lt_mul_right (lower.trans_lt lt) unit.le
      exact .inr (Nat.lt_succ_iff.mp (by exact_mod_cast this))
  · have top : (2 : ℝ) ^ ((m.log2 : Int) + 1 + e) ≤ 2 ^ ((f.fbits + 1 : Nat) + q) := by
      refine zpow_le_zpow_right₀ one_le_two ?_
      push_cast
      omega
    rw [zpow_add₀ two_ne_zero (_ : Int) q, zpow_natCast] at top
    have := lt_of_mul_lt_mul_right (le.trans_lt (upper.trans_le top)) unit.le
    rw [← Nat.pow_succ']
    exact_mod_cast this

/-- Rounding before the choice of an overflow result (02 R44): the code is the pick among the magnitudes of the format, the
result overflows where that lies beyond the greatest finite one, and else raises flags, NX among them, where it is inexact. -/
theorem roundMag_spec (sane : f.Sane) (rm : Rnd) (neg : Bool) (h : Held m e sticky X)
    (fine : sticky = true → f.fbits < m.log2) :
    let r := f.roundMag rm neg m e sticky
    Picks f.grid rm neg X r.1 ∧ (r.2.1 = true ↔ f.maxCode < r.1) ∧
      (r.2.1 = false → f.grid r.1 = X ∧ r.2.2 = 0 ∨ f.grid r.1 ≠ X ∧ (r.2.2 = flagNX ∨ r.2.2 = flagUF ||| flagNX)) := by
  have mono := grid_strictMono f
  unfold Fmt.roundMag
  split
  next z =>
    obtain ⟨rfl, st⟩ := z
    obtain rfl : sticky = false := by simpa using st
    obtain rfl : X = 0 := by simpa [Held] using h
    have zero : f.grid 0 = 0 := by simp [Fmt.grid]
    exact ⟨picks_exact mono zero.symm, by simp, fun _ => .inl ⟨zero, rfl⟩⟩
  next nz =>
    have m0 : m ≠ 0 := by
      rintro rfl
      cases sticky with
      | false => simp at nz
      | true => exact absurd (fine rfl) (by simp)
    have in_binade {lo : Nat} := neighbours_in_binade (f := f) (lo := lo) h m0
    dsimp only
    set q := max ((m.log2 : Int) + e - f.fbits) f.emin with hq
    obtain ⟨pick, inexact⟩ := cutAt_picks rm neg h (q := q) fun st => by have := fine st; omega
    obtain ⟨lo, le, lt, near⟩ := pick.neighbour
    have same {c : Nat} (hc : multiples q c ≤ X ∧ X < multiples q (c + 1)) :
        f.grid ((q - f.emin).toNat * 2 ^ f.fbits + c) = multiples q c ∧
          f.grid ((q - f.emin).toNat * 2 ^ f.fbits + (c + 1)) = multiples q (c + 1) := by
      obtain ⟨lower, upper⟩ := in_binade hc.1 hc.2
      have unit : f.emin + ((q - f.emin).toNat : Int) = q := by omega
      rw [Fmt.grid, Fmt.grid, mag_binade lower upper.le, mag_binade (lower.imp id fun h => by omega) upper, unit]
      simp [multiples]
    have value : f.grid ((q - f.emin).toNat * 2 ^ f.fbits + (cutAt rm neg m e sticky q).1) =
        multiples q (cutAt rm neg m e sticky q).1 := by
      rcases near with near | ⟨near, -⟩ <;> rw [near]
      exacts [(same ⟨le, lt⟩).1, (same ⟨le, lt⟩).2]
    have even : (q - f.emin).toNat * 2 ^ f.fbits % 2 = 0 := by
      obtain ⟨-, hf, -⟩ := sane
      obtain ⟨k, hk⟩ : ∃ k, f.fbits = k + 1 := ⟨f.fbits - 1, by omega⟩
      rw [hk, Nat.pow_succ, ← Nat.mul_assoc, Nat.mul_mod_left]
    have shifted := pick.shift even fun lo a b => same ⟨a, b⟩
    generalize (cutAt rm neg m e sticky q).1 = w at *
    generalize (cutAt rm neg m e sticky q).2 = ix at *
    split
    next big => exact ⟨shifted, by simpa using big, by simp⟩
    next fits =>
      refine ⟨shifted, by simpa using fits, fun _ => ?_⟩
      dsimp only
      rw [value]
      cases ix with
      | false => exact .inl ⟨by simpa using inexact, rfl⟩
      | true =>
        refine .inr ⟨inexact.mp rfl, ?_⟩
        rw [if_pos rfl]
        split
        exacts [.inr rfl, .inl rfl]

end

end Sys2Proof.Machine
end

section
/-! SUPPORT. Rounded results (02 R43 to R45, R54), and O21. -/
namespace Sys2Proof.Machine
open Sys2Proof.Claim

section
variable {f : Fmt} {rm : Rnd} {neg : Bool} {m : Nat} {e : Int} {sticky : Bool} {X : ℝ}

theorem round_eq (f : Fmt) (rm : Rnd) (neg : Bool) (m : Nat) (e : Int) (sticky : Bool) :
    f.round rm neg m e sticky = if (f.roundMag rm neg m e sticky).2.1 then { bits := f.overflow rm neg, flags := flagOF ||| flagNX }
      else { bits := f.pack neg (f.roundMag rm neg m e sticky).1, flags := (f.roundMag rm neg m e sticky).2.2 } := by
  unfold Fmt.round
  split
  next h => simp [h]
  next h => simp [h]

/-- A conversion of a finite value: the code picked, or what the format puts for an overflow (02 R54). -/
theorem convert_fin (f : Fmt) (rm : Rnd) (nbv : Nat) (neg : Bool) (m : Nat) (e : Int) (sticky : Bool) :
    f.convert rm nbv (.fin neg m e) sticky = if (f.roundMag rm neg m e sticky).2.1 then
        (if !f.narrow then { bits := f.overflow rm neg, flags := flagOF ||| flagNX }
        else if f.fp8 && nbv == 1 then f.nanR (flagOF ||| flagNX)
        else { bits := f.pack neg f.maxCode, flags := flagOF ||| flagNX ||| flagSAT })
      else { bits := f.pack neg (f.roundMag rm neg m e sticky).1, flags := (f.roundMag rm neg m e sticky).2.2 } := by
  unfold Fmt.convert
  dsimp only
  split
  next h => simp [h]
  next h => simp [h]

/-- A result that overflows with OF, and else takes the code and flags of roundMag, is rounded rightly. -/
theorem roundedTo_of_spec (sane : f.Sane) (h : Held m e sticky X) (fine : sticky = true → f.fbits < m.log2) {big : FR}
    (hf : big.flags &&& flagOF ≠ 0) : RoundedTo f rm (under neg X) (if (f.roundMag rm neg m e sticky).2.1 then big
      else { bits := f.pack neg (f.roundMag rm neg m e sticky).1, flags := (f.roundMag rm neg m e sticky).2.2 }) := by
  obtain ⟨pick, beyond, fits⟩ := roundMag_spec sane rm neg h fine
  split
  next ov => exact roundedTo_of_overflow sane pick (beyond.mp ov) hf
  next ov =>
    have le : (f.roundMag rm neg m e sticky).1 ≤ f.maxCode := Nat.le_of_not_lt fun lt => ov (beyond.mpr lt)
    rcases fits (by simpa using ov) with ⟨on, fl⟩ | ⟨off, fl | fl⟩ <;> rw [fl]
    · exact roundedTo_of_picks sane pick le (iff_of_true rfl on) rfl
    · exact roundedTo_of_picks sane pick le (iff_of_false (by decide) off) rfl
    · exact roundedTo_of_picks sane pick le (iff_of_false (by decide) off) rfl

theorem round_roundedTo (sane : f.Sane) (h : Held m e sticky X) (fine : sticky = true → f.fbits < m.log2) :
    RoundedTo f rm (under neg X) (f.round rm neg m e sticky) := by
  rw [round_eq]
  exact roundedTo_of_spec sane h fine (show (flagOF ||| flagNX) &&& flagOF ≠ 0 by decide)

theorem convert_roundedTo (sane : f.Sane) (nbv : Nat) (h : Held m e sticky X) (fine : sticky = true → f.fbits < m.log2) :
    RoundedTo f rm (under neg X) (f.convert rm nbv (.fin neg m e) sticky) := by
  rw [convert_fin]
  refine roundedTo_of_spec sane h fine ?_
  split
  · exact show (flagOF ||| flagNX) &&& flagOF ≠ 0 by decide
  · split
    · exact show (flagOF ||| flagNX) &&& flagOF ≠ 0 by decide
    · exact show (flagOF ||| flagNX ||| flagSAT) &&& flagOF ≠ 0 by decide

/-- A magnitude on the grid is rounded to itself, without a flag. -/
theorem roundMag_on_grid (sane : f.Sane) (h : Held m e sticky X) (fine : sticky = true → f.fbits < m.log2) {c : Nat}
    (on : f.grid c = X) (le : c ≤ f.maxCode) : f.roundMag rm neg m e sticky = (c, false, 0) := by
  obtain ⟨pick, beyond, fits⟩ := roundMag_spec sane rm neg h fine
  have same := pick.eq_of_on (grid_strictMono f) on
  generalize f.roundMag rm neg m e sticky = r at *
  obtain ⟨c', ov, fl⟩ := r
  obtain rfl : c' = c := same
  obtain rfl : ov = false := by
    rw [Bool.eq_false_iff]
    exact fun h => absurd (beyond.mp h) (Nat.not_lt.mpr le)
  rcases fits rfl with ⟨-, rfl⟩ | ⟨off, -⟩
  exacts [rfl, absurd on off]

theorem round_on_grid (sane : f.Sane) (h : Held m e sticky X) (fine : sticky = true → f.fbits < m.log2) {c : Nat}
    (on : f.grid c = X) (le : c ≤ f.maxCode) : f.round rm neg m e sticky = { bits := f.pack neg c } := by
  rw [round_eq, roundMag_on_grid sane h fine on le]
  rfl

/-- A mantissa that the format's significand holds, above the least unit, stands for a magnitude on the grid. -/
theorem exists_code (hm : m.log2 ≤ f.fbits) (he : f.emin ≤ e) : ∃ c, f.mag c = m * 2 ^ e := by
  obtain ⟨d, rfl⟩ : ∃ d : Nat, e = f.emin + d := ⟨(e - f.emin).toNat, by omega⟩
  obtain ⟨j, hj⟩ := Nat.exists_eq_add_of_le hm
  rcases Nat.eq_zero_or_pos m with rfl | pos
  · exact ⟨0, by simp⟩
  have low : 2 ^ m.log2 ≤ m := Nat.log2_self_le pos.ne'
  have high : m < 2 ^ m.log2 * 2 := by rw [← Nat.pow_succ]; exact Nat.lt_log2_self
  have moved {K i : Nat} (h : K + i = d) : ((m * 2 ^ i : Nat) : ℚ) * 2 ^ (f.emin + (K : Int)) = m * 2 ^ (f.emin + (d : Int)) := by
    rw [← h]
    push_cast
    rw [← add_assoc, zpow_add₀ two_ne_zero _ (i : Int), zpow_natCast]
    ring
  rcases Nat.le_total d j with le | le
  · refine ⟨0 * 2 ^ f.fbits + m * 2 ^ d, (mag_binade (.inl rfl) ?_).trans (moved (Nat.zero_add d))⟩
    rw [hj, Nat.pow_add]
    calc m * 2 ^ d ≤ 2 ^ m.log2 * 2 * 2 ^ j := Nat.mul_le_mul high.le (Nat.pow_le_pow_right (by decide) le)
      _ = _ := by ring
  · refine ⟨(d - j) * 2 ^ f.fbits + m * 2 ^ j, (mag_binade (.inr ?_) ?_).trans (moved (by omega))⟩ <;> rw [hj, Nat.pow_add]
    · exact Nat.mul_le_mul_right _ low
    · calc m * 2 ^ j ≤ 2 ^ m.log2 * 2 * 2 ^ j := Nat.mul_le_mul_right _ high.le
        _ = _ := by ring

end

/-- A zero is the rounding of zero. -/
theorem roundedTo_zero {f : Fmt} (sane : f.Sane) (rm : Rnd) (n : Bool) : RoundedTo f rm 0 { bits := f.pack n 0 } := by
  have flat : under n 0 = 0 := by cases n <;> simp [under]
  have zero : f.grid 0 = 0 := by simp [Fmt.grid]
  have := roundedTo_of_picks sane (rm := rm) (neg := n) (fl := 0) (picks_exact (grid_strictMono f) zero.symm) (Nat.zero_le _)
    (iff_of_true rfl zero) rfl
  rwa [flat] at this

theorem cast_rational (neg : Bool) (m : Nat) (e : Int) : ((rational neg m e : ℚ) : ℝ) = under neg (m * 2 ^ e) := by
  cases neg <;> simp [rational, under]

/-- The rounding of an exact value. -/
theorem round_rational {f : Fmt} (sane : f.Sane) (rm : Rnd) (neg : Bool) (m : Nat) (e : Int) :
    RoundedTo f rm ((rational neg m e : ℚ) : ℝ) (f.round rm neg m e) := by
  rw [cast_rational]
  exact round_roundedTo sane (held_exact m e) nofun

end Sys2Proof.Machine

open Sys2Proof Sys2Proof.Machine Sys2Proof.Claim

/-- Settles O21: rounding picks among the magnitudes of the format, in rising order, the neighbour that the mode names; read
back from the real numbers into the rational ones. -/
theorem roundingIsCorrect : Obligations.RoundingIsCorrect := by
  intro f rm neg m e wide v r hof
  obtain ⟨q, w, hq, rfl, nx, rtz, rdn, rup, near, even, away⟩ := (round_rational (sane_of_wide wide) rm neg m e).2 hof
  have low : f.low = 0 := by rcases wide with rfl | rfl <;> rfl
  rw [low, Nat.pow_zero, Nat.div_one] at even
  refine ⟨q, hq, by exact_mod_cast nx, fun h => ?_, fun h => ?_, fun h => ?_, fun h x y hy => ?_, fun h x y hy => ?_,
    fun h x y hy => ?_⟩
  · exact ⟨by exact_mod_cast (rtz h).1, fun x y hy => by exact_mod_cast (rtz h).2 y ⟨x, y, hy, rfl⟩⟩
  · exact ⟨by exact_mod_cast (rdn h).1, fun x y hy => by exact_mod_cast (rdn h).2 y ⟨x, y, hy, rfl⟩⟩
  · exact ⟨by exact_mod_cast (rup h).1, fun x y hy => by exact_mod_cast (rup h).2 y ⟨x, y, hy, rfl⟩⟩
  · exact_mod_cast near h y ⟨x, y, hy, rfl⟩
  · exact_mod_cast even h y ⟨x, y, hy, rfl⟩
  · exact_mod_cast away h y ⟨x, y, hy, rfl⟩
end

section
/-! SUPPORT. Sums and products (02 R44, R51): the exact value of finite contributors, rounded once. -/
namespace Sys2Proof.Machine
open Sys2Proof.Claim

/-! ### Exact values -/

theorem rational_signed (n : Bool) (m : Nat) (e : Int) : rational n m e = (signed n m : ℚ) * 2 ^ e := by
  cases n <;> simp [rational, signed]

@[simp] theorem rational_zero (n : Bool) (e : Int) : rational n 0 e = 0 := by simp [rational]

theorem rational_eq_zero {n : Bool} {m : Nat} {e : Int} : rational n m e = 0 ↔ m = 0 := by
  have : (2 : ℚ) ^ e ≠ 0 := by positivity
  cases n <;> simp [rational, this]

theorem rational_not (n : Bool) (m : Nat) (e : Int) : rational (!n) m e = -rational n m e := by
  cases n <;> simp [rational]

theorem rational_mul (n k : Bool) (m p : Nat) (e x : Int) :
    rational (n ^^ k) (m * p) (e + x) = rational n m e * rational k p x := by
  have : (2 : ℚ) ^ (e + x) = 2 ^ e * 2 ^ x := zpow_add₀ two_ne_zero e x
  cases n <;> cases k <;> simp [rational, this] <;> ring

/-- An integer times a power of two, by sign and magnitude. -/
theorem rational_natAbs (v e : Int) : rational (decide (v < 0)) v.natAbs e = (v : ℚ) * 2 ^ e := by
  have : signed (decide (v < 0)) v.natAbs = v := by
    rcases lt_or_ge v 0 with h | h
    · simp [signed, h, abs_of_neg h]
    · simp [signed, not_lt.mpr h, abs_of_nonneg h]
  rw [rational_signed, this]

/-- A finite encoding by sign, mantissa and exponent. -/
theorem valueOf_fin {f : Fmt} {w : Nat} {u : ℚ} (h : valueOf f w = some u) :
    ∃ n m e, f.unpack w = .fin n m e ∧ rational n m e = u := by
  unfold valueOf at h
  split at h
  next n m e hu => exact ⟨n, m, e, hu, Option.some.inj h⟩
  next => cases h

/-- The exact sum of the finite contributors of a list. -/
def total : List Contrib → ℚ
  | [] => 0
  | .val (.fin n m e) :: l => rational n m e + total l
  | _ :: l => total l

theorem zpow_toNat {q e : Int} (le : q ≤ e) : (2 : ℚ) ^ (e - q).toNat * 2 ^ q = 2 ^ e := by
  rw [← zpow_natCast, ← zpow_add₀ two_ne_zero, Int.toNat_of_nonneg (by omega), sub_add_cancel]

theorem exactSum_total (l : List Contrib) : ((exactSum l).1 : ℚ) * 2 ^ (exactSum l).2 = total l := by
  fun_induction exactSum l with
  | case1 => simp [total]
  | case2 n e l v x hv ih => rw [hv] at ih; simpa [total] using ih
  | case3 n m e l x m0 hv ih =>
    rw [hv] at ih
    rw [total, ← ih, rational_signed]
    simp
  | case4 n m e l v x hv m0 v0 q ih =>
    rw [hv] at ih
    rw [total, ← ih, rational_signed, ← zpow_toNat (min_le_left e x), ← zpow_toNat (min_le_right e x)]
    push_cast
    ring
  | case5 c l hc ih =>
    rw [ih, total]
    exact hc

/-! ### Sums -/

/-- A finite contributor. -/
def Contrib.Fin (c : Contrib) : Prop := ∃ n m e, c = .val (.fin n m e)

@[simp] theorem fin_val (n : Bool) (m : Nat) (e : Int) : (Contrib.val (.fin n m e)).Fin := ⟨n, m, e, rfl⟩

/-- A list of finite contributors has no special case (02 R51). -/
theorem sumSpecial_fin (f : Fmt) {l : List Contrib} (fin : ∀ c ∈ l, c.Fin) : sumSpecial f l = none := by
  have inf (b : Bool) : l.any (Contrib.isInf b) = false :=
    List.any_eq_false.mpr fun c hc => by obtain ⟨n, m, e, rfl⟩ := fin c hc; simp [Contrib.isInf]
  have nan : l.any Contrib.isNan = false :=
    List.any_eq_false.mpr fun c hc => by obtain ⟨n, m, e, rfl⟩ := fin c hc; simp [Contrib.isNan]
  have inval : l.contains .invalid = false := by
    rw [Bool.eq_false_iff, ne_eq, List.contains_iff_mem]
    rintro hc
    obtain ⟨n, m, e, h⟩ := fin _ hc
    cases h
  rw [sumSpecial, inf, inf, nan, inval]
  rfl

/-- A sum of finite contributors that is not zero is its exact value, or half of it, rounded once; an exact zero is a zero. -/
theorem fsum_fin (f : Fmt) (rm : Rnd) {l : List Contrib} (half : Bool) (fin : ∀ c ∈ l, c.Fin) :
    (total l = 0 → ∃ n, fsum f rm l half = { bits := f.pack n 0 }) ∧
    (total l ≠ 0 → ∃ n m e, rational n m e = (if half then total l / 2 else total l) ∧ fsum f rm l half = f.round rm n m e) := by
  have value := exactSum_total l
  have zero : (exactSum l).1 = 0 ↔ total l = 0 := by
    have : (2 : ℚ) ^ (exactSum l).2 ≠ 0 := by positivity
    rw [← value, mul_eq_zero, or_iff_left this, Int.cast_eq_zero]
  unfold fsum
  rw [sumSpecial_fin f fin]
  dsimp only
  refine ⟨fun h => ⟨_, if_pos (zero.mpr h)⟩, fun h => ⟨_, _, _, ?_, if_neg (mt zero.mp h)⟩⟩
  rw [rational_natAbs, ← value]
  cases half with
  | false => simp
  | true => rw [if_pos rfl, if_pos rfl, zpow_sub_one₀ two_ne_zero]; ring

/-! ### Products -/

/-- The product of two finite values is one finite contributor. -/
theorem product_fin (n k flip : Bool) (m p : Nat) (e x : Int) :
    ∃ j q y, product (.fin n m e) (.fin k p x) flip = .val (.fin j q y) ∧
      rational j q y = if flip then -(rational n m e * rational k p x) else rational n m e * rational k p x := by
  refine ⟨_, _, _, rfl, ?_⟩
  cases flip with
  | false => rw [Bool.xor_false, rational_mul]; rfl
  | true => rw [Bool.xor_true, rational_not, rational_mul]; rfl

/-- FADD to FNMA of finite operands (05 R124). -/
theorem sumsAndProducts : SumsAndProductsRoundOnce := by
  intro f rm a b d u v w wide hu hv hw rounds
  obtain ⟨n, m, e, ha, rfl⟩ := valueOf_fin hu
  obtain ⟨k, p, x, hb, rfl⟩ := valueOf_fin hv
  obtain ⟨j, q, y, hd, rfl⟩ := valueOf_fin hw
  have sum {c c' : Contrib} {z : ℚ} (h : ∀ b ∈ [c, c'], b.Fin) (hz : total [c, c'] = z) :
      rounds (fsum f rm [c, c']) z := fun nz => by
    obtain ⟨n, m, e, hr, hf⟩ := (fsum_fin f rm false h).2 (hz ▸ nz)
    exact ⟨n, m, e, hr.trans (by simpa using hz), hf⟩
  refine ⟨?_, ?_, ?_, ?_, ?_, ?_⟩
  · rw [fadd, ha, hb]
    exact sum (by simp) (by simp [total])
  · rw [fsub, ha, hb]
    exact sum (by simp [FVal.flip]) (by simp [total, FVal.flip, rational_not]; ring)
  · obtain ⟨i, r, z, hp, hz⟩ := product_fin n k false m p e x
    rw [fmul, ha, hb, hp]
    exact fun nz => ⟨i, r, z, hz, if_neg fun h => nz (hz.symm.trans (rational_eq_zero.mpr h))⟩
  · obtain ⟨i, r, z, hp, hz⟩ := product_fin n k false m p e x
    rw [fma, ha, hb, hd, hp]
    exact sum (by simp) (by simp [total, hz])
  · obtain ⟨i, r, z, hp, hz⟩ := product_fin n k false m p e x
    rw [fms, ha, hb, hd, hp]
    exact sum (by simp [FVal.flip]) (by simp [total, FVal.flip, hz, rational_not]; ring)
  · obtain ⟨i, r, z, hp, hz⟩ := product_fin n k true m p e x
    rw [fnma, ha, hb, hd, hp]
    exact sum (by simp) (by simp [total, hz]; ring)

end Sys2Proof.Machine
end

section
/-! SUPPORT. Quotients, roots, integral rounding and estimates (02 R43, R44, R59 to R61, 05 R130), and O22. -/
namespace Sys2Proof.Machine
open Sys2Proof.Claim

/-! ### Values cut off with a sticky bit -/

/-- A number cut to an integer, its sticky bit telling what lies below, in units of a power of two. -/
theorem held_floor {t : ℝ} {n : Nat} {sticky : Bool} (le : (n : ℝ) ≤ t) (lt : t < n + 1)
    (st : sticky = true ↔ (n : ℝ) ≠ t) (e : Int) : Held n e sticky (t * 2 ^ e) := by
  have u : (0 : ℝ) < 2 ^ e := by positivity
  cases sticky with
  | false => simp at st; simp [Held, st]
  | true =>
    have := lt_of_le_of_ne le (st.mp rfl)
    exact ⟨mul_lt_mul_of_pos_right this u, mul_lt_mul_of_pos_right lt u⟩

/-- The quotient of two mantissas is the exact one cut off. -/
theorem held_quotient {p : Nat} (m k : Nat) (p0 : p ≠ 0) (e : Int) :
    Held (quotient m p k).1 e (quotient m p k).2 ((m * 2 ^ k / p : ℝ) * 2 ^ e) := by
  have pos : (0 : ℝ) < p := Nat.cast_pos.mpr (Nat.pos_of_ne_zero p0)
  have parts : (m * 2 ^ k : ℝ) = (m * 2 ^ k / p : Nat) * p + (m * 2 ^ k % p : Nat) := by
    exact_mod_cast (Nat.div_add_mod' (m * 2 ^ k) p).symm
  have small : ((m * 2 ^ k % p : Nat) : ℝ) < p := Nat.cast_lt.mpr (Nat.mod_lt _ (Nat.pos_of_ne_zero p0))
  refine held_floor ?_ ?_ ?_ e
  · rw [le_div_iff₀ pos, parts]
    exact le_add_of_nonneg_right (Nat.cast_nonneg _)
  · rw [div_lt_iff₀ pos, parts, add_mul, one_mul]
    exact add_lt_add_right small _
  · rw [ne_eq, eq_div_iff pos.ne', parts, show (quotient m p k).1 = m * 2 ^ k / p from rfl, left_eq_add, Nat.cast_eq_zero]
    simp [quotient]

/-- A quotient keeps the bits that its shift adds. -/
theorem lt_log2_quotient {m p : Nat} (m0 : m ≠ 0) (p0 : p ≠ 0) (k : Nat) :
    k < (quotient m p (k + 2 + p.log2)).1.log2 := by
  have pos := Nat.pos_of_ne_zero p0
  have le : 2 ^ (k + 1) ≤ m * 2 ^ (k + 2 + p.log2) / p := by
    rw [Nat.le_div_iff_mul_le pos]
    calc 2 ^ (k + 1) * p ≤ 2 ^ (k + 1) * 2 ^ (p.log2 + 1) := Nat.mul_le_mul_left _ Nat.lt_log2_self.le
      _ = 1 * 2 ^ (k + 2 + p.log2) := by ring
      _ ≤ m * 2 ^ (k + 2 + p.log2) := Nat.mul_le_mul_right _ (Nat.pos_of_ne_zero m0)
  exact (Nat.le_log2 (by have := Nat.one_le_two_pow (n := k + 1); unfold quotient; omega)).mpr le

/-! ### The integer square root -/

/-- Bit by bit the root of v is found: below 2^n more than r. -/
theorem isqrtBits_bounds (v : Nat) : ∀ n r, r * r ≤ v → v < (r + 2 ^ n) * (r + 2 ^ n) →
    isqrtBits n v r * isqrtBits n v r ≤ v ∧ v < (isqrtBits n v r + 1) * (isqrtBits n v r + 1)
  | 0, _, le, lt => ⟨le, lt⟩
  | n + 1, r, le, lt => by
    rw [isqrtBits]
    split
    next up => exact isqrtBits_bounds v n _ up (by rw [Nat.add_assoc, ← Nat.two_mul, ← Nat.pow_succ']; exact lt)
    next stay => exact isqrtBits_bounds v n r le (Nat.lt_of_not_le stay)

theorem isqrt_eq (v : Nat) : isqrt v = v.sqrt := by
  refine Nat.eq_sqrt.mpr (isqrtBits_bounds v _ 0 (Nat.zero_le v) ?_)
  rw [Nat.zero_add, ← Nat.pow_add]
  exact Nat.lt_log2_self.trans_le (Nat.pow_le_pow_right (by decide) (by omega))

/-! ### Signs and magnitudes as real numbers -/

theorem rational_neg_iff {n : Bool} {m : Nat} {e : Int} : rational n m e < 0 ↔ n = true ∧ m ≠ 0 := by
  have u : (0 : ℚ) < 2 ^ e := by positivity
  cases n with
  | false => simp only [rational, Bool.false_eq_true, if_false, one_mul, false_and, iff_false, not_lt]; positivity
  | true => simp [rational, u, Nat.pos_iff_ne_zero]

theorem under_zero (n : Bool) : under n 0 = 0 := by cases n <;> simp [under]

theorem under_mul_under (n : Bool) (X Y : ℝ) : under n X * under n Y = X * Y := by cases n <;> simp [under]

theorem under_inv (n : Bool) (X : ℝ) : (under n X)⁻¹ = under n X⁻¹ := by
  cases n <;> simp [under, inv_neg]

theorem under_div (n k : Bool) (X Y : ℝ) : under n X / under k Y = under (n ^^ k) (X / Y) := by
  cases n <;> cases k <;> simp [under, neg_div, div_neg]

/-! ### Quotients -/

theorem fdiv_roundedTo {f : Fmt} (sane : f.Sane) (rm : Rnd) {a b : Nat} {u v : ℚ} (hu : valueOf f a = some u)
    (hv : valueOf f b = some v) (nz : v ≠ 0) : RoundedTo f rm ((u / v : ℚ) : ℝ) (fdiv f rm a b) := by
  obtain ⟨n, m, e, ha, rfl⟩ := valueOf_fin hu
  obtain ⟨k, p, x, hb, rfl⟩ := valueOf_fin hv
  have p0 : p ≠ 0 := fun h => nz (rational_eq_zero.mpr h)
  rw [fdiv, ha, hb]
  dsimp only
  rw [if_neg p0]
  split
  next m0 =>
    rw [rational_eq_zero.mpr m0, zero_div, Rat.cast_zero]
    exact roundedTo_zero sane rm _
  next m0 =>
    rw [Rat.cast_div, cast_rational, cast_rational, under_div]
    have h := held_quotient m (f.fbits + 4 + p.log2) p0 (e - x - (f.fbits + 4 + p.log2 : Nat))
    have bits := lt_log2_quotient m0 p0 (f.fbits + 2)
    have value : (m * 2 ^ (f.fbits + 4 + p.log2) / p : ℝ) * 2 ^ (e - x - (f.fbits + 4 + p.log2 : Nat)) =
        m * 2 ^ e / (p * 2 ^ x) := by
      rw [zpow_sub₀ two_ne_zero, zpow_sub₀ two_ne_zero, zpow_natCast]
      field_simp
    rw [value] at h
    exact round_roundedTo sane h fun _ => by rw [show f.fbits + 4 = f.fbits + 2 + 2 from rfl]; omega

/-! ### Roots -/

/-- A mantissa moved to an even exponent stands for the same magnitude, whose root is the mantissa's at half the exponent. -/
theorem sqrt_evenScale (m : Nat) (e : Int) (k : Nat) :
    Real.sqrt (m * 2 ^ e) = Real.sqrt (evenScale m e k).1 * 2 ^ ((evenScale m e k).2 / 2) := by
  obtain ⟨h, even⟩ : ∃ h, (evenScale m e k).2 = 2 * h := by
    refine ⟨(evenScale m e k).2 / 2, ?_⟩
    simp only [evenScale]
    split <;> push_cast <;> omega
  have same : (m : ℝ) * 2 ^ e = (evenScale m e k).1 * 2 ^ (evenScale m e k).2 := by
    simp only [evenScale]
    push_cast
    rw [mul_assoc, ← zpow_natCast, ← zpow_add₀ two_ne_zero]
    congr 2
    push_cast
    ring
  rw [same, even, Int.mul_ediv_cancel_left _ two_ne_zero, Real.sqrt_mul (Nat.cast_nonneg _), two_mul, zpow_add₀ two_ne_zero,
    Real.sqrt_mul_self (by positivity)]

theorem le_evenScale {m : Nat} (m0 : m ≠ 0) (e : Int) (k : Nat) : 2 ^ (2 * k) ≤ (evenScale m e k).1 := by
  calc 2 ^ (2 * k) ≤ 1 * 2 ^ (2 * k + if e % 2 = 0 then 0 else 1) := by
        rw [Nat.one_mul]; exact Nat.pow_le_pow_right (by decide) (Nat.le_add_right _ _)
    _ ≤ (evenScale m e k).1 := Nat.mul_le_mul_right _ (Nat.pos_of_ne_zero m0)

/-- The integer root is the exact one cut off. -/
theorem held_isqrt (x : Nat) (e : Int) : Held (isqrt x) e (isqrt x * isqrt x != x) (Real.sqrt x * 2 ^ e) := by
  rw [isqrt_eq]
  refine held_floor Real.nat_sqrt_le_real_sqrt Real.real_sqrt_lt_nat_sqrt_succ ?_ e
  rw [bne_iff_ne, ne_eq, ne_eq, not_iff_not, eq_comm (a := (x.sqrt : ℝ)), Real.sqrt_eq_iff_mul_self_eq (by positivity) (by positivity)]
  exact_mod_cast eq_comm

theorem fsqrt_roundedTo {f : Fmt} (sane : f.Sane) (rm : Rnd) {a : Nat} {u : ℚ} (hu : valueOf f a = some u) (pos : 0 ≤ u) :
    RoundedTo f rm (Real.sqrt u) (fsqrt f rm a) := by
  obtain ⟨n, m, e, ha, rfl⟩ := valueOf_fin hu
  rw [fsqrt, ha]
  dsimp only
  split
  next m0 =>
    rw [rational_eq_zero.mpr m0, Rat.cast_zero, Real.sqrt_zero]
    exact roundedTo_zero sane rm _
  next m0 =>
    have plus : n = false := by
      rw [← Bool.not_eq_true]
      exact fun h => absurd (rational_neg_iff.mpr ⟨h, m0⟩) (not_lt.mpr pos)
    subst plus
    rw [cast_rational, show under false ((m : ℝ) * 2 ^ e) = m * 2 ^ e from rfl, sqrt_evenScale m e (f.fbits + 4)]
    refine round_roundedTo (neg := false) sane (held_isqrt _ _) fun _ => ?_
    have big : 2 ^ (f.fbits + 4) ≤ isqrt (evenScale m e (f.fbits + 4)).1 := by
      rw [isqrt_eq, Nat.le_sqrt, ← Nat.pow_add, ← Nat.two_mul]
      exact le_evenScale m0 e _
    have := (Nat.le_log2 (by have := Nat.one_le_two_pow (n := f.fbits + 4); omega)).mpr big
    omega

end Sys2Proof.Machine
end

section
/-! SUPPORT. Rounding to an integer (02 R43, R55, 05 R130). -/
namespace Sys2Proof.Machine
open Sys2Proof.Claim

section
variable {rm : Rnd} {n : Bool} {X : ℚ} {c : Nat}

/-- The lower integer neighbour of a magnitude is its floor, and its ceiling is that or the next. -/
theorem floor_ceil_of_neighbour {lo : Nat} (le : (lo : ℚ) ≤ X) (lt : X < lo + 1) :
    ⌊X⌋ = lo ∧ ⌈X⌉ = ((if X ≠ lo then lo + 1 else lo : Nat) : ℤ) := by
  refine ⟨Int.floor_eq_iff.mpr ⟨by exact_mod_cast le, by exact_mod_cast lt⟩, Int.ceil_eq_iff.mpr ?_⟩
  split
  next off => exact ⟨by push_cast; linarith [lt_of_le_of_ne le (Ne.symm off)], by push_cast; exact lt.le⟩
  next on => rw [not_not] at on; exact ⟨by push_cast; linarith, by push_cast; linarith⟩

/-- The distance of a nearest pick among the integers. -/
theorem Picks.near_integer (p : Picks (multiples 0) rm n (X : ℝ) c) (near : rm = .rne ∨ rm = .rmm) :
    |(c : ℚ) - X| ≤ 1 / 2 ∧ (|(c : ℚ) - X| = 1 / 2 → (rm = .rne → c % 2 = 0) ∧ (rm = .rmm → X < c)) := by
  obtain ⟨lo, le, lt, pick, tie⟩ := p.half near
  simp only [multiples, zpow_zero, mul_one, Nat.cast_succ] at le lt pick tie
  have le : (lo : ℚ) ≤ X := by exact_mod_cast le
  have lt : X < (lo : ℚ) + 1 := by exact_mod_cast lt
  have tie : 2 * X = lo + (lo + 1) → (rm = .rne → c % 2 = 0) ∧ (rm = .rmm → c = lo + 1) := fun h => tie (by exact_mod_cast h)
  rcases pick with ⟨rfl, h⟩ | ⟨rfl, h⟩
  · have h : 2 * X ≤ c + (c + 1) := by exact_mod_cast h
    rw [abs_of_nonpos (by linarith)]
    refine ⟨by linarith, fun eq => ?_⟩
    obtain ⟨even, up⟩ := tie (by linarith)
    exact ⟨even, fun r => absurd (up r) (by omega)⟩
  · have h : lo + (lo + 1) ≤ 2 * X := by exact_mod_cast h
    rw [Nat.cast_succ, abs_of_pos (by linarith)]
    exact ⟨by linarith, fun eq => ⟨(tie (by linarith)).1, fun _ => lt⟩⟩

/-- The pick among the integers is the integer that the mode names. -/
theorem roundedInt_of_picks (p : Picks (multiples 0) rm n (X : ℝ) c) : RoundedInt rm (if n then -X else X) (signed n c) := by
  have dist : |((signed n c : ℤ) : ℚ) - if n then -X else X| = |(c : ℚ) - X| := by
    cases n with
    | false => simp [signed]
    | true => rw [← abs_neg]; congr 1; simp [signed]; ring
  have pos : 0 ≤ X := by
    obtain ⟨lo, le, -⟩ := p
    exact_mod_cast (mul_nonneg (Nat.cast_nonneg lo) (by positivity)).trans le
  have away (h : rm = .rmm) (eq : |(c : ℚ) - X| = 1 / 2) : |if n then -X else X| < |((signed n c : ℤ) : ℚ)| := by
    have := (p.near_integer (.inr h)).2 eq |>.2 h
    cases n <;> simpa [signed, abs_of_nonneg pos] using this
  have even (h : rm = .rne) (eq : |(c : ℚ) - X| = 1 / 2) : signed n c % 2 = 0 := by
    have := (p.near_integer (.inl h)).2 eq |>.1 h
    cases n <;> simp only [signed, Bool.false_eq_true, if_true, if_false] <;> omega
  cases rm with
  | rne => exact ⟨dist ▸ (p.near_integer (.inl rfl)).1, fun eq => even rfl (dist ▸ eq)⟩
  | rmm => exact ⟨dist ▸ (p.near_integer (.inr rfl)).1, fun eq => away rfl (dist ▸ eq)⟩
  | rtz =>
    obtain ⟨lo, le, lt, rfl⟩ := p
    simp only [multiples, zpow_zero, mul_one, Nat.cast_succ] at le lt
    obtain ⟨down, -⟩ := floor_ceil_of_neighbour (X := X) (lo := c) (by exact_mod_cast le) (by exact_mod_cast lt)
    cases n with
    | false => simp [RoundedInt, signed, pos, down]
    | true =>
      rcases pos.eq_or_lt with rfl | gt
      · simp [RoundedInt, signed, ← down]
      · simp [RoundedInt, signed, not_le.mpr gt, Int.ceil_neg, down]
  | rdn =>
    obtain ⟨lo, le, lt, pick⟩ := p
    simp only [multiples, zpow_zero, mul_one, Nat.cast_succ] at le lt pick
    obtain ⟨down, up⟩ := floor_ceil_of_neighbour (X := X) (lo := lo) (by exact_mod_cast le) (by exact_mod_cast lt)
    cases n with
    | false => simp_all [RoundedInt, signed]
    | true => simp only [true_and] at pick; simp [RoundedInt, signed, Int.floor_neg, up, pick]; norm_cast
  | rup =>
    obtain ⟨lo, le, lt, pick⟩ := p
    simp only [multiples, zpow_zero, mul_one, Nat.cast_succ] at le lt pick
    obtain ⟨down, up⟩ := floor_ceil_of_neighbour (X := X) (lo := lo) (by exact_mod_cast le) (by exact_mod_cast lt)
    cases n with
    | false => simp [RoundedInt, signed, up, pick]; norm_cast
    | true => simp_all [RoundedInt, signed, Int.ceil_neg]

/-- The value rounded to an integer (02 R43), and whether it differs. -/
theorem roundToInt_spec (rm : Rnd) (n : Bool) (m : Nat) (e : Int) :
    RoundedInt rm (rational n m e) (roundToInt rm n m e).1 ∧
      ((roundToInt rm n m e).2 = true ↔ ((roundToInt rm n m e).1 : ℚ) ≠ rational n m e) := by
  obtain ⟨pick, inexact⟩ := cutAt_picks rm n (held_exact m e) (q := 0) nofun
  have cast : ((m * 2 ^ e : ℚ) : ℝ) = m * 2 ^ e := by push_cast; rfl
  rw [← cast] at pick inexact
  have value : rational n m e = if n then -(m * 2 ^ e : ℚ) else m * 2 ^ e := by cases n <;> simp [rational]
  rw [value]
  refine ⟨roundedInt_of_picks pick, inexact.trans (not_congr ?_)⟩
  simp only [multiples, zpow_zero, mul_one, roundToInt]
  cases n <;> simp only [signed, if_true, Bool.false_eq_true, if_false, Int.cast_neg, neg_inj] <;> norm_cast

end
end Sys2Proof.Machine
end

section
/-! SUPPORT. FRINT, the estimates and their steps (02 R59 to R61, 05 R130), and O22. -/
namespace Sys2Proof.Machine
open Sys2Proof.Claim

theorem low_of_wide {f : Fmt} (h : f = .f32 ∨ f = .f64) : f.low = 0 := by rcases h with rfl | rfl <;> rfl

/-- The sign bit of an encoding that has no container below it. -/
theorem testBit_signPos {f : Fmt} (h : f = .f32 ∨ f = .f64) (w : Nat) : w.testBit f.signPos = f.neg w := by
  rw [Fmt.neg, low_of_wide h, Nat.pow_zero, Nat.div_one, Nat.testBit_eq_decide_div_mod_eq, testBit]
  rfl

/-! ### FRINT -/

theorem log2_sig_le (f : Fmt) (c : Nat) : (f.sig c).log2 ≤ f.fbits := by
  have pos : 0 < 2 ^ f.fbits := by positivity
  have lt : f.sig c < 2 ^ (f.fbits + 1) := by
    have := Nat.mod_lt c pos
    rw [Nat.pow_succ]
    unfold Fmt.sig
    split <;> omega
  rcases Nat.eq_zero_or_pos (f.sig c) with z | p
  · simp [z]
  · exact Nat.lt_succ_iff.mp ((Nat.log2_lt p.ne').mpr lt)

/-- FP32 and FP64 hold every integer that their significands hold. -/
theorem integer_below_max {f : Fmt} (h : f = .f32 ∨ f = .f64) : f.emin ≤ 0 ∧ (2 ^ f.fbits : ℚ) ≤ f.mag f.maxCode := by
  have : 2 ^ f.fbits ≤ f.sig f.maxCode ∧ 0 ≤ f.exp f.maxCode ∧ f.emin ≤ 0 := by rcases h with rfl | rfl <;> decide
  obtain ⟨sig, exp, least⟩ := this
  refine ⟨least, ?_⟩
  calc (2 ^ f.fbits : ℚ) ≤ f.sig f.maxCode := by exact_mod_cast sig
    _ ≤ f.mag f.maxCode := le_mul_of_one_le_right (Nat.cast_nonneg _) (one_le_zpow₀ one_le_two exp)

theorem mag_lt (f : Fmt) (c : Nat) : f.mag c < 2 ^ (f.fbits + 1 + f.exp c : ℤ) := by
  rw [zpow_add₀ two_ne_zero]
  refine mul_lt_mul_of_pos_right ?_ (by positivity)
  have := Nat.lt_log2_self (n := f.sig c)
  have := this.trans_le (Nat.pow_le_pow_right (by decide) (Nat.succ_le_succ (log2_sig_le f c)))
  exact_mod_cast this

/-- A finite value rounded to an integer is a value of its format. -/
theorem integer_on_grid {f : Fmt} (h : f = .f32 ∨ f = .f64) {a : Nat} {n : Bool} {m : Nat} {e : Int} (ha : f.unpack a = .fin n m e)
    (rm : Rnd) : ∃ c, c ≤ f.maxCode ∧ f.mag c = (cutAt rm n m e false 0).1 := by
  obtain ⟨le, rfl, rfl, rfl⟩ := of_unpack_fin (sane_of_wide h) ha
  obtain ⟨least, most⟩ := integer_below_max h
  obtain ⟨pick, -⟩ := cutAt_picks rm (f.neg a) (held_exact (f.sig (f.code a)) (f.exp (f.code a))) (q := 0) nofun
  rcases le_or_gt 0 (f.exp (f.code a)) with up | down
  · refine ⟨_, le, ?_⟩
    rw [cutAt, if_pos up, Fmt.mag]
    push_cast
    rw [sub_zero, ← zpow_natCast, Int.toNat_of_nonneg up]
  · have small : f.mag (f.code a) < 2 ^ f.fbits := by
      refine (mag_lt f _).trans_le ?_
      rw [← zpow_natCast]
      exact zpow_le_zpow_right₀ one_le_two (by omega)
    generalize (cutAt rm (f.neg a) (f.sig (f.code a)) (f.exp (f.code a)) false 0).1 = w at *
    have bound : w ≤ 2 ^ f.fbits := by
      by_contra! gt
      have := pick.lt_of_lt (multiples_strictMono 0) gt
      have cast : (f.sig (f.code a) * 2 ^ f.exp (f.code a) : ℝ) = (f.mag (f.code a) : ℚ) := by simp [Fmt.mag]
      rw [cast, multiples, zpow_zero, mul_one] at this
      exact small.not_gt (by exact_mod_cast this)
    have bits : w.log2 ≤ f.fbits := by
      rcases Nat.eq_zero_or_pos w with rfl | pos
      · simp
      · exact Nat.lt_succ_iff.mp ((Nat.log2_lt pos.ne').mpr (bound.trans_lt (Nat.pow_lt_pow_right (by decide) (Nat.lt_succ_self _))))
    obtain ⟨c, hc⟩ := exists_code (f := f) bits least
    rw [zpow_zero, mul_one] at hc
    refine ⟨c, (mag_strictMono f).le_iff_le.mp ?_, hc⟩
    rw [hc]
    exact le_trans (by exact_mod_cast bound) most

theorem natAbs_signed (n : Bool) (w : Nat) : (signed n w).natAbs = w := by cases n <;> simp [signed]

/-- FRINT of a finite value that is not zero: the integer picked, exactly, under the value's sign. -/
theorem frint_fin {f : Fmt} (h : f = .f32 ∨ f = .f64) (rm : Rnd) {a : Nat} {n : Bool} {m : Nat} {e : Int}
    (ha : f.unpack a = .fin n m e) (m0 : m ≠ 0) : ∃ c, c ≤ f.maxCode ∧ f.value n c = ((roundToInt rm n m e).1 : ℚ) ∧
      frint f rm a = { bits := f.pack n c, flags := if (roundToInt rm n m e).2 then flagNX else 0 } := by
  obtain ⟨c, le, hc⟩ := integer_on_grid h ha rm
  refine ⟨c, le, ?_, ?_⟩
  · cases n <;> simp [Fmt.value, hc, roundToInt, signed]
  · have on : f.grid c = (cutAt rm n m e false 0).1 * 2 ^ (0 : Int) := by
      rw [Fmt.grid, hc, zpow_zero, mul_one, Rat.cast_natCast]
    rw [frint, ha]
    dsimp only
    rw [if_neg m0]
    simp only [roundToInt, natAbs_signed]
    rw [round_on_grid (sane_of_wide h) (held_exact _ _) nofun on le]

theorem frint_rounds {f : Fmt} (h : f = .f32 ∨ f = .f64) (rm : Rnd) {a : Nat} {u : ℚ} (hu : valueOf f a = some u) :
    ∃ k : ℤ, RoundedInt rm u k ∧ valueOf f (frint f rm a).bits = some (k : ℚ) ∧
      (frint f rm a).bits.testBit f.signPos = a.testBit f.signPos ∧ (frint f rm a).flags = if (k : ℚ) = u then 0 else flagNX := by
  have sane := sane_of_wide h
  obtain ⟨n, m, e, ha, rfl⟩ := valueOf_fin hu
  obtain ⟨-, sign, -⟩ := of_unpack_fin sane ha
  by_cases m0 : m = 0
  · have same : frint f rm a = { bits := a } := by rw [frint, ha]; exact if_pos m0
    obtain rfl := m0
    rw [rational_zero] at hu ⊢
    refine ⟨0, ?_, by rw [same]; simpa using hu, by rw [same], by rw [same]; simp⟩
    cases rm <;> simp [RoundedInt]
  · obtain ⟨c, le, value, eq⟩ := frint_fin h rm ha m0
    obtain ⟨rounded, inexact⟩ := roundToInt_spec rm n m e
    refine ⟨(roundToInt rm n m e).1, rounded, ?_, ?_, ?_⟩
    · rw [eq, valueOf_pack sane n le, value]
    · rw [eq, testBit_signPos h, testBit_signPos h, neg_pack n (le.trans_lt (maxCode_lt sane)), sign]
    · rw [eq]
      cases hx : (roundToInt rm n m e).2 <;> simp_all

/-! ### Estimates -/

/-- A held magnitude cut to 13 significant bits, ties to even (02 R59). -/
theorem roundSig_rounded13 {m : Nat} {e : Int} {sticky : Bool} {X : ℝ} (n : Bool) (h : Held m e sticky X) (fine : 12 < m.log2) :
    Rounded13 (under n X) ((rational n (roundSig 13 m e sticky).1 (roundSig 13 m e sticky).2 : ℚ) : ℝ) := by
  have m0 : m ≠ 0 := by rintro rfl; simp at fine
  obtain ⟨pick, -⟩ := cutAt_picks .rne false h (q := (m.log2 : Int) + e - ((13 : Nat) - 1)) fun _ => by push_cast; omega
  obtain ⟨low, high⟩ := h.binade m0
  have pos : 0 ≤ X := le_trans (by positivity) low
  rw [cast_rational]
  simp only [roundSig]
  generalize hq : (m.log2 : Int) + e - ((13 : Nat) - 1) = q at *
  generalize (cutAt .rne false m e sticky q).1 = w at *
  have unit : (0 : ℝ) < 2 ^ q := by positivity
  have near : 2 * |w * 2 ^ q - X| ≤ 2 ^ q ∧ (2 * |w * 2 ^ q - X| = 2 ^ q → w % 2 = 0) := by
    obtain ⟨lo, le, lt, near, tie⟩ := pick.half (.inl rfl)
    have next : multiples q (lo + 1) = multiples q lo + 2 ^ q := by simp only [multiples]; push_cast; ring
    have even (h : 2 * X = multiples q lo + multiples q (lo + 1)) : w % 2 = 0 := (tie h).1 rfl
    rw [next] at lt near even
    rw [show (w : ℝ) * 2 ^ q = multiples q w from rfl]
    rcases near with ⟨rfl, half⟩ | ⟨rfl, half⟩
    · rw [abs_of_nonpos (by linarith)]
      exact ⟨by linarith, fun eq => even (by linarith)⟩
    · rw [next, abs_of_nonneg (by linarith)]
      exact ⟨by linarith, fun eq => even (by linarith)⟩
  have top : (m.log2 : Int) + e = 12 + q := by omega
  refine ⟨w, q, ?_, ?_, ?_, ?_, ?_⟩
  · rw [top, zpow_add₀ two_ne_zero] at low
    rwa [abs_under, abs_of_nonneg pos]
  · rw [show (m.log2 : Int) + 1 + e = 13 + q by omega, zpow_add₀ two_ne_zero] at high
    rwa [abs_under, abs_of_nonneg pos]
  · rw [abs_under, abs_of_nonneg (by positivity)]
  · rw [under_mul_under]
    positivity
  · rwa [under_sub, abs_under]

/-- The reciprocal of a mantissa is 2^k over it, moved back. -/
theorem frcp_rounds {f : Fmt} (sane : f.Sane) {a : Nat} {u : ℚ} (hu : valueOf f a = some u) (nz : u ≠ 0) :
    ∃ x, Rounded13 ((u : ℝ)⁻¹) x ∧ RoundedTo f .rne x (frcp f a) := by
  obtain ⟨n, m, e, ha, rfl⟩ := valueOf_fin hu
  have m0 : m ≠ 0 := fun h => nz (rational_eq_zero.mpr h)
  have h := held_quotient 1 (20 + m.log2) m0 (-e - (20 + m.log2 : Nat))
  have bits := lt_log2_quotient one_ne_zero m0 18
  have value : (((1 : Nat) : ℝ) * 2 ^ (20 + m.log2) / m) * 2 ^ (-e - (20 + m.log2 : Nat)) = ((m : ℝ) * 2 ^ e)⁻¹ := by
    rw [zpow_sub₀ two_ne_zero, zpow_neg, zpow_natCast, Nat.cast_one]
    have : (m : ℝ) ≠ 0 := Nat.cast_ne_zero.mpr m0
    field_simp
  rw [value] at h
  rw [cast_rational, under_inv]
  refine ⟨_, roundSig_rounded13 n h (lt_trans (by decide) bits), ?_⟩
  rw [frcp, ha]
  dsimp only
  rw [if_neg m0]
  exact round_rational sane .rne n _ _

/-- The root of the cut quotient 2^2k / x is 2^k over the root of x, cut off. -/
theorem held_inverse_root {x : Nat} (x0 : x ≠ 0) (k : Nat) (e : Int) :
    Held (isqrt (2 ^ (2 * k) / x)) e (isqrt (2 ^ (2 * k) / x) * isqrt (2 ^ (2 * k) / x) * x != 2 ^ (2 * k))
      ((2 ^ k / Real.sqrt x) * 2 ^ e) := by
  rw [isqrt_eq]
  have pos : (0 : ℝ) < x := Nat.cast_pos.mpr (Nat.pos_of_ne_zero x0)
  have root : 0 < Real.sqrt x := Real.sqrt_pos.mpr pos
  have square : ((2 : ℝ) ^ k / Real.sqrt x) ^ 2 = 2 ^ (2 * k) / x := by
    rw [div_pow, Real.sq_sqrt pos.le, ← pow_mul, Nat.mul_comm]
  have t0 : (0 : ℝ) ≤ 2 ^ k / Real.sqrt x := by positivity
  set r := (2 ^ (2 * k) / x).sqrt with hr
  have low : r * r * x ≤ 2 ^ (2 * k) := (Nat.le_div_iff_mul_le (Nat.pos_of_ne_zero x0)).mp (Nat.sqrt_le _)
  have high : 2 ^ (2 * k) < (r + 1) * (r + 1) * x := (Nat.div_lt_iff_lt_mul (Nat.pos_of_ne_zero x0)).mp (Nat.lt_succ_sqrt _)
  refine held_floor ?_ ?_ ?_ e
  · refine (pow_le_pow_iff_left₀ (Nat.cast_nonneg r) t0 two_ne_zero).mp ?_
    rw [square, le_div_iff₀ pos, pow_two]
    exact_mod_cast low
  · refine (pow_lt_pow_iff_left₀ t0 (by positivity) two_ne_zero).mp ?_
    rw [square, div_lt_iff₀ pos, pow_two]
    exact_mod_cast high
  · rw [bne_iff_ne, not_iff_not, ← pow_left_inj₀ (Nat.cast_nonneg r) t0 two_ne_zero, square, eq_div_iff pos.ne', pow_two]
    exact_mod_cast Iff.rfl

theorem lt_log2_inverse_root {x : Nat} (x0 : x ≠ 0) : 12 < (isqrt (2 ^ (2 * (20 + x.log2)) / x)).log2 := by
  have le : 2 ^ 13 ≤ isqrt (2 ^ (2 * (20 + x.log2)) / x) := by
    rw [isqrt_eq, Nat.le_sqrt, Nat.le_div_iff_mul_le (Nat.pos_of_ne_zero x0)]
    calc 2 ^ 13 * 2 ^ 13 * x ≤ 2 ^ 13 * 2 ^ 13 * 2 ^ (x.log2 + 1) := Nat.mul_le_mul_left _ Nat.lt_log2_self.le
      _ = 2 ^ (27 + x.log2) := by ring
      _ ≤ 2 ^ (2 * (20 + x.log2)) := Nat.pow_le_pow_right (by decide) (by omega)
  exact (Nat.le_log2 (by omega)).mpr le

theorem frsq_rounds {f : Fmt} (sane : f.Sane) {a : Nat} {u : ℚ} (hu : valueOf f a = some u) (pos : 0 < u) :
    ∃ x, Rounded13 ((Real.sqrt (u : ℝ))⁻¹) x ∧ RoundedTo f .rne x (frsq f a) := by
  obtain ⟨n, m, e, ha, rfl⟩ := valueOf_fin hu
  have m0 : m ≠ 0 := fun h => pos.ne' (rational_eq_zero.mpr h)
  have plus : n = false := by
    rw [← Bool.not_eq_true]
    exact fun h => (rational_neg_iff.mpr ⟨h, m0⟩).not_gt pos
  subst plus
  set x := (evenScale m e 0).1 with hx
  have x0 : x ≠ 0 := by
    have : 2 ^ (2 * 0) ≤ x := le_evenScale m0 e 0
    omega
  have h := held_inverse_root x0 (20 + x.log2) (-((evenScale m e 0).2 / 2) - (20 + x.log2 : Nat))
  have value : (2 ^ (20 + x.log2) / Real.sqrt x) * (2 : ℝ) ^ (-((evenScale m e 0).2 / 2) - (20 + x.log2 : Nat)) =
      (Real.sqrt (m * 2 ^ e))⁻¹ := by
    have root : Real.sqrt x ≠ 0 := (Real.sqrt_pos.mpr (Nat.cast_pos.mpr (Nat.pos_of_ne_zero x0))).ne'
    rw [sqrt_evenScale m e 0, ← hx, zpow_sub₀ two_ne_zero, zpow_neg, zpow_natCast]
    field_simp
  rw [value] at h
  rw [cast_rational]
  refine ⟨_, roundSig_rounded13 false h (lt_log2_inverse_root x0), ?_⟩
  rw [frsq, ha]
  dsimp only
  rw [if_neg m0, if_neg Bool.false_ne_true]
  exact round_rational sane .rne false _ _

theorem frsq_neg {f : Fmt} {a : Nat} {u : ℚ} (hu : valueOf f a = some u) (neg : u < 0) : frsq f a = f.nanR flagNV := by
  obtain ⟨n, m, e, ha, rfl⟩ := valueOf_fin hu
  obtain ⟨rfl, m0⟩ := rational_neg_iff.mp neg
  rw [frsq, ha]
  dsimp only
  rw [if_neg m0, if_pos rfl]

theorem estimates_of_zero {f : Fmt} {a : Nat} {u : ℚ} (hu : valueOf f a = some u) (zero : u = 0) :
    (∃ n, frcp f a = f.infR n flagDZ) ∧ ∃ n, frsq f a = f.infR n flagDZ := by
  obtain ⟨n, m, e, ha, rfl⟩ := valueOf_fin hu
  have m0 := rational_eq_zero.mp zero
  refine ⟨⟨n, ?_⟩, n, ?_⟩
  · rw [frcp, ha]
    exact if_pos m0
  · rw [frsq, ha]
    exact if_pos m0

/-! ### Newton steps -/

/-- A sum of finite contributors, or half of it, rounded once, an exact zero included. -/
theorem fsum_roundedTo {f : Fmt} (sane : f.Sane) (rm : Rnd) {l : List Contrib} (half : Bool) (fin : ∀ c ∈ l, c.Fin) :
    RoundedTo f rm (((if half then total l / 2 else total l : ℚ)) : ℝ) (fsum f rm l half) := by
  obtain ⟨zero, rounds⟩ := fsum_fin f rm half fin
  by_cases z : total l = 0
  · obtain ⟨n, hn⟩ := zero z
    rw [hn, z, zero_div, ite_self, Rat.cast_zero]
    exact roundedTo_zero sane rm n
  · obtain ⟨n, m, e, value, hr⟩ := rounds z
    rw [hr, ← value]
    exact round_rational sane rm n m e

theorem newton_rounds {f : Fmt} (sane : f.Sane) (rm : Rnd) (c : Nat) (half : Bool) {a b : Nat} {u v : ℚ}
    (hu : valueOf f a = some u) (hv : valueOf f b = some v) :
    RoundedTo f rm (((if half then (c - u * v) / 2 else c - u * v : ℚ)) : ℝ) (newton f rm c half a b) := by
  obtain ⟨n, m, e, ha, rfl⟩ := valueOf_fin hu
  obtain ⟨k, p, x, hb, rfl⟩ := valueOf_fin hv
  obtain ⟨j, q, y, hp, value⟩ := product_fin n k true m p e x
  have sum : total [.val (.fin false c 0), .val (.fin j q y)] = c - rational n m e * rational k p x := by
    have const : rational false c 0 = c := by simp [rational]
    simp [total, value, const]
    ring
  rw [newton, ha, hb, hp, ← sum]
  exact fsum_roundedTo sane rm half (by simp)

/-- A zero times an infinity stands for zero in a step: the constant comes back, exactly. -/
theorem newton_invalid {f : Fmt} (h : f = .f32 ∨ f = .f64) (rm : Rnd) {a b : Nat}
    (inv : product (f.unpack a) (f.unpack b) true = .invalid) :
    valueOf f (newton f rm 2 false a b).bits = some 2 ∧ (newton f rm 2 false a b).flags = 0 ∧
      valueOf f (newton f rm 3 true a b).bits = some (3 / 2) ∧ (newton f rm 3 true a b).flags = 0 := by
  have sane := sane_of_wide h
  have most := (integer_below_max h).2
  have exactly {m : Nat} {e : Int} (hm : m.log2 ≤ f.fbits) (he : f.emin ≤ e) (le : (m * 2 ^ e : ℚ) ≤ 2 ^ f.fbits) :
      valueOf f (f.round .rne false m e).bits = some (m * 2 ^ e : ℚ) ∧ (f.round .rne false m e).flags = 0 := by
    obtain ⟨c, hc⟩ := exists_code (f := f) hm he
    have lec : c ≤ f.maxCode := (mag_strictMono f).le_iff_le.mp (hc ▸ le.trans most)
    rw [round_on_grid sane (held_exact m e) nofun (by simp [Fmt.grid, hc]) lec]
    exact ⟨(valueOf_pack sane false lec).trans (congrArg some hc), rfl⟩
  have small : 2 ≤ f.fbits ∧ f.emin ≤ -1 := by rcases h with rfl | rfl <;> decide
  have four : (4 : ℚ) ≤ 2 ^ f.fbits := by
    have := pow_le_pow_right₀ (one_le_two (α := ℚ)) small.1
    linarith
  have two := exactly (m := 2) (e := 0) (by rw [show Nat.log2 2 = 1 by decide]; omega) (by omega) (by norm_num; linarith)
  have threeHalves := exactly (m := 3) (e := -1) (by rw [show Nat.log2 3 = 1 by decide]; omega) small.2 (by norm_num; linarith)
  unfold newton
  rw [inv]
  norm_num at two threeHalves ⊢
  exact ⟨two.1, two.2, threeHalves.1, threeHalves.2⟩

/-- FDIV to FRSQS of finite operands (05 R124, R130, 02 R59 to R61). -/
theorem quotientsRootsAndEstimates : QuotientsRootsAndEstimates := by
  intro f rm a b u wide hu
  have sane := sane_of_wide wide
  refine ⟨fun v hv nz => fdiv_roundedTo sane rm hu hv nz, fsqrt_roundedTo sane rm hu, frint_rounds wide rm hu,
    frcp_rounds sane hu, frsq_rounds sane hu, frsq_neg hu, estimates_of_zero hu, fun v hv => ⟨?_, ?_⟩, fun n hb zero => ?_⟩
  · exact newton_rounds sane rm 2 false hu hv
  · exact newton_rounds sane rm 3 true hu hv
  · obtain ⟨k, m, e, ha, rfl⟩ := valueOf_fin hu
    obtain rfl := rational_eq_zero.mp zero
    rintro p (rfl | rfl) <;> refine newton_invalid wide rm ?_ <;> simp [ha, hb, product]

end Sys2Proof.Machine

open Sys2Proof Sys2Proof.Machine Sys2Proof.Claim

/-- Settles O22: each operation forms its exact value, cut off with a sticky bit where it has no end, and rounds it once. -/
theorem sumsAndProductsRoundOnce : Obligations.SumsAndProductsRoundOnce := ⟨sumsAndProducts, quotientsRootsAndEstimates⟩
end

section
/-! SUPPORT. The end of a slot that raises flags (02 R48), sign operations and comparisons (05 R124, R126), and O20. -/
namespace Sys2Proof.Machine
open Sys2Proof.Claim

/-! ### The end of a slot that raises flags -/

/-- What a trap record's XINFO reads back over the slot number. -/
theorem xinfo_readback (fl : Flags) {slot : Nat} (h : slot < 4) :
    (BitVec.ofNat 64 (fl.toNat % 2 ^ 32 * 2 ^ 32 + 0) ||| BitVec.ofNat 64 slot).toNat / 2 ^ 32 = fl.toNat := by
  have lt : fl.toNat < 2 ^ 6 := fl.isLt
  rw [BitVec.toNat_or, BitVec.toNat_ofNat, BitVec.toNat_ofNat, Nat.mod_eq_of_lt (a := slot) (by omega),
    Nat.mod_eq_of_lt (a := _ + 0) (by omega), Nat.add_zero, Nat.mul_comm, ← Nat.two_pow_add_eq_or_of_lt (by omega)]
  omega

/-- The state that FP_EXCEPTION keeps: the flags, and nothing of what the slot would have written. -/
def flagged (s : State) (fl : Flags) : State := raise { begun s with ctx := { s.ctx with pc := s.src.pc } } fl

/-- FP_EXCEPTION in user mode with a handler: the handler, the record, the flags, and the registers as they stood. -/
theorem fpException_record {s : State} {fl en : Flags} (handler : s.ctx.tvec ≠ 0) (user : s.ctx.mode = .user)
    (clear : s.src.harrow.cancelled = none) (slot : s.bun.slot < 4) :
    let c := (slotTrap (flagged s fl) { cause := .fpException, xinfo := en.toNat }).ctx
    c.s = s.ctx.s ∧ c.p = s.ctx.p ∧ c.v = s.ctx.v ∧ c.m = s.ctx.m ∧ c.q = s.ctx.q ∧ c.pc = s.ctx.tvec ∧
      c.trapc.toNat % 64 = 0x08 ∧ c.trapx.toNat / 2 ^ 32 = en.toNat ∧ c.fxf = s.ctx.fxf ||| fl := by
  have record : hrwOf s.src s.src.pc s.bun.slot = (0, 0) := by rw [hrwOf, clear]
  have taken : ¬((flagged s fl).ctx.tvec = 0 ∨ (flagged s fl).ctx.mode = .privileged) := by
    rintro (h | h)
    · exact handler h
    · exact absurd (user.symm.trans h) (by decide)
  unfold slotTrap trapWith takeTrap
  rw [if_neg taken]
  refine ⟨rfl, rfl, rfl, rfl, rfl, rfl, ?_, ?_, rfl⟩
  · show (BitVec.ofNat 64 (8 + (if s.src.mode = .privileged then 128 else 0) + 0 % 2 ^ 56 * 256)).toNat % 64 = 8
    split <;> rfl
  · show (BitVec.ofNat 64 (en.toNat % 2 ^ 32 * 2 ^ 32 + (hrwOf s.src s.src.pc s.bun.slot).1) |||
      BitVec.ofNat 64 s.bun.slot).toNat / 2 ^ 32 = _
    rw [record]
    exact xinfo_readback en slot

/-- A slot whose body ends by raising flags: done, or, where FPM enables one of them, FP_EXCEPTION. -/
theorem fpEnds_of_body {i : Instr} {s t : State} {fl : Flags} {body : State → SlotEnd} (run : exec i s = runSlot i s body)
    (ends : body (begun s) = finishFlags t (begun s) fl) (h : Issues i s) : FpEnds i s t fl := by
  obtain ⟨decodes, ready⟩ := h
  refine ⟨fun quiet => ?_, fun enabled => ?_⟩
  · rw [Does, run]
    exact runSig_done decodes ready (ends.trans (if_pos quiet))
  · have trap : body (begun s) = .trapKeep (flagged s fl) { cause := .fpException, xinfo := (enabledFlags s fl).toNat } :=
      ends.trans (if_neg enabled)
    have next : exec i s = .next ({ slotTrap (flagged s fl) { cause := .fpException, xinfo := (enabledFlags s fl).toNat } with
        pre := s.pre }.ended .trapped) := run.trans ((runSig_issues body decodes ready).trans (by rw [trap]))
    refine ⟨_, next, rfl, ?_, fun handler user clear slot => ?_⟩
    · exact slotTrap_mem (flagged s fl) _ none
    · exact fpException_record handler user clear slot

/-- Every rounding slot writes its result and raises its flags (05 R123). -/
theorem floatSlots : FloatSlotsWriteOrTrap := by
  intro x d a b rm s f m A B D
  refine ⟨?_, ?_, ?_, ?_, ?_, ?_, ?_, ?_, ?_, ?_, ?_, ?_, ?_, ?_, ?_, ?_, ?_, ?_, ?_, ?_, ?_⟩
  · exact fpEnds_of_body (exec_fadd x d a b rm s) rfl
  · exact fpEnds_of_body (exec_fsub x d a b rm s) rfl
  · exact fpEnds_of_body (exec_fmul x d a b rm s) rfl
  · exact fpEnds_of_body (exec_fdiv x d a b rm s) rfl
  · exact fpEnds_of_body (exec_fma x d a b rm s) rfl
  · exact fpEnds_of_body (exec_fms x d a b rm s) rfl
  · exact fpEnds_of_body (exec_fnma x d a b rm s) rfl
  · exact fpEnds_of_body (exec_fsqrt x d a rm s) rfl
  · exact fpEnds_of_body (exec_fmin x d a b s) rfl
  · exact fpEnds_of_body (exec_fmax x d a b s) rfl
  · exact fpEnds_of_body (exec_frint d a rm x s) rfl
  · exact fpEnds_of_body (exec_fexp d a rm x s) rfl
  · exact fpEnds_of_body (exec_fexp2 d a rm x s) rfl
  · exact fpEnds_of_body (exec_flog d a rm x s) rfl
  · exact fpEnds_of_body (exec_flog2 d a rm x s) rfl
  · exact fpEnds_of_body (exec_ferf d a rm x s) rfl
  · exact fpEnds_of_body (exec_ferfc d a rm x s) rfl
  · exact fpEnds_of_body (exec_frcp d a rm x s) rfl
  · exact fpEnds_of_body (exec_frsq d a rm x s) rfl
  · exact fpEnds_of_body (exec_frcps d a b rm x s) rfl
  · exact fpEnds_of_body (exec_frsqs d a b rm x s) rfl

/-! ### Sign operations, classes and conversions -/

theorem testBit_eq (v i : Nat) : testBit v i = v.testBit i := by
  rw [Nat.testBit_eq_decide_div_mod_eq, testBit]
  rfl

/-- A word whose bits are the low k bits of x under a sign bit. -/
theorem ofNat_withSign {x k : Nat} {b : Bool} {v : Word}
    (h : ∀ i < 64, v.getLsbD i = if i < k then x.testBit i else decide (i = k) && b) :
    BitVec.ofNat 64 (x % 2 ^ k + b.toNat * 2 ^ k) = v := by
  have lt : x % 2 ^ k < 2 ^ k := Nat.mod_lt _ (by positivity)
  refine BitVec.eq_of_getLsbD_eq fun i hi => ?_
  rw [h i hi, BitVec.getLsbD_ofNat, Nat.add_comm, Nat.mul_comm, Nat.testBit_two_pow_mul_add _ lt, decide_eq_true hi, Bool.true_and]
  split
  next below => simp [Nat.testBit_mod_two_pow, below]
  next above =>
    rw [Nat.testBit_bool_toNat]
    congr 1
    rw [decide_eq_decide]
    omega

/-- A mask of the low k bits. -/
theorem getLsbD_ones (k i : Nat) : (BitVec.ofNat 64 (2 ^ k - 1)).getLsbD i = (decide (i < 64) && decide (i < k)) := by
  rw [BitVec.getLsbD_ofNat, Nat.testBit_two_pow_sub_one]

section
variable (A B : Word) {k : Nat} (hk : k < 64) {x : Nat} (low : ∀ i < k + 1, x.testBit i = A.getLsbD i)
include hk low

/-- FNEG, FABS and FCPSGN by bits, of an operand of k + 1 bits. -/
theorem withSign_not : BitVec.ofNat 64 (x % 2 ^ k + (!x.testBit k).toNat * 2 ^ k) =
    (A ^^^ BitVec.twoPow 64 k) &&& BitVec.ofNat 64 (2 ^ (k + 1) - 1) := by
  refine ofNat_withSign fun i hi => ?_
  rw [BitVec.getLsbD_and, BitVec.getLsbD_xor, getLsbD_ones, BitVec.getLsbD_twoPow]
  rcases Nat.lt_trichotomy i k with lt | rfl | gt
  · simp [lt, low i (by omega), hi, lt.ne', show i < k + 1 by omega]
  · simp [low i (by omega), hi]
  · simp [gt.not_gt, gt.ne', show ¬ i < k + 1 by omega]

omit hk in
theorem withSign_off : BitVec.ofNat 64 (x % 2 ^ k + false.toNat * 2 ^ k) = A &&& BitVec.ofNat 64 (2 ^ k - 1) := by
  refine ofNat_withSign fun i hi => ?_
  rw [BitVec.getLsbD_and, getLsbD_ones]
  split
  next lt => simp [lt, low i (by omega), hi]
  next ge => simp [ge]

theorem withSign_of {y : Nat} (sign : y.testBit k = B.getLsbD k) : BitVec.ofNat 64 (x % 2 ^ k + (y.testBit k).toNat * 2 ^ k) =
    A &&& BitVec.ofNat 64 (2 ^ k - 1) ||| B &&& BitVec.twoPow 64 k := by
  refine ofNat_withSign fun i hi => ?_
  rw [BitVec.getLsbD_or, BitVec.getLsbD_and, BitVec.getLsbD_and, getLsbD_ones, BitVec.getLsbD_twoPow, sign]
  rcases Nat.lt_trichotomy i k with lt | rfl | gt
  · simp [lt, low i (by omega), hi, lt.ne']
  · simp [hi]
  · simp [gt.not_gt, gt.ne', gt.ne]

end

/-- The place of the sign bit of an operand. -/
def signBit (f64 : Bool) : Nat := if f64 then 63 else 31

theorem signBit_lt (f64 : Bool) : signBit f64 < 64 := by cases f64 <;> decide

theorem withSign_eq (f64 : Bool) (a : Nat) (neg : Bool) :
    withSign (fpFmt f64) a neg = a % 2 ^ signBit f64 + neg.toNat * 2 ^ signBit f64 := by
  cases f64 <;> rfl

theorem fpSign_eq (f64 : Bool) (a : Nat) : fpSign f64 a = a.testBit (signBit f64) := by
  rw [fpSign, testBit_eq]
  cases f64 <;> rfl

/-- The bits of an operand are those of its register. -/
theorem testBit_rdF (s : State) (f64 : Bool) (r : SReg) (i : Nat) (h : i < signBit f64 + 1) :
    (rdF s f64 r).testBit i = (rdS s r).getLsbD i := by
  have : i < if f64 then 64 else 32 := by cases f64 <;> exact h
  rw [rdF, Nat.testBit_mod_two_pow, decide_eq_true this, Bool.true_and]
  rfl

theorem enabledFlags_zero (s : State) : enabledFlags s 0 = 0 := BitVec.zero_and

/-- A slot that copies bits ends without a flag. -/
theorem copies_of_body {i : Instr} {s : State} {d : SReg} {v : Word} {n : Nat} {body : State → SlotEnd}
    (run : exec i s = runSlot i s body) (ends : body (begun s) = finishFlags (wrS (begun s) d (BitVec.ofNat 64 n)) (begun s) 0)
    (value : BitVec.ofNat 64 n = v) : Copies i s d v := fun h =>
  value ▸ (fpEnds_of_body run ends h).1 (enabledFlags_zero s)

/-- FNEG, FABS, FCPSGN and FMOV in both widths. -/
theorem signOperations (x : Bool) (d a b : SReg) (s : State) :
    let top := BitVec.twoPow 64 (signBit x)
    let low := BitVec.ofNat 64 (2 ^ signBit x - 1)
    let all := BitVec.ofNat 64 (2 ^ (signBit x + 1) - 1)
    Copies (.fneg x d a) s d ((rdS s a ^^^ top) &&& all) ∧ Copies (.fabs x d a) s d (rdS s a &&& low) ∧
      Copies (.fcpsgn x d a b) s d (rdS s a &&& low ||| rdS s b &&& top) ∧ Copies (.fmov x d a) s d (rdS s a &&& all) := by
  have bits := testBit_rdF s x
  refine ⟨?_, ?_, ?_, ?_⟩
  · refine copies_of_body (n := withSign (fpFmt x) (rdF s x a) (!fpSign x (rdF s x a))) (exec_fneg x d a s) rfl ?_
    rw [withSign_eq, fpSign_eq]
    exact withSign_not _ (signBit_lt x) (bits a)
  · refine copies_of_body (n := withSign (fpFmt x) (rdF s x a) false) (exec_fabs x d a s) rfl ?_
    rw [withSign_eq]
    exact withSign_off _ (bits a)
  · refine copies_of_body (n := withSign (fpFmt x) (rdF s x a) (fpSign x (rdF s x b))) (exec_fcpsgn x d a b s) rfl ?_
    rw [withSign_eq, fpSign_eq]
    exact withSign_of _ _ (signBit_lt x) (bits a) (bits b _ (Nat.lt_succ_self _))
  · refine copies_of_body (n := rdF s x a) (exec_fmov x d a s) rfl (BitVec.eq_of_getLsbD_eq fun i hi => ?_)
    rw [BitVec.getLsbD_and, getLsbD_ones, BitVec.getLsbD_ofNat]
    by_cases h : i < signBit x + 1
    · rw [bits a i h]; simp [hi, h]
    · have : ¬ i < if x then 64 else 32 := by cases x <;> exact h
      rw [rdF, Nat.testBit_mod_two_pow, decide_eq_false this]
      simp [h]

theorem signClassAndConvertSlots : SignClassAndConvertSlots := by
  refine ⟨fun d a b s => ?_, fun d a x s h => (exec_fclass d a x s).trans (runSlot_done h rfl), fun d a ot dir rm x s h => ?_⟩
  · obtain ⟨neg, abs, sign, mov⟩ := signOperations true d a b s
    obtain ⟨neg', abs', sign', mov'⟩ := signOperations false d a b s
    have all : BitVec.ofNat 64 (2 ^ (signBit true + 1) - 1) = BitVec.allOnes 64 := by decide
    rw [all, BitVec.and_allOnes] at neg mov
    exact ⟨neg, abs, sign, mov, neg', abs', sign', mov'⟩
  · cases dir with
    | false => exact fpEnds_of_body (exec_fcvt d a ot false rm x s) rfl h
    | true => exact fpEnds_of_body (exec_fcvt d a ot true rm x s) rfl h

/-! ### Comparisons -/

theorem value_lt_iff (f : Fmt) (n k : Bool) (c d : Nat) : f.value n c < f.value k d ↔ signed n c < signed k d := by
  have mono := mag_strictMono f
  have pc := mag_nonneg f c
  have pd := mag_nonneg f d
  cases n <;> cases k <;> simp only [Fmt.value, signed, if_true, Bool.false_eq_true, if_false]
  · rw [mono.lt_iff_lt]; omega
  · exact iff_of_false (by linarith) (by omega)
  · by_cases z : c = 0 ∧ d = 0
    · simp [z]
    · have : 0 < f.mag c ∨ 0 < f.mag d := by
        rcases Nat.eq_zero_or_pos c with rfl | h
        · exact .inr (mag_pos fun h => z ⟨rfl, h⟩)
        · exact .inl (mag_pos h.ne')
      exact iff_of_true (by rcases this with h | h <;> linarith) (by omega)
  · rw [neg_lt_neg_iff, mono.lt_iff_lt]; omega

/-- Comparison keys compare as the values do. -/
theorem cmpKey_lt_iff {f : Fmt} (sane : f.Sane) {a b : Nat} {u v : ℚ} (hu : valueOf f a = some u) (hv : valueOf f b = some v) :
    f.cmpKey a < f.cmpKey b ↔ u < v := by
  obtain ⟨-, rfl⟩ := (valueOf_eq_some sane).mp hu
  obtain ⟨-, rfl⟩ := (valueOf_eq_some sane).mp hv
  exact (value_lt_iff f _ _ _ _).symm

/-- The one code of an infinity lies above every finite one. -/
theorem of_unpack_inf {f : Fmt} (sane : f.Sane) {w : Nat} {n : Bool} (h : f.unpack w = .inf n) :
    f.neg w = n ∧ f.code w = f.infCode ∧ f.maxCode < f.infCode := by
  have fin := unpack_of_code sane w
  have above : f.maxCode < f.code w := by
    rw [h] at fin
    by_contra le
    rw [if_pos (Nat.le_of_not_lt le)] at fin
    cases fin
  have parts := Nat.div_add_mod' (f.code w) (2 ^ f.fbits)
  unfold Fmt.unpack at h
  dsimp only at h
  rw [bits_code, code_mod, ← Fmt.neg, fin_of_code] at h
  split at h
  next top =>
    split at h
    next zero =>
      rw [zero, top.2, Nat.add_zero] at parts
      rw [show f.infCode = f.code w from parts]
      exact ⟨FVal.inf.inj h, rfl, above⟩
    next => cases h
  next => split at h <;> cases h

theorem of_isInf {f : Fmt} {w : Nat} (h : f.isInf w = true) : ∃ n, f.unpack w = .inf n := by
  unfold Fmt.isInf at h
  split at h
  next n hn => exact ⟨n, hn⟩
  next => cases h

/-- What is finite or an infinity is no NaN. -/
theorem not_nan_of_unpack {f : Fmt} {w : Nat} (h : ∀ s, f.unpack w ≠ .nan s) : f.isNan w = false ∧ f.isSig w = false := by
  unfold Fmt.isNan Fmt.isSig
  cases hw : f.unpack w with
  | nan s => exact absurd hw (h s)
  | inf n => exact ⟨rfl, rfl⟩
  | fin n m e => exact ⟨rfl, rfl⟩

theorem not_nan_of_valueOf {f : Fmt} {w : Nat} {u : ℚ} (h : valueOf f w = some u) : f.isNan w = false ∧ f.isSig w = false := by
  obtain ⟨n, m, e, hw, -⟩ := valueOf_fin h
  exact not_nan_of_unpack fun s hs => by cases hw.symm.trans hs

theorem not_nan_of_isInf {f : Fmt} {w : Nat} (h : f.isInf w = true) : f.isNan w = false ∧ f.isSig w = false := by
  obtain ⟨n, hw⟩ := of_isInf h
  exact not_nan_of_unpack fun s hs => by cases hw.symm.trans hs

/-- The comparisons of operands without a NaN are those of their keys, without a flag. -/
theorem fcompare_ordered {f : Fmt} {a b : Nat} (ha : f.isNan a = false ∧ f.isSig a = false)
    (hb : f.isNan b = false ∧ f.isSig b = false) :
    fcompare f 0 a b = (f.cmpKey a == f.cmpKey b, 0) ∧ fcompare f 1 a b = (decide (f.cmpKey a < f.cmpKey b), 0) ∧
      fcompare f 2 a b = (decide (f.cmpKey a ≤ f.cmpKey b), 0) ∧ fcompare f 3 a b = (false, 0) := by
  simp [fcompare, ha, hb, nvIf]

theorem fcompare_finite {f : Fmt} (sane : f.Sane) {a b : Nat} {u v : ℚ} (hu : valueOf f a = some u) (hv : valueOf f b = some v) :
    fcompare f 0 a b = (decide (u = v), 0) ∧ fcompare f 1 a b = (decide (u < v), 0) ∧
      fcompare f 2 a b = (decide (u ≤ v), 0) ∧ fcompare f 3 a b = (false, 0) := by
  obtain ⟨eq, lt, le, un⟩ := fcompare_ordered (not_nan_of_valueOf hu) (not_nan_of_valueOf hv)
  have less := cmpKey_lt_iff sane hu hv
  have more := cmpKey_lt_iff sane hv hu
  refine ⟨eq.trans ?_, lt.trans ?_, le.trans ?_, un⟩ <;> congr 1
  · rw [Bool.beq_eq_decide_eq, decide_eq_decide, le_antisymm_iff, le_antisymm_iff, ← not_lt, ← not_lt, less, more, not_lt, not_lt]
  · rw [decide_eq_decide, less]
  · rw [decide_eq_decide, ← not_lt, more, not_lt]

theorem fcompare_unordered {f : Fmt} {a b : Nat} (nan : (f.isNan a || f.isNan b) = true) :
    fcompare f 0 a b = (false, nvIf (f.isSig a || f.isSig b)) ∧ fcompare f 1 a b = (false, flagNV) ∧
      fcompare f 2 a b = (false, flagNV) ∧ fcompare f 3 a b = (true, nvIf (f.isSig a || f.isSig b)) := by
  simp [fcompare, nan, nvIf]

/-- An encoding of FP32 or FP64 is its sign and its code. -/
theorem pack_code {f : Fmt} (h : f = .f32 ∨ f = .f64) {w : Nat} (lt : w < 2 ^ f.width) : f.pack (f.neg w) (f.code w) = w := by
  have parts := Nat.div_add_mod' w (2 ^ f.signPos)
  have top : w / 2 ^ f.signPos < 2 := (Nat.div_lt_iff_lt_mul (by positivity)).mpr (by rw [← Nat.pow_succ']; exact lt)
  rw [Fmt.pack, Fmt.code, Fmt.neg, low_of_wide h, Nat.pow_zero, Nat.mul_one, Nat.div_one, testBit]
  rcases Nat.lt_succ_iff_lt_or_eq.mp top with z | o
  · obtain z := Nat.lt_one_iff.mp z
    rw [z] at parts ⊢
    simpa using parts
  · rw [o] at parts ⊢
    simpa [Nat.add_comm] using parts

/-- Infinities are equal where they are the same encoding. -/
theorem fcompare_inf_inf {f : Fmt} (h : f = .f32 ∨ f = .f64) {a b : Nat} (ha : f.isInf a = true) (hb : f.isInf b = true)
    (la : a < 2 ^ f.width) (lb : b < 2 ^ f.width) : fcompare f 0 a b = (a == b, 0) := by
  have sane := sane_of_wide h
  obtain ⟨eq, -⟩ := fcompare_ordered (not_nan_of_isInf ha) (not_nan_of_isInf hb)
  obtain ⟨n, hn⟩ := of_isInf ha
  obtain ⟨k, hk⟩ := of_isInf hb
  obtain ⟨sa, ca, beyond⟩ := of_unpack_inf sane hn
  obtain ⟨sb, cb, -⟩ := of_unpack_inf sane hk
  have keys : f.cmpKey a = f.cmpKey b ↔ n = k := by
    rw [show f.cmpKey a = signed (f.neg a) (f.code a) from rfl, show f.cmpKey b = signed (f.neg b) (f.code b) from rfl, sa, sb, ca, cb]
    cases n <;> cases k <;> simp [signed] <;> omega
  have same : a = b ↔ n = k := by
    refine ⟨fun e => ?_, fun e => ?_⟩
    · rw [← sa, ← sb, e]
    · rw [← pack_code h la, ← pack_code h lb, sa, sb, ca, cb, e]
  refine eq.trans (congrArg (·, 0) ?_)
  rw [Bool.beq_eq_decide_eq, Bool.beq_eq_decide_eq, decide_eq_decide, keys, same]

/-- An infinity lies below every finite value or above. -/
theorem fcompare_inf_finite {f : Fmt} (sane : f.Sane) {a b : Nat} {u : ℚ} (ha : f.isInf a = true) (hb : valueOf f b = some u) :
    fcompare f 1 a b = (f.unpack a == .inf true, 0) ∧ fcompare f 3 a b = (false, 0) := by
  obtain ⟨-, lt, -, un⟩ := fcompare_ordered (not_nan_of_isInf ha) (not_nan_of_valueOf hb)
  obtain ⟨n, hn⟩ := of_isInf ha
  obtain ⟨sign, code, beyond⟩ := of_unpack_inf sane hn
  obtain ⟨le, -⟩ := (valueOf_eq_some sane).mp hb
  refine ⟨lt.trans ?_, un⟩
  congr 1
  have which : (FVal.inf n == .inf true) = n := by cases n <;> rfl
  rw [hn, which, show f.cmpKey a = signed (f.neg a) (f.code a) from rfl, show f.cmpKey b = signed (f.neg b) (f.code b) from rfl,
    sign, code]
  cases n with
  | false => exact decide_eq_false (by cases f.neg b <;> simp [signed]; omega)
  | true => exact decide_eq_true (by cases f.neg b <;> simp [signed] <;> omega)

/-- A comparison slot writes its relation and raises its flag. -/
theorem fcmp_ends {i : Instr} {cc : Nat} {p : PReg} {a b : SReg} {x : Bool} {s : State} {r : Bool} {fl : Flags}
    (run : exec i s = runSlot i s (fcmpBody cc p a b x)) (h : fcompare (fpFmt x) cc (rdF s x a) (rdF s x b) = (r, fl))
    (ready : Issues i s) : FpEnds i s (wrP (begun s) p r) fl := by
  have ends : fcmpBody cc p a b x (begun s) = finishFlags (wrP (begun s) p (fcompare (fpFmt x) cc (rdF s x a) (rdF s x b)).1)
    (begun s) (fcompare (fpFmt x) cc (rdF s x a) (rdF s x b)).2 := rfl
  rw [h] at ends
  exact fpEnds_of_body run ends ready

theorem fpFmt_wide (x : Bool) : fpFmt x = .f32 ∨ fpFmt x = .f64 := by cases x <;> simp [fpFmt]

theorem rdF_lt (s : State) (x : Bool) (r : SReg) : rdF s x r < 2 ^ (fpFmt x).width := by
  have : (fpFmt x).width = if x then 64 else 32 := by cases x <;> rfl
  rw [this]
  exact Nat.mod_lt _ (by positivity)

theorem floatCompares : FloatComparesRelateValues := by
  intro p a b x s f A B nan ends
  have wide := fpFmt_wide x
  have sane := sane_of_wide wide
  refine ⟨fun u v hu hv => ?_, fun h => ?_, fun ha hb => ?_, fun u ha hb => ?_⟩
  · obtain ⟨eq, lt, le, un⟩ := fcompare_finite sane hu hv
    exact ⟨fcmp_ends (exec_fcmpEq p a b x s) eq, fcmp_ends (exec_fcmpLt p a b x s) lt, fcmp_ends (exec_fcmpLe p a b x s) le,
      fcmp_ends (exec_fcmpUn p a b x s) un⟩
  · obtain ⟨eq, lt, le, un⟩ := fcompare_unordered h
    exact ⟨fcmp_ends (exec_fcmpEq p a b x s) eq, fcmp_ends (exec_fcmpLt p a b x s) lt, fcmp_ends (exec_fcmpLe p a b x s) le,
      fcmp_ends (exec_fcmpUn p a b x s) un⟩
  · exact fcmp_ends (exec_fcmpEq p a b x s) (fcompare_inf_inf wide ha hb (rdF_lt s x a) (rdF_lt s x b))
  · obtain ⟨lt, un⟩ := fcompare_inf_finite sane ha hb
    exact ⟨fcmp_ends (exec_fcmpLt p a b x s) lt, fcmp_ends (exec_fcmpUn p a b x s) un⟩

end Sys2Proof.Machine

open Sys2Proof Sys2Proof.Machine Sys2Proof.Claim

/-- Settles O20: each slot runs its operation of the model in the frame of a slot and ends by raising its flags. -/
theorem floatSlotsWriteOrTrap : Obligations.FloatSlotsWriteOrTrap := ⟨floatSlots, signClassAndConvertSlots, floatCompares⟩
end

section
/-! SUPPORT. Special operands of FP32 and FP64 (02 R50 to R52, 05 R124, R125, R130). -/
namespace Sys2Proof.Machine
open Sys2Proof.Claim

/-! ### Sums, products, quotients and roots -/

theorem isNan_eq (f : Fmt) (w : Nat) : f.isNan w = (Contrib.val (f.unpack w)).isNan := by
  unfold Fmt.isNan Contrib.isNan
  cases f.unpack w <;> rfl

theorem isSig_eq (f : Fmt) (w : Nat) : f.isSig w = (Contrib.val (f.unpack w)).isSig := by
  unfold Fmt.isSig Contrib.isSig
  cases f.unpack w <;> rfl

/-- A NaN among two values makes their sum the canonical NaN. -/
theorem fsum_nan (f : Fmt) (rm : Rnd) {u v : FVal} (h : (Contrib.val u).isNan = true ∨ (Contrib.val v).isNan = true) :
    fsum f rm [.val u, .val v] = f.nanR (nvIf ((Contrib.val u).isSig || (Contrib.val v).isSig)) := by
  cases u <;> cases v <;> simp_all [fsum, sumSpecial, Contrib.isNan, Contrib.isSig, Contrib.isInf]

theorem roundProduct_nan (f : Fmt) (rm : Rnd) {u v : FVal} (h : (Contrib.val u).isNan = true ∨ (Contrib.val v).isNan = true) :
    roundProduct f rm (product u v) = f.nanR (nvIf ((Contrib.val u).isSig || (Contrib.val v).isSig)) := by
  cases u <;> cases v <;> simp_all [product, roundProduct, Contrib.isNan, Contrib.isSig]

theorem flip_isNan (v : FVal) : (Contrib.val v.flip).isNan = (Contrib.val v).isNan ∧ (Contrib.val v.flip).isSig = (Contrib.val v).isSig := by
  cases v <;> exact ⟨rfl, rfl⟩

theorem fdiv_nan (f : Fmt) (rm : Rnd) {a b : Nat} (h : f.isNan a = true ∨ f.isNan b = true) :
    fdiv f rm a b = f.nanR (nvIf (f.isSig a || f.isSig b)) := by
  rw [isNan_eq, isNan_eq] at h
  rw [isSig_eq, isSig_eq, fdiv]
  cases ha : f.unpack a <;> cases hb : f.unpack b <;> simp_all [Contrib.isNan, Contrib.isSig]

/-- The special cases of FADD to FSQRT (02 R50, R51, 05 R124, R125). -/
theorem floatSpecials : FloatSpecialCases := by
  intro f rm a b wide sig
  refine ⟨fun h => ⟨?_, ?_, ?_, fdiv_nan f rm h⟩, fun n ha hb => ?_, fun n ha hb => ⟨?_, ?_, ?_⟩, fun n k e ha hb => ?_,
    fun n k m e ha hb => ⟨?_, ?_⟩, fun n k e x ha hb => ?_, fun n k m e x ha m0 hb => ?_, fun m e ha => ?_, fun h => ⟨?_, ?_⟩⟩
  · rw [isNan_eq, isNan_eq] at h
    exact (fsum_nan f rm h).trans (by rw [← isSig_eq, ← isSig_eq])
  · rw [isNan_eq, isNan_eq, ← (flip_isNan (f.unpack b)).1] at h
    exact (fsum_nan f rm h).trans (by rw [(flip_isNan (f.unpack b)).2, ← isSig_eq, ← isSig_eq])
  · rw [isNan_eq, isNan_eq] at h
    exact (roundProduct_nan f rm h).trans (by rw [← isSig_eq, ← isSig_eq])
  · rw [fadd, ha, hb]
    cases n <;> rfl
  · rw [fadd, ha, hb]
    cases n <;> rfl
  · rw [fsub, ha, hb]
    cases n <;> rfl
  · rw [fdiv, ha, hb]
  · rw [fmul, ha, hb]
    rfl
  · rw [fadd, ha, hb]
    cases n <;> rfl
  · simp [fdiv, ha, hb]
  · simp [fdiv, ha, hb]
  · rw [fdiv, ha, hb]
    dsimp only
    rw [if_pos rfl, if_neg m0]
  · simp [fsqrt, ha]
  · rw [isNan_eq] at h
    rw [isSig_eq, fsqrt]
    cases ha : f.unpack a <;> simp_all [Contrib.isNan, Contrib.isSig]
  · rcases wide with rfl | rfl <;> decide

/-! ### FMIN, FMAX and FRINT -/

theorem key_lt_of_lt {f : Fmt} (sane : f.Sane) {a b : Nat} {u v : ℚ} (hu : valueOf f a = some u) (hv : valueOf f b = some v)
    (lt : u < v) : f.key a < f.key b := by
  have := (cmpKey_lt_iff sane hu hv).mpr lt
  unfold Fmt.cmpKey at this
  unfold Fmt.key
  dsimp only at *
  split at this <;> split at this <;> simp_all <;> omega

/-- FMIN and FMAX of two values, one less than the other. -/
theorem fminmax_of_lt {f : Fmt} (sane : f.Sane) {a b : Nat} {u v : ℚ} (hu : valueOf f a = some u) (hv : valueOf f b = some v) :
    (u < v → fminmax f false a b = { bits := a } ∧ fminmax f true a b = { bits := b }) ∧
      (v < u → fminmax f false a b = { bits := b } ∧ fminmax f true a b = { bits := a }) := by
  obtain ⟨na, sa⟩ := not_nan_of_valueOf hu
  obtain ⟨nb, sb⟩ := not_nan_of_valueOf hv
  refine ⟨fun lt => ?_, fun lt => ?_⟩
  · have := key_lt_of_lt sane hu hv lt
    simp [fminmax, na, nb, sa, sb, nvIf, this.le]
  · have := key_lt_of_lt sane hv hu lt
    simp [fminmax, na, nb, sa, sb, nvIf, this.not_ge]

/-- FRINT raises neither OF nor UF (05 R130). -/
theorem frint_flags {f : Fmt} (h : f = .f32 ∨ f = .f64) (rm : Rnd) (a : Nat) :
    (frint f rm a).flags &&& (flagOF ||| flagUF) = 0 := by
  cases ha : f.unpack a with
  | nan s =>
    have : (frint f rm a).flags = nvIf s := by rw [frint, ha]; rfl
    rw [this]
    cases s <;> decide
  | inf n =>
    have : (frint f rm a).flags = 0 := by rw [frint, ha]
    rw [this]
    decide
  | fin n m e =>
    by_cases m0 : m = 0
    · have : (frint f rm a).flags = 0 := by rw [frint, ha]; dsimp only; rw [if_pos m0]
      rw [this]
      decide
    · obtain ⟨c, -, -, eq⟩ := frint_fin h rm ha m0
      rw [eq]
      dsimp only
      split <;> decide

theorem minMaxAndRoundToIntegral : MinMaxAndRoundToIntegral := by
  intro f rm a b wide la lb
  have sane := sane_of_wide wide
  refine ⟨fun ha hb => ?_, fun ha hb => ⟨?_, ?_⟩, fun ha hb => ⟨?_, ?_⟩, fun u v hu hv => fminmax_of_lt sane hu hv, ?_, ?_, ?_,
    fun h => ?_, fun n e ha => ?_⟩
  · simp [fminmax, ha, hb]
  · simp [fminmax, ha, hb]
  · simp [fminmax, ha, hb]
  · simp [fminmax, ha, hb]
  · simp [fminmax, ha, hb]
  · rcases wide with rfl | rfl <;> decide
  · rcases wide with rfl | rfl <;> decide
  · exact frint_flags wide rm a
  · obtain ⟨n, hn⟩ := of_isInf h
    rw [frint, hn]
  · rw [frint, ha]
    rfl

end Sys2Proof.Machine
end

section
/-! SUPPORT. The exact functions where R58 gives their value, and at their far ends (02 R57, R58). -/
namespace Sys2Proof.Machine
open Sys2Proof.Claim

/-- A cut far above a single unit with a rest below it leaves nothing but what the mode adds. -/
theorem cutAt_far (rm : Rnd) {e q : Int} (h : e + 2 ≤ q) : cutAt rm false 1 e true q = ((decide (rm = .rup)).toNat, true) := by
  obtain ⟨k, hk⟩ : ∃ k, (q - e).toNat = k + 2 := ⟨(q - e).toNat - 2, by omega⟩
  have big : 2 ≤ 2 ^ (k + 1) := by rw [Nat.pow_succ']; exact Nat.le_mul_of_pos_right 2 (by positivity)
  have more : 2 ^ (k + 1) < 2 ^ (k + 2) := Nat.pow_lt_pow_right (by decide) (Nat.lt_succ_self _)
  rw [cutAt, if_neg (by omega), hk]
  dsimp only
  rw [Nat.div_eq_of_lt (by omega), Nat.mod_eq_of_lt (a := 1) (by omega)]
  simp only [show k + 2 - 1 = k + 1 from rfl, show 1 < 2 ^ (k + 1) from big, if_true]
  cases rm <;> rfl

/-! ### Values near one, and beyond the format -/

section
variable {f : Fmt} (wide : f = .f32 ∨ f = .f64)
include wide

/-- A small exact value stands at a code of the format. -/
theorem roundMag_small (rm : Rnd) (n : Bool) {m : Nat} {e : Int} (hm : m.log2 ≤ f.fbits) (he : f.emin ≤ e)
    (le : (m * 2 ^ e : ℚ) ≤ 2 ^ f.fbits) :
    ∃ c ≤ f.maxCode, f.roundMag rm n m e false = (c, false, 0) ∧ f.value n c = rational n m e := by
  obtain ⟨c, hc⟩ := exists_code (f := f) hm he
  have lec : c ≤ f.maxCode := (mag_strictMono f).le_iff_le.mp (hc ▸ le.trans (integer_below_max wide).2)
  refine ⟨c, lec, roundMag_on_grid (sane_of_wide wide) (held_exact m e) nofun (by simp [Fmt.grid, hc]) lec, ?_⟩
  cases n <;> simp [Fmt.value, hc, rational]

/-- An integer of up to ten bits stands at a code of the format. -/
theorem roundMag_integer (rm : Rnd) (n : Bool) {m : Nat} (hm : m < 2 ^ 11) :
    ∃ c ≤ f.maxCode, f.roundMag rm n m 0 false = (c, false, 0) ∧ f.value n c = rational n m 0 := by
  have small : 11 ≤ f.fbits ∧ f.emin ≤ 0 := by rcases wide with rfl | rfl <;> decide
  have lt : m < 2 ^ f.fbits := hm.trans_le (Nat.pow_le_pow_right (by decide) small.1)
  refine roundMag_small wide rm n ?_ small.2 ?_
  · rcases Nat.eq_zero_or_pos m with rfl | pos
    · simp
    · exact ((Nat.log2_lt pos.ne').mpr lt).le
  · rw [zpow_zero, mul_one]
    exact_mod_cast lt.le

/-- An integer of up to ten bits is a value of the format. -/
theorem round_integer (rm : Rnd) (n : Bool) {m : Nat} (hm : m < 2 ^ 11) :
    valueOf f (f.round rm n m 0).bits = some (rational n m 0) ∧ (f.round rm n m 0).flags = 0 := by
  obtain ⟨c, le, mag, value⟩ := roundMag_integer wide rm n hm
  rw [round_eq, mag, ← value]
  exact ⟨valueOf_pack (sane_of_wide wide) n le, rfl⟩

/-- A small integer is converted to itself, without a flag. -/
theorem ofIntF_small (rm : Rnd) (nbv : Nat) {i : ℤ} (hi : i.natAbs < 2 ^ 11) :
    valueOf f (ofIntF f rm nbv i).bits = some (i : ℚ) ∧ (ofIntF f rm nbv i).flags = 0 := by
  obtain ⟨c, le, mag, value⟩ := roundMag_integer wide rm (decide (i < 0)) hi
  rw [ofIntF, convert_fin, mag, ← mul_one (i : ℚ), ← zpow_zero 2, ← rational_natAbs, ← value]
  exact ⟨valueOf_pack (sane_of_wide wide) _ le, rfl⟩

/-- No finite value reaches 2^1024. -/
theorem mag_maxCode_lt : f.mag f.maxCode < 2 ^ (1024 : ℤ) := by
  refine (mag_lt f _).trans_le (zpow_le_zpow_right₀ one_le_two ?_)
  rcases wide with rfl | rfl <;> decide

/-- A power beyond the format overflows. -/
theorem round_beyond (rm : Rnd) : f.round rm false 1 5000 = { bits := f.overflow rm false, flags := flagOF ||| flagNX } := by
  rcases wide with rfl | rfl <;> cases rm <;> decide

/-- A positive value below every subnormal rounds to zero, or towards plus infinity to the least subnormal. -/
theorem vanishing_eq (rm : Rnd) : vanishing f rm = { bits := if rm = .rup then 1 else 0, flags := flagUF ||| flagNX } := by
  have far : max (((1 : Nat).log2 : Int) + -5000 - f.fbits) f.emin = f.emin ∧ -5000 + 2 ≤ f.emin := by
    rcases wide with rfl | rfl <;> decide
  have fits : 1 ≤ f.maxCode ∧ 1 < 2 ^ f.fbits := by rcases wide with rfl | rfl <;> decide
  have mag : f.roundMag rm false 1 (-5000) true = ((decide (rm = .rup)).toNat, false, flagUF ||| flagNX) := by
    rw [Fmt.roundMag, if_neg (fun h => absurd h.1 one_ne_zero), far.1]
    dsimp only
    rw [cutAt_far rm far.2, sub_self, Int.toNat_zero, Nat.zero_mul, Nat.zero_add]
    have le := Bool.toNat_le (decide (rm = .rup))
    rw [if_neg (by omega), if_pos rfl, if_pos (by omega)]
  rw [vanishing, round_eq, mag, if_neg nofun, Fmt.pack, low_of_wide wide]
  cases rm <;> simp

theorem roundedTo_beyond (rm : Rnd) {n : ℤ} (h : 1024 ≤ n) : RoundedTo f rm ((2 : ℝ) ^ n) (f.round rm false 1 5000) := by
  rw [round_beyond wide]
  refine ⟨fun _ y => ?_, fun h => absurd h (show (flagOF ||| flagNX) &&& flagOF ≠ 0 by decide)⟩
  rintro ⟨w, q, hq, rfl⟩
  obtain ⟨le, rfl⟩ := (valueOf_eq_some (sane_of_wide wide)).mp hq
  have lt : f.mag (f.code w) < 2 ^ n := ((mag_strictMono f).monotone le).trans_lt
    ((mag_maxCode_lt wide).trans_le (zpow_le_zpow_right₀ one_le_two h))
  rw [← Rat.cast_abs, abs_value, abs_of_pos (by positivity)]
  have lt : ((f.mag (f.code w) : ℚ) : ℝ) < ((2 ^ n : ℚ) : ℝ) := Rat.cast_lt.mpr lt
  simpa using lt

theorem roundedTo_vanishing (rm : Rnd) {n : ℤ} (h : n ≤ -1100) : RoundedTo f rm ((2 : ℝ) ^ n) (vanishing f rm) := by
  have sane := sane_of_wide wide
  have pos : (0 : ℝ) < 2 ^ n := by positivity
  have first : f.grid (0 + 1) = 2 ^ f.emin := by
    have := mag_binade (f := f) (K := 0) (w := 1) (.inl rfl) (by have := Nat.one_le_two_pow (n := f.fbits); omega)
    simp only [Nat.zero_mul] at this
    rw [Fmt.grid, this]
    simp
  have zero : f.grid 0 = 0 := by simp [Fmt.grid]
  have tiny : (2 : ℝ) ^ n * 2 < 2 ^ f.emin := by
    rw [← zpow_add_one₀ two_ne_zero]
    refine zpow_lt_zpow_right₀ one_lt_two ?_
    have : -1098 ≤ f.emin := by rcases wide with rfl | rfl <;> decide
    omega
  have pick := picks_up (g := f.grid) (rm := rm) (neg := false) (lo := 0) (rest := .lt) (inexact := true) (zero ▸ pos.le)
    (first ▸ by linarith) (show 2 * _ < _ by rw [zero, first]; linarith) (by simp [zero, pos.ne'])
  have code : 0 + (rm.up false (0 % 2 == 1) .lt true).toNat = if rm = .rup then 1 else 0 := by cases rm <;> rfl
  rw [code] at pick
  have ne : f.grid (if rm = .rup then 1 else 0) ≠ 2 ^ n := by
    split
    · rw [show f.grid 1 = _ from first]; linarith
    · rw [zero]; exact pos.ne
  have bits : f.pack false (if rm = .rup then 1 else 0) = if rm = .rup then 1 else 0 := by
    rw [Fmt.pack, low_of_wide wide]
    simp
  have le : (if rm = .rup then 1 else 0) ≤ f.maxCode := by
    have : 1 ≤ f.maxCode := by rcases wide with rfl | rfl <;> decide
    split <;> omega
  have := roundedTo_of_picks sane pick (fl := flagUF ||| flagNX) le (iff_of_false (by decide) ne) (by decide)
  rwa [bits, ← vanishing_eq wide] at this

end

end Sys2Proof.Machine
end

section
/-! SUPPORT. The exact functions of finite operands (02 R57, R58). -/
namespace Sys2Proof.Machine
open Sys2Proof.Claim

/-! ### Magnitudes and their binades -/

theorem two_zpow_le_iff {m : Nat} (m0 : m ≠ 0) {e k : ℤ} : (2 : ℚ) ^ k ≤ m * 2 ^ e ↔ k ≤ m.log2 + e := by
  obtain ⟨low, high⟩ := (held_exact m e).binade m0
  have low : (2 : ℚ) ^ ((m.log2 : ℤ) + e) ≤ m * 2 ^ e := (Rat.cast_le (K := ℝ)).mp (by push_cast; exact low)
  have high : (m * 2 ^ e : ℚ) < 2 ^ ((m.log2 : ℤ) + 1 + e) := (Rat.cast_lt (K := ℝ)).mp (by push_cast; exact high)
  constructor
  · intro le
    have := (zpow_lt_zpow_iff_right₀ one_lt_two).mp (le.trans_lt high)
    omega
  · exact fun le => (zpow_le_zpow_right₀ one_le_two le).trans low

theorem rational_false (m : Nat) (e : ℤ) : rational false m e = m * 2 ^ e := by simp [rational]
theorem rational_true (m : Nat) (e : ℤ) : rational true m e = -(m * 2 ^ e) := by simp [rational]

/-- A value from a power of two up. -/
theorem of_two_zpow_le {n : Bool} {m : Nat} {e k : ℤ} (h : (2 : ℚ) ^ k ≤ rational n m e) :
    n = false ∧ m ≠ 0 ∧ k ≤ m.log2 + e := by
  have pos : (0 : ℚ) < rational n m e := lt_of_lt_of_le (by positivity) h
  have m0 : m ≠ 0 := fun z => pos.ne' (rational_eq_zero.mpr z)
  cases n with
  | true => exact absurd (rational_neg_iff.mpr ⟨rfl, m0⟩) pos.not_gt
  | false => exact ⟨rfl, m0, (two_zpow_le_iff m0).mp (rational_false m e ▸ h)⟩

/-- A value from the opposite of a power of two down. -/
theorem of_le_neg_two_zpow {n : Bool} {m : Nat} {e k : ℤ} (h : rational n m e ≤ -(2 : ℚ) ^ k) :
    n = true ∧ m ≠ 0 ∧ k ≤ m.log2 + e := by
  have pos : (0 : ℚ) < 2 ^ k := by positivity
  obtain ⟨rfl, m0⟩ := rational_neg_iff.mp (show rational n m e < 0 by linarith)
  rw [rational_true] at h
  exact ⟨rfl, m0, (two_zpow_le_iff m0).mp (by linarith)⟩

/-- A power of two has a power of two as its mantissa. -/
theorem of_eq_two_zpow {n : Bool} {m : Nat} {e N : ℤ} (h : rational n m e = 2 ^ N) :
    n = false ∧ m = 2 ^ m.log2 ∧ (m.log2 : ℤ) + e = N := by
  obtain ⟨rfl, m0, le⟩ := of_two_zpow_le h.ge
  rw [rational_false] at h
  have ge : ¬ N + 1 ≤ (m.log2 : ℤ) + e := by
    rw [← two_zpow_le_iff m0, h, not_le]
    exact zpow_lt_zpow_right₀ one_lt_two (lt_add_one N)
  have same : (m.log2 : ℤ) + e = N := by omega
  refine ⟨rfl, ?_, same⟩
  have u : (2 : ℚ) ^ e ≠ 0 := by positivity
  rw [← same, zpow_add₀ two_ne_zero, zpow_natCast] at h
  exact_mod_cast mul_right_cancel₀ u h

/-- Finite encodings of one value other than zero are read alike. -/
theorem unpack_eq_of_value {f : Fmt} (sane : f.Sane) {a b : Nat} {u : ℚ} (u0 : u ≠ 0) (ha : valueOf f a = some u)
    (hb : valueOf f b = some u) : f.unpack a = f.unpack b := by
  obtain ⟨lea, va⟩ := (valueOf_eq_some sane).mp ha
  obtain ⟨leb, vb⟩ := (valueOf_eq_some sane).mp hb
  have code : f.code a = f.code b := (mag_strictMono f).injective (by rw [← abs_value f (f.neg a), ← abs_value f (f.neg b), va, vb])
  have ne : f.mag (f.code b) ≠ 0 := by rwa [← abs_value f (f.neg b), vb, abs_ne_zero]
  have sign : f.neg a = f.neg b := by
    have same := va.trans vb.symm
    rw [code] at same
    cases ha : f.neg a <;> cases hb : f.neg b <;> simp only [ha, hb, Fmt.value, Bool.false_eq_true, if_true, if_false] at same
    · rfl
    · exact absurd (self_eq_neg.mp same) ne
    · exact absurd (neg_eq_self.mp same) ne
    · rfl
  rw [unpack_fin sane lea, unpack_fin sane leb, code, sign]

/-! ### What a function does with a finite operand -/

section
variable {fn : ExactFn} {f : Fmt} {rm : Rnd} {a : Nat} {n : Bool} {m : Nat} {e : Int} (h : f.unpack a = .fin n m e)
include h

theorem valueOf_of_unpack : valueOf f a = some (rational n m e) := by
  rw [valueOf, h]
  rfl

theorem exactFn_of_finite (m0 : m ≠ 0) (hfn : fn ≠ .log ∧ fn ≠ .log2) : exactFn fn f rm a = exactFinite fn f rm a n m e := by
  rw [exactFn, h]
  simp [m0, hfn]

theorem exactFn_log_of_neg (m0 : m ≠ 0) (neg : n = true) (hfn : fn = .log ∨ fn = .log2) : exactFn fn f rm a = f.nanR flagNV := by
  rw [exactFn, h]
  simp [m0, hfn, neg]

variable (wide : f = .f32 ∨ f = .f64)
include wide

/-- The operand 1 of a logarithm. -/
theorem exactFn_log_of_one (one : rational n m e = 1) (hfn : fn = .log ∨ fn = .log2) : exactFn fn f rm a = { bits := 0 } := by
  have hu : valueOf f a = some 1 := one ▸ valueOf_of_unpack h
  have same := unpack_eq_of_value (sane_of_wide wide) one_ne_zero hu
    ((round_integer wide .rne false (m := 1) (by decide)).1.trans (congrArg some (by simp [rational])))
  obtain ⟨pos, m0, -⟩ := of_two_zpow_le (k := 0) (by rw [one, zpow_zero])
  rw [exactFn, h]
  simp [m0, hfn, pos, ← same, h]

/-- A logarithm of a positive operand other than 1. -/
theorem exactFn_log_of_pos (pos : 0 < rational n m e) (off : rational n m e ≠ 1) :
    exactFn fn f rm a = exactFinite fn f rm a n m e := by
  have m0 : m ≠ 0 := fun z => pos.ne' (rational_eq_zero.mpr z)
  have up : n ≠ true := fun neg => pos.not_gt (rational_neg_iff.mpr ⟨neg, m0⟩)
  have differs : f.unpack a ≠ f.unpack (f.round .rne false 1 0).bits := by
    intro same
    have hu := valueOf_of_unpack h
    have := (round_integer wide .rne false (m := 1) (by decide)).1
    rw [valueOf, ← same, ← valueOf, hu] at this
    exact off (by simpa [rational] using Option.some.inj this)
  rw [exactFn, h]
  dsimp only
  rw [if_neg m0, if_neg fun both => up both.2, if_neg fun both => differs (h.trans both.2)]

end

/-! ### Powers of two -/

/-- The enclosure of an integer, at a precision that holds its unit, is that integer. -/
theorem ivOf_integer {p : Nat} {n : Bool} {m : Nat} {e N : ℤ} (he : 0 ≤ e + p) (value : rational n m e = N) :
    ivOf p (signed n m) e = { lo := N * 2 ^ p, hi := N * 2 ^ p } := by
  have same : signed n m * 2 ^ (e + p).toNat = N * 2 ^ p := by
    have : (signed n m : ℚ) * 2 ^ (e + p) = N * 2 ^ p := by
      rw [zpow_add₀ two_ne_zero, ← mul_assoc, ← rational_signed, value, zpow_natCast]
    rw [← Int.toNat_of_nonneg he, zpow_natCast] at this
    exact_mod_cast this
  rw [ivOf]
  rw [if_pos he, same]

theorem le_ivOf_zero {m : Nat} {e k : ℤ} (le : (k : ℚ) ≤ m * 2 ^ e) : k ≤ (ivOf 0 m e).lo := by
  rw [ivOf]
  rw [Nat.cast_zero, add_zero]
  split
  next pos =>
    rw [← Int.toNat_of_nonneg pos, zpow_natCast] at le
    exact_mod_cast le
  next neg =>
    refine (Int.le_ediv_iff_mul_le (by positivity)).mpr ?_
    obtain ⟨d, rfl⟩ : ∃ d : Nat, e = -d := ⟨(-e).toNat, by omega⟩
    rw [zpow_neg, zpow_natCast, ← div_eq_mul_inv, le_div_iff₀ (by positivity)] at le
    rw [neg_neg, Int.toNat_natCast]
    exact_mod_cast le

section
variable {f : Fmt} {rm : Rnd} {a : Nat} {n : Bool} {m : Nat} {e : Int} (h : f.unpack a = .fin n m e)
include h

/-- FEXP and FEXP2 from 2^12 up. -/
theorem exp_beyond {fn : ExactFn} (hfn : fn = .exp ∨ fn = .exp2) (big : (2 : ℚ) ^ (12 : ℤ) ≤ rational n m e) :
    exactFn fn f rm a = f.round rm false 1 5000 := by
  obtain ⟨pos, m0, mag⟩ := of_two_zpow_le big
  rcases hfn with rfl | rfl <;> rw [exactFn_of_finite h m0 (by decide), exactFinite] <;> simp [mag, pos]

/-- FEXP and FEXP2 from -2^12 down. -/
theorem exp_vanishing {fn : ExactFn} (hfn : fn = .exp ∨ fn = .exp2) (big : rational n m e ≤ -(2 : ℚ) ^ (12 : ℤ)) :
    exactFn fn f rm a = vanishing f rm := by
  obtain ⟨neg, m0, mag⟩ := of_le_neg_two_zpow big
  rcases hfn with rfl | rfl <;> rw [exactFn_of_finite h m0 (by decide), exactFinite] <;> simp [mag, neg]

/-- FERFC from 28 up. -/
theorem erfc_vanishing (big : 28 ≤ rational n m e) : exactFn .erfc f rm a = vanishing f rm := by
  obtain ⟨rfl, m0, mag⟩ := of_two_zpow_le (k := 4) (le_trans (by norm_num) big)
  rw [exactFn_of_finite h m0 (by decide), exactFinite]
  dsimp only
  rw [if_neg (by omega), if_neg nofun, if_pos (le_ivOf_zero (by rw [← rational_false]; exact_mod_cast big))]

variable (wide : f = .f32 ∨ f = .f64)
include wide

/-- The exponents of finite operands. -/
theorem exponent_bounds : f.emin ≤ e ∧ ((m : ℚ) * 2 ^ e < 2 ^ (1024 : ℤ)) := by
  obtain ⟨le, -, sig, exp⟩ := of_unpack_fin (sane_of_wide wide) h
  have mag : f.mag (f.code a) = m * 2 ^ e := by rw [Fmt.mag, sig, exp]
  refine ⟨?_, mag ▸ ((mag_strictMono f).monotone le).trans_lt (mag_maxCode_lt wide)⟩
  rw [← exp, Fmt.exp]
  split
  next => exact le_rfl
  next out =>
    have : 0 < f.code a / 2 ^ f.fbits := Nat.div_pos (Nat.not_lt.mp out) (by positivity)
    omega

/-- FEXP2 of an integer is the power rounded (02 R58). -/
theorem exp2_integer {N : ℤ} (m0 : m ≠ 0) (value : rational n m e = N) : RoundedTo f rm ((2 : ℝ) ^ N) (exactFn .exp2 f rm a) := by
  have abs : (m * 2 ^ e : ℚ) = |N| := by rw [Int.cast_abs, ← value]; cases n <;> simp [rational]
  rcases le_or_gt (2 ^ 12) N with big | small
  · rw [exp_beyond h (.inr rfl) (by rw [value]; exact_mod_cast big)]
    exact roundedTo_beyond wide rm (by omega)
  rcases le_or_gt N (-2 ^ 12) with low | high
  · rw [exp_vanishing h (.inr rfl) (by rw [value]; exact_mod_cast low)]
    exact roundedTo_vanishing wide rm (by omega)
  have some0 : N ≠ 0 := fun z => m0 (rational_eq_zero.mp (value.trans (by simp [z])))
  have under : ¬ 12 ≤ (m.log2 : ℤ) + e := by
    rw [← two_zpow_le_iff m0, abs, not_le]
    exact_mod_cast abs_lt.mpr ⟨high, small⟩
  have over1 : 0 ≤ (m.log2 : ℤ) + e := by
    rw [← two_zpow_le_iff m0, abs, zpow_zero]
    exact_mod_cast Int.one_le_abs some0
  have fine : 0 ≤ e + (1200 : Nat) := by
    have := (exponent_bounds h wide).1
    have : -1098 ≤ f.emin := by rcases wide with rfl | rfl <;> decide
    omega
  rw [exactFn_of_finite h m0 (by decide), exactFinite]
  dsimp only
  rw [if_neg under, if_neg (by omega), ivOf_integer fine value, Int.mul_ediv_cancel _ (by positivity), if_pos ⟨rfl, rfl⟩]
  have := round_rational (sane_of_wide wide) rm false 1 N
  simpa [rational] using this

/-- FLOG2 of a power of two is its exponent (02 R58). -/
theorem log2_power {N : ℤ} (value : rational n m e = 2 ^ N) :
    valueOf f (exactFn .log2 f rm a).bits = some (N : ℚ) ∧ (exactFn .log2 f rm a).flags = 0 := by
  have sane := sane_of_wide wide
  have pos : (0 : ℚ) < 2 ^ N := by positivity
  by_cases one : rational n m e = 1
  · have : N = 0 := by
      rw [one, ← zpow_zero 2] at value
      exact (zpow_right_injective₀ two_pos one_lt_two.ne' value).symm
    rw [exactFn_log_of_one h wide one (.inr rfl), this]
    have zero := valueOf_pack sane false (Nat.zero_le f.maxCode)
    rw [Fmt.pack] at zero
    exact ⟨by simpa [Fmt.value] using zero, rfl⟩
  · obtain ⟨rfl, power, exponent⟩ := of_eq_two_zpow value
    obtain ⟨least, most⟩ := exponent_bounds h wide
    rw [← rational_false, value, zpow_lt_zpow_iff_right₀ one_lt_two] at most
    rw [exactFn_log_of_pos h wide (value ▸ pos) one, exactFinite]
    dsimp only
    rw [if_pos power, exponent]
    have : -1098 ≤ f.emin := by rcases wide with rfl | rfl <;> decide
    exact ofIntF_small wide rm 2 (by omega)

end

/-! ### Just below one -/

section
variable {f : Fmt} (wide : f = .f32 ∨ f = .f64)
include wide

/-- A value just below 1 is rounded to 1, or towards zero to the value before it. -/
theorem round_below_one (rm : Rnd) : f.round rm false (2 ^ 64 - 1) (-64) true =
    { bits := f.pack false (if rm = .rtz ∨ rm = .rdn then f.bias * 2 ^ f.fbits - 1 else f.bias * 2 ^ f.fbits), flags := flagNX } := by
  rcases wide with rfl | rfl <;> cases rm <;> decide

/-- 1 is rounded alike in every mode. -/
theorem round_one (rm : Rnd) : f.round rm false 1 0 = { bits := (f.round .rne false 1 0).bits } := by
  rcases wide with rfl | rfl <;> cases rm <;> decide

theorem mag_one : f.mag (f.bias * 2 ^ f.fbits) = 1 := by
  rcases wide with rfl | rfl <;> norm_num [Fmt.mag, Fmt.sig, Fmt.exp, Fmt.emin, Fmt.f32, Fmt.f64]

theorem mag_before_one : f.mag (f.bias * 2 ^ f.fbits - 1) = 1 - 1 / 2 ^ (f.fbits + 1) := by
  rcases wide with rfl | rfl <;> norm_num [Fmt.mag, Fmt.sig, Fmt.exp, Fmt.emin, Fmt.f32, Fmt.f64]

/-- FERF from 16 up. -/
theorem erf_below_one {rm : Rnd} {a : Nat} {n : Bool} {m : Nat} {e : Int} (h : f.unpack a = .fin n m e) (big : 16 ≤ rational n m e) :
    (exactFn .erf f rm a).flags = flagNX ∧
      valueOf f (exactFn .erf f rm a).bits = some (if rm = .rtz ∨ rm = .rdn then 1 - 1 / 2 ^ (f.fbits + 1) else 1) := by
  obtain ⟨rfl, m0, mag⟩ := of_two_zpow_le (k := 4) (le_trans (by norm_num) big)
  rw [exactFn_of_finite h m0 (by decide), exactFinite]
  dsimp only
  rw [if_pos mag, round_below_one wide]
  refine ⟨rfl, (valueOf_pack (sane_of_wide wide) false ?_).trans (congrArg some ?_)⟩
  · have : f.bias * 2 ^ f.fbits ≤ f.maxCode := by rcases wide with rfl | rfl <;> decide
    split <;> omega
  · split
    · exact mag_before_one wide
    · exact mag_one wide

end

theorem exactFunctionsAtTheirEnds : ExactFunctionsAtTheirEnds := by
  intro f rm a wide
  dsimp only
  have one : valueOf f (f.round .rne false 1 0).bits = some 1 :=
    (round_integer wide .rne false (by decide)).1.trans (congrArg some (by simp [rational]))
  refine ⟨fun fn sig h => by rw [exactFn, h], fun h => ?_, fun h => ?_, fun u hu => ?_⟩
  · simp only [exactFn, h, Bool.false_eq_true, if_false, true_and, and_true]
    exact one
  · simp only [exactFn, h, if_true, true_and, and_true]
    exact ⟨(round_integer wide .rne true (by decide)).1.trans (congrArg some (by simp [rational])),
      (round_integer wide .rne false (by decide)).1.trans (congrArg some (by simp [rational]))⟩
  obtain ⟨n, m, e, h, rfl⟩ := valueOf_fin hu
  refine ⟨fun zero => ?_, fun N value => ?_, fun value => ?_, fun N value => log2_power h wide value, fun neg => ?_, fun big => ?_,
    fun big => ?_, fun big => ?_, fun big => erf_below_one wide h big⟩
  · obtain rfl := rational_eq_zero.mp zero
    simp only [exactFn, h, if_true, true_and, and_true]
    refine ⟨one, one, one, n, rfl, ?_⟩
    rw [testBit_signPos wide, (of_unpack_fin (sane_of_wide wide) h).2.1]
  · rcases Nat.eq_zero_or_pos m with rfl | pos
    · obtain rfl : N = 0 := by simpa using value.symm
      have := round_rational (sane_of_wide wide) rm false 1 0
      rw [round_one wide] at this
      simpa [exactFn, h, rational] using this
    · exact exp2_integer h wide pos.ne' value
  · exact ⟨exactFn_log_of_one h wide value (.inl rfl), exactFn_log_of_one h wide value (.inr rfl)⟩
  · obtain ⟨neg, m0⟩ := rational_neg_iff.mp neg
    exact ⟨exactFn_log_of_neg h m0 neg (.inl rfl), exactFn_log_of_neg h m0 neg (.inr rfl)⟩
  · rw [exp_beyond h (.inl rfl) (by exact_mod_cast big), exp_beyond h (.inr rfl) (by exact_mod_cast big), round_beyond wide]
    exact ⟨rfl, rfl⟩
  · rw [exp_vanishing h (.inl rfl) (by exact_mod_cast big), exp_vanishing h (.inr rfl) (by exact_mod_cast big),
      vanishing_eq wide]
    exact ⟨rfl, rfl⟩
  · rw [erfc_vanishing h big, vanishing_eq wide]

end Sys2Proof.Machine
end

section
/-! SUPPORT. Conversions between element types and FCLASS (02 R53 to R56, 05 R127), and O23. -/
namespace Sys2Proof.Machine
open Sys2Proof.Claim

/-! ### To a floating-point format -/

section
variable {f g : Fmt} {rm : Rnd} {nbv w : Nat}

/-- The formats without NaN, those without infinity, and those with a saturating conversion (02 R53, R54). -/
theorem format_rules (hg : g ∈ allFmts) : (g.nan = .none ↔ g ∈ [Fmt.e3m2, .e2m3, .e2m1]) ∧
    (g.inf = false ↔ g ∈ [Fmt.e4m3, .e3m2, .e2m3, .e2m1]) ∧ (g.fp8 = true ↔ g = .e4m3 ∨ g = .e5m2) := by
  have : ∀ g ∈ allFmts, (g.nan = .none ↔ g ∈ [Fmt.e3m2, .e2m3, .e2m1]) ∧
    (g.inf = false ↔ g ∈ [Fmt.e4m3, .e3m2, .e2m3, .e2m1]) ∧ (g.fp8 = true ↔ g = .e4m3 ∨ g = .e5m2) := by decide
  exact this g hg

theorem roundMag_zero (f : Fmt) (rm : Rnd) (n : Bool) (e : Int) : f.roundMag rm n 0 e false = (0, false, 0) := rfl

/-- A finite value to a floating-point format: rounded, and on overflow what R54 puts. -/
theorem convert_finite (hg : g ∈ allFmts) {u : ℚ} (hu : valueOf f w = some u) :
    RoundedTo g rm (u : ℝ) (g.convert rm nbv (f.unpack w)) ∧ ((g.convert rm nbv (f.unpack w)).flags &&& flagOF ≠ 0 →
      g.convert rm nbv (f.unpack w) = if g.narrow = false then { bits := g.overflow rm (u < 0), flags := flagOF ||| flagNX }
        else if (g = .e4m3 ∨ g = .e5m2) ∧ nbv = 1 then g.nanR (flagOF ||| flagNX)
        else { bits := g.pack (u < 0) g.maxCode, flags := flagOF ||| flagNX ||| flagSAT }) := by
  have sane := sane_of_mem hg
  obtain ⟨n, m, e, h, rfl⟩ := valueOf_fin hu
  rw [h]
  refine ⟨cast_rational n m e ▸ convert_roundedTo sane nbv (held_exact m e) nofun, ?_⟩
  obtain ⟨-, -, fits⟩ := roundMag_spec sane rm n (held_exact m e) nofun
  rw [convert_fin]
  split
  next beyond =>
    have m0 : m ≠ 0 := by
      rintro rfl
      rw [roundMag_zero] at beyond
      cases beyond
    have sign : decide (rational n m e < 0) = n := by simp [rational_neg_iff, m0]
    intro _
    simp only [sign, ← (format_rules hg).2.2, Bool.and_eq_true, beq_iff_eq, Bool.not_eq_true']
  next within =>
    have quiet : (g.roundMag rm n m e false).2.2 &&& flagOF = 0 := by
      rcases fits (by simpa using within) with ⟨-, fl⟩ | ⟨-, fl | fl⟩ <;> rw [fl] <;> decide
    exact fun raised => absurd quiet raised

theorem convertNum_fp_fp (hg : g ∈ allFmts) :
    (∀ sig, f.unpack w = .nan sig → convertNum (.fp f) (.fp g) rm nbv w = if g ∈ [Fmt.e3m2, .e2m3, .e2m1] then
      { bits := 0, flags := flagNV } else g.nanR (nvIf sig)) ∧
    ∀ n, f.unpack w = .inf n → convertNum (.fp f) (.fp g) rm nbv w = if g ∈ [Fmt.e4m3, .e3m2, .e2m3, .e2m1] then
      { bits := g.pack n g.maxCode, flags := flagSAT } else g.infR n := by
  obtain ⟨nan, inf, -⟩ := format_rules hg
  refine ⟨fun sig h => ?_, fun n h => ?_⟩
  · simp only [convertNum, ofValTo, Fmt.convert, h, nan]
  · simp only [convertNum, ofValTo, Fmt.convert, h, ← inf]
    cases g.inf <;> rfl

/-- An integer to a floating-point format is rounded; 0 gives +0 (02 R56). -/
theorem ofIntF_roundedTo (hg : g ∈ allFmts) (x : ℤ) :
    RoundedTo g rm ((x : ℚ) : ℝ) (ofIntF g rm nbv x) ∧ (x = 0 → ofIntF g rm nbv x = { bits := 0 }) := by
  constructor
  · rw [← mul_one (x : ℚ), ← zpow_zero 2, ← rational_natAbs, cast_rational]
    exact convert_roundedTo (sane_of_mem hg) nbv (held_exact _ 0) nofun
  · rintro rfl
    rw [ofIntF, convert_fin, Int.natAbs_zero, roundMag_zero]
    simp [Fmt.pack]

end

/-! ### To an integer type -/

/-- Two integers that are both nearest to a value enclose it at half a unit. -/
theorem tie_of_two_nearest {v : ℚ} {j k : ℤ} (lt : j < k) (hj : |(j : ℚ) - v| ≤ 1 / 2) (hk : |(k : ℚ) - v| ≤ 1 / 2) :
    k = j + 1 ∧ v = j + 1 / 2 := by
  have up := (abs_le.mp hj).1
  have down := (abs_le.mp hk).2
  have step : k = j + 1 := by
    have : (k : ℚ) ≤ ((j + 1 : ℤ) : ℚ) := by push_cast; linarith
    have : k ≤ j + 1 := by exact_mod_cast this
    omega
  subst step
  push_cast at down
  exact ⟨rfl, by linarith⟩

theorem roundedInt_not_lt {rm : Rnd} {v : ℚ} {j k : ℤ} (hj : RoundedInt rm v j) (hk : RoundedInt rm v k) : ¬ j < k := by
  intro lt
  cases rm with
  | rdn => exact lt.ne (hj.trans hk.symm)
  | rup => exact lt.ne (hj.trans hk.symm)
  | rtz => exact lt.ne (hj.trans hk.symm)
  | rne =>
    obtain ⟨rfl, rfl⟩ := tie_of_two_nearest lt hj.1 hk.1
    have even := hj.2 (by norm_num)
    have odd := hk.2 (by push_cast; norm_num)
    omega
  | rmm =>
    obtain ⟨rfl, rfl⟩ := tie_of_two_nearest lt hj.1 hk.1
    have low := hj.2 (by norm_num)
    have high := hk.2 (by push_cast; norm_num)
    rcases le_or_gt 0 j with pos | neg
    · have : (0 : ℚ) ≤ j := by exact_mod_cast pos
      rw [abs_of_nonneg (by linarith), abs_of_nonneg this] at low
      linarith
    · have : ((j + 1 : ℤ) : ℚ) ≤ 0 := by exact_mod_cast neg
      rw [abs_of_nonpos this] at high
      push_cast at this high
      rw [abs_of_nonpos (by linarith)] at high
      linarith

/-- The mode names one integer. -/
theorem roundedInt_unique {rm : Rnd} {v : ℚ} {j k : ℤ} (hj : RoundedInt rm v j) (hk : RoundedInt rm v k) : j = k :=
  le_antisymm (Int.not_lt.mp (roundedInt_not_lt hk hj)) (Int.not_lt.mp (roundedInt_not_lt hj hk))

theorem lo_le_hi (t : IntTy) : t.lo ≤ t.hi := by
  have one : (1 : ℤ) ≤ 2 ^ (t.width - 1) := one_le_pow₀ (by decide)
  have all : (1 : ℤ) ≤ 2 ^ t.width := one_le_pow₀ (by decide)
  unfold IntTy.lo IntTy.hi
  split <;> omega

theorem clamp_eq (t : IntTy) (v : ℤ) : t.clamp v = (max t.lo (min t.hi v), decide (v < t.lo ∨ t.hi < v)) := by
  have range := lo_le_hi t
  unfold IntTy.clamp
  split
  next below => rw [min_eq_right (by omega), max_eq_left below.le, decide_eq_true (.inl below)]
  next =>
    split
    next above => rw [min_eq_left above.le, max_eq_right range, decide_eq_true (.inr above)]
    next => rw [min_eq_right (by omega), max_eq_right (by omega), decide_eq_false (by omega)]

theorem ofInt_eq (n : Nat) (i : ℤ) : ofInt n i = (BitVec.ofInt n i).toNat := by
  rw [ofInt, BitVec.toNat_ofInt]
  push_cast
  rfl

section
variable {f : Fmt} {t : IntTy} {rm : Rnd} {nbv w : Nat}

/-- A finite value to an integer type: the integer that the mode names, clamped with NV (02 R55). -/
theorem convertNum_fin_int {u : ℚ} {k : ℤ} (hu : valueOf f w = some u) (hk : RoundedInt rm u k) :
    convertNum (.fp f) (.int t) rm nbv w = { bits := (BitVec.ofInt t.width (max t.lo (min t.hi k))).toNat, flags :=
      if k < t.lo ∨ t.hi < k then flagNV else if (k : ℚ) = u then 0 else flagNX } := by
  obtain ⟨n, m, e, h, rfl⟩ := valueOf_fin hu
  obtain ⟨rounded, inexact⟩ := roundToInt_spec rm n m e
  rcases hr : roundToInt rm n m e with ⟨j, b⟩
  rw [hr] at rounded inexact
  obtain rfl := roundedInt_unique rounded hk
  simp only [convertNum, ofValTo, h, toIntTy, hr, clamp_eq]
  by_cases out : j < t.lo ∨ t.hi < j
  · simp only [out, decide_true, if_true, ofInt_eq]
  · simp only [out, decide_false, if_false, ofInt_eq, inexact, ne_eq, ite_not]

theorem convertNum_special_int : (∀ sig, f.unpack w = .nan sig →
      convertNum (.fp f) (.int t) rm nbv w = { bits := (BitVec.ofInt t.width 0).toNat, flags := flagNV }) ∧
    ∀ n, f.unpack w = .inf n → convertNum (.fp f) (.int t) rm nbv w =
      { bits := (BitVec.ofInt t.width (if n then t.lo else t.hi)).toNat, flags := flagNV } := by
  refine ⟨fun sig h => ?_, fun n h => ?_⟩ <;> simp only [convertNum, ofValTo, h, toIntTy, ofInt_eq]

/-- The integer of an element. -/
theorem val_eq (t : IntTy) (w : Nat) : t.val w = valueI (!t.signed) (BitVec.ofNat t.width w) := by
  unfold IntTy.val valueI
  cases t.signed with
  | false => rw [if_neg nofun, Bool.not_false, if_pos rfl, BitVec.toNat_ofNat]
  | true =>
    rw [if_pos rfl, Bool.not_true, if_neg nofun, BitVec.toInt_eq_toNat_cond, BitVec.toNat_ofNat, toSigned]
    have half : w % 2 ^ t.width < 2 ^ (t.width - 1) ↔ 2 * (w % 2 ^ t.width) < 2 ^ t.width := by
      cases t.width with
      | zero => simp [Nat.mod_one]
      | succ k => rw [Nat.add_sub_cancel, Nat.pow_succ]; omega
    simp only [half]
    push_cast
    rfl

theorem convertNum_int_int (t t' : IntTy) (rm : Rnd) (nbv w : Nat) :
    convertNum (.int t) (.int t') rm nbv w = clamped t'.width (!t'.signed) (valueI (!t.signed) (BitVec.ofNat t.width w)) := by
  have lo : t'.lo = if !t'.signed then 0 else -(2 ^ (t'.width - 1)) := by unfold IntTy.lo; cases t'.signed <;> rfl
  have hi : t'.hi = if !t'.signed then 2 ^ t'.width - 1 else 2 ^ (t'.width - 1) - 1 := by unfold IntTy.hi; cases t'.signed <;> rfl
  simp only [convertNum, ofIntTo, val_eq, clamp_eq, ofInt_eq, decide_eq_true_eq, clamped, ← lo, ← hi]

/-- A value to BIN1: its sign (02 R56). -/
theorem convertNum_fp_bin (sane : f.Sane) : convertNum (.fp f) .bin rm nbv w =
    if f.isNan w then { bits := 1, flags := flagNV } else { bits := if (w / 2 ^ f.low).testBit f.signPos then 0 else 1 } := by
  rw [← testBit_eq, ← Fmt.neg]
  unfold Fmt.isNan
  cases h : f.unpack w with
  | nan sig => simp only [convertNum, ofValTo, h, if_true]
  | inf n =>
    rw [(of_unpack_inf sane h).1]
    simp only [convertNum, ofValTo, h]
    cases n <;> rfl
  | fin n m e =>
    rw [(of_unpack_fin sane h).2.1]
    simp only [convertNum, ofValTo, h]
    cases n <;> rfl

end

/-! ### FCLASS -/

/-- The least normal magnitude. -/
theorem mag_least_normal (f : Fmt) : f.mag (2 ^ f.fbits) = 2 ^ (1 - (f.bias : ℤ)) := by
  have := mag_binade (f := f) (K := 0) (w := 2 ^ f.fbits) (.inl rfl) (by omega)
  rw [Nat.zero_mul, Nat.zero_add] at this
  rw [this, Nat.cast_zero, add_zero, Nat.cast_pow, Nat.cast_ofNat, ← zpow_natCast, ← zpow_add₀ two_ne_zero, Fmt.emin]
  congr 1
  ring

/-- A mantissa without the leading one is that of a magnitude below the least normal one. -/
theorem subnormal_iff {f : Fmt} (sane : f.Sane) {a : Nat} {n : Bool} {m : Nat} {e : Int} (h : f.unpack a = .fin n m e) :
    m < 2 ^ f.fbits ↔ |rational n m e| < 2 ^ (1 - (f.bias : ℤ)) := by
  obtain ⟨-, -, rfl, rfl⟩ := of_unpack_fin sane h
  rw [rational_mag, abs_value, ← mag_least_normal, (mag_strictMono f).lt_iff_lt, Fmt.sig]
  split <;> omega

theorem fclassify_cases {f : Fmt} (h : f = .f32 ∨ f = .f64) (a : Nat) :
    (∀ sig, f.unpack a = .nan sig → fclassify f a = if sig then 8 else 9) ∧
    (f.isInf a = true → fclassify f a = if a.testBit f.signPos then 0 else 7) ∧
    ∀ u, valueOf f a = some u →
      (u = 0 → fclassify f a = if a.testBit f.signPos then 3 else 4) ∧
      (u ≠ 0 → |u| < 2 ^ (1 - (f.bias : ℤ)) → fclassify f a = if a.testBit f.signPos then 2 else 5) ∧
      (2 ^ (1 - (f.bias : ℤ)) ≤ |u| → fclassify f a = if a.testBit f.signPos then 1 else 6) := by
  have sane := sane_of_wide h
  rw [testBit_signPos h]
  refine ⟨fun sig hn => by rw [fclassify, hn], fun hi => ?_, fun u hu => ?_⟩
  · obtain ⟨n, hn⟩ := of_isInf hi
    rw [(of_unpack_inf sane hn).1, fclassify, hn]
  · obtain ⟨n, m, e, hf, rfl⟩ := valueOf_fin hu
    rw [(of_unpack_fin sane hf).2.1, ← subnormal_iff sane hf, ← not_lt, ← subnormal_iff sane hf, Ne, rational_eq_zero, fclassify, hf]
    refine ⟨fun z => if_pos z, fun m0 small => ?_, fun big => ?_⟩
    · exact (if_neg m0).trans (if_pos small)
    · have m0 : m ≠ 0 := by rintro rfl; exact big (by positivity)
      exact (if_neg m0).trans (if_neg big)

theorem conversionsAndClasses : ConversionsAndClasses := by
  refine ⟨fun f g rm nbv w _ hg => ?_, fun f c t rm nbv w _ _ => ?_, fun c t rm nbv w _ => ?_, fun f rm nbv w hf => ?_,
    fun f a wide => fclassify_cases wide a⟩
  · exact ⟨fun u hu => convert_finite hg hu, convertNum_fp_fp hg⟩
  · exact ⟨fun u k hu hk => convertNum_fin_int hu hk, convertNum_special_int⟩
  · refine ⟨fun g hg => ?_, fun c' t' _ => convertNum_int_int t t' rm nbv w, ?_⟩
    · rw [convertNum, ofIntTo, val_eq]
      exact ofIntF_roundedTo hg _
    · rw [convertNum, ofIntTo, val_eq]
  · exact convertNum_fp_bin (sane_of_mem hf)

end Sys2Proof.Machine

open Sys2Proof Sys2Proof.Machine Sys2Proof.Claim

/-- Settles O23: the special cases by the kinds of the operands; the exact functions by their binades; conversions by the grid of
the format converted to and by the one integer that the mode names. -/
theorem floatSpecialCases : Obligations.FloatSpecialCases :=
  ⟨floatSpecials, minMaxAndRoundToIntegral, exactFunctionsAtTheirEnds, conversionsAndClasses⟩
end

section
/-! SUPPORT. The reach of the reduction tree (02 R62), and O26. treeReduce carries 32 levels of fuel, enough for every list that
an instruction forms; O26 speaks of the extreme over lists of every length. -/
namespace Sys2Proof.Machine

/-- One level of the tree over absent positions leaves half as many. -/
theorem treeLevel_absent {α : Type} (f : α → α → α) (n : Nat) (l : List (Option α)) :
    treeLevel f (List.replicate (2 * n) none ++ l) = List.replicate n none ++ treeLevel f l := by
  induction n with
  | zero => rfl
  | succ n ih => rw [Nat.mul_succ, List.replicate_succ, List.replicate_succ, List.replicate_succ]; simp [treeLevel, ih]

/-- A tree of n levels does not look beyond its first 2^n positions: where they are absent it yields nothing. -/
theorem treeFold_absent {α : Type} (f : α → α → α) (n : Nat) (l : List (Option α)) :
    treeFold f n (List.replicate (2 ^ n) none ++ l) = none := by
  induction n generalizing l with
  | zero => cases l <;> rfl
  | succ n ih =>
    obtain ⟨k, hk⟩ : ∃ k, 2 * 2 ^ n = k + 2 := ⟨2 * 2 ^ n - 2, by have := Nat.one_le_two_pow (n := n); omega⟩
    have two : treeFold f (n + 1) (List.replicate (2 * 2 ^ n) none ++ l) =
        treeFold f n (treeLevel f (List.replicate (2 * 2 ^ n) none ++ l)) := by rw [hk]; rfl
    rw [Nat.pow_succ', two, treeLevel_absent, ih]

theorem treeReduce_absent {α : Type} (f : α → α → α) (l : List (Option α)) :
    treeReduce f (List.replicate (2 ^ 32) none ++ l) = none := by
  rw [treeReduce, padTo, List.append_assoc, treeFold_absent]

end Sys2Proof.Machine

open Sys2Proof Sys2Proof.Machine Sys2Proof.Claim

/-- Refutes O26, in its clause on extremes: over 2^32 absent elements and then a 0, the natural minimum is the empty value, since
the 33rd level of the tree is not taken; with the empty value 1, that is no element of the list. -/
theorem not_reductionsAndExtremes : ¬ Obligations.ReductionsAndExtremes := by
  rintro ⟨-, -, extremes⟩
  have only {x : Nat} (h : some x ∈ List.replicate (2 ^ 32) none ++ [some 0]) : x = 0 := by
    rcases List.mem_append.mp h with h | h
    · cases List.eq_of_mem_replicate h
    · simpa using h
  obtain ⟨⟨least, -⟩, -⟩ := (extremes 1 1 (List.replicate (2 ^ 32) none ++ [some 0]) fun x h => by rw [only h]; decide).2
    (by rw [List.filterMap_append]; exact List.append_ne_nil_of_right_ne_nil _ (by decide))
  rw [iextreme, treeReduce_absent] at least
  cases only least
end

section
/-! SUPPORT. The round trip of the encoding, and O3 and O4. An instruction's word is its base with fields added (pack); where the
fields lie apart and where the base holds 0, each place reads its field and every other place reads the base. One lemma per
slot class then goes through the instructions, those of one layout together, and reads each operand back. -/
namespace Sys2Proof
open Sys2Proof.Machine

/-! ### Fields of a number -/

theorem fld_add_above {b v lo n k : Nat} (h : lo + n ≤ k) : fld (b + v * 2 ^ k) lo n = fld b lo n := by
  obtain ⟨j, rfl⟩ := Nat.exists_eq_add_of_le h
  have e : v * 2 ^ (lo + n + j) = 2 ^ lo * (2 ^ n * (v * 2 ^ j)) := by rw [Nat.pow_add, Nat.pow_add]; ac_rfl
  rw [fld, fld, e, Nat.add_mul_div_left _ _ (Nat.two_pow_pos lo), Nat.add_mul_mod_self_left]

theorem fld_add_same {b v lo n : Nat} (z : fld b lo n = 0) (h : v < 2 ^ n) : fld (b + v * 2 ^ lo) lo n = v := by
  unfold fld at z ⊢
  rw [Nat.add_mul_div_right _ _ (Nat.two_pow_pos lo), Nat.add_mod, z, Nat.zero_add, Nat.mod_mod, Nat.mod_eq_of_lt h]

theorem fld_add_below {b v lo n k m : Nat} (z : fld b k m = 0) (h : v < 2 ^ m) (le : k + m ≤ lo) :
    fld (b + v * 2 ^ k) lo n = fld b lo n := by
  obtain ⟨j, rfl⟩ := Nat.exists_eq_add_of_le le
  unfold fld at z ⊢
  have same : (b / 2 ^ k + v) / 2 ^ m = b / 2 ^ k / 2 ^ m := by
    have := Nat.div_add_mod (b / 2 ^ k) (2 ^ m)
    rw [z, Nat.add_zero] at this
    rw [← this, Nat.mul_add_div (Nat.two_pow_pos m), Nat.div_eq_of_lt h, Nat.mul_div_cancel_left _ (Nat.two_pow_pos m)]
    rfl
  rw [Nat.pow_add, Nat.pow_add, ← Nat.div_div_eq_div_mul, ← Nat.div_div_eq_div_mul, ← Nat.div_div_eq_div_mul,
    ← Nat.div_div_eq_div_mul, Nat.add_mul_div_right _ _ (Nat.two_pow_pos k), same]

theorem fld_split (w lo m n : Nat) : fld w lo (m + n) = fld w lo m + fld w (lo + m) n * 2 ^ m := by
  simp only [fld]
  rw [Nat.pow_add, Nat.pow_add, ← Nat.div_div_eq_div_mul, Nat.mod_mul, Nat.mul_comm]

/-! ### Words made of fields -/

/-- Fields at the places (lo, n), from the top down, lie apart and where base holds 0. -/
def laidOut (base : Nat) : Nat → List (Nat × Nat) → Bool
  | _, [] => true
  | hi, (lo, n) :: ps => decide (lo + n ≤ hi) && fld base lo n == 0 && laidOut base lo ps

/-- The n bits from lo lie apart from every place of a list. -/
def apart (lo n : Nat) (ps : List (Nat × Nat)) : Bool := ps.all fun p => decide (lo + n ≤ p.1) || decide (p.1 + p.2 ≤ lo)

/-- Each value of a list of fields, as pack takes it, has no more bits than its place. -/
def Fits : List (Nat × Nat) → List (Nat × Nat) → Prop
  | (_, n) :: ps, (v, _) :: l => v < 2 ^ n ∧ Fits ps l
  | _, _ => True

/-- Each place of a word holds the value of its field. -/
def Reads (w : Nat) : List (Nat × Nat) → List (Nat × Nat) → Prop
  | (lo, n) :: ps, (v, _) :: l => fld w lo n = v ∧ Reads w ps l
  | _, _ => True

theorem laidOut_add {base v k : Nat} : ∀ (hi : Nat) (ps : List (Nat × Nat)), hi ≤ k → laidOut base hi ps = true →
    laidOut (base + v * 2 ^ k) hi ps = true
  | _, [], _, _ => rfl
  | hi, (lo, n) :: ps, le, h => by
    simp only [laidOut, Bool.and_eq_true, decide_eq_true_eq, beq_iff_eq] at h ⊢
    obtain ⟨⟨top, zero⟩, rest⟩ := h
    exact ⟨⟨top, by rw [fld_add_above (by omega), zero]⟩, laidOut_add _ ps (by omega) rest⟩

theorem laidOut_apart {base lo n : Nat} : ∀ (hi : Nat) (ps : List (Nat × Nat)), hi ≤ lo → laidOut base hi ps = true →
    apart lo n ps = true
  | _, [], _, _ => rfl
  | _, (k, _) :: ps, le, h => by
    simp only [laidOut, Bool.and_eq_true, decide_eq_true_eq] at h
    obtain ⟨⟨top, -⟩, rest⟩ := h
    have := laidOut_apart (lo := lo) (n := n) k ps (by omega) rest
    simp only [apart, List.all_cons, Bool.and_eq_true, Bool.or_eq_true, decide_eq_true_eq] at this ⊢
    exact ⟨.inr (by omega), this⟩

theorem fld_pack_apart {lo n : Nat} : ∀ (base hi : Nat) (ps l : List (Nat × Nat)), l.map Prod.snd = ps.map Prod.fst →
    laidOut base hi ps = true → Fits ps l → apart lo n ps = true → fld (pack base l) lo n = fld base lo n
  | _, _, [], [], _, _, _, _ => rfl
  | _, _, (k, _) :: ps, (v, k') :: l, places, h, ⟨small, fits⟩, a => by
    obtain ⟨rfl, tail⟩ := List.cons.inj places
    simp only [laidOut, Bool.and_eq_true, beq_iff_eq] at h
    obtain ⟨⟨-, zero⟩, rest⟩ := h
    simp only [apart, List.all_cons, Bool.and_eq_true, Bool.or_eq_true, decide_eq_true_eq] at a
    obtain ⟨here, a⟩ := a
    rw [pack, fld_pack_apart _ _ ps l tail (laidOut_add _ ps le_rfl rest) fits a]
    rcases here with above | below
    · exact fld_add_above above
    · exact fld_add_below zero small below

theorem reads_pack : ∀ (base hi : Nat) (ps l : List (Nat × Nat)), l.map Prod.snd = ps.map Prod.fst →
    laidOut base hi ps = true → Fits ps l → Reads (pack base l) ps l
  | _, _, [], [], _, _, _ => trivial
  | _, _, (lo, _) :: ps, (v, k') :: l, places, h, ⟨small, fits⟩ => by
    obtain ⟨rfl, tail⟩ := List.cons.inj places
    simp only [laidOut, Bool.and_eq_true, beq_iff_eq] at h
    obtain ⟨⟨-, zero⟩, rest⟩ := h
    have rest := laidOut_add (v := v) _ ps le_rfl rest
    refine ⟨?_, reads_pack _ _ ps l tail rest fits⟩
    rw [pack, fld_pack_apart _ _ ps l tail rest fits (laidOut_apart _ ps le_rfl rest), fld_add_same zero small]

/-- Fixed fields that lie apart from the places of a word's fields are as in its base. -/
theorem fixedOk_of_base {w base : Nat} {ps : List (Nat × Nat)}
    (rest : ∀ lo n, apart lo n ps = true → fld w lo n = fld base lo n) : ∀ fixed : List (Nat × Nat × Nat),
    (fixed.all fun f => apart f.1 f.2.1 ps) = true → fixedOk base fixed = true → fixedOk w fixed = true
  | [], _, _ => rfl
  | (lo, n, v) :: l, a, h => by
    simp only [List.all_cons, Bool.and_eq_true, fixedOk] at a h ⊢
    exact ⟨by rw [rest _ _ a.1]; exact h.1, fixedOk_of_base rest l a.2 h.2⟩

/-! ### The header -/

theorem encode_dBit (i : Instr) : (encode i).2.dBit = i.highBits.1.toNat := by
  unfold encode
  obtain ⟨d, a, b⟩ := i.highBits
  cases i.immByte <;> cases d <;> cases a <;> cases b <;> rfl

theorem encode_aBit (i : Instr) : (encode i).2.aBit = i.highBits.2.1.toNat := by
  unfold encode
  obtain ⟨d, a, b⟩ := i.highBits
  cases i.immByte <;> cases d <;> cases a <;> cases b <;> rfl

theorem encode_bBit (i : Instr) : (encode i).2.bBit = i.highBits.2.2.toNat := by
  unfold encode
  obtain ⟨d, a, b⟩ := i.highBits
  cases i.immByte <;> cases d <;> cases a <;> cases b <;> rfl

/-- The header that the encoder gives keeps to the fields of a form: each register above s31 stands in a field that names a
scalar register, and an extension byte belongs to an imm. -/
structure HeaderFits (i : Instr) (d a b imm : Bool) : Prop where
  imm : (imm || i.immByte.isNone) = true
  d : (d || !i.highBits.1) = true
  a : (a || !i.highBits.2.1) = true
  b : (b || !i.highBits.2.2) = true

theorem extOk_encode {i : Instr} {d a b imm : Bool} (h : HeaderFits i d a b imm) :
    extOk (encode i).2 d a b imm = true := by
  obtain ⟨h, hd, ha, hb⟩ := h
  unfold encode
  generalize i.highBits = r, i.immByte = o at h hd ha hb
  obtain ⟨d', a', b'⟩ := r
  cases o <;> cases d' <;> cases a' <;> cases b' <;> simp_all [extOk]

theorem variantOk_of_encodable {i : Instr} (h : i.encodable = true) : variantOk i = true := by
  simp only [Instr.encodable, Bool.and_eq_true] at h
  exact h.1.2

/-- A register that its variant keeps below s32 needs no bit of the header. -/
theorem or_not_high {c : Bool} {r : SReg} (h : (c || decide (r.val < 32)) = true) : (c || !high r) = true := by
  simpa [high] using h

/-- Under an encoder's header that gives an extension byte no field names a register above s31. -/
theorem encode_ext_imm {i : Instr} (h : i.encodable = true) {e : Nat} (b : i.immByte = some e) : (encode i).2 = .imm e := by
  simp only [Instr.encodable, b, Option.isNone_some, Bool.false_or, Bool.and_eq_true, Bool.not_eq_true'] at h
  obtain ⟨-, ⟨hd, ha⟩, hb⟩ := h
  simp [encode, hd, ha, hb, b]

/-- Without an extension byte the header is not of kind 01. -/
theorem encode_ext_of_none {i : Instr} (b : i.immByte = none) : ∀ e, (encode i).2 ≠ .imm e := by
  intro e
  unfold encode
  simp only [b]
  split <;> simp
/-! ### Operands read back -/

theorem loS_lt (r : SReg) : loS r < 2 ^ 5 := by unfold loS; omega

theorem lowBits_lt (n : Nat) (v : Int) : lowBits n v < 2 ^ n := by
  have pos : (0 : Int) < 2 ^ n := Int.pow_pos (by decide)
  have := Int.emod_lt_of_pos v pos
  have := Int.emod_nonneg v pos.ne'
  unfold lowBits
  zify
  omega

theorem Rm.code_lt (rm : Rm) : rm.code < 2 ^ 3 := by cases rm <;> decide

theorem ofNat_loS_high (r : SReg) : Fin.ofNat 64 (loS r + 32 * (high r).toNat) = r := by
  have := high_toNat r
  apply Fin.ext
  simp only [Fin.ofNat, loS]
  omega

theorem sD_read {w : Nat} {x : Ext} {r : SReg} (h : fld w 21 5 = loS r) (e : x.dBit = (high r).toNat) : sD w x = r := by
  rw [sD, show w / 2 ^ 21 % 32 = loS r from h, e, ofNat_loS_high]

theorem sA_read {w : Nat} {x : Ext} {r : SReg} (h : fld w 16 5 = loS r) (e : x.aBit = (high r).toNat) : sA w x = r := by
  rw [sA, show w / 2 ^ 16 % 32 = loS r from h, e, ofNat_loS_high]

theorem sB_read {w : Nat} {x : Ext} {r : SReg} (h : fld w 11 5 = loS r) (e : x.bBit = (high r).toNat) : sB w x = r := by
  rw [sB, show w / 2 ^ 11 % 32 = loS r from h, e, ofNat_loS_high]

theorem bit_read {w lo : Nat} {b : Bool} (h : fld w lo 1 = b.toNat) : bit w lo = b := by
  rw [bit, show w / 2 ^ lo % 2 = b.toNat from h]
  cases b <;> rfl

theorem fin_read {w lo k n : Nat} [NeZero n] {v : Fin n} (h : fld w lo k = v.val) (e : n = 2 ^ k) : fin n w lo = v :=
  Fin.ext (by rw [← h, fld, ← e]; rfl)

theorem formRm_read {w : Nat} {x : Ext} {d a b imm : Bool} {fixed : List (Nat × Nat × Nat)} {f : Rm → Instr} {rm : Rm}
    (h : fld w 3 3 = rm.code) : formRm w x d a b imm fixed f = form w x d a b imm fixed (f rm) := by
  rw [formRm, rmOf_code h]

/-- Two's complement of n + 1 bits. -/
theorem sext_lowBits {n : Nat} {v : Int} (lo : -(2 ^ n) ≤ v) (hi : v < 2 ^ n) : sext (n + 1) (lowBits (n + 1) v) = v := by
  have pos : (0 : Int) < 2 ^ n := Int.pow_pos (by decide)
  have double : (2 : Int) ^ (n + 1) = 2 * 2 ^ n := by rw [pow_succ, mul_comm]
  have cast : ((lowBits (n + 1) v : Nat) : Int) = v % 2 ^ (n + 1) :=
    Int.toNat_of_nonneg (Int.emod_nonneg v (by rw [double]; omega))
  have wraps : v % 2 ^ (n + 1) = if 0 ≤ v then v else v + 2 ^ (n + 1) := by
    split
    · exact Int.emod_eq_of_lt ‹_› (by omega)
    · rw [← Int.add_emod_right, Int.emod_eq_of_lt (by omega) (by omega)]
  unfold sext
  rw [Nat.add_sub_cancel]
  split at wraps <;> split <;> zify at * <;> omega

theorem lowBits_add {n m : Nat} (v : Int) :
    lowBits n v + (v % 2 ^ (n + m) / 2 ^ n).toNat * 2 ^ n = lowBits (n + m) v := by
  have pos : (0 : Int) < 2 ^ n := Int.pow_pos (by decide)
  have nonneg : (0 : Int) ≤ v % 2 ^ (n + m) := Int.emod_nonneg v (by positivity)
  have low : v % 2 ^ n = v % 2 ^ (n + m) % 2 ^ n := (Int.emod_emod_of_dvd v (pow_dvd_pow 2 (Nat.le_add_right n m))).symm
  have := Int.emod_nonneg v pos.ne'
  have := Int.ediv_nonneg nonneg pos.le
  unfold lowBits
  zify
  rw [Int.toNat_of_nonneg ‹_›, Int.toNat_of_nonneg ‹_›, Int.toNat_of_nonneg nonneg, low]
  exact Int.emod_add_ediv_mul _ _

/-- An imm of n + 1 bits, with or without its extension byte. -/
theorem simm_read {i : Instr} {w lo n : Nat} {v : Int} (ok : i.encodable = true) (b : i.immByte = signedByte (n + 1) v)
    (r : i.immInRange = (decide (-(2 ^ (n + 8)) ≤ v) && decide (v < 2 ^ (n + 8)))) (h : fld w lo (n + 1) = lowBits (n + 1) v) :
    simm lo (n + 1) w (encode i).2 = v := by
  unfold signedByte at b
  split at b
  next narrow =>
    have : simm lo (n + 1) w (encode i).2 = sext (n + 1) (fld w lo (n + 1)) := by
      unfold simm
      split
      next e heq => exact absurd heq (encode_ext_of_none b e)
      next => rfl
    rw [this, h]
    exact sext_lowBits narrow.1 narrow.2
  next =>
    simp only [Instr.encodable, r, Bool.and_eq_true, decide_eq_true_eq] at ok
    rw [encode_ext_imm (by simp only [Instr.encodable, r, Bool.and_eq_true, decide_eq_true_eq]; exact ok) b, simm, h,
      lowBits_add]
    exact sext_lowBits (n := n + 8) ok.1.1.1 ok.1.1.2

theorem uimm_read {i : Instr} {w v : Nat} (ok : i.encodable = true) (b : i.immByte = naturalByte v)
    (r : i.immInRange = decide (v < 2 ^ 20)) (h : fld w 0 12 = v % 2 ^ 12) : uimm 12 w (encode i).2 = v := by
  unfold naturalByte at b
  split at b
  next narrow =>
    have : uimm 12 w (encode i).2 = fld w 0 12 := by
      unfold uimm
      split
      next e heq => exact absurd heq (encode_ext_of_none b e)
      next => rfl
    rw [this, h, Nat.mod_eq_of_lt narrow]
  next =>
    rw [encode_ext_imm ok b, uimm, h]
    simp only [Instr.encodable, r, Bool.and_eq_true, decide_eq_true_eq] at ok
    omega

theorem thirdToken_read {i : Instr} {q : Option QReg} (ok : i.encodable = true) (b : i.immByte = tokenByte q) :
    thirdToken (encode i).2 = q ∧ extImm (encode i).2 / 32 % 4 = 0 := by
  cases q with
  | none =>
    have := encode_ext_of_none b
    cases e : (encode i).2 with
    | imm n => exact absurd e (this n)
    | _ => exact ⟨rfl, show 0 / 32 % 4 = 0 from rfl⟩
  | some q =>
    rw [encode_ext_imm ok b]
    have := q.isLt
    refine ⟨?_, by rw [extImm]; omega⟩
    rw [thirdToken, if_pos (by omega)]
    exact congrArg some (Fin.ext (by simp only [Fin.ofNat]; omega))

theorem extImm_encode {i : Instr} (b : i.immByte = none) : extImm (encode i).2 = 0 := by
  cases e : (encode i).2 with
  | imm n => exact absurd e (encode_ext_of_none b n)
  | _ => rfl

/-- The major opcodes 0x10 and 0x11 are those of one table, whose bit 26 is the format. -/
theorem decode_at_float {w : Nat} {x : Ext} {f64 : Bool} (h : fld w 26 1 = f64.toNat) (top : fld w 27 5 = 8) :
    decode w x = decodeMajor10 w x := by
  have major := fld_split w 26 1 5
  rw [h, top] at major
  cases f64
  · exact decode_at_10 major
  · exact decode_at_11 major

/-! ### Round trips -/

/-- The decoder reads back what the encoder wrote. -/
def RoundTrip (i : Instr) : Prop := decode (encode i).1 (encode i).2 = .ok i

/-- An instruction whose fields are laid out over the base of its word: it decodes if every word with those fields does. -/
theorem roundTrip {i : Instr} {base : Nat} {l : List (Nat × Nat)} (ps : List (Nat × Nat)) (e : encodeWord i = pack base l)
    (places : l.map Prod.snd = ps.map Prod.fst) (ok : laidOut base 32 ps = true) (fits : Fits ps l)
    (dec : ∀ w, Reads w ps l → (∀ lo n, apart lo n ps = true → fld w lo n = fld base lo n) →
      decode w (encode i).2 = .ok i) : RoundTrip i :=
  dec (encodeWord i) (e ▸ reads_pack _ _ _ _ places ok fits) (e ▸ fun _ _ => fld_pack_apart _ _ _ _ places ok fits)

/-- A word that decodes as a form. -/
theorem decode_of_form {i i' : Instr} {w base : Nat} {ps : List (Nat × Nat)} {d a b imm : Bool}
    {fixed : List (Nat × Nat × Nat)} (rest : ∀ lo n, apart lo n ps = true → fld w lo n = fld base lo n)
    (dec : decode w (encode i).2 = form w (encode i).2 d a b imm fixed i') (h : HeaderFits i d a b imm)
    (free : (fixed.all fun f => apart f.1 f.2.1 ps) = true) (f : fixedOk base fixed = true) (same : i' = i) :
    decode w (encode i).2 = .ok i :=
  same ▸ dec.trans (form_ok _ (extOk_encode h) (fixedOk_of_base rest fixed free f))

/-- Class S: integer, predicate, CSR and check instructions. -/
theorem roundTrip_scalar {i : Instr} (cl : slotClass i = .s) (ok : i.encodable = true) : RoundTrip i := by
  cases i with
  | add d a b w | sub d a b w | mul d a b w | mulh d a b w | mulhn d a b w | div d a b w | divn d a b w | rem d a b w
  | remn d a b w | and d a b w | or d a b w | xor d a b w | andn d a b w | shl d a b w | shr d a b w | sra d a b w
  | rotl d a b w | min d a b w | minn d a b w | max d a b w | maxn d a b w =>
    exact roundTrip [(21, 5), (16, 5), (11, 5), (0, 1)] rfl rfl rfl ⟨loS_lt d, loS_lt a, loS_lt b, w.toNat_lt, trivial⟩
      fun _ ⟨hd, ha, hb, hw, _⟩ o => decode_of_form o
        ((decode_at_01 (o _ _ rfl)).trans (by unfold decodeMajor01; rw [o 6 5 rfl]; rfl)) ⟨rfl, rfl, rfl, rfl⟩ rfl rfl
        (by rw [sD_read hd (encode_dBit _), sA_read ha (encode_aBit _), sB_read hb (encode_bBit _), bit_read hw])
  | clz d a w | ctz d a w | popc d a w =>
    exact roundTrip [(21, 5), (16, 5), (0, 1)] rfl rfl rfl ⟨loS_lt d, loS_lt a, w.toNat_lt, trivial⟩
      fun _ ⟨hd, ha, hw, _⟩ o => decode_of_form o
        ((decode_at_01 (o _ _ rfl)).trans (by unfold decodeMajor01; rw [o 6 5 rfl]; rfl)) ⟨rfl, rfl, rfl, rfl⟩ rfl rfl
        (by rw [sD_read hd (encode_dBit _), sA_read ha (encode_aBit _), bit_read hw])
  | addImm d a imm | mulImm d a imm | andImm d a imm | orImm d a imm | xorImm d a imm | andnImm d a imm | minImm d a imm
  | maxImm d a imm =>
    exact roundTrip [(21, 5), (16, 5), (0, 12)] rfl rfl rfl ⟨loS_lt d, loS_lt a, lowBits_lt .., trivial⟩
      fun _ ⟨hd, ha, himm, _⟩ o => decode_of_form o
        ((decode_at_02 (o _ _ rfl)).trans (by unfold decodeMajor02; rw [o 12 4 rfl]; rfl)) ⟨rfl, rfl, rfl, rfl⟩ rfl rfl
        (by rw [sD_read hd (encode_dBit _), sA_read ha (encode_aBit _), simm_read ok rfl rfl himm])
  | shlImm d a sh | shrImm d a sh | sraImm d a sh | rotlImm d a sh =>
    exact roundTrip [(21, 5), (16, 5), (0, 6)] rfl rfl rfl ⟨loS_lt d, loS_lt a, sh.isLt, trivial⟩
      fun _ ⟨hd, ha, hsh, _⟩ o => decode_of_form o
        ((decode_at_02 (o _ _ rfl)).trans (by unfold decodeMajor02; rw [o 12 4 rfl]; exact if_neg (not_not.mpr (extImm_encode rfl))))
        ⟨rfl, rfl, rfl, rfl⟩ rfl rfl
        (by rw [sD_read hd (encode_dBit _), sA_read ha (encode_aBit _), fin_read hsh rfl])
  | minnImm d a imm | maxnImm d a imm =>
    exact roundTrip [(21, 5), (16, 5), (0, 12)] rfl rfl rfl ⟨loS_lt d, loS_lt a, Nat.mod_lt _ (by decide), trivial⟩
      fun _ ⟨hd, ha, himm, _⟩ o => decode_of_form o
        ((decode_at_02 (o _ _ rfl)).trans (by unfold decodeMajor02; rw [o 12 4 rfl]; rfl)) ⟨rfl, rfl, rfl, rfl⟩ rfl rfl
        (by rw [sD_read hd (encode_dBit _), sA_read ha (encode_aBit _), uimm_read ok rfl rfl himm])
  | movi d imm =>
    exact roundTrip [(21, 5), (0, 21)] rfl rfl rfl ⟨loS_lt d, lowBits_lt .., trivial⟩
      fun _ ⟨hd, himm, _⟩ o => decode_of_form o
        (decode_at_03 (o _ _ rfl)) ⟨rfl, rfl, rfl, rfl⟩ rfl rfl
        (by rw [sD_read hd (encode_dBit _), simm_read ok rfl rfl himm])
  | movhi d h lit =>
    exact roundTrip [(21, 5), (16, 2), (0, 16)] rfl rfl rfl ⟨loS_lt d, h.isLt, lit.isLt, trivial⟩
      fun _ ⟨hd, hh, hlit, _⟩ o => decode_of_form o
        (decode_at_04 (o _ _ rfl)) ⟨rfl, rfl, rfl, rfl⟩ rfl rfl
        (by rw [sD_read hd (encode_dBit _), fin_read hh rfl, fin_read hlit rfl])
  | cmpEq p a b w | cmpNe p a b w | cmpLt p a b w | cmpGe p a b w | cmpLtn p a b w | cmpGen p a b w =>
    exact roundTrip [(21, 4), (16, 5), (11, 5), (0, 1)] rfl rfl rfl ⟨p.isLt, loS_lt a, loS_lt b, w.toNat_lt, trivial⟩
      fun _ ⟨hp, ha, hb, hw, _⟩ o => decode_of_form o
        ((decode_at_05 (o _ _ rfl)).trans (by unfold decodeMajor05; rw [o 6 5 rfl]; rfl)) ⟨rfl, rfl, rfl, rfl⟩ rfl rfl
        (by rw [fin_read hp rfl, sA_read ha (encode_aBit _), sB_read hb (encode_bBit _), bit_read hw])
  | sel d a b p =>
    exact roundTrip [(21, 5), (16, 5), (11, 5), (1, 4)] rfl rfl rfl ⟨loS_lt d, loS_lt a, loS_lt b, p.isLt, trivial⟩
      fun _ ⟨hd, ha, hb, hp, _⟩ o => decode_of_form o
        ((decode_at_05 (o _ _ rfl)).trans (by unfold decodeMajor05; rw [o 6 5 rfl]; rfl)) ⟨rfl, rfl, rfl, rfl⟩ rfl rfl
        (by rw [sD_read hd (encode_dBit _), sA_read ha (encode_aBit _), sB_read hb (encode_bBit _), fin_read hp rfl])
  | bfx d a pos lm1 sx =>
    exact roundTrip [(21, 5), (16, 5), (10, 6), (4, 6), (2, 1)] rfl rfl rfl
      ⟨loS_lt d, loS_lt a, pos.isLt, lm1.isLt, sx.toNat_lt, trivial⟩
      fun _ ⟨hd, ha, hpos, hlm1, hsx, _⟩ o => decode_of_form o
        ((decode_at_06 (o _ _ rfl)).trans (by unfold decodeMajor06; rw [o 0 2 rfl]; rfl)) ⟨rfl, rfl, rfl, rfl⟩ rfl rfl
        (by rw [sD_read hd (encode_dBit _), sA_read ha (encode_aBit _), fin_read hpos rfl, fin_read hlm1 rfl, bit_read hsx])
  | bfi d a pos lm1 =>
    exact roundTrip [(21, 5), (16, 5), (10, 6), (4, 6)] rfl rfl rfl ⟨loS_lt d, loS_lt a, pos.isLt, lm1.isLt, trivial⟩
      fun _ ⟨hd, ha, hpos, hlm1, _⟩ o => decode_of_form o
        ((decode_at_06 (o _ _ rfl)).trans (by unfold decodeMajor06; rw [o 0 2 rfl]; rfl)) ⟨rfl, rfl, rfl, rfl⟩ rfl rfl
        (by rw [sD_read hd (encode_dBit _), sA_read ha (encode_aBit _), fin_read hpos rfl, fin_read hlm1 rfl])
  | lea d a b sh =>
    exact roundTrip [(21, 5), (16, 5), (11, 5), (8, 3)] rfl rfl rfl ⟨loS_lt d, loS_lt a, loS_lt b, sh.isLt, trivial⟩
      fun _ ⟨hd, ha, hb, hsh, _⟩ o => decode_of_form o
        ((decode_at_06 (o _ _ rfl)).trans (by unfold decodeMajor06; rw [o 0 2 rfl]; rfl)) ⟨rfl, rfl, rfl, rfl⟩ rfl rfl
        (by rw [sD_read hd (encode_dBit _), sA_read ha (encode_aBit _), sB_read hb (encode_bBit _), fin_read hsh rfl])
  | csrr d c =>
    exact roundTrip [(21, 5), (0, 12)] rfl rfl rfl ⟨loS_lt d, c.isLt, trivial⟩
      fun _ ⟨hd, hc, _⟩ o => decode_of_form o
        ((decode_at_07 (o _ _ rfl)).trans (by unfold decodeMajor07; rw [o 12 2 rfl]; rfl)) ⟨rfl, rfl, rfl, rfl⟩ rfl rfl
        (by rw [sD_read hd (encode_dBit _), fin_read hc rfl])
  | csrw d a c | csrs d a c | csrc d a c =>
    exact roundTrip [(21, 5), (16, 5), (0, 12)] rfl rfl rfl ⟨loS_lt d, loS_lt a, c.isLt, trivial⟩
      fun _ ⟨hd, ha, hc, _⟩ o => decode_of_form o
        ((decode_at_07 (o _ _ rfl)).trans (by unfold decodeMajor07; rw [o 12 2 rfl]; rfl)) ⟨rfl, rfl, rfl, rfl⟩ rfl rfl
        (by rw [sD_read hd (encode_dBit _), sA_read ha (encode_aBit _), fin_read hc rfl])
  | pand d a b | por d a b | pxor d a b | pandn d a b =>
    exact roundTrip [(21, 4), (16, 4), (11, 4)] rfl rfl rfl ⟨d.isLt, a.isLt, b.isLt, trivial⟩
      fun _ ⟨hd, ha, hb, _⟩ o => decode_of_form o
        ((decode_at_0C (o _ _ rfl)).trans (by unfold decodeMajor0C; rw [o 6 5 rfl]; rfl)) ⟨rfl, rfl, rfl, rfl⟩ rfl rfl
        (by rw [fin_read hd rfl, fin_read ha rfl, fin_read hb rfl])
  | pnot d a | pmov d a =>
    exact roundTrip [(21, 4), (16, 4)] rfl rfl rfl ⟨d.isLt, a.isLt, trivial⟩
      fun _ ⟨hd, ha, _⟩ o => decode_of_form o
        ((decode_at_0C (o _ _ rfl)).trans (by unfold decodeMajor0C; rw [o 6 5 rfl]; rfl)) ⟨rfl, rfl, rfl, rfl⟩ rfl rfl
        (by rw [fin_read hd rfl, fin_read ha rfl])
  | chk a b kk =>
    have low : (decide (kk.val = 0) || decide (a.val < 32 ∧ b.val < 32)) = true := variantOk_of_encodable ok
    simp only [Bool.or_eq_true, decide_eq_true_eq] at low
    have unless_high {r : SReg} (h : kk.val = 0 ∨ r.val < 32) : ((kk.val == 0) || !high r) = true := by simpa [high] using h
    exact roundTrip [(16, 5), (11, 5), (0, 2)] rfl rfl rfl ⟨loS_lt a, loS_lt b, kk.isLt, trivial⟩
      fun _ ⟨ha, hb, hkk, _⟩ o => decode_of_form o
        ((decode_at_3B (o _ _ rfl)).trans (by unfold decodeMajor3B; rw [o 6 5 rfl]; rfl))
        ⟨rfl, rfl, by rw [hkk]; exact unless_high (low.imp_right And.left),
          by rw [hkk]; exact unless_high (low.imp_right And.right)⟩ rfl rfl
        (by rw [sA_read ha (encode_aBit _), sB_read hb (encode_bBit _), fin_read hkk rfl])
  | _ => cases cl

/-- Class F: scalar floating point. -/
theorem roundTrip_float {i : Instr} (cl : slotClass i = .f) : RoundTrip i := by
  cases i with
  | fadd f64 d a b rm | fsub f64 d a b rm | fmul f64 d a b rm | fdiv f64 d a b rm | fma f64 d a b rm | fms f64 d a b rm
  | fnma f64 d a b rm =>
    exact roundTrip [(26, 1), (21, 5), (16, 5), (11, 5), (3, 3)] rfl rfl rfl
      ⟨f64.toNat_lt, loS_lt d, loS_lt a, loS_lt b, rm.code_lt, trivial⟩
      fun _ ⟨hf64, hd, ha, hb, hrm, _⟩ o => decode_of_form o
        ((decode_at_float hf64 (o 27 5 rfl)).trans (by unfold decodeMajor10; rw [o 6 5 rfl]; exact formRm_read hrm))
        ⟨rfl, rfl, rfl, rfl⟩ rfl rfl
        (by rw [bit_read hf64, sD_read hd (encode_dBit _), sA_read ha (encode_aBit _), sB_read hb (encode_bBit _)])
  | fsqrt f64 d a rm =>
    exact roundTrip [(26, 1), (21, 5), (16, 5), (3, 3)] rfl rfl rfl ⟨f64.toNat_lt, loS_lt d, loS_lt a, rm.code_lt, trivial⟩
      fun _ ⟨hf64, hd, ha, hrm, _⟩ o => decode_of_form o
        ((decode_at_float hf64 (o 27 5 rfl)).trans (by unfold decodeMajor10; rw [o 6 5 rfl]; exact formRm_read hrm))
        ⟨rfl, rfl, rfl, rfl⟩ rfl rfl
        (by rw [bit_read hf64, sD_read hd (encode_dBit _), sA_read ha (encode_aBit _)])
  | fmin f64 d a b | fmax f64 d a b | fcpsgn f64 d a b =>
    exact roundTrip [(26, 1), (21, 5), (16, 5), (11, 5)] rfl rfl rfl ⟨f64.toNat_lt, loS_lt d, loS_lt a, loS_lt b, trivial⟩
      fun _ ⟨hf64, hd, ha, hb, _⟩ o => decode_of_form o
        ((decode_at_float hf64 (o 27 5 rfl)).trans (by unfold decodeMajor10; rw [o 6 5 rfl]; rfl))
        ⟨rfl, rfl, rfl, rfl⟩ rfl rfl
        (by rw [bit_read hf64, sD_read hd (encode_dBit _), sA_read ha (encode_aBit _), sB_read hb (encode_bBit _)])
  | fneg f64 d a | fabs f64 d a | fmov f64 d a =>
    exact roundTrip [(26, 1), (21, 5), (16, 5)] rfl rfl rfl ⟨f64.toNat_lt, loS_lt d, loS_lt a, trivial⟩
      fun _ ⟨hf64, hd, ha, _⟩ o => decode_of_form o
        ((decode_at_float hf64 (o 27 5 rfl)).trans (by unfold decodeMajor10; rw [o 6 5 rfl]; rfl))
        ⟨rfl, rfl, rfl, rfl⟩ rfl rfl
        (by rw [bit_read hf64, sD_read hd (encode_dBit _), sA_read ha (encode_aBit _)])
  | fcmpEq p a b f64 | fcmpLt p a b f64 | fcmpLe p a b f64 | fcmpUn p a b f64 =>
    exact roundTrip [(21, 4), (16, 5), (11, 5), (0, 1)] rfl rfl rfl ⟨p.isLt, loS_lt a, loS_lt b, f64.toNat_lt, trivial⟩
      fun _ ⟨hp, ha, hb, hf64, _⟩ o => decode_of_form o
        ((decode_at_12 (o _ _ rfl)).trans (by unfold decodeMajor12; rw [o 6 5 rfl]; rfl)) ⟨rfl, rfl, rfl, rfl⟩ rfl rfl
        (by rw [fin_read hp rfl, sA_read ha (encode_aBit _), sB_read hb (encode_bBit _), bit_read hf64])
  | fclass d a f64 =>
    exact roundTrip [(21, 5), (16, 5), (0, 1)] rfl rfl rfl ⟨loS_lt d, loS_lt a, f64.toNat_lt, trivial⟩
      fun _ ⟨hd, ha, hf64, _⟩ o => decode_of_form o
        ((decode_at_12 (o _ _ rfl)).trans (by unfold decodeMajor12; rw [o 6 5 rfl]; rfl)) ⟨rfl, rfl, rfl, rfl⟩ rfl rfl
        (by rw [sD_read hd (encode_dBit _), sA_read ha (encode_aBit _), bit_read hf64])
  | fcvt d a ot dir rm f64 =>
    exact roundTrip [(21, 5), (16, 5), (12, 4), (11, 1), (3, 3), (0, 1)] rfl rfl rfl
      ⟨loS_lt d, loS_lt a, ot.isLt, dir.toNat_lt, rm.code_lt, f64.toNat_lt, trivial⟩
      fun _ ⟨hd, ha, hot, hdir, hrm, hf64, _⟩ o => decode_of_form o
        ((decode_at_13 (o _ _ rfl)).trans (by unfold decodeMajor13; rw [o 6 5 rfl]; exact formRm_read hrm))
        ⟨rfl, rfl, rfl, rfl⟩ rfl rfl
        (by rw [sD_read hd (encode_dBit _), sA_read ha (encode_aBit _), fin_read hot rfl, bit_read hdir, bit_read hf64])
  | frint d a rm f64 =>
    exact roundTrip [(21, 5), (16, 5), (3, 3), (0, 1)] rfl rfl rfl ⟨loS_lt d, loS_lt a, rm.code_lt, f64.toNat_lt, trivial⟩
      fun _ ⟨hd, ha, hrm, hf64, _⟩ o => decode_of_form o
        ((decode_at_13 (o _ _ rfl)).trans (by unfold decodeMajor13; rw [o 6 5 rfl]; exact formRm_read hrm))
        ⟨rfl, rfl, rfl, rfl⟩ rfl rfl
        (by rw [sD_read hd (encode_dBit _), sA_read ha (encode_aBit _), bit_read hf64])
  | fexp d a rm f64 | fexp2 d a rm f64 | flog d a rm f64 | flog2 d a rm f64 | ferf d a rm f64 | ferfc d a rm f64 =>
    exact roundTrip [(21, 5), (16, 5), (3, 3), (0, 1)] rfl rfl rfl ⟨loS_lt d, loS_lt a, rm.code_lt, f64.toNat_lt, trivial⟩
      fun _ ⟨hd, ha, hrm, hf64, _⟩ o => decode_of_form o
        ((decode_at_14 (o _ _ rfl)).trans (by unfold decodeMajor14; rw [o 6 5 rfl]; exact formRm_read hrm))
        ⟨rfl, rfl, rfl, rfl⟩ rfl rfl
        (by rw [sD_read hd (encode_dBit _), sA_read ha (encode_aBit _), bit_read hf64])
  | frcp d a rm f64 | frsq d a rm f64 =>
    exact roundTrip [(21, 5), (16, 5), (3, 3), (0, 1)] rfl rfl rfl ⟨loS_lt d, loS_lt a, rm.code_lt, f64.toNat_lt, trivial⟩
      fun _ ⟨hd, ha, hrm, hf64, _⟩ o => decode_of_form o
        ((decode_at_15 (o _ _ rfl)).trans (by unfold decodeMajor15; rw [o 6 5 rfl]; exact formRm_read hrm))
        ⟨rfl, rfl, rfl, rfl⟩ rfl rfl
        (by rw [sD_read hd (encode_dBit _), sA_read ha (encode_aBit _), bit_read hf64])
  | frcps d a b rm f64 | frsqs d a b rm f64 =>
    exact roundTrip [(21, 5), (16, 5), (11, 5), (3, 3), (0, 1)] rfl rfl rfl
      ⟨loS_lt d, loS_lt a, loS_lt b, rm.code_lt, f64.toNat_lt, trivial⟩
      fun _ ⟨hd, ha, hb, hrm, hf64, _⟩ o => decode_of_form o
        ((decode_at_15 (o _ _ rfl)).trans (by unfold decodeMajor15; rw [o 6 5 rfl]; exact formRm_read hrm))
        ⟨rfl, rfl, rfl, rfl⟩ rfl rfl
        (by rw [sD_read hd (encode_dBit _), sA_read ha (encode_aBit _), sB_read hb (encode_bBit _), bit_read hf64])
  | _ => cases cl

/-- Class V: vector and mask instructions. -/
theorem roundTrip_vector {i : Instr} (cl : slotClass i = .v) (ok : i.encodable = true) : RoundTrip i := by
  cases i with
  | vadd d a b sat nat mk | vsub d a b sat nat mk =>
    exact roundTrip [(21, 5), (16, 5), (11, 5), (5, 1), (4, 1), (0, 3)] rfl rfl rfl
      ⟨d.isLt, a.isLt, b.isLt, sat.toNat_lt, nat.toNat_lt, mk.isLt, trivial⟩
      fun _ ⟨hd, ha, hb, hsat, hnat, hmk, _⟩ o => decode_of_form o
        ((decode_at_18 (o _ _ rfl)).trans (by unfold decodeMajor18; rw [o 6 5 rfl]; rfl)) ⟨rfl, rfl, rfl, rfl⟩ rfl rfl
        (by rw [fin_read hd rfl, fin_read ha rfl, fin_read hb rfl, bit_read hsat, bit_read hnat, fin_read hmk rfl])
  | vmul d a b mk | vmulh d a b mk | vmulhn d a b mk | vdiv d a b mk | vdivn d a b mk | vrem d a b mk | vremn d a b mk
  | vand d a b mk | vor d a b mk | vxor d a b mk | vandn d a b mk | vshl d a b mk | vshr d a b mk | vsra d a b mk
  | vrotl d a b mk | vmin d a b mk | vminn d a b mk | vmax d a b mk | vmaxn d a b mk =>
    exact roundTrip [(21, 5), (16, 5), (11, 5), (0, 3)] rfl rfl rfl ⟨d.isLt, a.isLt, b.isLt, mk.isLt, trivial⟩
      fun _ ⟨hd, ha, hb, hmk, _⟩ o => decode_of_form o
        ((decode_at_18 (o _ _ rfl)).trans (by unfold decodeMajor18; rw [o 6 5 rfl]; rfl)) ⟨rfl, rfl, rfl, rfl⟩ rfl rfl
        (by rw [fin_read hd rfl, fin_read ha rfl, fin_read hb rfl, fin_read hmk rfl])
  | vclz d a mk | vctz d a mk | vpopc d a mk =>
    exact roundTrip [(21, 5), (16, 5), (0, 3)] rfl rfl rfl ⟨d.isLt, a.isLt, mk.isLt, trivial⟩
      fun _ ⟨hd, ha, hmk, _⟩ o => decode_of_form o
        ((decode_at_18 (o _ _ rfl)).trans (by unfold decodeMajor18; rw [o 6 5 rfl]; rfl)) ⟨rfl, rfl, rfl, rfl⟩ rfl rfl
        (by rw [fin_read hd rfl, fin_read ha rfl, fin_read hmk rfl])
  | vfadd d a b rm mk | vfsub d a b rm mk | vfmul d a b rm mk | vfdiv d a b rm mk | vfma d a b rm mk | vfms d a b rm mk
  | vfnma d a b rm mk =>
    exact roundTrip [(21, 5), (16, 5), (11, 5), (3, 3), (0, 3)] rfl rfl rfl
      ⟨d.isLt, a.isLt, b.isLt, rm.code_lt, mk.isLt, trivial⟩
      fun _ ⟨hd, ha, hb, hrm, hmk, _⟩ o => decode_of_form o
        ((decode_at_19 (o _ _ rfl)).trans (by unfold decodeMajor19; rw [o 6 5 rfl]; exact formRm_read hrm))
        ⟨rfl, rfl, rfl, rfl⟩ rfl rfl
        (by rw [fin_read hd rfl, fin_read ha rfl, fin_read hb rfl, fin_read hmk rfl])
  | vfsqrt d a rm mk =>
    exact roundTrip [(21, 5), (16, 5), (3, 3), (0, 3)] rfl rfl rfl ⟨d.isLt, a.isLt, rm.code_lt, mk.isLt, trivial⟩
      fun _ ⟨hd, ha, hrm, hmk, _⟩ o => decode_of_form o
        ((decode_at_19 (o _ _ rfl)).trans (by unfold decodeMajor19; rw [o 6 5 rfl]; exact formRm_read hrm))
        ⟨rfl, rfl, rfl, rfl⟩ rfl rfl
        (by rw [fin_read hd rfl, fin_read ha rfl, fin_read hmk rfl])
  | vfmin d a b mk | vfmax d a b mk | vfcpsgn d a b mk =>
    exact roundTrip [(21, 5), (16, 5), (11, 5), (0, 3)] rfl rfl rfl ⟨d.isLt, a.isLt, b.isLt, mk.isLt, trivial⟩
      fun _ ⟨hd, ha, hb, hmk, _⟩ o => decode_of_form o
        ((decode_at_19 (o _ _ rfl)).trans (by unfold decodeMajor19; rw [o 6 5 rfl]; rfl)) ⟨rfl, rfl, rfl, rfl⟩ rfl rfl
        (by rw [fin_read hd rfl, fin_read ha rfl, fin_read hb rfl, fin_read hmk rfl])
  | vfneg d a mk | vfabs d a mk | vfmov d a mk =>
    exact roundTrip [(21, 5), (16, 5), (0, 3)] rfl rfl rfl ⟨d.isLt, a.isLt, mk.isLt, trivial⟩
      fun _ ⟨hd, ha, hmk, _⟩ o => decode_of_form o
        ((decode_at_19 (o _ _ rfl)).trans (by unfold decodeMajor19; rw [o 6 5 rfl]; rfl)) ⟨rfl, rfl, rfl, rfl⟩ rfl rfl
        (by rw [fin_read hd rfl, fin_read ha rfl, fin_read hmk rfl])
  | vcvt d a cc rm mk =>
    exact roundTrip [(21, 5), (16, 5), (11, 5), (3, 3), (0, 3)] rfl rfl rfl
      ⟨d.isLt, a.isLt, cc.isLt, rm.code_lt, mk.isLt, trivial⟩
      fun _ ⟨hd, ha, hcc, hrm, hmk, _⟩ o => decode_of_form o
        ((decode_at_1A (o _ _ rfl)).trans (by unfold decodeMajor1A; rw [o 6 5 rfl]; exact formRm_read hrm))
        ⟨rfl, rfl, rfl, rfl⟩ rfl rfl
        (by rw [fin_read hd rfl, fin_read ha rfl, fin_read hcc rfl, fin_read hmk rfl])
  | vpack d a cc rm part | vmxnorm d a cc rm part | vmxscale d a cc rm part =>
    exact roundTrip [(21, 5), (16, 5), (11, 5), (3, 3), (0, 3)] rfl rfl rfl
      ⟨d.isLt, a.isLt, cc.isLt, rm.code_lt, part.isLt, trivial⟩
      fun _ ⟨hd, ha, hcc, hrm, hpart, _⟩ o => decode_of_form o
        ((decode_at_1A (o _ _ rfl)).trans (by unfold decodeMajor1A; rw [o 6 5 rfl]; exact formRm_read hrm))
        ⟨rfl, rfl, rfl, rfl⟩ rfl rfl
        (by rw [fin_read hd rfl, fin_read ha rfl, fin_read hcc rfl, fin_read hpart rfl])
  | vunpack d a cc part =>
    exact roundTrip [(21, 5), (16, 5), (11, 5), (0, 3)] rfl rfl rfl ⟨d.isLt, a.isLt, cc.isLt, part.isLt, trivial⟩
      fun _ ⟨hd, ha, hcc, hpart, _⟩ o => decode_of_form o
        ((decode_at_1A (o _ _ rfl)).trans (by unfold decodeMajor1A; rw [o 6 5 rfl]; rfl)) ⟨rfl, rfl, rfl, rfl⟩ rfl rfl
        (by rw [fin_read hd rfl, fin_read ha rfl, fin_read hcc rfl, fin_read hpart rfl])
  | vfexp d a rm mk | vfexp2 d a rm mk | vflog d a rm mk | vflog2 d a rm mk | vferf d a rm mk | vferfc d a rm mk
  | vfrcp d a rm mk | vfrsq d a rm mk =>
    exact roundTrip [(21, 5), (16, 5), (3, 3), (0, 3)] rfl rfl rfl ⟨d.isLt, a.isLt, rm.code_lt, mk.isLt, trivial⟩
      fun _ ⟨hd, ha, hrm, hmk, _⟩ o => decode_of_form o
        ((decode_at_1B (o _ _ rfl)).trans (by unfold decodeMajor1B; rw [o 6 5 rfl]; exact formRm_read hrm))
        ⟨rfl, rfl, rfl, rfl⟩ rfl rfl
        (by rw [fin_read hd rfl, fin_read ha rfl, fin_read hmk rfl])
  | vfrcps d a b rm mk | vfrsqs d a b rm mk =>
    exact roundTrip [(21, 5), (16, 5), (11, 5), (3, 3), (0, 3)] rfl rfl rfl
      ⟨d.isLt, a.isLt, b.isLt, rm.code_lt, mk.isLt, trivial⟩
      fun _ ⟨hd, ha, hb, hrm, hmk, _⟩ o => decode_of_form o
        ((decode_at_1B (o _ _ rfl)).trans (by unfold decodeMajor1B; rw [o 6 5 rfl]; exact formRm_read hrm))
        ⟨rfl, rfl, rfl, rfl⟩ rfl rfl
        (by rw [fin_read hd rfl, fin_read ha rfl, fin_read hb rfl, fin_read hmk rfl])
  | vredFsum d a row rm mk =>
    exact roundTrip [(21, 5), (16, 5), (15, 1), (3, 3), (0, 3)] rfl rfl rfl
      ⟨loS_lt d, a.isLt, row.toNat_lt, rm.code_lt, mk.isLt, trivial⟩
      fun _ ⟨hd, ha, hrow, hrm, hmk, _⟩ o => decode_of_form o
        ((decode_at_1C (o _ _ rfl)).trans (by unfold decodeMajor1C; rw [o 6 5 rfl]; exact formRm_read hrm))
        ⟨rfl, by rw [bit_read hrow]; exact or_not_high (variantOk_of_encodable ok), rfl, rfl⟩ rfl rfl
        (by rw [sD_read hd (encode_dBit _), fin_read ha rfl, bit_read hrow, fin_read hmk rfl])
  | vredFmin d a row mk | vredFmax d a row mk | vredImin d a row mk | vredImax d a row mk | vredNmin d a row mk
  | vredNmax d a row mk =>
    exact roundTrip [(21, 5), (16, 5), (15, 1), (0, 3)] rfl rfl rfl ⟨loS_lt d, a.isLt, row.toNat_lt, mk.isLt, trivial⟩
      fun _ ⟨hd, ha, hrow, hmk, _⟩ o => decode_of_form o
        ((decode_at_1C (o _ _ rfl)).trans (by unfold decodeMajor1C; rw [o 6 5 rfl]; rfl))
        ⟨rfl, by rw [bit_read hrow]; exact or_not_high (variantOk_of_encodable ok), rfl, rfl⟩ rfl rfl
        (by rw [sD_read hd (encode_dBit _), fin_read ha rfl, bit_read hrow, fin_read hmk rfl])
  | vredIsum d a row sat nat mk =>
    exact roundTrip [(21, 5), (16, 5), (15, 1), (14, 1), (13, 1), (0, 3)] rfl rfl rfl
      ⟨loS_lt d, a.isLt, row.toNat_lt, sat.toNat_lt, nat.toNat_lt, mk.isLt, trivial⟩
      fun _ ⟨hd, ha, hrow, hsat, hnat, hmk, _⟩ o => decode_of_form o
        ((decode_at_1C (o _ _ rfl)).trans (by unfold decodeMajor1C; rw [o 6 5 rfl]; rfl))
        ⟨rfl, by rw [bit_read hrow]; exact or_not_high (variantOk_of_encodable ok), rfl, rfl⟩ rfl rfl
        (by rw [sD_read hd (encode_dBit _), fin_read ha rfl, bit_read hrow, bit_read hsat, bit_read hnat, fin_read hmk rfl])
  | vmov d a mk =>
    exact roundTrip [(21, 5), (16, 5), (0, 3)] rfl rfl rfl ⟨d.isLt, a.isLt, mk.isLt, trivial⟩
      fun _ ⟨hd, ha, hmk, _⟩ o => decode_of_form o
        ((decode_at_1D (o _ _ rfl)).trans (by unfold decodeMajor1D; rw [o 6 5 rfl]; rfl)) ⟨rfl, rfl, rfl, rfl⟩ rfl rfl
        (by rw [fin_read hd rfl, fin_read ha rfl, fin_read hmk rfl])
  | vbcast d a mk =>
    exact roundTrip [(21, 5), (16, 5), (0, 3)] rfl rfl rfl ⟨d.isLt, loS_lt a, mk.isLt, trivial⟩
      fun _ ⟨hd, ha, hmk, _⟩ o => decode_of_form o
        ((decode_at_1D (o _ _ rfl)).trans (by unfold decodeMajor1D; rw [o 6 5 rfl]; rfl)) ⟨rfl, rfl, rfl, rfl⟩ rfl rfl
        (by rw [fin_read hd rfl, sA_read ha (encode_aBit _), fin_read hmk rfl])
  | vextr d a b =>
    exact roundTrip [(21, 5), (16, 5), (11, 5)] rfl rfl rfl ⟨loS_lt d, a.isLt, loS_lt b, trivial⟩
      fun _ ⟨hd, ha, hb, _⟩ o => decode_of_form o
        ((decode_at_1D (o _ _ rfl)).trans (by unfold decodeMajor1D; rw [o 6 5 rfl]; rfl)) ⟨rfl, rfl, rfl, rfl⟩ rfl rfl
        (by rw [sD_read hd (encode_dBit _), fin_read ha rfl, sB_read hb (encode_bBit _)])
  | mand d a b | mor d a b | mxor d a b | mandn d a b =>
    exact roundTrip [(21, 3), (16, 3), (11, 3)] rfl rfl rfl ⟨d.isLt, a.isLt, b.isLt, trivial⟩
      fun _ ⟨hd, ha, hb, _⟩ o => decode_of_form o
        ((decode_at_1E (o _ _ rfl)).trans (by unfold decodeMajor1E; rw [o 6 5 rfl]; rfl)) ⟨rfl, rfl, rfl, rfl⟩ rfl rfl
        (by rw [fin_read hd rfl, fin_read ha rfl, fin_read hb rfl])
  | mnot d a =>
    exact roundTrip [(21, 3), (16, 3)] rfl rfl rfl ⟨d.isLt, a.isLt, trivial⟩
      fun _ ⟨hd, ha, _⟩ o => decode_of_form o
        ((decode_at_1E (o _ _ rfl)).trans (by unfold decodeMajor1E; rw [o 6 5 rfl]; rfl)) ⟨rfl, rfl, rfl, rfl⟩ rfl rfl
        (by rw [fin_read hd rfl, fin_read ha rfl])
  | vcmp d a b cc mk | vfcmp d a b cc mk =>
    exact roundTrip [(21, 3), (16, 5), (11, 5), (3, 3), (0, 3)] rfl rfl rfl
      ⟨d.isLt, a.isLt, b.isLt, cc.isLt, mk.isLt, trivial⟩
      fun _ ⟨hd, ha, hb, hcc, hmk, _⟩ o => decode_of_form o
        ((decode_at_1E (o _ _ rfl)).trans (by unfold decodeMajor1E; rw [o 6 5 rfl]; rfl)) ⟨rfl, rfl, rfl, rfl⟩ rfl rfl
        (by rw [fin_read hd rfl, fin_read ha rfl, fin_read hb rfl, fin_read hcc rfl, fin_read hmk rfl])
  | mpopc d a =>
    exact roundTrip [(21, 5), (16, 3)] rfl rfl rfl ⟨loS_lt d, a.isLt, trivial⟩
      fun _ ⟨hd, ha, _⟩ o => decode_of_form o
        ((decode_at_1E (o _ _ rfl)).trans (by unfold decodeMajor1E; rw [o 6 5 rfl]; rfl)) ⟨rfl, rfl, rfl, rfl⟩ rfl rfl
        (by rw [sD_read hd (encode_dBit _), fin_read ha rfl])
  | _ => cases cl

/-- Class X. -/
theorem roundTrip_crossbar {i : Instr} (cl : slotClass i = .x) : RoundTrip i := by
  cases i with
  | vxb d a b mk =>
    exact roundTrip [(21, 5), (16, 5), (11, 5), (0, 3)] rfl rfl rfl ⟨d.isLt, a.isLt, loS_lt b, mk.isLt, trivial⟩
      fun _ ⟨hd, ha, hb, hmk, _⟩ o => decode_of_form o
        (decode_at_20 (o _ _ rfl)) ⟨rfl, rfl, rfl, rfl⟩ rfl rfl
        (by rw [fin_read hd rfl, fin_read ha rfl, sB_read hb (encode_bBit _), fin_read hmk rfl])
  | _ => cases cl

/-- Class T: tile, matrix and chain instructions. -/
theorem roundTrip_tile {i : Instr} (cl : slotClass i = .t) (ok : i.encodable = true) : RoundTrip i := by
  cases i with
  | tzero d =>
    exact roundTrip [(21, 3)] rfl rfl rfl ⟨d.isLt, trivial⟩
      fun _ ⟨hd, _⟩ o => decode_of_form o
        ((decode_at_24 (o _ _ rfl)).trans (by unfold decodeMajor24; rw [o 6 5 rfl]; rfl)) ⟨rfl, rfl, rfl, rfl⟩ rfl rfl
        (by rw [fin_read hd rfl])
  | ttrans d a =>
    exact roundTrip [(21, 3), (16, 3)] rfl rfl rfl ⟨d.isLt, a.isLt, trivial⟩
      fun _ ⟨hd, ha, _⟩ o => decode_of_form o
        ((decode_at_24 (o _ _ rfl)).trans (by unfold decodeMajor24; rw [o 6 5 rfl]; rfl)) ⟨rfl, rfl, rfl, rfl⟩ rfl rfl
        (by rw [fin_read hd rfl, fin_read ha rfl])
  | tcvt d a rm =>
    exact roundTrip [(21, 3), (16, 3), (3, 3)] rfl rfl rfl ⟨d.isLt, a.isLt, rm.code_lt, trivial⟩
      fun _ ⟨hd, ha, hrm, _⟩ o => decode_of_form o
        ((decode_at_24 (o _ _ rfl)).trans (by unfold decodeMajor24; rw [o 6 5 rfl]; exact formRm_read hrm))
        ⟨rfl, rfl, rfl, rfl⟩ rfl rfl
        (by rw [fin_read hd rfl, fin_read ha rfl])
  | tscale d a b rm =>
    exact roundTrip [(21, 3), (16, 3), (11, 5), (3, 3)] rfl rfl rfl ⟨d.isLt, a.isLt, loS_lt b, rm.code_lt, trivial⟩
      fun _ ⟨hd, ha, hb, hrm, _⟩ o => decode_of_form o
        ((decode_at_24 (o _ _ rfl)).trans (by unfold decodeMajor24; rw [o 6 5 rfl]; exact formRm_read hrm))
        ⟨rfl, rfl, rfl, rfl⟩ rfl rfl
        (by rw [fin_read hd rfl, fin_read ha rfl, sB_read hb (encode_bBit _)])
  | tmov d a =>
    exact roundTrip [(21, 3), (16, 3)] rfl rfl rfl ⟨d.isLt, a.isLt, trivial⟩
      fun _ ⟨hd, ha, _⟩ o => decode_of_form o
        ((decode_at_24 (o _ _ rfl)).trans (by unfold decodeMajor24; rw [o 6 5 rfl, o 0 3 rfl]; rfl))
        ⟨rfl, rfl, rfl, rfl⟩ rfl rfl
        (by rw [fin_read hd rfl, fin_read ha rfl])
  | tmovFromVector d a b =>
    exact roundTrip [(21, 3), (16, 5), (11, 5)] rfl rfl rfl ⟨d.isLt, a.isLt, loS_lt b, trivial⟩
      fun _ ⟨hd, ha, hb, _⟩ o => decode_of_form o
        ((decode_at_24 (o _ _ rfl)).trans (by unfold decodeMajor24; rw [o 6 5 rfl, o 0 3 rfl]; rfl))
        ⟨rfl, rfl, rfl, rfl⟩ rfl rfl
        (by rw [fin_read hd rfl, fin_read ha rfl, sB_read hb (encode_bBit _)])
  | tmovToVector d a b =>
    exact roundTrip [(21, 5), (16, 3), (11, 5)] rfl rfl rfl ⟨d.isLt, a.isLt, loS_lt b, trivial⟩
      fun _ ⟨hd, ha, hb, _⟩ o => decode_of_form o
        ((decode_at_24 (o _ _ rfl)).trans (by unfold decodeMajor24; rw [o 6 5 rfl, o 0 3 rfl]; rfl))
        ⟨rfl, rfl, rfl, rfl⟩ rfl rfl
        (by rw [fin_read hd rfl, fin_read ha rfl, sB_read hb (encode_bBit _)])
  | tfill d a =>
    exact roundTrip [(21, 3), (16, 5)] rfl rfl rfl ⟨d.isLt, loS_lt a, trivial⟩
      fun _ ⟨hd, ha, _⟩ o => decode_of_form o
        ((decode_at_24 (o _ _ rfl)).trans (by unfold decodeMajor24; rw [o 6 5 rfl]; rfl)) ⟨rfl, rfl, rfl, rfl⟩ rfl rfl
        (by rw [fin_read hd rfl, sA_read ha (encode_aBit _)])
  | tld d a b q sp | tst d a b q sp =>
    exact roundTrip [(21, 3), (16, 5), (11, 5), (1, 5), (0, 1)] rfl rfl rfl
      ⟨d.isLt, loS_lt a, loS_lt b, q.isLt, sp.toNat_lt, trivial⟩
      fun _ ⟨hd, ha, hb, hq, hsp, _⟩ o => decode_of_form o
        ((decode_at_25 (o _ _ rfl)).trans (by unfold decodeMajor25; rw [o 6 5 rfl]; rfl)) ⟨rfl, rfl, rfl, rfl⟩ rfl rfl
        (by rw [fin_read hd rfl, sA_read ha (encode_aBit _), sB_read hb (encode_bBit _), fin_read hq rfl, bit_read hsp])
  | mma k a b pos ta tb sat qt =>
    exact roundTrip [(21, 5), (16, 3), (11, 3), (6, 5), (5, 1), (4, 1), (3, 1), (0, 3)] rfl rfl rfl
      ⟨k.isLt, a.isLt, b.isLt, pos.isLt, ta.toNat_lt, tb.toNat_lt, sat.toNat_lt, qt.isLt, trivial⟩
      fun _ ⟨hk, ha, hb, hpos, hta, htb, hsat, hqt, _⟩ o => decode_of_form o
        (decode_at_26 (o _ _ rfl)) ⟨rfl, rfl, rfl, rfl⟩ rfl rfl
        (by rw [fin_read hk rfl, fin_read ha rfl, fin_read hb rfl, fin_read hpos rfl, bit_read hta, bit_read htb,
            bit_read hsat, fin_read hqt rfl])
  | mmaMx k a b pos qk | mmaSc k a b pos qk =>
    exact roundTrip [(21, 5), (16, 3), (11, 3), (1, 5), (0, 1)] rfl rfl rfl
      ⟨k.isLt, a.isLt, b.isLt, pos.isLt, qk.toNat_lt, trivial⟩
      fun _ ⟨hk, ha, hb, hpos, hqk, _⟩ o => decode_of_form o
        ((decode_at_27 (o _ _ rfl)).trans (by unfold decodeMajor27; rw [o 6 5 rfl]; rfl)) ⟨rfl, rfl, rfl, rfl⟩ rfl rfl
        (by rw [fin_read hk rfl, fin_read ha rfl, fin_read hb rfl, fin_read hpos rfl, bit_read hqk])
  | chainBuild k a sp =>
    exact roundTrip [(21, 5), (16, 5), (0, 1)] rfl rfl rfl ⟨k.isLt, loS_lt a, sp.toNat_lt, trivial⟩
      fun _ ⟨hk, ha, hsp, _⟩ o => decode_of_form o
        ((decode_at_28 (o _ _ rfl)).trans (by unfold decodeMajor28; rw [o 6 5 rfl]; rfl)) ⟨rfl, rfl, rfl, rfl⟩ rfl rfl
        (by rw [fin_read hk rfl, sA_read ha (encode_aBit _), bit_read hsp])
  | chainClose k a b rm dst =>
    exact roundTrip [(21, 5), (16, 5), (11, 5), (3, 3), (2, 1)] rfl rfl rfl
      ⟨k.isLt, loS_lt a, loS_lt b, rm.code_lt, dst.toNat_lt, trivial⟩
      fun _ ⟨hk, ha, hb, hrm, hdst, _⟩ o => decode_of_form o
        ((decode_at_28 (o _ _ rfl)).trans (by unfold decodeMajor28; rw [o 6 5 rfl]; exact formRm_read hrm))
        ⟨rfl, rfl, by rw [bit_read hdst]; exact or_not_high (variantOk_of_encodable ok), rfl⟩ rfl rfl
        (by rw [fin_read hk rfl, sA_read ha (encode_aBit _), sB_read hb (encode_bBit _), bit_read hdst])
  | chainStat d a k sp =>
    exact roundTrip [(21, 5), (16, 5), (11, 5), (0, 1)] rfl rfl rfl ⟨loS_lt d, loS_lt a, k.isLt, sp.toNat_lt, trivial⟩
      fun _ ⟨hd, ha, hk, hsp, _⟩ o => decode_of_form o
        ((decode_at_28 (o _ _ rfl)).trans (by unfold decodeMajor28; rw [o 6 5 rfl]; rfl)) ⟨rfl, rfl, rfl, rfl⟩ rfl rfl
        (by rw [sD_read hd (encode_dBit _), sA_read ha (encode_aBit _), fin_read hk rfl, bit_read hsp])
  | chainSplice k a pos =>
    exact roundTrip [(21, 5), (16, 5), (11, 5)] rfl rfl rfl ⟨k.isLt, loS_lt a, pos.isLt, trivial⟩
      fun _ ⟨hk, ha, hpos, _⟩ o => decode_of_form o
        ((decode_at_28 (o _ _ rfl)).trans (by unfold decodeMajor28; rw [o 6 5 rfl]; rfl)) ⟨rfl, rfl, rfl, rfl⟩ rfl rfl
        (by rw [fin_read hk rfl, sA_read ha (encode_aBit _), fin_read hpos rfl])
  | chainResume k | chainFree k =>
    exact roundTrip [(21, 5)] rfl rfl rfl ⟨k.isLt, trivial⟩
      fun _ ⟨hk, _⟩ o => decode_of_form o
        ((decode_at_28 (o _ _ rfl)).trans (by unfold decodeMajor28; rw [o 6 5 rfl]; rfl)) ⟨rfl, rfl, rfl, rfl⟩ rfl rfl
        (by rw [fin_read hk rfl])
  | _ => cases cl

/-- Class M: memory and atomic instructions. -/
theorem roundTrip_memory {i : Instr} (cl : slotClass i = .m) (ok : i.encodable = true) : RoundTrip i := by
  cases i with
  | wait ld st cp tl =>
    exact roundTrip [(19, 7), (12, 7), (6, 6), (1, 5)] rfl rfl rfl ⟨ld.isLt, st.isLt, cp.isLt, tl.isLt, trivial⟩
      fun _ ⟨hld, hst, hcp, htl, _⟩ o => decode_of_form o
        (decode_at_0D (o _ _ rfl)) ⟨rfl, rfl, rfl, rfl⟩ rfl rfl
        (by rw [fin_read hld rfl, fin_read hst rfl, fin_read hcp rfl, fin_read htl rfl])
  | ld d a imm sp sz =>
    exact roundTrip [(21, 5), (16, 5), (4, 12), (3, 1), (0, 3)] rfl rfl rfl
      ⟨loS_lt d, loS_lt a, lowBits_lt .., sp.toNat_lt, sz.isLt, trivial⟩
      fun _ ⟨hd, ha, himm, hsp, hsz, _⟩ o => decode_of_form o
        (decode_at_2C (o _ _ rfl)) ⟨rfl, rfl, rfl, rfl⟩ rfl rfl
        (by rw [sD_read hd (encode_dBit _), sA_read ha (encode_aBit _), simm_read ok rfl rfl himm, bit_read hsp,
            fin_read hsz rfl])
  | st d a imm sp sz =>
    exact roundTrip [(21, 5), (16, 5), (4, 12), (3, 1), (0, 3)] rfl rfl rfl
      ⟨loS_lt d, loS_lt a, lowBits_lt .., sp.toNat_lt, sz.isLt, trivial⟩
      fun _ ⟨hd, ha, himm, hsp, hsz, _⟩ o => decode_of_form o
        (decode_at_2D (o _ _ rfl)) ⟨rfl, rfl, rfl, rfl⟩ rfl rfl
        (by rw [sD_read hd (encode_dBit _), sA_read ha (encode_aBit _), simm_read ok rfl rfl himm, bit_read hsp,
            fin_read hsz rfl])
  | vld d a b sp scr mk | vst d a b sp scr mk =>
    exact roundTrip [(21, 5), (16, 5), (11, 5), (5, 1), (4, 1), (0, 3)] rfl rfl rfl
      ⟨d.isLt, loS_lt a, loS_lt b, sp.toNat_lt, scr.toNat_lt, mk.isLt, trivial⟩
      fun _ ⟨hd, ha, hb, hsp, hscr, hmk, _⟩ o => decode_of_form o
        ((decode_at_2E (o _ _ rfl)).trans (by unfold decodeMajor2E; rw [o 6 5 rfl]; rfl))
        ⟨rfl, rfl, rfl, by rw [bit_read hscr]; exact or_not_high (variantOk_of_encodable ok)⟩ rfl rfl
        (by rw [fin_read hd rfl, sA_read ha (encode_aBit _), sB_read hb (encode_bBit _), bit_read hsp, bit_read hscr,
            fin_read hmk rfl])
  | pref a b lvl | clean a b lvl =>
    exact roundTrip [(16, 5), (11, 5), (3, 3)] rfl rfl rfl ⟨loS_lt a, loS_lt b, lvl.isLt, trivial⟩
      fun _ ⟨ha, hb, hlvl, _⟩ o => decode_of_form o
        ((decode_at_2F (o _ _ rfl)).trans (by unfold decodeMajor2F; rw [o 6 5 rfl]; rfl)) ⟨rfl, rfl, rfl, rfl⟩ rfl rfl
        (by rw [sA_read ha (encode_aBit _), sB_read hb (encode_bBit _), fin_read hlvl rfl])
  | invl a b =>
    exact roundTrip [(16, 5), (11, 5)] rfl rfl rfl ⟨loS_lt a, loS_lt b, trivial⟩
      fun _ ⟨ha, hb, _⟩ o => decode_of_form o
        ((decode_at_2F (o _ _ rfl)).trans (by unfold decodeMajor2F; rw [o 6 5 rfl]; rfl)) ⟨rfl, rfl, rfl, rfl⟩ rfl rfl
        (by rw [sA_read ha (encode_aBit _), sB_read hb (encode_bBit _)])
  | amoSwap d a b ty | amoCas d a b ty | amoAdd d a b ty | amoAnd d a b ty | amoOr d a b ty | amoXor d a b ty
  | amoMin d a b ty | amoMax d a b ty | amoFadd d a b ty | amoFmin d a b ty | amoFmax d a b ty =>
    exact roundTrip [(21, 5), (16, 5), (11, 5), (4, 3)] rfl rfl rfl ⟨loS_lt d, loS_lt a, loS_lt b, ty.isLt, trivial⟩
      fun _ ⟨hd, ha, hb, hty, _⟩ o => decode_of_form o
        ((decode_at_30 (o _ _ rfl)).trans (by unfold decodeMajor30; rw [o 7 4 rfl]; rfl)) ⟨rfl, rfl, rfl, rfl⟩ rfl rfl
        (by rw [sD_read hd (encode_dBit _), sA_read ha (encode_aBit _), sB_read hb (encode_bBit _), fin_read hty rfl])
  | redAdd a b ty | redAnd a b ty | redOr a b ty | redXor a b ty | redMin a b ty | redMax a b ty | redFadd a b ty
  | redFmin a b ty | redFmax a b ty =>
    exact roundTrip [(16, 5), (11, 5), (4, 3)] rfl rfl rfl ⟨loS_lt a, loS_lt b, ty.isLt, trivial⟩
      fun _ ⟨ha, hb, hty, _⟩ o => decode_of_form o
        ((decode_at_31 (o _ _ rfl)).trans (by unfold decodeMajor31; rw [o 7 4 rfl]; rfl)) ⟨rfl, rfl, rfl, rfl⟩ rfl rfl
        (by rw [sA_read ha (encode_aBit _), sB_read hb (encode_bBit _), fin_read hty rfl])
  | ldAcq d a scope sz | stRel d a scope sz =>
    exact roundTrip [(21, 5), (16, 5), (3, 3), (0, 3)] rfl rfl rfl ⟨loS_lt d, loS_lt a, scope.isLt, sz.isLt, trivial⟩
      fun _ ⟨hd, ha, hscope, hsz, _⟩ o => decode_of_form o
        ((decode_at_32 (o _ _ rfl)).trans (by unfold decodeMajor32; rw [o 6 5 rfl]; rfl)) ⟨rfl, rfl, rfl, rfl⟩ rfl rfl
        (by rw [sD_read hd (encode_dBit _), sA_read ha (encode_aBit _), fin_read hscope rfl, fin_read hsz rfl])
  | fence scope press =>
    exact roundTrip [(3, 3), (2, 1)] rfl rfl rfl ⟨scope.isLt, press.toNat_lt, trivial⟩
      fun _ ⟨hscope, hpress, _⟩ o => decode_of_form o
        (decode_at_34 (o _ _ rfl)) ⟨rfl, rfl, rfl, rfl⟩ rfl rfl
        (by rw [fin_read hscope rfl, bit_read hpress])
  | barArrive bar | barDrop bar =>
    exact roundTrip [(2, 4)] rfl rfl rfl ⟨bar.isLt, trivial⟩
      fun _ ⟨hbar, _⟩ o => decode_of_form o
        ((decode_at_35 (o _ _ rfl)).trans (by unfold decodeMajor35; rw [o 6 5 rfl]; rfl)) ⟨rfl, rfl, rfl, rfl⟩ rfl rfl
        (by rw [fin_read hbar rfl])
  | barWait bar arr =>
    exact roundTrip [(2, 4), (1, 1)] rfl rfl rfl ⟨bar.isLt, arr.toNat_lt, trivial⟩
      fun _ ⟨hbar, harr, _⟩ o => decode_of_form o
        ((decode_at_35 (o _ _ rfl)).trans (by unfold decodeMajor35; rw [o 6 5 rfl]; rfl)) ⟨rfl, rfl, rfl, rfl⟩ rfl rfl
        (by rw [fin_read hbar rfl, bit_read harr])
  | barTwait d a bar arr =>
    exact roundTrip [(21, 5), (16, 5), (2, 4), (1, 1)] rfl rfl rfl ⟨loS_lt d, loS_lt a, bar.isLt, arr.toNat_lt, trivial⟩
      fun _ ⟨hd, ha, hbar, harr, _⟩ o => decode_of_form o
        ((decode_at_35 (o _ _ rfl)).trans (by unfold decodeMajor35; rw [o 6 5 rfl]; rfl)) ⟨rfl, rfl, rfl, rfl⟩ rfl rfl
        (by rw [sD_read hd (encode_dBit _), sA_read ha (encode_aBit _), fin_read hbar rfl, bit_read harr])
  | flagSet a b scope =>
    exact roundTrip [(16, 5), (11, 5), (2, 3)] rfl rfl rfl ⟨loS_lt a, loS_lt b, scope.isLt, trivial⟩
      fun _ ⟨ha, hb, hscope, _⟩ o => decode_of_form o
        ((decode_at_36 (o _ _ rfl)).trans (by unfold decodeMajor36; rw [o 6 5 rfl]; rfl)) ⟨rfl, rfl, rfl, rfl⟩ rfl rfl
        (by rw [sA_read ha (encode_aBit _), sB_read hb (encode_bBit _), fin_read hscope rfl])
  | flagWait d a b timed scope =>
    exact roundTrip [(21, 5), (16, 5), (11, 5), (5, 1), (2, 3)] rfl rfl rfl
      ⟨loS_lt d, loS_lt a, loS_lt b, timed.toNat_lt, scope.isLt, trivial⟩
      fun _ ⟨hd, ha, hb, htimed, hscope, _⟩ o => decode_of_form o
        ((decode_at_36 (o _ _ rfl)).trans (by unfold decodeMajor36; rw [o 6 5 rfl]; rfl))
        ⟨rfl, by rw [bit_read htimed]; exact or_not_high (variantOk_of_encodable ok), rfl, rfl⟩ rfl rfl
        (by rw [sD_read hd (encode_dBit _), sA_read ha (encode_aBit _), sB_read hb (encode_bBit _), bit_read htimed,
            fin_read hscope rfl])
  | flagWaitAny d a b timed scope =>
    exact roundTrip [(21, 5), (16, 5), (11, 5), (5, 1), (2, 3)] rfl rfl rfl
      ⟨loS_lt d, loS_lt a, loS_lt b, timed.toNat_lt, scope.isLt, trivial⟩
      fun _ ⟨hd, ha, hb, htimed, hscope, _⟩ o => decode_of_form o
        ((decode_at_36 (o _ _ rfl)).trans (by unfold decodeMajor36; rw [o 6 5 rfl]; rfl)) ⟨rfl, rfl, rfl, rfl⟩ rfl rfl
        (by rw [sD_read hd (encode_dBit _), sA_read ha (encode_aBit _), sB_read hb (encode_bBit _), bit_read htimed,
            fin_read hscope rfl])
  | trig a b rst scope =>
    exact roundTrip [(16, 5), (11, 5), (5, 1), (2, 3)] rfl rfl rfl ⟨loS_lt a, loS_lt b, rst.toNat_lt, scope.isLt, trivial⟩
      fun _ ⟨ha, hb, hrst, hscope, _⟩ o => decode_of_form o
        ((decode_at_36 (o _ _ rfl)).trans (by unfold decodeMajor36; rw [o 6 5 rfl]; rfl)) ⟨rfl, rfl, rfl, rfl⟩ rfl rfl
        (by rw [sA_read ha (encode_aBit _), sB_read hb (encode_bBit _), bit_read hrst, fin_read hscope rfl])
  | arm d a b q =>
    exact roundTrip [(21, 5), (16, 5), (11, 5), (1, 5)] rfl rfl rfl ⟨loS_lt d, loS_lt a, loS_lt b, q.isLt, trivial⟩
      fun _ ⟨hd, ha, hb, hq, _⟩ o => decode_of_form o
        ((decode_at_36 (o _ _ rfl)).trans (by unfold decodeMajor36; rw [o 6 5 rfl]; rfl)) ⟨rfl, rfl, rfl, rfl⟩ rfl rfl
        (by rw [sD_read hd (encode_dBit _), sA_read ha (encode_aBit _), sB_read hb (encode_bBit _), fin_read hq rfl])
  | tokwait a okOnly =>
    exact roundTrip [(16, 5), (0, 1)] rfl rfl rfl ⟨a.isLt, okOnly.toNat_lt, trivial⟩
      fun _ ⟨ha, hokOnly, _⟩ o => decode_of_form o
        ((decode_at_3A (o _ _ rfl)).trans (by unfold decodeMajor3A; rw [o 6 5 rfl]; rfl)) ⟨rfl, rfl, rfl, rfl⟩ rfl rfl
        (by rw [fin_read ha rfl, bit_read hokOnly])
  | toktest d a =>
    exact roundTrip [(21, 5), (16, 5)] rfl rfl rfl ⟨loS_lt d, a.isLt, trivial⟩
      fun _ ⟨hd, ha, _⟩ o => decode_of_form o
        ((decode_at_3A (o _ _ rfl)).trans (by unfold decodeMajor3A; rw [o 6 5 rfl]; rfl)) ⟨rfl, rfl, rfl, rfl⟩ rfl rfl
        (by rw [sD_read hd (encode_dBit _), fin_read ha rfl])
  | tokjoin d a b c =>
    exact roundTrip [(21, 5), (16, 5), (11, 5), (1, 5)] rfl rfl rfl ⟨d.isLt, a.isLt, b.isLt, c.isLt, trivial⟩
      fun _ ⟨hd, ha, hb, hc, _⟩ o => decode_of_form o
        ((decode_at_3A (o _ _ rfl)).trans (by unfold decodeMajor3A; rw [o 6 5 rfl]; rfl)) ⟨rfl, rfl, rfl, rfl⟩ rfl rfl
        (by rw [fin_read hd rfl, fin_read ha rfl, fin_read hb rfl, fin_read hc rfl])
  | _ => cases cl

/-- Class E: engine commands. -/
theorem roundTrip_engine {i : Instr} (cl : slotClass i = .e) (ok : i.encodable = true) : RoundTrip i := by
  cases i with
  | cp q a c0 c1 c2 | gather q a c0 c1 c2 | scatter q a c0 c1 c2 =>
    exact roundTrip [(21, 5), (16, 5), (11, 5), (1, 5)] rfl rfl rfl ⟨q.isLt, loS_lt a, c0.isLt, c1.isLt, trivial⟩
      fun _ ⟨hq, ha, hc0, hc1, _⟩ o => decode_of_form o
        ((decode_at_38 (o _ _ rfl)).trans (by unfold decodeMajor38; rw [o 6 5 rfl]; exact if_neg (not_not.mpr (thirdToken_read ok rfl).2)))
        ⟨rfl, rfl, rfl, rfl⟩ rfl rfl
        (by rw [fin_read hq rfl, sA_read ha (encode_aBit _), fin_read hc0 rfl, fin_read hc1 rfl, (thirdToken_read ok rfl).1])
  | collReshard q a c0 c1 c2 | combine q a c0 c1 c2 =>
    exact roundTrip [(21, 5), (16, 5), (11, 5), (1, 5)] rfl rfl rfl ⟨q.isLt, loS_lt a, c0.isLt, c1.isLt, trivial⟩
      fun _ ⟨hq, ha, hc0, hc1, _⟩ o => decode_of_form o
        ((decode_at_39 (o _ _ rfl)).trans (by unfold decodeMajor39; rw [o 6 5 rfl]; exact if_neg (not_not.mpr (thirdToken_read ok rfl).2)))
        ⟨rfl, rfl, rfl, rfl⟩ rfl rfl
        (by rw [fin_read hq rfl, sA_read ha (encode_aBit _), fin_read hc0 rfl, fin_read hc1 rfl, (thirdToken_read ok rfl).1])
  | _ => cases cl

/-- Class C: control, synchronisation, token, phase and system instructions. -/
theorem roundTrip_control {i : Instr} (cl : slotClass i = .c) (ok : i.encodable = true) : RoundTrip i := by
  cases i with
  | br p neg imm =>
    exact roundTrip [(22, 4), (21, 1), (0, 21)] rfl rfl rfl ⟨p.isLt, neg.toNat_lt, lowBits_lt .., trivial⟩
      fun _ ⟨hp, hneg, himm, _⟩ o => decode_of_form o
        (decode_at_08 (o _ _ rfl)) ⟨rfl, rfl, rfl, rfl⟩ rfl rfl
        (by rw [fin_read hp rfl, bit_read hneg, simm_read ok rfl rfl himm])
  | jmp imm | call imm =>
    exact roundTrip [(0, 25)] rfl rfl rfl ⟨lowBits_lt .., trivial⟩
      fun _ ⟨himm, _⟩ o => decode_of_form o
        ((decode_at_09 (o _ _ rfl)).trans (by unfold decodeMajor09; rw [o 25 1 rfl]; rfl)) ⟨rfl, rfl, rfl, rfl⟩ rfl rfl
        (by rw [simm_read ok rfl rfl himm])
  | jmpr a | callr a =>
    exact roundTrip [(16, 5)] rfl rfl rfl ⟨loS_lt a, trivial⟩
      fun _ ⟨ha, _⟩ o => decode_of_form o
        ((decode_at_0A (o _ _ rfl)).trans (by unfold decodeMajor0A; rw [o 6 5 rfl]; rfl)) ⟨rfl, rfl, rfl, rfl⟩ rfl rfl
        (by rw [sA_read ha (encode_aBit _)])
  | loopSt sc a imm =>
    exact roundTrip [(21, 4), (16, 5), (0, 16)] rfl rfl rfl ⟨sc.isLt, loS_lt a, lowBits_lt .., trivial⟩
      fun _ ⟨hsc, ha, himm, _⟩ o => decode_of_form o
        ((decode_at_0B (o _ _ rfl)).trans (by unfold decodeMajor0B; rw [o 25 1 rfl]; rfl)) ⟨rfl, rfl, rfl, rfl⟩ rfl rfl
        (by rw [fin_read hsc rfl, sA_read ha (encode_aBit _), simm_read ok rfl rfl himm])
  | loopBr imm =>
    exact roundTrip [(0, 25)] rfl rfl rfl ⟨lowBits_lt .., trivial⟩
      fun _ ⟨himm, _⟩ o => decode_of_form o
        ((decode_at_0B (o _ _ rfl)).trans (by unfold decodeMajor0B; rw [o 25 1 rfl]; rfl)) ⟨rfl, rfl, rfl, rfl⟩ rfl rfl
        (by rw [simm_read ok rfl rfl himm])
  | phaseBegin a =>
    exact roundTrip [(16, 5)] rfl rfl rfl ⟨loS_lt a, trivial⟩
      fun _ ⟨ha, _⟩ o => decode_of_form o
        ((decode_at_3B (o _ _ rfl)).trans (by unfold decodeMajor3B; rw [o 6 5 rfl]; rfl)) ⟨rfl, rfl, rfl, rfl⟩ rfl rfl
        (by rw [sA_read ha (encode_aBit _)])
  | phaseCommit d =>
    exact roundTrip [(21, 5)] rfl rfl rfl ⟨loS_lt d, trivial⟩
      fun _ ⟨hd, _⟩ o => decode_of_form o
        ((decode_at_3B (o _ _ rfl)).trans (by unfold decodeMajor3B; rw [o 6 5 rfl]; rfl)) ⟨rfl, rfl, rfl, rfl⟩ rfl rfl
        (by rw [sD_read hd (encode_dBit _)])
  | trap code =>
    exact roundTrip [(11, 15)] rfl rfl rfl ⟨code.isLt, trivial⟩
      fun _ ⟨hcode, _⟩ o => decode_of_form o
        ((decode_at_3C (o _ _ rfl)).trans (by unfold decodeMajor3C; rw [o 6 5 rfl]; rfl)) ⟨rfl, rfl, rfl, rfl⟩ rfl rfl
        (by rw [fin_read hcode rfl])
  | hrules d a =>
    exact roundTrip [(21, 5), (16, 5)] rfl rfl rfl ⟨loS_lt d, loS_lt a, trivial⟩
      fun _ ⟨hd, ha, _⟩ o => decode_of_form o
        ((decode_at_3C (o _ _ rfl)).trans (by unfold decodeMajor3C; rw [o 6 5 rfl]; rfl)) ⟨rfl, rfl, rfl, rfl⟩ rfl rfl
        (by rw [sD_read hd (encode_dBit _), sA_read ha (encode_aBit _)])
  | invr d a b aa =>
    exact roundTrip [(21, 5), (16, 5), (11, 5), (0, 1)] rfl rfl rfl ⟨loS_lt d, loS_lt a, loS_lt b, aa.toNat_lt, trivial⟩
      fun _ ⟨hd, ha, hb, haa, _⟩ o => decode_of_form o
        ((decode_at_3C (o _ _ rfl)).trans (by unfold decodeMajor3C; rw [o 6 5 rfl]; rfl))
        ⟨rfl, by rw [bit_read haa]; exact or_not_high (variantOk_of_encodable ok), rfl, rfl⟩ rfl rfl
        (by rw [sD_read hd (encode_dBit _), sA_read ha (encode_aBit _), sB_read hb (encode_bBit _), bit_read haa])
  | detset a b =>
    exact roundTrip [(16, 5), (11, 5)] rfl rfl rfl ⟨loS_lt a, loS_lt b, trivial⟩
      fun _ ⟨ha, hb, _⟩ o => decode_of_form o
        ((decode_at_3C (o _ _ rfl)).trans (by unfold decodeMajor3C; rw [o 6 5 rfl]; rfl)) ⟨rfl, rfl, rfl, rfl⟩ rfl rfl
        (by rw [sA_read ha (encode_aBit _), sB_read hb (encode_bBit _)])
  | nodeDone a | graphSignal a =>
    exact roundTrip [(16, 5)] rfl rfl rfl ⟨loS_lt a, trivial⟩
      fun _ ⟨ha, _⟩ o => decode_of_form o
        ((decode_at_3C (o _ _ rfl)).trans (by unfold decodeMajor3C; rw [o 6 5 rfl]; rfl)) ⟨rfl, rfl, rfl, rfl⟩ rfl rfl
        (by rw [sA_read ha (encode_aBit _)])
  | exit | yield | ret | eret | hflush => exact rfl
  | _ => cases cl

/-- NOP is the only instruction of a bundle that is of no class. -/
theorem eq_nop_of_class_none {i : Instr} (cl : slotClass i = .none) (slot : isEvent i = false) : i = .nop := by
  have h : (slotClass i, isEvent i) = (.none, false) := Prod.ext cl slot
  cases i with
  | nop => rfl
  | _ => cases h

/-- The decoder reads back every encodable instruction. -/
theorem decode_encode {i : Instr} (slot : isEvent i = false) (ok : i.encodable = true) : RoundTrip i := by
  cases cl : slotClass i with
  | none => rw [eq_nop_of_class_none cl slot]; exact rfl
  | s => exact roundTrip_scalar cl ok
  | f => exact roundTrip_float cl
  | v => exact roundTrip_vector cl ok
  | x => exact roundTrip_crossbar cl
  | t => exact roundTrip_tile cl ok
  | m => exact roundTrip_memory cl ok
  | e => exact roundTrip_engine cl ok
  | c => exact roundTrip_control cl ok

end Sys2Proof

open Sys2Proof Sys2Proof.Machine Sys2Proof.Claim

/-- Settles O3, by the round trip of every encodable instruction. -/
theorem computingInstructionsRoundTrip : Obligations.ComputingInstructionsRoundTrip :=
  ⟨fun _ slot ok _ => decode_encode slot ok, fun _ slot ok _ _ => decode_encode slot ok⟩

/-- Settles O4, by the round trip of every encodable instruction. -/
theorem memoryAndSystemRoundTrip : Obligations.MemoryAndSystemRoundTrip :=
  fun _ slot ok _ => decode_encode slot ok
end

section
/-! SUPPORT. Reserved majors, turns that name an event, hard-wired registers, and what a slot meets before it issues. -/
open Sys2Proof Sys2Proof.Machine
namespace Sys2Proof

/-- A major without a form has no instruction. -/
theorem decode_reserved {w : Nat}
    (h : fld w 26 6 ∈ [0x0E, 0x0F, 0x16, 0x17, 0x1F, 0x21, 0x22, 0x23, 0x29, 0x2A, 0x2B, 0x33, 0x37, 0x3D, 0x3E])
    (x : Ext) : decode w x = unassigned x := by
  unfold decode decodeBy
  simp only [List.mem_cons, List.not_mem_nil, or_false] at h
  rcases h with e | e | e | e | e | e | e | e | e | e | e | e | e | e | e <;> rw [e] <;> rfl

/-- A header that adds nothing to a slot leaves an unassigned word no other fate than ILLEGAL_INSTR. -/
theorem unassigned_of_empty {x : Ext} (h : x = .none ∨ x = .imm 0 ∨ x = .regs false false false) :
    unassigned x = .error .illegalInstr := by
  rcases h with rfl | rfl | rfl <;> rfl

theorem parseBundle_of_late_header (dec : Nat → Ext → Except DecodeError Instr) {w0 w1 w2 w3 : Nat}
    (h : isHeader w1 ∨ isHeader w2 ∨ isHeader w3) : parseBundle dec [w0, w1, w2, w3] = none := if_pos h

namespace Machine

theorem advanceWall_time (s : State) (n : Nat) : (advanceWall s n).time = s.time := by
  unfold advanceWall
  split <;> rfl

theorem tick_time (s : State) : (tick s).time = s.time + (1 + Config.extraCycles s.freeIx) :=
  congrArg (· + (1 + Config.extraCycles s.freeIx)) (advanceWall_time (noteStopped (noteFlags s)) _)

theorem closeOwes_of_quiet {s : State} (q : Quiet s) (w : CtxId) (n : TReg) : closeOwes s w n = false := by
  obtain ⟨-, -, -, -, hclose⟩ := q
  unfold closeOwes
  split
  case h_1 => rfl
  case h_2 g hg =>
    refine List.any_eq_false.mpr fun k hk => ?_
    rw [hclose g (List.mem_of_find?_eq_some hg) k hk]
    exact Bool.false_ne_true

theorem wpend_of_quiet {s : State} (q : Quiet s) (w : CtxId) (n : TReg) : wpend s w n = false := by
  obtain ⟨-, -, htile, -, -⟩ := id q
  simp [wpend, htile, closeOwes_of_quiet q]

theorem rpend_of_quiet {s : State} (q : Quiet s) (w : CtxId) (n : TReg) : rpend s w n = false := by
  obtain ⟨-, -, htile, hlinks, -⟩ := q
  unfold rpend
  rw [htile, Bool.or_eq_false_iff]
  refine ⟨rfl, List.any_eq_false.mpr fun l hl => ?_⟩
  rw [hlinks l hl]
  exact Bool.false_ne_true

theorem pending_of_quiet {s : State} (q : Quiet s) (w : CtxId) (r : Res) : pending s w r = false := by
  obtain ⟨hflights, hpress, htile, -, -⟩ := q
  cases r <;> simp [pending, hflights, hpress, htile]

theorem readStalls_of_quiet {s : State} (q : Quiet s) (c : Ctx) (r : Res) : readStalls s c r = false := by
  cases r <;> simp [readStalls, wpend_of_quiet q, pending_of_quiet q]

theorem writeStalls_of_quiet {s : State} (q : Quiet s) (c : Ctx) (r : Res) : writeStalls s c r = false := by
  cases r with
  | csr a =>
    simp only [writeStalls, wpend_of_quiet q, rpend_of_quiet q, Bool.or_self]
    split <;> rfl
  | _ => simp [writeStalls, wpend_of_quiet q, rpend_of_quiet q, pending_of_quiet q]

theorem regStall_of_quiet {s : State} (q : Quiet s) (g : Sig) : regStall s g = false := by
  simp [regStall, funext (readStalls_of_quiet q s.src), funext (writeStalls_of_quiet q s.src)]

/-- The order of the decode-time traps (R95): one clause for each, where those before it do not strike. -/
theorem decodeTrap_illegal {s : State} {g : Sig} (h : g.legal = false) : decodeTrap s g = some .illegalInstr := by
  simp [decodeTrap, h]

theorem decodeTrap_privileged {s : State} {g : Sig} (h : g.legal = true) (p : g.priv = true) (u : s.src.mode = .user) :
    decodeTrap s g = some .privilegedInstr := by
  simp [decodeTrap, h, p, u]

theorem decodeTrap_absent {s : State} {g : Sig} (h : g.legal = true) (p : g.priv = false ∨ s.src.mode = .privileged)
    (u : g.unit = false) : decodeTrap s g = some .unimplemented := by
  rcases p with p | p <;> simp [decodeTrap, h, p, u]

theorem decodeTrap_none {s : State} {g : Sig} (h : g.legal = true) (p : g.priv = false ∨ s.src.mode = .privileged)
    (u : g.unit = true) (c : g.schedule = true) : decodeTrap s g = none := by
  rcases p with p | p <;> simp [decodeTrap, h, p, u, c]

theorem exec_decode {i : Instr} {s : State} {c : Cause} (e : isEvent i = false) (h : decodeTrap s (sigOf s i) = some c) :
    exec i s = .next ((slotTrap s { cause := c, xinfo := s.bun.word }).ended .trapped) := by
  obtain ⟨body, run⟩ := exec_slot i s e
  rw [run, runSig_decode h]

theorem schedule_of_pattern {i : Instr} {s : State}
    (h : ∀ d a b m, i = .vxb d a b m → xbOk (rdS s b).toNat = true) : (sigOf s i).schedule = true := by
  cases i with
  | vxb d a b m => exact Bool.or_eq_true_iff.mpr (.inr (h d a b m rfl))
  | _ => rfl

end Machine
end Sys2Proof

open Sys2Proof Sys2Proof.Machine Sys2Proof.Claim

/-- Settles O2: no major of the list has a form, and the bundle's first test is for a header out of place. -/
theorem reservedMajorsRefused : Obligations.ReservedMajorsRefused := by
  unfold Obligations.ReservedMajorsRefused
  constructor
  · intro w hw hmajor x hx
    have hfld : fld w 26 6 = w / 2 ^ 26 := Nat.mod_eq_of_lt (by omega)
    rw [decode_reserved (hfld ▸ List.contains_iff_mem.mp hmajor), unassigned_of_empty hx]
  · intro w0 w1 w2 w3 h
    exact parseBundle_of_late_header decode h

/-- Settles O6: the turn at the head of the agenda is the step. -/
theorem stepRunsTheNamedEvent : Obligations.StepRunsTheNamedEvent := by
  unfold Obligations.StepRunsTheNamedEvent
  intro s t rest i a hagenda hevent hexec
  refine ⟨?_, ?_⟩
  · unfold step
    rw [hagenda]
    simp only [takeTurn, happen, hevent, if_true, hexec, ticked]
  · rw [tick_time]
    omega

/-- Settles O17. -/
theorem hardWiredRegisters : Obligations.HardWiredRegisters := by
  unfold Obligations.HardWiredRegisters
  intro i s v
  refine ⟨rdS_zero s, rdP_zero s, fun puts => ?_⟩
  rw [Puts, wrS_zero] at puts
  exact puts

/-- The first half of O10, by the order of the tests of decodeTrap. -/
theorem Sys2Proof.Claim.decodeTimeTrapsInOrder : DecodeTimeTrapsInOrder := by
  intro i s hslot w legal out
  refine ⟨fun hl => ?_, fun hl hp hu => ?_, fun hl hp hu => ?_⟩
  · exact exec_decode hslot (decodeTrap_illegal hl)
  · exact exec_decode hslot (decodeTrap_privileged hl hp hu)
  · exact exec_decode hslot (decodeTrap_absent hl hp hu)

/-- The second half of O10: nothing in flight owes a register its value. -/
theorem Sys2Proof.Claim.quietSlotIssues : QuietSlotIssues := by
  intro i s quiet limits size mode unit pattern
  have legal : (sigOf s i).legal = true := Bool.and_eq_true_iff.mpr ⟨limits, size⟩
  exact ⟨decodeTrap_none legal mode unit (schedule_of_pattern pattern), regStall_of_quiet quiet _⟩

/-- Settles O10. -/
theorem slotsTrapOrIssue : Obligations.SlotsTrapOrIssue := by
  unfold Obligations.SlotsTrapOrIssue
  exact ⟨Claim.decodeTimeTrapsInOrder, Claim.quietSlotIssues⟩
end

section
/-! SUPPORT. Frame: what a computation on registers touches. -/
open Sys2Proof Sys2Proof.Machine
namespace Sys2Proof.Machine

/-- What a computation on registers may change: the registers of a list, the flags, and the bundle's record. -/
structure Touches (ws : List Res) (s t : State) : Prop where
  rest : t = { s with ctx := { s.ctx with s := t.ctx.s, p := t.ctx.p, fxf := t.ctx.fxf }, bun := t.bun }
  scalar : ∀ r : SReg, r ≠ 0 → Res.s r ∉ ws → t.ctx.s.get (s.src.physS r) = s.ctx.s.get (s.src.physS r)
  pred : ∀ r : PReg, r ≠ 0 → Res.p r ∉ ws → t.ctx.p.getLsbD r.val = s.ctx.p.getLsbD r.val

/-- The end of a body that, where it is done, has touched no more than the registers of a list. -/
def Computes (ws : List Res) (s : State) (e : SlotEnd) : Prop := ∀ t, e = .done t → Touches ws s t

theorem physS_val (c : Ctx) (r : SReg) :
    (c.physS r).val = if r.val < 32 then r.val else 32 + (r.val - 32 + c.rbs) % 32 := by
  unfold Ctx.physS
  split
  · rfl
  · exact Nat.mod_eq_of_lt (by omega)

theorem physS_inj (c : Ctx) {r d : SReg} (h : c.physS r = c.physS d) : r = d := by
  have hv := congrArg Fin.val h
  rw [physS_val, physS_val] at hv
  exact Fin.ext (by split at hv <;> split at hv <;> omega)

theorem getLsbD_setBit_of_ne {n : Nat} (x : BitVec n) {i j : Nat} (b : Bool) (h : j ≠ i) :
    (setBit x i b).getLsbD j = x.getLsbD j := by
  have hbit : (BitVec.ofNat n (2 ^ i)).getLsbD j = false := by
    rw [BitVec.getLsbD_ofNat, Nat.testBit_two_pow_of_ne (Ne.symm h), Bool.and_false]
  unfold setBit
  split
  · simp only [BitVec.getLsbD_or, hbit, Bool.or_false]
  · simp only [BitVec.getLsbD_and, BitVec.getLsbD_not, hbit, Bool.not_false, Bool.and_true]
    rcases Nat.lt_or_ge j n with hj | hj <;> simp [hj]

theorem touches_self (ws : List Res) (s : State) : Touches ws s s := ⟨rfl, fun _ _ _ => rfl, fun _ _ _ => rfl⟩

theorem touches_wrS (s : State) (d : SReg) (v : Word) : Touches [.s d] s (wrS s d v) where
  rest := by
    unfold wrS Ctx.wrS
    split <;> rfl
  scalar r _ hr := by
    have hne : s.src.physS d ≠ s.src.physS r := fun e => hr (by rw [physS_inj _ e]; exact List.mem_singleton_self _)
    simp only [wrS, Ctx.wrS]
    split
    · rfl
    · exact (vector_get_set ..).trans (if_neg hne)
  pred _ _ _ := by simp [wrS]

theorem touches_wrP (s : State) (d : PReg) (b : Bool) : Touches [.p d] s (wrP s d b) where
  rest := by
    unfold wrP
    split <;> rfl
  scalar _ _ _ := by
    unfold wrP
    split <;> rfl
  pred r _ hr := by
    have hne : r.val ≠ d.val := fun e => hr (by rw [Fin.ext e]; exact List.mem_singleton_self _)
    unfold wrP
    split
    · rfl
    · exact getLsbD_setBit_of_ne _ _ hne

theorem touches_raise {ws : List Res} {s t : State} (h : Touches ws s t) (fl : Flags) : Touches ws s (raise t fl) where
  rest := by
    have e := h.rest
    unfold raise
    rw [e]
  scalar := h.scalar
  pred := h.pred

theorem computes_done {ws : List Res} {s t : State} (h : Touches ws s t) : Computes ws s (.done t) := by
  rintro _ ⟨⟩
  exact h

theorem computes_finishFlags {ws : List Res} {s t : State} (h : Touches ws s t) (before : State) (fl : Flags) :
    Computes ws s (finishFlags t before fl) := by
  unfold finishFlags
  split
  · exact computes_done (touches_raise h fl)
  · rintro _ ⟨⟩

theorem computes_fpDone (s : State) (d : SReg) (r : FR) : Computes [.s d] s (fpDone s d r) :=
  computes_finishFlags (touches_wrS ..) _ _

/-- A slot is done only where its body is. -/
theorem runSlot_inv_done {i : Instr} {s t : State} {body : State → SlotEnd} (h : runSlot i s body = .next t)
    (done : t.bun.status = .done) : ∃ u, body (begun s) = .done u ∧ t = finished s u := by
  unfold runSlot runSig at h
  split at h
  case h_1 =>
    cases h
    cases done
  case h_2 =>
    split at h
    case isTrue =>
      cases h
      cases done
    case isFalse =>
      dsimp only at h
      split at h
      case h_1 u hu =>
        cases h
        exact ⟨u, hu, rfl⟩
      all_goals
        cases h
        cases done

/-- An integer or predicate instruction, and CSRR, writes one register. -/
theorem exec_scalar {i : Instr} (s : State) (h : slotClass i = .s) (hchk : ∀ a b k, i ≠ .chk a b k)
    (hcsr : ∀ d a c, i ≠ .csrw d a c ∧ i ≠ .csrs d a c ∧ i ≠ .csrc d a c) :
    ∃ body, exec i s = runSlot i s body ∧ Computes (slotWrites i) (begun s) (body (begun s)) := by
  cases i with
  | add => exact ⟨_, exec_add .., computes_done (touches_wrS ..)⟩
  | sub => exact ⟨_, exec_sub .., computes_done (touches_wrS ..)⟩
  | mul => exact ⟨_, exec_mul .., computes_done (touches_wrS ..)⟩
  | mulh => exact ⟨_, exec_mulh .., computes_done (touches_wrS ..)⟩
  | mulhn => exact ⟨_, exec_mulhn .., computes_done (touches_wrS ..)⟩
  | div => exact ⟨_, exec_div .., computes_done (touches_wrS ..)⟩
  | divn => exact ⟨_, exec_divn .., computes_done (touches_wrS ..)⟩
  | rem => exact ⟨_, exec_rem .., computes_done (touches_wrS ..)⟩
  | remn => exact ⟨_, exec_remn .., computes_done (touches_wrS ..)⟩
  | and => exact ⟨_, exec_and .., computes_done (touches_wrS ..)⟩
  | or => exact ⟨_, exec_or .., computes_done (touches_wrS ..)⟩
  | xor => exact ⟨_, exec_xor .., computes_done (touches_wrS ..)⟩
  | andn => exact ⟨_, exec_andn .., computes_done (touches_wrS ..)⟩
  | shl => exact ⟨_, exec_shl .., computes_done (touches_wrS ..)⟩
  | shr => exact ⟨_, exec_shr .., computes_done (touches_wrS ..)⟩
  | sra => exact ⟨_, exec_sra .., computes_done (touches_wrS ..)⟩
  | rotl => exact ⟨_, exec_rotl .., computes_done (touches_wrS ..)⟩
  | min => exact ⟨_, exec_min .., computes_done (touches_wrS ..)⟩
  | minn => exact ⟨_, exec_minn .., computes_done (touches_wrS ..)⟩
  | max => exact ⟨_, exec_max .., computes_done (touches_wrS ..)⟩
  | maxn => exact ⟨_, exec_maxn .., computes_done (touches_wrS ..)⟩
  | clz => exact ⟨_, exec_clz .., computes_done (touches_wrS ..)⟩
  | ctz => exact ⟨_, exec_ctz .., computes_done (touches_wrS ..)⟩
  | popc => exact ⟨_, exec_popc .., computes_done (touches_wrS ..)⟩
  | addImm => exact ⟨_, exec_addImm .., computes_done (touches_wrS ..)⟩
  | mulImm => exact ⟨_, exec_mulImm .., computes_done (touches_wrS ..)⟩
  | andImm => exact ⟨_, exec_andImm .., computes_done (touches_wrS ..)⟩
  | orImm => exact ⟨_, exec_orImm .., computes_done (touches_wrS ..)⟩
  | xorImm => exact ⟨_, exec_xorImm .., computes_done (touches_wrS ..)⟩
  | andnImm => exact ⟨_, exec_andnImm .., computes_done (touches_wrS ..)⟩
  | shlImm => exact ⟨_, exec_shlImm .., computes_done (touches_wrS ..)⟩
  | shrImm => exact ⟨_, exec_shrImm .., computes_done (touches_wrS ..)⟩
  | sraImm => exact ⟨_, exec_sraImm .., computes_done (touches_wrS ..)⟩
  | rotlImm => exact ⟨_, exec_rotlImm .., computes_done (touches_wrS ..)⟩
  | minImm => exact ⟨_, exec_minImm .., computes_done (touches_wrS ..)⟩
  | minnImm => exact ⟨_, exec_minnImm .., computes_done (touches_wrS ..)⟩
  | maxImm => exact ⟨_, exec_maxImm .., computes_done (touches_wrS ..)⟩
  | maxnImm => exact ⟨_, exec_maxnImm .., computes_done (touches_wrS ..)⟩
  | movi => exact ⟨_, exec_movi .., computes_done (touches_wrS ..)⟩
  | movhi => exact ⟨_, exec_movhi .., computes_done (touches_wrS ..)⟩
  | sel => exact ⟨_, exec_sel .., computes_done (touches_wrS ..)⟩
  | bfx => exact ⟨_, exec_bfx .., computes_done (touches_wrS ..)⟩
  | bfi => exact ⟨_, exec_bfi .., computes_done (touches_wrS ..)⟩
  | lea => exact ⟨_, exec_lea .., computes_done (touches_wrS ..)⟩
  | cmpEq => exact ⟨_, exec_cmpEq .., computes_done (touches_wrP ..)⟩
  | cmpNe => exact ⟨_, exec_cmpNe .., computes_done (touches_wrP ..)⟩
  | cmpLt => exact ⟨_, exec_cmpLt .., computes_done (touches_wrP ..)⟩
  | cmpGe => exact ⟨_, exec_cmpGe .., computes_done (touches_wrP ..)⟩
  | cmpLtn => exact ⟨_, exec_cmpLtn .., computes_done (touches_wrP ..)⟩
  | cmpGen => exact ⟨_, exec_cmpGen .., computes_done (touches_wrP ..)⟩
  | pand => exact ⟨_, exec_pand .., computes_done (touches_wrP ..)⟩
  | por => exact ⟨_, exec_por .., computes_done (touches_wrP ..)⟩
  | pxor => exact ⟨_, exec_pxor .., computes_done (touches_wrP ..)⟩
  | pandn => exact ⟨_, exec_pandn .., computes_done (touches_wrP ..)⟩
  | pnot => exact ⟨_, exec_pnot .., computes_done (touches_wrP ..)⟩
  | pmov => exact ⟨_, exec_pmov .., computes_done (touches_wrP ..)⟩
  | csrr => exact ⟨_, exec_csrr .., computes_done (touches_wrS ..)⟩
  | chk a b k => exact absurd rfl (hchk a b k)
  | csrw d a c => exact absurd rfl (hcsr d a c).1
  | csrs d a c => exact absurd rfl (hcsr d a c).2.1
  | csrc d a c => exact absurd rfl (hcsr d a c).2.2
  | _ => cases h

/-- A floating-point instruction writes one register and raises its flags. -/
theorem exec_float {i : Instr} (s : State) (h : slotClass i = .f) :
    ∃ body, exec i s = runSlot i s body ∧ Computes (slotWrites i) (begun s) (body (begun s)) := by
  cases i with
  | fadd => exact ⟨_, exec_fadd .., computes_fpDone _ _ _⟩
  | fsub => exact ⟨_, exec_fsub .., computes_fpDone _ _ _⟩
  | fmul => exact ⟨_, exec_fmul .., computes_fpDone _ _ _⟩
  | fdiv => exact ⟨_, exec_fdiv .., computes_fpDone _ _ _⟩
  | fsqrt => exact ⟨_, exec_fsqrt .., computes_fpDone _ _ _⟩
  | fma => exact ⟨_, exec_fma .., computes_fpDone _ _ _⟩
  | fms => exact ⟨_, exec_fms .., computes_fpDone _ _ _⟩
  | fnma => exact ⟨_, exec_fnma .., computes_fpDone _ _ _⟩
  | fmin => exact ⟨_, exec_fmin .., computes_fpDone _ _ _⟩
  | fmax => exact ⟨_, exec_fmax .., computes_fpDone _ _ _⟩
  | fneg => exact ⟨_, exec_fneg .., computes_fpDone _ _ _⟩
  | fabs => exact ⟨_, exec_fabs .., computes_fpDone _ _ _⟩
  | fcpsgn => exact ⟨_, exec_fcpsgn .., computes_fpDone _ _ _⟩
  | fmov => exact ⟨_, exec_fmov .., computes_fpDone _ _ _⟩
  | frint => exact ⟨_, exec_frint .., computes_fpDone _ _ _⟩
  | fexp => exact ⟨_, exec_fexp .., computes_fpDone _ _ _⟩
  | fexp2 => exact ⟨_, exec_fexp2 .., computes_fpDone _ _ _⟩
  | flog => exact ⟨_, exec_flog .., computes_fpDone _ _ _⟩
  | flog2 => exact ⟨_, exec_flog2 .., computes_fpDone _ _ _⟩
  | ferf => exact ⟨_, exec_ferf .., computes_fpDone _ _ _⟩
  | ferfc => exact ⟨_, exec_ferfc .., computes_fpDone _ _ _⟩
  | frcp => exact ⟨_, exec_frcp .., computes_fpDone _ _ _⟩
  | frsq => exact ⟨_, exec_frsq .., computes_fpDone _ _ _⟩
  | frcps => exact ⟨_, exec_frcps .., computes_fpDone _ _ _⟩
  | frsqs => exact ⟨_, exec_frsqs .., computes_fpDone _ _ _⟩
  | fcmpEq => exact ⟨_, exec_fcmpEq .., computes_finishFlags (touches_wrP ..) _ _⟩
  | fcmpLt => exact ⟨_, exec_fcmpLt .., computes_finishFlags (touches_wrP ..) _ _⟩
  | fcmpLe => exact ⟨_, exec_fcmpLe .., computes_finishFlags (touches_wrP ..) _ _⟩
  | fcmpUn => exact ⟨_, exec_fcmpUn .., computes_finishFlags (touches_wrP ..) _ _⟩
  | fcvt => exact ⟨_, exec_fcvt .., computes_finishFlags (touches_wrS ..) _ _⟩
  | fclass => exact ⟨_, exec_fclass .., computes_done (touches_wrS ..)⟩
  | _ => cases h

end Sys2Proof.Machine

open Sys2Proof Sys2Proof.Machine Sys2Proof.Claim

/-- Settles O13: a body of these instructions touches only the registers that its slot names, and the flags. -/
theorem registerInstructionsLeaveTheRest : Obligations.RegisterInstructionsLeaveTheRest := by
  unfold Obligations.RegisterInstructionsLeaveTheRest
  intro i s t _ hclass hchk hcsr hexec hdone
  have hbody : ∃ body, exec i s = runSlot i s body ∧ Computes (slotWrites i) (begun s) (body (begun s)) := by
    rcases hclass with h | h | rfl
    · exact exec_scalar s h hchk hcsr
    · exact exec_float s h
    · exact ⟨_, exec_nop s, computes_done (touches_self _ _)⟩
  obtain ⟨body, hrun, hcomp⟩ := hbody
  obtain ⟨u, hu, rfl⟩ := runSlot_inv_done (hrun ▸ hexec) hdone
  obtain ⟨hrest, hscalar, hpred⟩ := hcomp u hu
  exact ⟨congrArg (finished s) hrest, hscalar, hpred⟩
end

section
/-! SUPPORT. CSR instructions: the value read, the fields stored, ALTW and TCFG. -/
open Sys2Proof Sys2Proof.Machine
namespace Sys2Proof.Machine

/-! ### What a CSR instruction does -/

theorem csrBody_read {d : SReg} {c : Fin 4096} {new : Word → Option Word} {s : State}
    (h : new (csrRead s s.src c.val) = none) :
    csrBody d c new s = .done (wrS s d (csrRead s s.src c.val)) := by
  simp only [csrBody, h]

theorem csrBody_write {d : SReg} {c : Fin 4096} {new : Word → Option Word} {s : State} {v : Word}
    (h : new (csrRead s s.src c.val) = some v) (hdecl : ∀ n, ¬(tcfgTile c.val = some n ∧ s.src.ntiles ≤ n.val)) :
    csrBody d c new s = .done (csrStore (wrS s d (csrRead s s.src c.val)) c.val v) := by
  simp only [csrBody, h]
  split
  case h_1 n hn => exact if_pos (Nat.lt_of_not_le fun hle => hdecl n ⟨hn, hle⟩)
  case h_2 => rfl

theorem csrBody_undeclared {d : SReg} {c : Fin 4096} {new : Word → Option Word} {s : State} {v : Word} {n : TReg}
    (h : new (csrRead s s.src c.val) = some v) (hn : tcfgTile c.val = some n) (hle : s.src.ntiles ≤ n.val) :
    csrBody d c new s = .trap { cause := .tileShape, xinfo := n.val } := by
  simp only [csrBody, h, hn]
  exact if_neg (Nat.not_lt.mpr hle)

/-! ### The fields of a CSR -/

theorem testBit_eq_getLsbD (v : Word) (i : Nat) : testBit v.toNat i = v.getLsbD i := by
  rw [BitVec.getLsbD, Nat.testBit_eq_decide_div_mod_eq, testBit]
  rfl

/-- The low bits of a word, as the number that a field of a context holds. -/
theorem ofNat_mod_two_pow (v : Word) {n : Nat} (h : n ≤ 64) :
    BitVec.ofNat 64 (v.toNat % 2 ^ n) = v &&& BitVec.ofNat 64 (2 ^ n - 1) := by
  apply BitVec.eq_of_toNat_eq
  have hle : 2 ^ n ≤ 2 ^ 64 := Nat.pow_le_pow_right (by decide) h
  have hpos : 0 < 2 ^ n := Nat.two_pow_pos n
  rw [BitVec.toNat_and, BitVec.toNat_ofNat, BitVec.toNat_ofNat, Nat.mod_eq_of_lt (by omega : 2 ^ n - 1 < 2 ^ 64),
    Nat.and_two_pow_sub_one_eq_mod]
  have := Nat.mod_lt v.toNat hpos
  exact Nat.mod_eq_of_lt (by omega)

/-- The two fields of RBASE: five bits from bit 8 on and the low four. -/
theorem ofNat_bases (v : Word) :
    BitVec.ofNat 64 (v.toNat / 2 ^ 8 % 2 ^ 5 * 2 ^ 8 + v.toNat % 2 ^ 4) = v &&& 0x1F0F := by
  apply BitVec.eq_of_toNat_eq
  rw [BitVec.toNat_and, BitVec.toNat_ofNat, Nat.mod_eq_of_lt (by omega)]
  apply Nat.eq_of_testBit_eq
  intro i
  rw [Nat.testBit_and, show (0x1F0F : Word).toNat = 2 ^ 8 * (2 ^ 5 - 1) + (2 ^ 4 - 1) from rfl, Nat.mul_comm _ (2 ^ 8),
    Nat.testBit_two_pow_mul_add _ (by omega), Nat.testBit_two_pow_mul_add _ (by decide)]
  split
  · rw [Nat.testBit_mod_two_pow, Nat.testBit_two_pow_sub_one, Bool.and_comm]
  · rw [Nat.testBit_mod_two_pow, Nat.testBit_two_pow_sub_one, Nat.testBit_div_two_pow, Bool.and_comm,
      Nat.sub_add_cancel (by omega)]

/-- A CSR that holds its own fields gives back those that a write left. -/
theorem csrRead_csrWrite {s : State} {a : Nat} {v w : Word} (h : Claim.stored a v = some w) :
    csrRead (csrWrite s a v) (csrWrite s a v).ctx a = w := by
  unfold Claim.stored at h
  split at h <;> cases h
  case h_1 =>
    change (if 5 ≤ v.toNat % 8 then keep v 0x3F00 else keep v 0x3F07) = _
    rfl
  case h_5 =>
    change BitVec.ofNat 64 ((if 9 ≤ v.toNat % 16 then 0 else v.toNat % 16) % 16) = _
    split
    · rfl
    · rw [Nat.mod_mod]
      exact ofNat_mod_two_pow v (n := 4) (by decide)
  case h_6 =>
    change BitVec.ofNat 64 (v.toNat / 2 ^ 8 % 32 % 32 * 2 ^ 8 + v.toNat % 16 % 16) = _
    rw [Nat.mod_mod, Nat.mod_mod]
    exact ofNat_bases v
  all_goals rfl

theorem csrWrite_readOnly {a : Nat} (s : State) (v : Word)
    (h : a ∈ [0x000, 0x001, 0x002, 0x012, 0x013, 0x060, 0x090, 0x0A0, 0x0A1]) : csrWrite s a v = s := by
  simp only [List.mem_cons, List.not_mem_nil, or_false] at h
  rcases h with rfl | rfl | rfl | rfl | rfl | rfl | rfl | rfl | rfl <;> rfl

/-! ### ALTW -/

/-- The setting that a write of ALTW gives: WIN 5 to 7 is stored as 0 (R77). -/
def altwSet (v : Word) : BitVec 4 := if 5 ≤ v.toNat % 8 then v.setWidth 4 &&& 8 else v.setWidth 4

/-- An array with a setting noted for its next window, by its even or its odd core. -/
def noteAltw (core : Nat) (set : BitVec 4) (x : ArrayUnit) : ArrayUnit :=
  if core % 2 = 0 then { x with nextEven := some set } else { x with nextOdd := some set }

@[simp] theorem noteAltw_id (core : Nat) (set : BitVec 4) (x : ArrayUnit) : (noteAltw core set x).id = x.id := by
  unfold noteAltw
  split <;> rfl

@[simp] theorem noteAltw_altw (core : Nat) (set : BitVec 4) (x : ArrayUnit) : (noteAltw core set x).altw = x.altw := by
  unfold noteAltw
  split <;> rfl

theorem noteAltw_next (core : Nat) (set : BitVec 4) (x : ArrayUnit) :
    (if core % 2 = 0 then (noteAltw core set x).nextEven else (noteAltw core set x).nextOdd) = some set := by
  unfold noteAltw
  split <;> rfl

theorem altwSet_eq (v : Word) :
    BitVec.ofNat 4 (v.toNat / 8 % 2 * 8 + (if 5 ≤ v.toNat % 8 then 0 else v.toNat % 8)) = altwSet v := by
  have low : ∀ x : Fin 16, BitVec.ofNat 4 (x.val / 8 % 2 * 8 + (if 5 ≤ x.val % 8 then 0 else x.val % 8)) =
      if 5 ≤ x.val % 8 then BitVec.ofNat 4 x.val &&& 8 else BitVec.ofNat 4 x.val := by decide
  have hx := low ⟨v.toNat % 16, Nat.mod_lt _ (by decide)⟩
  have h8 : v.toNat % 16 % 8 = v.toNat % 8 := by omega
  have hbit : v.toNat % 16 / 8 % 2 = v.toNat / 8 % 2 := by omega
  have hset : BitVec.ofNat 4 (v.toNat % 16) = v.setWidth 4 := by
    apply BitVec.eq_of_toNat_eq
    rw [BitVec.toNat_ofNat, BitVec.toNat_setWidth]
    exact Nat.mod_mod _ _
  dsimp only at hx
  rw [h8, hbit, hset] at hx
  exact hx

/-- The arrays after a setting is noted for the array of a number, which is there from then on. -/
def notedArrays (l : List ArrayUnit) (n : Nat) (put : ArrayUnit → ArrayUnit) : List ArrayUnit :=
  if l.any fun x => x.id == n then updateFirst (fun x => x.id == n) put l else put { id := n } :: l

theorem writeAltw_eq (s : State) (v : Word) :
    writeAltw s v =
      { s with arrays := notedArrays s.arrays s.src.array (noteAltw s.src.lcore (altwSet v)) } := by
  unfold writeAltw notedArrays
  dsimp only
  rw [altwSet_eq]
  split <;> rfl

theorem altwSet_low (v : Word) : altwSet (v &&& 0xF) = altwSet v := by
  have hlow : (v &&& 0xF).toNat = v.toNat % 16 := by
    rw [BitVec.toNat_and]
    exact Nat.and_two_pow_sub_one_eq_mod _ 4
  rw [← altwSet_eq, ← altwSet_eq, hlow, show v.toNat % 16 % 8 = v.toNat % 8 by omega,
    show v.toNat % 16 / 8 % 2 = v.toNat / 8 % 2 by omega]

theorem find?_updateFirst_of_other {α : Type} {p q : α → Bool} {f : α → α}
    (h : ∀ x, p x = true → q x = false ∧ q (f x) = false) (l : List α) : (updateFirst p f l).find? q = l.find? q := by
  induction l with
  | nil => rfl
  | cons x l ih =>
    unfold updateFirst
    split
    next hx => simp [h x hx]
    next => rw [List.find?_cons, List.find?_cons, ih]

theorem find?_notedArrays_self (l : List ArrayUnit) (n : Nat) {put : ArrayUnit → ArrayUnit}
    (hid : ∀ x, (put x).id = x.id) :
    (notedArrays l n put).find? (fun x => x.id == n) = some (put ((l.find? fun x => x.id == n).getD { id := n })) := by
  unfold notedArrays
  split
  next there =>
    obtain ⟨x, hx⟩ := Option.isSome_iff_exists.mp ((List.find?_isSome (p := fun x : ArrayUnit => x.id == n)).mpr
      (List.any_eq_true.mp there))
    rw [find?_updateFirst (fun x h => by rw [hid]; exact h), hx]
    rfl
  next absent =>
    have none : l.find? (fun x => x.id == n) = none := List.find?_eq_none.mpr fun x hx hn =>
      absent (List.any_eq_true.mpr ⟨x, hx, hn⟩)
    rw [none, List.find?_cons_of_pos (by rw [hid]; exact beq_self_eq_true n)]
    rfl

theorem find?_notedArrays_other (l : List ArrayUnit) {n m : Nat} (hne : m ≠ n) {put : ArrayUnit → ArrayUnit}
    (hid : ∀ x, (put x).id = x.id) :
    (notedArrays l n put).find? (fun x => x.id == m) = l.find? fun x => x.id == m := by
  have other (x : ArrayUnit) (h : x.id = n) : (x.id == m) = false := beq_eq_false_iff_ne.mpr (h ▸ hne.symm)
  unfold notedArrays
  split
  · exact find?_updateFirst_of_other
      (fun x hx => ⟨other x (beq_iff_eq.mp hx), other (put x) ((hid x).trans (beq_iff_eq.mp hx))⟩) l
  · exact List.find?_cons_of_neg (by rw [other (put { id := n }) (hid _)]; exact Bool.false_ne_true)

/-- The setting in force stands until the window ends. -/
theorem altwOf_writeAltw (s : State) (v : Word) (n : Nat) : altwOf (writeAltw s v) n = altwOf s n := by
  rw [writeAltw_eq]
  unfold altwOf
  by_cases hn : n = s.src.array
  · subst hn
    dsimp only
    rw [find?_notedArrays_self _ _ (noteAltw_id _ _)]
    cases s.arrays.find? fun x => x.id == s.src.array <;> simp
  · dsimp only
    rw [find?_notedArrays_other _ hn (noteAltw_id _ _)]

theorem nextSetting_eq (x : ArrayUnit) :
    x.nextSetting = match x.nextOdd, x.nextEven with
      | some odd, _ => odd
      | none, some even => even
      | none, none => x.altw := by
  unfold ArrayUnit.nextSetting
  cases x.nextOdd <;> cases x.nextEven <;> rfl

/-! ### TCFG -/

theorem csrWrite_tcfg (s : State) (n : TReg) (v : Word) : csrWrite s (0x040 + n.val) v = writeTcfg s n v := by
  fin_cases n <;> rfl

theorem writeTcfg_eq {s : State} {n : TReg} (v : Word) (h : s.ctx.stopTok.get n = none) :
    writeTcfg s n v =
      let new := if (s.ctx.tcfg.get n).getLsbD 41 then v &&& 0x000001FF3FFFFF1F else v &&& 0x000003FF3FFFFF1F
      s.withCtx fun c => { c with tcfg := c.tcfg.set n.val new n.isLt } := by
  unfold writeTcfg
  rw [h, ← testBit_eq_getLsbD]
  rfl

end Sys2Proof.Machine

open Sys2Proof Sys2Proof.Machine Sys2Proof.Claim

/-- The first part of O19: the four instructions share one body. -/
theorem Sys2Proof.Claim.csrInstructionsReadThenStore : Claim.CsrInstructionsReadThenStore := by
  intro d a c s old t undeclared
  refine ⟨fun h => ?_, fun hdecl => ⟨fun h => ?_, fun h => ?_, fun h => ?_⟩, fun n hn => ⟨fun h => ?_, fun h => ?_, fun h => ?_⟩⟩
  · exact (exec_csrr ..).trans (runSlot_done h (csrBody_read rfl))
  · exact (exec_csrw ..).trans (runSlot_done h (csrBody_write rfl hdecl))
  · exact (exec_csrs ..).trans (runSlot_done h (csrBody_write rfl hdecl))
  · exact (exec_csrc ..).trans (runSlot_done h (csrBody_write rfl hdecl))
  · exact (exec_csrw ..).trans (runSlot_trap h (csrBody_undeclared rfl hn.1 hn.2))
  · exact (exec_csrs ..).trans (runSlot_trap h (csrBody_undeclared rfl hn.1 hn.2))
  · exact (exec_csrc ..).trans (runSlot_trap h (csrBody_undeclared rfl hn.1 hn.2))

/-- The second part of O19. -/
theorem Sys2Proof.Claim.csrFieldsStoreTheirBits : Claim.CsrFieldsStoreTheirBits := by
  intro s a v
  refine ⟨fun w hw => csrRead_csrWrite hw, ?fxf, ?altw, fun x => nextSetting_eq x,
    fun h => csrWrite_readOnly s v (List.contains_iff_mem.mp h)⟩
  case fxf =>
    rintro rfl
    exact congrArg (· ||| s.bun.raised) (BitVec.ofNat_toNat 6 v)
  case altw =>
    rintro rfl
    change writeAltw s v = writeAltw s (v &&& 0xF) ∧ _
    have hid := noteAltw_id s.src.lcore (altwSet v)
    refine ⟨by rw [writeAltw_eq, writeAltw_eq, altwSet_low], ?_, fun n => ⟨altwOf_writeAltw s v n, fun hn => ?_⟩, ?_⟩
    · change writeAltw s v = { s with arrays := (writeAltw s v).arrays }
      rw [writeAltw_eq]
    · change (writeAltw s v).arrays.find? _ = _
      rw [writeAltw_eq]
      exact find?_notedArrays_other _ hn hid
    · refine ⟨noteAltw s.src.lcore (altwSet v)
        ((s.arrays.find? fun x => x.id == s.src.array).getD { id := s.src.array }), ?_, ?_⟩
      · change (writeAltw s v).arrays.find? _ = _
        rw [writeAltw_eq]
        exact find?_notedArrays_self _ _ hid
      · exact noteAltw_next s.src.lcore (altwSet v) _

/-- The third part of O19. -/
theorem Sys2Proof.Claim.tileShapeWriteStoresFields : Claim.TileShapeWriteStoresFields := by
  intro s n v hstop t
  have ht : t = _ := (csrWrite_tcfg s n v).trans (writeTcfg_eq v hstop)
  rw [ht]
  refine ⟨?_, fun m hm => ?_, rfl, rfl⟩
  · exact (vector_get_set ..).trans (if_pos rfl)
  · exact (vector_get_set ..).trans (if_neg hm.symm)

/-- Settles O19, by its three parts. -/
theorem csrInstructionsReadThenStore : Obligations.CsrInstructionsReadThenStore := by
  unfold Obligations.CsrInstructionsReadThenStore
  exact ⟨Claim.csrInstructionsReadThenStore, Claim.csrFieldsStoreTheirBits, Claim.tileShapeWriteStoresFields⟩
end

section
/-! SUPPORT. Barriers: arrivals, drops and waits. -/
open Sys2Proof Sys2Proof.Machine Sys2Proof.Claim

namespace Sys2Proof.Machine

/-- A slot that issues and whose body stalls. -/
theorem runSlot_stall {i : Instr} {s : State} {body : State → SlotEnd} (h : Issues i s) (b : body (begun s) = .stall) :
    runSlot i s body = .next (s.ended .stalled) := by
  rw [runSlot, runSig_issues body h.1 h.2, b]

/-! ### Bodies that change at most scalar registers -/

/-- What a body leaves that changes scalar registers, to r, and no other register, no memory and not the status of its
context. -/
structure Leaves (r : Vector Word 64) (s t : State) : Prop where
  pre : t.pre = some s.src
  status : t.ctx.status = s.ctx.status
  regs : t.ctx.s = r
  preds : t.ctx.p = s.ctx.p
  vectors : t.ctx.v = s.ctx.v
  masks : t.ctx.m = s.ctx.m
  tiles : t.ctx.t = s.ctx.t
  pc : t.ctx.pc = s.src.pc + 16
  mem : t.mem = s.mem
  spad : t.spad = s.spad

/-- A body that changes no register. -/
abbrev Untouched (s t : State) : Prop := Leaves s.ctx.s s t

theorem untouched_begun (s : State) : Untouched s (begun s) := ⟨rfl, rfl, rfl, rfl, rfl, rfl, rfl, rfl, rfl, rfl⟩

section
variable {r : Vector Word 64} {s t : State}

theorem Leaves.src (h : Leaves r s t) : t.src = s.src := by
  rw [State.src, h.pre]
  rfl

theorem Leaves.flushHarrow (h : Leaves r s t) : Leaves r s (flushHarrow t) :=
  ⟨h.pre, h.status, h.regs, h.preds, h.vectors, h.masks, h.tiles, h.pc, h.mem, h.spad⟩

theorem Leaves.taintResult (h : Leaves r s t) : Leaves r s (taintResult t) :=
  ⟨h.pre, h.status, h.regs, h.preds, h.vectors, h.masks, h.tiles, h.pc, h.mem, h.spad⟩

/-- A result written over an untouched state is the one written over the state in which the body begins. -/
theorem Leaves.wrS (h : Untouched s t) (d : SReg) (v : Word) : Leaves (wrS (begun s) d v).ctx.s s (wrS t d v) := by
  constructor
  case regs =>
    rw [wrS_ctx, wrS_ctx, ctx_wrS_s, ctx_wrS_s, h.src, h.regs, begun_src]
    rfl
  all_goals simp only [wrS_ctx, wrS_pre, wrS_mem, wrS_spad, ctx_wrS_status, ctx_wrS_p, ctx_wrS_v, ctx_wrS_m, ctx_wrS_t, ctx_wrS_pc]
  · exact h.pre
  · exact h.status
  · exact h.preds
  · exact h.vectors
  · exact h.masks
  · exact h.tiles
  · exact h.pc
  · exact h.mem
  · exact h.spad

theorem Leaves.done {i : Instr} {body : State → SlotEnd} (h : Leaves r s t)
    (run : exec i s = runSlot i s body) (issues : Issues i s) (b : body (begun s) = .done t) : DoneWith i s r t :=
  ⟨run.trans (runSlot_done issues b), h.regs, h.preds, h.vectors, h.masks, h.tiles, h.pc, h.mem, h.spad⟩

theorem Leaves.blocks {i : Instr} {body : State → SlotEnd} {why : Block} (h : Untouched s t)
    (run : exec i s = runSlot i s body) (issues : Issues i s) (b : body (begun s) = .block t why) : Blocks i s why :=
  blocks_of_body run issues b h.src h.status h.regs h.preds h.mem h.spad

end

/-! ### A barrier of a gang -/

theorem gang?_updGang_some {s : State} {i : Nat} {f : Gang → Gang} {x : Gang} (h : s.gang? i = some x)
    (id : ∀ g, (f g).id = g.id) : (s.updGang i f).gang? i = some (f x) :=
  (gang?_updGang id).trans (congrArg (Option.map f) h)

theorem barAt_of_gang? {s : State} {g : Nat} {b : Fin 16} {x : Gang} (h : s.gang? g = some x) :
    barAt s g b = some (x.barriers.get b) := congrArg (Option.map _) h

theorem gang?_updBarrier {s : State} {g : Nat} {x : Gang} (h : s.gang? g = some x) (b : Fin 16) (f : Barrier → Barrier) :
    (updBarrier s g b f).gang? g = some { x with barriers := x.barriers.set b.val (f (x.barriers.get b)) b.isLt } := by
  exact gang?_updGang_some h fun _ => rfl

/-- A closing point leaves a gang its barriers, and adds no window where no press atomic waits. -/
theorem gang?_closeWindow {s : State} {g : Nat} {x : Gang} (h : s.gang? g = some x) (w : Window) :
    ∃ x', (closeWindow s g w).gang? g = some x' ∧ x'.barriers = x.barriers ∧
      (pressBusy s g = false → x'.windows = x.windows) := by
  unfold closeWindow
  split
  next busy =>
    refine ⟨{ x with windows := x.windows ++ [w] }, gang?_updGang_some h fun _ => rfl, rfl, fun idle => absurd (idle.symm.trans busy) Bool.false_ne_true⟩
  next => exact ⟨x, h, rfl, fun _ => rfl⟩

/-- What a gang becomes when its barrier b has E = e and a arrivals: the barrier settles, the others stand. -/
structure SettledGang (x x' : Gang) (b : Fin 16) (e a : Nat) (busy : Bool) : Prop where
  settled : settles (x.barriers.get b) e a (x'.barriers.get b)
  others : ∀ c, c ≠ b → x'.barriers.get c = x.barriers.get c
  windows : busy = false → x'.windows = x.windows

theorem gang?_tryComplete {s : State} {g : Nat} {x : Gang} (h : s.gang? g = some x) (b : Fin 16) (n : Nat) :
    ∃ x', (tryComplete s g b n).gang? g = some x' ∧
      SettledGang x x' b (x.barriers.get b).e (x.barriers.get b).arrivals (pressBusy s g) := by
  unfold tryComplete
  rw [h]
  dsimp only
  split
  next full =>
    obtain ⟨y, hy, barriers, windows⟩ := gang?_closeWindow h
      { cuts := ((s.gangCtx g).filter fun c => (c.bar.get b).arrph == some (x.barriers.get b).phase).map fun c =>
          (c.id.gix, (c.bar.get b).arrSeq) }
    refine ⟨_, gang?_updBarrier hy b _, ?_, fun c hc => ?_, windows⟩
    · simp only [vector_get_set, if_true, barriers, settles]
      rw [if_pos full]
      exact ⟨trivial, trivial, trivial⟩
    · simp only [vector_get_set, barriers]
      exact if_neg hc.symm
  next short =>
    refine ⟨x, h, ⟨rfl, ?_⟩, fun _ _ => rfl, fun _ => rfl⟩
    rw [if_neg short]
    exact ⟨rfl, rfl⟩

/-- A barrier that is changed and then settles, seen from the gang before the change. -/
theorem gang?_settle {s : State} {g : Nat} {x : Gang} (h : s.gang? g = some x) (b : Fin 16) (f : Barrier → Barrier)
    (phase : ∀ k, (f k).phase = k.phase) (n : Nat) :
    ∃ x', (tryComplete (updBarrier s g b f) g b n).gang? g = some x' ∧
      SettledGang x x' b (f (x.barriers.get b)).e (f (x.barriers.get b)).arrivals (pressBusy s g) := by
  obtain ⟨x', hx', settled, others, windows⟩ := gang?_tryComplete (gang?_updBarrier h b f) b n
  simp only [vector_get_set, if_true] at settled others
  refine ⟨x', hx', ?_, fun c hc => (others c hc).trans (if_neg hc.symm), windows⟩
  unfold settles at settled ⊢
  rw [phase] at settled
  exact settled

/-! ### An arrival and a drop -/

/-- What the arrival of the context in focus at barrier b of gang x leaves. -/
structure Arrives (s t : State) (b : Fin 16) (x x' : Gang) : Prop where
  rest : ∃ i k gs v, t = { s with nextId := i, clocks := k, gangs := gs, ctx := { s.ctx with bar := v } }
  gang : t.gang? s.ctx.id.gang = some x'
  count : SettledGang x x' b (x.barriers.get b).e ((x.barriers.get b).arrivals + 1) (pressBusy s s.ctx.id.gang)
  arrph : (t.ctx.bar.get b).arrph = some (x.barriers.get b).phase
  dropped : (t.ctx.bar.get b).dropped = (s.ctx.bar.get b).dropped
  others : ∀ c, c ≠ b → t.ctx.bar.get c = s.ctx.bar.get c

theorem Arrives.untouched {s t : State} {b : Fin 16} {x x' : Gang} (h : Arrives (begun s) t b x x') : Untouched s t := by
  obtain ⟨i, k, gs, v, rfl⟩ := h.rest
  exact ⟨rfl, rfl, rfl, rfl, rfl, rfl, rfl, rfl, rfl, rfl⟩

theorem arrive_none {s : State} {b : Fin 16} {x : Gang} (h : s.gang? s.ctx.id.gang = some x)
    (no : (s.ctx.bar.get b).dropped = true ∨ (s.ctx.bar.get b).arrph = some (x.barriers.get b).phase) :
    arrive s b = none := by
  simp only [arrive, h]
  exact if_pos no

theorem arrive_arrives {s : State} {b : Fin 16} {x : Gang} (h : s.gang? s.ctx.id.gang = some x)
    (stays : (s.ctx.bar.get b).dropped = false) (new : (s.ctx.bar.get b).arrph ≠ some (x.barriers.get b).phase) :
    ∃ t x', arrive s b = some t ∧ Arrives s t b x x' := by
  obtain ⟨k, i, hk⟩ := modRelease_eq s s.ctx none
  let v := s.ctx.bar.set b.val { s.ctx.bar.get b with arrph := some (x.barriers.get b).phase, arrSeq := s.ctx.seq } b.isLt
  let u : State := { s with nextId := k, clocks := i, ctx := { s.ctx with bar := v } }
  let f (k : Barrier) : Barrier := { k with arrivals := k.arrivals + 1, stamp := vcMax k.stamp (stampAt u u.ctx) }
  have hu : u.gang? u.ctx.id.gang = some x := h
  obtain ⟨x', gang, count⟩ := gang?_settle hu b f (fun _ => rfl) u.time
  have run : arrive s b = some (tryComplete (updBarrier u u.ctx.id.gang b f) u.ctx.id.gang b u.time) := by
    simp only [arrive, h]
    rw [if_neg (by rw [stays]; simpa using new), hk]
    rfl
  obtain ⟨gs, hgs⟩ := tryComplete_eq (updBarrier u u.ctx.id.gang b f) u.ctx.id.gang b u.time
  rw [hgs] at gang run
  have mine : v.get b = { s.ctx.bar.get b with arrph := some (x.barriers.get b).phase, arrSeq := s.ctx.seq } :=
    (vector_get_set ..).trans (if_pos rfl)
  have kept : (v.get b).dropped = (s.ctx.bar.get b).dropped := by rw [mine]
  exact ⟨_, x', run, ⟨k, i, gs, v, rfl⟩, gang, count, congrArg CtxBar.arrph mine, kept,
    fun c hc => (vector_get_set ..).trans (if_neg hc.symm)⟩

/-- What the drop of the context in focus from barrier b of gang x leaves. -/
structure Drops (s t : State) (b : Fin 16) (x x' : Gang) : Prop where
  rest : ∃ gs v, t = { s with gangs := gs, ctx := { s.ctx with bar := v } }
  gang : t.gang? s.ctx.id.gang = some x'
  count : SettledGang x x' b ((x.barriers.get b).e - 1)
    (if (s.ctx.bar.get b).arrph = some (x.barriers.get b).phase then (x.barriers.get b).arrivals - 1
      else (x.barriers.get b).arrivals) (pressBusy s s.ctx.id.gang)
  dropped : (t.ctx.bar.get b).dropped = true
  arrph : (t.ctx.bar.get b).arrph = (s.ctx.bar.get b).arrph
  others : ∀ c, c ≠ b → t.ctx.bar.get c = s.ctx.bar.get c

theorem Drops.untouched {s t : State} {b : Fin 16} {x x' : Gang} (h : Drops (begun s) t b x x') : Untouched s t := by
  obtain ⟨gs, v, rfl⟩ := h.rest
  exact ⟨rfl, rfl, rfl, rfl, rfl, rfl, rfl, rfl, rfl, rfl⟩

theorem dropFrom_drops {s : State} {b : Fin 16} {x : Gang} (h : s.gang? s.ctx.id.gang = some x)
    (live : s.ctx.live = true) (stays : (s.ctx.bar.get b).dropped = false) (n : Nat) :
    ∃ x', Drops s (dropFrom s s.ctx.id b n) b x x' := by
  have find : s.ctx? s.ctx.id = some s.ctx := by simp [State.ctx?, live]
  have upd (f : Ctx → Ctx) : s.updCtx s.ctx.id f = { s with ctx := f s.ctx } := by simp [State.updCtx, live]
  let v := s.ctx.bar.set b.val { s.ctx.bar.get b with dropped := true } b.isLt
  let u : State := { s with ctx := { s.ctx with bar := v } }
  let f (k : Barrier) : Barrier := { k with
    e := k.e - 1, arrivals := if (s.ctx.bar.get b).arrph = some k.phase then k.arrivals - 1 else k.arrivals }
  have hu : u.gang? s.ctx.id.gang = some x := h
  obtain ⟨x', gang, count⟩ := gang?_settle hu b f (fun _ => rfl) n
  have run : dropFrom s s.ctx.id b n = tryComplete (updBarrier u s.ctx.id.gang b f) s.ctx.id.gang b n := by
    simp only [dropFrom, find, stays, Bool.false_eq_true, if_false, upd]
    rfl
  obtain ⟨gs, hgs⟩ := tryComplete_eq (updBarrier u s.ctx.id.gang b f) s.ctx.id.gang b n
  rw [hgs] at gang run
  have mine : v.get b = { s.ctx.bar.get b with dropped := true } := (vector_get_set ..).trans (if_pos rfl)
  have kept : (v.get b).arrph = (s.ctx.bar.get b).arrph := by rw [mine]
  rw [run]
  exact ⟨x', ⟨gs, v, rfl⟩, gang, count, congrArg CtxBar.dropped mine, kept,
    fun c hc => (vector_get_set ..).trans (if_neg hc.symm)⟩

/-! ### Barrier waits -/

/-- The state in which a barrier wait is judged that has no arrival to make: the barriers and the time are those of s, and no
register has changed. -/
structure Judged (s t : State) : Prop where
  untouched : Untouched s t
  gang : t.gang? t.src.id.gang = s.gang? s.src.id.gang
  bar : t.ctx.bar = s.ctx.bar
  time : t.time = s.time

theorem judged_begun (s : State) : Judged s (begun s) := ⟨untouched_begun s, rfl, rfl, rfl⟩

theorem Leaves.putProg {r : Vector Word 64} {s t : State} (h : Leaves r s t) (p : Progress) : Leaves r s (putProg t p) :=
  ⟨h.pre, h.status, h.regs, h.preds, h.vectors, h.masks, h.tiles, h.pc, h.mem, h.spad⟩

theorem Judged.putProg {s t : State} (h : Judged s t) (p : Progress) : Judged s (putProg t p) := by
  have untouched := h.untouched.putProg p
  refine ⟨untouched, ?_, h.bar, h.time⟩
  rw [← h.gang, untouched.src, h.untouched.src]
  rfl

/-- The record with which a barrier wait goes on that has no arrival to make: the one of its first issue, or a new one. -/
theorem waitArrive_again {s : State} {arr : Bool} (h : arr = false ∨ (findProg (begun s)).isSome = true) (b : Fin 16)
    (limit : Option Nat) : ∃ p t, waitArrive (begun s) b arr limit = some (p, t) ∧ Judged s t ∧
      p.expiry = match findProg (begun s) with
        | some p => p.expiry
        | none => limit.map fun l => s.time + l := by
  unfold waitArrive
  cases hp : findProg (begun s) with
  | some p => exact ⟨p, _, rfl, judged_begun s, rfl⟩
  | none =>
    obtain rfl : arr = false := h.resolve_right (by rw [hp]; exact Bool.false_ne_true)
    exact ⟨_, _, rfl, (judged_begun s).putProg _, rfl⟩

theorem arrivalHeld_again {s : State} {arr : Bool} (h : arr = false ∨ (findProg s).isSome = true) :
    arrivalHeld s arr = false := by
  rcases h with rfl | h
  · rfl
  · simp [arrivalHeld, Option.isNone_eq_false_iff.mpr h]

/-- How a BAR.WAIT ends once its arrival is made. -/
def barWaitEnd (b : Fin 16) (s : State) : SlotEnd :=
  if (s.ctx.bar.get b).dropped ∨ (s.ctx.bar.get b).arrph = none then barrierError b
  else if phaseOver s b ∧ windowsDone s then .done (barReturn s b)
  else .block (flushHarrow s) (.barrier b.val false)

/-- How a BAR.TWAIT ends once its arrival is made. -/
def barTwaitEnd (d : SReg) (b : Fin 16) (limit expiry : Nat) (s : State) : SlotEnd :=
  if (s.ctx.bar.get b).dropped ∨ (s.ctx.bar.get b).arrph = none then barrierError b
  else if phaseOver s b ∧ (barrierOf s b).completedAt ≤ expiry then
    if windowsDone s then .done (taintResult (wrS (barReturn s b) d 0))
    else .block (flushHarrow s) (.barrier b.val true)
  else if phaseOver s b ∨ limit = 0 ∨ expiry < s.time then .done (taintResult (flushHarrow (wrS s d 1)))
  else .block (flushHarrow s) (.barrier b.val true)

section
variable {b : Fin 16} {s : State}

theorem barWaitEnd_error (no : (s.ctx.bar.get b).dropped = true ∨ (s.ctx.bar.get b).arrph = none) :
    barWaitEnd b s = barrierError b := if_pos no

theorem barTwaitEnd_error (d : SReg) (limit expiry : Nat)
    (no : (s.ctx.bar.get b).dropped = true ∨ (s.ctx.bar.get b).arrph = none) :
    barTwaitEnd d b limit expiry s = barrierError b := if_pos no

variable (yes : ¬((s.ctx.bar.get b).dropped = true ∨ (s.ctx.bar.get b).arrph = none))
include yes

theorem barWaitEnd_done (ended : phaseOver s b = true) (windows : windowsDone s = true) :
    barWaitEnd b s = .done (barReturn s b) := (if_neg yes).trans (if_pos ⟨ended, windows⟩)

theorem barWaitEnd_block (h : ¬(phaseOver s b = true ∧ windowsDone s = true)) :
    barWaitEnd b s = .block (flushHarrow s) (.barrier b.val false) := (if_neg yes).trans (if_neg h)

variable {d : SReg} {limit expiry : Nat}

theorem barTwaitEnd_done (ended : phaseOver s b = true) (cycle : (barrierOf s b).completedAt ≤ expiry)
    (windows : windowsDone s = true) :
    barTwaitEnd d b limit expiry s = .done (taintResult (wrS (barReturn s b) d 0)) :=
  (if_neg yes).trans ((if_pos ⟨ended, cycle⟩).trans (if_pos windows))

theorem barTwaitEnd_windows (ended : phaseOver s b = true) (cycle : (barrierOf s b).completedAt ≤ expiry)
    (windows : ¬windowsDone s = true) :
    barTwaitEnd d b limit expiry s = .block (flushHarrow s) (.barrier b.val true) :=
  (if_neg yes).trans ((if_pos ⟨ended, cycle⟩).trans (if_neg windows))

theorem barTwaitEnd_timeout (late : ¬(phaseOver s b = true ∧ (barrierOf s b).completedAt ≤ expiry))
    (h : phaseOver s b = true ∨ limit = 0 ∨ expiry < s.time) :
    barTwaitEnd d b limit expiry s = .done (taintResult (flushHarrow (wrS s d 1))) :=
  (if_neg yes).trans ((if_neg late).trans (if_pos h))

theorem barTwaitEnd_block (present : phaseOver s b = false) (limited : limit ≠ 0) (time : s.time ≤ expiry) :
    barTwaitEnd d b limit expiry s = .block (flushHarrow s) (.barrier b.val true) := by
  have notEnded := Bool.eq_false_iff.mp present
  refine (if_neg yes).trans ((if_neg fun h => notEnded h.1).trans (if_neg ?_))
  rintro (h | h | h)
  · exact notEnded h
  · exact limited h
  · exact absurd h (Nat.not_lt.mpr time)

end

theorem execBarWait_eq (b : Fin 16) (arr : Bool) (s : State) : exec (.barWait b arr) s =
    runSlot (.barWait b arr) s fun s =>
      if arrivalHeld s arr then .stall
      else match waitArrive s b arr none with
      | none => barrierError b
      | some (_, t) => barWaitEnd b t := exec_barWait b arr s

theorem execBarTwait_eq (d a : SReg) (b : Fin 16) (arr : Bool) (s : State) : exec (.barTwait d a b arr) s =
    runSlot (.barTwait d a b arr) s fun s =>
      if arrivalHeld s arr then .stall
      else match waitArrive s b arr (some (rdS s a).toNat) with
      | none => barrierError b
      | some (p, t) => barTwaitEnd d b (rdS s a).toNat (p.expiry.getD t.time) t := exec_barTwait d a b arr s

section
variable {s : State} {b : Fin 16} {x : Gang} (find : s.gang? s.src.id.gang = some x)
include find

theorem barrierOf_eq : barrierOf s b = x.barriers.get b := by
  simp only [barrierOf, find]

theorem phaseOver_iff : phaseOver s b = true ↔ (s.ctx.bar.get b).arrph ≠ some (x.barriers.get b).phase := by
  rw [phaseOver, barrierOf_eq find, bne_iff_ne]

theorem windowsDone_iff : windowsDone s = true ↔ x.windows = [] := by
  rw [windowsDone, find, Option.all_some, List.isEmpty_iff]

end

/-- An acquire of a scope from mod on touches L1 copies and clocks alone. -/
theorem acquire_wide_eq (s : State) (c : Ctx) {scope : Nat} (h : 3 ≤ scope) (v : List (BitVec 16)) :
    ∃ l k, acquire s c scope v = { s with l1 := l, clocks := k } := by
  obtain ⟨l, hl⟩ := dropL1_eq s c scope
  unfold acquire
  rw [hl]
  exact ⟨l, _, if_pos h⟩

theorem Leaves.acquire {r : Vector Word 64} {s t : State} (h : Leaves r s t) (c : Ctx) {scope : Nat} (wide : 3 ≤ scope)
    (v : List (BitVec 16)) : Leaves r s (acquire t c scope v) := by
  obtain ⟨l, k, e⟩ := acquire_wide_eq t c wide v
  rw [e]
  exact ⟨h.pre, h.status, h.regs, h.preds, h.vectors, h.masks, h.tiles, h.pc, h.mem, h.spad⟩

theorem gang?_barReturn (s : State) (b : Fin 16) (g : Nat) : (barReturn s b).gang? g = s.gang? g := by
  obtain ⟨l, k, e⟩ := acquire_wide_eq s s.src (le_refl 3) (barrierOf s b).stamp
  rw [barReturn, e]
  rfl

theorem Leaves.barReturn {s t : State} (h : Untouched s t) (b : Fin 16) : Untouched s (barReturn t b) :=
  (h.acquire t.src (le_refl 3) _).flushHarrow

end Sys2Proof.Machine

/-- The first part of O34. -/
theorem Sys2Proof.Claim.barriersCountArrivalsAndDrops : Claim.BarriersCountArrivalsAndDrops := by
  intro b s g find live k me err others
  refine ⟨fun issues held => ?_, fun issues free => ⟨fun no => ?_, fun stays new => ?_⟩,
    fun issues => ⟨fun no => ?_, fun stays => ?_⟩⟩
  · exact (exec_barArrive b s).trans (runSlot_stall issues (if_pos held))
  · refine (exec_barArrive b s).trans (runSlot_trap issues ?_)
    exact (if_neg (Bool.eq_false_iff.mp free)).trans (by rw [arrive_none (s := begun s) find no]; rfl)
  · obtain ⟨t, x', run, arrives⟩ := arrive_arrives (s := begun s) find stays new
    refine ⟨flushHarrow t, _, arrives.untouched.flushHarrow.done (exec_barArrive b s) issues
        ((if_neg (Bool.eq_false_iff.mp free)).trans (by rw [run])), barAt_of_gang? arrives.gang, arrives.count.settled,
      arrives.arrph, arrives.dropped.trans stays, fun c hc => ?_, arrives.others⟩
    exact (barAt_of_gang? arrives.gang).trans (congrArg some (arrives.count.others c hc))
  · exact (exec_barDrop b s).trans (runSlot_trap issues (if_pos no))
  · obtain ⟨x', drops⟩ := dropFrom_drops (s := begun s) find live stays s.time
    refine ⟨flushHarrow (dropFrom (begun s) s.ctx.id b s.time), _, drops.untouched.flushHarrow.done (exec_barDrop b s) issues
        (if_neg (Bool.eq_false_iff.mp stays)), barAt_of_gang? drops.gang, drops.count.settled,
      drops.dropped, drops.arrph, fun c hc => ?_, drops.others⟩
    exact (barAt_of_gang? drops.gang).trans (congrArg some (drops.count.others c hc))

namespace Sys2Proof.Machine

theorem exec_barWait_again {s : State} {b : Fin 16} {arr : Bool}
    (h : arr = false ∨ (findProg (begun s)).isSome = true) :
    ∃ t body, exec (.barWait b arr) s = runSlot (.barWait b arr) s body ∧ body (begun s) = barWaitEnd b t ∧ Judged s t := by
  obtain ⟨p, t, made, judged, -⟩ := waitArrive_again h b none
  refine ⟨t, _, execBarWait_eq b arr s, ?_, judged⟩
  rw [if_neg (Bool.eq_false_iff.mp (arrivalHeld_again h)), made]

/-- The expiry cycle of a timed wait with a limit, at its first issue or at a reissue (R228). -/
def twaitExpiry (s : State) (limit : Nat) : Nat :=
  match findProg (begun s) with
  | some p => p.expiry.getD s.time
  | none => s.time + limit

theorem exec_barTwait_again {s : State} {d a : SReg} {b : Fin 16} {arr : Bool}
    (h : arr = false ∨ (findProg (begun s)).isSome = true) :
    ∃ t body, exec (.barTwait d a b arr) s = runSlot (.barTwait d a b arr) s body ∧
      body (begun s) = barTwaitEnd d b (rdS s a).toNat (twaitExpiry s (rdS s a).toNat) t ∧ Judged s t := by
  obtain ⟨p, t, made, judged, expiry⟩ := waitArrive_again h b (some (rdS s a).toNat)
  refine ⟨t, _, execBarTwait_eq d a b arr s, ?_, judged⟩
  have same : p.expiry.getD t.time = twaitExpiry s (rdS s a).toNat := by
    rw [expiry, judged.time, twaitExpiry]
    cases findProg (begun s) <;> rfl
  rw [if_neg (Bool.eq_false_iff.mp (arrivalHeld_again h)), begun_rdS, made, ← same]

section
variable {s : State} {b : Fin 16} {x : Gang} {arr : Bool} (find : s.gang? s.src.id.gang = some x)
  (again : arr = false ∨ (findProg (begun s)).isSome = true)
include find again

theorem barWait_again (issues : Issues (.barWait b arr) s) :
    let no := (s.ctx.bar.get b).dropped = true ∨ (s.ctx.bar.get b).arrph = none
    let past := (s.ctx.bar.get b).arrph ≠ some (x.barriers.get b).phase
    (no → Traps (.barWait b arr) s { cause := .barrierError, xinfo := b.val }) ∧
      (¬no → past → x.windows = [] → ∃ t, DoneWith (.barWait b arr) s s.ctx.s t) ∧
      (¬no → ¬(past ∧ x.windows = []) → Blocks (.barWait b arr) s (.barrier b.val false)) := by
  obtain ⟨t, body, run, ends, base, gang, bar, -⟩ := exec_barWait_again (b := b) again
  have ended := phaseOver_iff (b := b) (gang.trans find)
  have windows := windowsDone_iff (gang.trans find)
  rw [← bar]
  intro no past
  refine ⟨fun h => ?_, fun h hp hw => ?_, fun h hp => ?_⟩
  · exact run.trans (runSlot_trap issues (ends.trans (barWaitEnd_error h)))
  · exact ⟨_, (base.barReturn b).done run issues (ends.trans (barWaitEnd_done h (ended.mpr hp) (windows.mpr hw)))⟩
  · exact base.flushHarrow.blocks run issues
      (ends.trans (barWaitEnd_block h fun e => hp ⟨ended.mp e.1, windows.mp e.2⟩))

theorem barTwait_again {d a : SReg} (issues : Issues (.barTwait d a b arr) s) :
    let no := (s.ctx.bar.get b).dropped = true ∨ (s.ctx.bar.get b).arrph = none
    let past := (s.ctx.bar.get b).arrph ≠ some (x.barriers.get b).phase
    let done := (x.barriers.get b).completedAt
    let limit := (rdS s a).toNat
    let expiry := twaitExpiry s limit
    let i : Instr := .barTwait d a b arr
    (no → Traps i s { cause := .barrierError, xinfo := b.val }) ∧
      (¬no → past → done ≤ expiry → x.windows = [] → ∃ t, DoneWith i s (wrS (begun s) d 0).ctx.s t) ∧
      (¬no → past → done ≤ expiry → x.windows ≠ [] → Blocks i s (.barrier b.val true)) ∧
      (¬no → past → expiry < done → ∃ t, DoneWith i s (wrS (begun s) d 1).ctx.s t) ∧
      (¬no → ¬past → (limit = 0 ∨ expiry < s.time) → ∃ t, DoneWith i s (wrS (begun s) d 1).ctx.s t) ∧
      (¬no → ¬past → limit ≠ 0 → s.time ≤ expiry → Blocks i s (.barrier b.val true)) := by
  obtain ⟨t, body, run, ends, base, gang, bar, time⟩ := exec_barTwait_again (d := d) (a := a) (b := b) again
  have ended := phaseOver_iff (b := b) (gang.trans find)
  have windows := windowsDone_iff (gang.trans find)
  have cycle := congrArg Barrier.completedAt (barrierOf_eq (b := b) (gang.trans find))
  rw [← bar, ← time]
  intro no past done limit expiry i
  have timeout (h : ¬no) (late : ¬(phaseOver t b = true ∧ (barrierOf t b).completedAt ≤ expiry))
      (closed : phaseOver t b = true ∨ limit = 0 ∨ expiry < t.time) : ∃ t, DoneWith i s (wrS (begun s) d 1).ctx.s t :=
    ⟨_, (base.wrS d 1).flushHarrow.taintResult.done run issues (ends.trans (barTwaitEnd_timeout h late closed))⟩
  refine ⟨fun h => ?_, fun h hp hc hw => ?_, fun h hp hc hw => ?_, fun h hp hc => ?_, fun h hp hl => ?_,
    fun h hp hl ht => ?_⟩
  · exact run.trans (runSlot_trap issues (ends.trans (barTwaitEnd_error _ _ _ h)))
  · exact ⟨_, ((base.barReturn b).wrS d 0).taintResult.done run issues
      (ends.trans (barTwaitEnd_done h (ended.mpr hp) (cycle.trans_le hc) (windows.mpr hw)))⟩
  · exact base.flushHarrow.blocks run issues
      (ends.trans (barTwaitEnd_windows h (ended.mpr hp) (cycle.trans_le hc) fun e => hw (windows.mp e)))
  · exact timeout h (fun e => absurd (cycle.symm.trans_le e.2) (Nat.not_le.mpr hc)) (.inl (ended.mpr hp))
  · exact timeout h (fun e => hp (ended.mp e.1)) (.inr hl)
  · exact base.flushHarrow.blocks run issues
      (ends.trans (barTwaitEnd_block h (Bool.eq_false_iff.mpr fun e => hp (ended.mp e)) hl ht))

end

/-- A barrier's phase is over for one that has arrived in it exactly where the count is full. -/
theorem settles_phase {k k' : Barrier} {e a : Nat} (h : settles k e (a + 1) k') : k.phase ≠ k'.phase ↔ e = a + 1 := by
  obtain ⟨-, h⟩ := h
  split at h
  next full => simp [h.1, full.2]
  next short =>
    refine ⟨fun hne => absurd h.1.symm hne, fun he => absurd ⟨by omega, he.symm⟩ short⟩

/-- A wait that arrives first: the arrival is counted, and the wait is over where the phase is and no window waits. -/
theorem barWait_arrives {s : State} {b : Fin 16} {x : Gang} (find : s.gang? s.ctx.id.gang = some x)
    (own : s.ctx.id = s.src.id) (first : findProg (begun s) = none) (stays : (s.ctx.bar.get b).dropped = false)
    (new : (s.ctx.bar.get b).arrph ≠ some (x.barriers.get b).phase) (free : epochHeld s s.src.pdie = false)
    (issues : Issues (.barWait b true) s) : ∃ t x', exec (.barWait b true) s = .next t ∧
      t.gang? s.ctx.id.gang = some x' ∧
      SettledGang x x' b (x.barriers.get b).e ((x.barriers.get b).arrivals + 1) (pressBusy s s.ctx.id.gang) ∧
      t.ctx.s = s.ctx.s ∧ t.mem = s.mem ∧ t.spad = s.spad ∧
      ((x.barriers.get b).e = (x.barriers.get b).arrivals + 1 → x'.windows = [] → t.bun.status = .done) ∧
      ((x.barriers.get b).e ≠ (x.barriers.get b).arrivals + 1 → t.bun.status = .blocked ∧ t.ctx.pc = s.src.pc) := by
  obtain ⟨u, x', arrived, arrives⟩ := arrive_arrives (s := begun s) find stays new
  let p : Progress := { newProg (begun s) with made := true, bar := some b.val }
  have base : Untouched s (putProg u p) := arrives.untouched.putProg p
  have gang : (putProg u p).gang? (putProg u p).src.id.gang = some x' := by
    rw [base.src, ← own]
    exact arrives.gang
  have ended : phaseOver (putProg u p) b = true ↔ (x.barriers.get b).e = (x.barriers.get b).arrivals + 1 := by
    rw [phaseOver_iff gang, show (putProg u p).ctx.bar = u.ctx.bar from rfl, arrives.arrph, Ne, Option.some_inj]
    exact settles_phase arrives.count.settled
  have yes : ¬(((putProg u p).ctx.bar.get b).dropped = true ∨ ((putProg u p).ctx.bar.get b).arrph = none) := by
    rw [show (putProg u p).ctx.bar = u.ctx.bar from rfl, arrives.arrph, arrives.dropped]
    rintro (h | h)
    · exact absurd (stays.symm.trans h) Bool.false_ne_true
    · cases h
  have ends : (if arrivalHeld (begun s) true then SlotEnd.stall
      else match waitArrive (begun s) b true none with
      | none => barrierError b
      | some (_, t) => barWaitEnd b t) = barWaitEnd b (putProg u p) := by
    have held : arrivalHeld (begun s) true = false := by
      rw [arrivalHeld, first]
      exact free
    rw [held, waitArrive, first]
    simp only [Bool.false_eq_true, if_false, if_true, arrived]
    rfl
  have run := execBarWait_eq b true s
  by_cases done : phaseOver (putProg u p) b = true ∧ windowsDone (putProg u p) = true
  · have left := base.barReturn b
    refine ⟨_, x', run.trans (runSlot_done issues (ends.trans (barWaitEnd_done yes done.1 done.2))), ?_, arrives.count,
      left.regs, left.mem, left.spad, fun _ _ => rfl, fun short => absurd (ended.mp done.1) short⟩
    exact (gang?_barReturn (putProg u p) b _).trans arrives.gang
  · have left := base.flushHarrow
    refine ⟨_, x', run.trans (runSlot_block issues (ends.trans (barWaitEnd_block yes done))), arrives.gang, arrives.count,
      left.regs, left.mem, left.spad,
      fun full empty => absurd ⟨ended.mpr full, (windowsDone_iff gang).mpr empty⟩ done, fun _ => ⟨rfl, ?_⟩⟩
    exact (congrArg Ctx.pc left.src : (flushHarrow (putProg u p)).src.pc = s.src.pc)

end Sys2Proof.Machine

/-- The second part of O34. -/
theorem Sys2Proof.Claim.barrierWaitsReturnWhenThePhaseIsOver : Claim.BarrierWaitsReturnWhenThePhaseIsOver := by
  intro b arr d a s g find own k me err wait twait limit expiry no past result
  refine ⟨fun again => ⟨barWait_again (own ▸ find) again, barTwait_again (own ▸ find) again⟩,
    fun first stays new free issues => ?_⟩
  obtain ⟨t, x', run, gang, ⟨settled, -, windows⟩, regs, mem, spad, done, blocked⟩ :=
    barWait_arrives find own first stays new free issues
  exact ⟨t, x'.barriers.get b, run, barAt_of_gang? gang, settled, regs, mem, spad,
    fun ⟨full, empty, idle⟩ => done full ((windows idle).trans empty), blocked⟩

/-- Settles O34, by its two parts. -/
theorem barriersCountAndWait : Obligations.BarriersCountAndWait := by
  unfold Obligations.BarriersCountAndWait
  exact ⟨Claim.barriersCountArrivalsAndDrops, Claim.barrierWaitsReturnWhenThePhaseIsOver⟩
end

section
/-! SUPPORT. Engine commands, token instructions and ARM at issue. -/
open Sys2Proof Sys2Proof.Machine Sys2Proof.Claim

namespace Sys2Proof.Machine

/-! ### What a read at issue can change -/

/-- A context with other stamps, and with another FENCE seen at the port. -/
def Ctx.Stamped (c d : Ctx) : Prop :=
  ∃ r a n f, d = { c with readStamp := r, acqStamp := a, fenceSeen := n, fenceScope := f }

theorem Ctx.Stamped.refl (c : Ctx) : c.Stamped c := ⟨_, _, _, _, rfl⟩

theorem Ctx.Stamped.trans {c d e : Ctx} (h : c.Stamped d) (k : d.Stamped e) : c.Stamped e := by
  obtain ⟨r, a, n, f, rfl⟩ := h
  obtain ⟨r', a', n', f', rfl⟩ := k
  exact ⟨r', a', n', f', rfl⟩

/-- What a load at issue leaves: of the context in focus only stamps change, no command comes or goes, and no byte changes
where the host has written nothing behind L2. -/
structure ReadsOnly (s t : State) : Prop where
  pre : t.pre = s.pre
  bun : t.bun = s.bun
  ctx : s.ctx.Stamped t.ctx
  mem : s.hbmNew = [] → t.mem = s.mem ∧ t.hbmNew = []
  spad : t.spad = s.spad
  cmds : t.cmds.map Cmd.id = s.cmds.map Cmd.id

theorem ReadsOnly.trans {s t u : State} (h : ReadsOnly s t) (k : ReadsOnly t u) : ReadsOnly s u where
  pre := k.pre.trans h.pre
  bun := k.bun.trans h.bun
  ctx := h.ctx.trans k.ctx
  mem quiet := ⟨(k.mem (h.mem quiet).2).1.trans (h.mem quiet).1, (k.mem (h.mem quiet).2).2⟩
  spad := k.spad.trans h.spad
  cmds := k.cmds.trans h.cmds

theorem ReadsOnly.refl (s : State) : ReadsOnly s s := ⟨rfl, rfl, Ctx.Stamped.refl _, fun h => ⟨rfl, h⟩, rfl, rfl⟩

theorem Serves.readsOnly {s t : State} (h : Serves s t) : ReadsOnly s t := by
  obtain ⟨k, rfl, quiet⟩ := h
  exact ⟨rfl, rfl, Ctx.Stamped.refl _, fun h => ⟨(quiet h).1, (quiet h).2.2.1⟩, rfl, rfl⟩

theorem readsOnly_updCtx {f : Ctx → Ctx} (h : ∀ c : Ctx, c.Stamped (f c)) (s : State) (w : CtxId) :
    ReadsOnly s (s.updCtx w f) := by
  unfold State.updCtx
  split
  · exact ⟨rfl, rfl, h s.ctx, fun q => ⟨rfl, q⟩, rfl, rfl⟩
  · exact ⟨rfl, rfl, Ctx.Stamped.refl _, fun q => ⟨rfl, q⟩, rfl, rfl⟩

theorem map_id_stamped (l : List Cmd) (p : Cmd → Bool) (v : List (BitVec 16)) :
    (l.map fun k => if p k then k.stamped v else k).map Cmd.id = l.map Cmd.id := by
  rw [List.map_map]
  refine List.map_congr_left fun k _ => ?_
  simp only [Function.comp_apply]
  split <;> rfl

theorem readsOnly_acquire (s : State) (c : Ctx) (scope : Nat) (v : List (BitVec 16)) : ReadsOnly s (acquire s c scope v) := by
  have dropped : ReadsOnly s (dropL1 s c scope) := by
    obtain ⟨l, drop⟩ := dropL1_eq s c scope
    rw [drop]
    exact ⟨rfl, rfl, Ctx.Stamped.refl _, fun q => ⟨rfl, q⟩, rfl, rfl⟩
  unfold acquire
  dsimp only
  split
  · exact dropped.trans ⟨rfl, rfl, Ctx.Stamped.refl _, fun q => ⟨rfl, q⟩, rfl, rfl⟩
  · split
    · exact dropped.trans (readsOnly_updCtx (fun c => ⟨_, _, _, _, rfl⟩) _ _)
    · exact dropped

theorem readsOnly_raiseStamps (s : State) (w : CtxId) (p : Nat → Nat → Bool) (v : List (BitVec 16)) :
    ReadsOnly s (raiseStamps s w p v) :=
  ⟨rfl, rfl, Ctx.Stamped.refl _, fun q => ⟨rfl, q⟩, rfl, map_id_stamped ..⟩

theorem readsOnly_fenceEffect (s : State) (w : CtxId) (n : Nat) : ReadsOnly s (fenceEffect s w n) := by
  unfold fenceEffect
  split
  · exact ReadsOnly.refl s
  · split
    · exact ((readsOnly_acquire _ _ _ _).trans (readsOnly_updCtx (fun c => ⟨_, _, _, _, rfl⟩) _ _)).trans
        (readsOnly_raiseStamps _ _ _ _)
    · exact ReadsOnly.refl s

theorem readsOnly_noteReadBy (s : State) (w : CtxId) (b i : Nat) (v : List (BitVec 16)) :
    ReadsOnly s (noteReadBy s w b i v) := by
  have noted : ReadsOnly s (noteRead s w v) := readsOnly_updCtx (fun c => ⟨_, _, _, _, rfl⟩) s w
  exact noted.trans ⟨rfl, rfl, Ctx.Stamped.refl _, fun q => ⟨rfl, q⟩, rfl, map_id_stamped ..⟩

theorem readsOnly_fillL1 (s : State) (p : Bool × Nat) (g : Nat) (d : List Byte) (v : List (BitVec 16)) :
    ReadsOnly s (fillL1 s p g d v) :=
  (serves_boundBy _ _ _ s).readsOnly.trans ⟨rfl, rfl, Ctx.Stamped.refl _, fun q => ⟨rfl, q⟩, rfl, rfl⟩

theorem readsOnly_loadGranule (s : State) (c : Ctx) (g : Nat) : ReadsOnly s (loadGranule s c g).2 := by
  have served := (serves_serve s g).readsOnly
  unfold loadGranule
  dsimp only
  split
  · exact served.trans (readsOnly_fillL1 _ _ _ _ _)
  · split
    · exact served
    · have chosen := served.trans (serves_free _ 1).readsOnly
      split
      · exact chosen
      · exact chosen.trans (readsOnly_fillL1 _ _ _ _ _)

/-- A fold with a state beside what it gathers. -/
theorem readsOnly_gather {α β : Type} (state : β → State) {f : β → α → β}
    (step : ∀ acc x, ReadsOnly (state acc) (state (f acc x))) (l : List α) (acc : β) :
    ReadsOnly (state acc) (state (l.foldl f acc)) := by
  induction l generalizing acc with
  | nil => exact ReadsOnly.refl (state acc)
  | cons x l ih => exact (step acc x).trans (ih _)

theorem readsOnly_loadCells (s : State) (c : Ctx) (b i : Nat) (cells : List Nat) :
    ReadsOnly s (loadCells s c b i cells).2 :=
  readsOnly_gather Prod.snd (f := fun acc g => ((g, (loadGranule acc.2 c g).1.1) :: acc.1,
      noteReadBy (loadGranule acc.2 c g).2 c.id b i (loadGranule acc.2 c g).1.2))
    (fun acc g => (readsOnly_loadGranule acc.2 c g).trans (readsOnly_noteReadBy _ _ _ _ _)) (granulesOf cells) ([], s)

theorem readsOnly_resolve (s : State) (sp : Bool) (n : Need) (l : List Nat) : ReadsOnly s (resolve s sp n l).2 := by
  unfold resolve
  split
  · split <;> exact ReadsOnly.refl s
  · exact (serves_xlateAll _ _ _ _ _).readsOnly

theorem readsOnly_readRecord {s t : State} {sp : Bool} {addr al n : Nat} {d : List Byte}
    (h : readRecord s sp addr al n = .ok d t) : ReadsOnly s t := by
  have resolved := readsOnly_resolve s sp .read (byteRange addr n)
  unfold readRecord at h
  split at h
  · cases h
  · split at h
    next => cases h
    next l s1 hres =>
      rw [hres] at resolved
      dsimp only at h
      split at h
      · cases h
      · split at h
        · split at h <;> cases h
          exact resolved
        · cases h
          exact (resolved.trans (readsOnly_fenceEffect _ _ _)).trans (readsOnly_loadCells _ _ _ _ _)

theorem readsOnly_readBlock {s t : State} {k : CmdKind} {addr : Nat} {body : CmdBody} {banks : BitVec 48}
    (h : readBlock s k addr = .ok body banks t) : ReadsOnly s t := by
  unfold readBlock at h
  split at h
  next => cases h
  next => cases h
  next b s1 hread =>
    have read := readsOnly_readRecord hread
    dsimp only at h
    split at h
    · cases h
    · cases k with
      | reshard =>
        dsimp only at h
        split at h
        · cases h
        · split at h
          next => cases h
          next => cases h
          next r s2 hranks =>
            have ranks := readsOnly_readRecord hranks
            split at h
            · cases h
            · split at h <;> cases h
              exact read.trans ranks
      | combine =>
        dsimp only at h
        split at h
        · split at h <;> cases h
          exact read
        · cases h
      | _ =>
        dsimp only at h
        split at h <;> cases h
        exact read

/-! ### Reading before the bundle's effect -/

section
variable {s t : State} (h : ReadsOnly (begun s) t)
include h

theorem ReadsOnly.src : t.src = s.src := by
  rw [State.src, h.pre]
  rfl

theorem ReadsOnly.rdQ (q : QReg) : rdQ t q = rdQ s q := by
  rw [Machine.rdQ, h.src]
  rfl

theorem ReadsOnly.rdS (r : SReg) : rdS t r = rdS s r := by
  rw [Machine.rdS, h.src]
  rfl

theorem ReadsOnly.word : t.bun.word = s.bun.word := by
  rw [h.bun]
  rfl

theorem ReadsOnly.occ : t.ctx.occ = s.ctx.occ := by
  obtain ⟨r, a, n, f, e⟩ := h.ctx
  rw [e]
  rfl

theorem ReadsOnly.untouched (quiet : s.hbmNew = []) : Untouched s t := by
  obtain ⟨r, a, n, f, e⟩ := h.ctx
  refine ⟨h.pre, ?_, ?_, ?_, ?_, ?_, ?_, ?_, (h.mem quiet).1, h.spad⟩
  all_goals
    rw [e]
    rfl

theorem ReadsOnly.tokens : t.ctx.q = s.ctx.q := by
  obtain ⟨r, a, n, f, e⟩ := h.ctx
  rw [e]
  rfl

theorem ReadsOnly.ids : t.cmds.map Cmd.id = s.cmds.map Cmd.id := h.cmds

theorem ReadsOnly.depOf (i : Nat) (q : QReg) : depOf t i q = depOfField s (i, q) := by
  rw [Machine.depOf, depOfField, h.rdQ]

theorem ReadsOnly.consumed_pair (q c0 c1 : QReg) (c2 : Option QReg) :
    consumed t q [c0, c1] c2 = engineDeps s q c0 c1 c2 := by
  have third : c2.map (Machine.depOf t 2) = c2.map fun c => depOfField s (2, c) := by
    cases c2 with
    | none => rfl
    | some c => exact congrArg some (h.depOf 2 c)
  rw [consumed, engineDeps, third, depsOf]
  congr 1
  by_cases e0 : c0 = q <;> by_cases e1 : c1 = q <;> simp [e0, e1, h.depOf]

end

/-! ### A command at issue -/

/-- The state in which a token has been made incomplete and a command counts in OCC (09 R245). -/
def owing (s : State) (q : QReg) : State :=
  (produceToken s q).2.fresh.2.withCtx fun c => { c with occ := c.occ + 1 }

/-- The command that an instruction makes, which owes token q. -/
def newCmd (s : State) (q : QReg) (body : CmdBody) (banks : BitVec 48) (deps : List Dep) : Cmd :=
  mkCmd (owing s q) (produceToken s q).2.fresh.1 body banks deps q (produceToken s q).1

theorem owing_q (s : State) (q : QReg) :
    (owing s q).ctx.q.get q = { done := false, status := .ok, gen := (produceToken s q).1 } :=
  (vector_get_set ..).trans (if_pos rfl)

theorem owing_q_other (s : State) {q r : QReg} (h : r ≠ q) : (owing s q).ctx.q.get r = s.ctx.q.get r :=
  (vector_get_set ..).trans (if_neg h.symm)

theorem ReadsOnly.src_owing {s t : State} (h : ReadsOnly (begun s) t) (q : QReg) : (owing t q).src = s.src := by
  rw [State.src, show (owing t q).pre = t.pre from rfl, h.pre]
  rfl

/-- A state that differs from one with a new token outside the registers and memory. -/
theorem Leaves.onlyToken {s t u : State} {q : QReg} (base : Untouched s t) (tokens : t.ctx.q = s.ctx.q)
    (ctx : ∃ o, u.ctx = { (owing t q).ctx with occ := o }) (mem : u.mem = t.mem) (spad : u.spad = t.spad) :
    OnlyToken s u q := by
  have own := owing_q t q
  have others (r : QReg) (hr : r ≠ q) := owing_q_other t hr
  obtain ⟨o, e⟩ := ctx
  rw [OnlyToken, e, mem, spad]
  refine ⟨congrArg Token.done own, fun r hr => (others r hr).trans ?_, base.regs, base.preds, base.vectors, base.tiles,
    base.pc, base.mem, base.spad⟩
  rw [tokens]

section
variable {k : CmdKind} {q : QReg} {a : SReg} {c0 c1 : QReg} {c2 : Option QReg} {s t : State} {body : CmdBody}
  {banks : BitVec 48}

theorem engineBody_owed (h : (rdQ s q).done = false) : engineBody k q a c0 c1 c2 s = tokenError q := by
  rw [engineBody, h]
  rfl

theorem engineBody_trap {x : TrapInfo} (h : (rdQ s q).done = true) (read : readBlock s k (rdS s a).toNat = .trap x) :
    engineBody k q a c0 c1 c2 s = .trap x := by
  simp only [engineBody, h, read, Bool.not_true, Bool.false_eq_true, if_false]

variable (done : (rdQ s q).done = true) (read : readBlock s k (rdS s a).toNat = .ok body banks t) (room : t.ctx.occ < 32)
  (free : banksBusy t t.src.lc banks = false)
include done read room free

theorem engineBody_full (full : queueFull t body.engine (t.src.engineUnit body.engine) = true) :
    engineBody k q a c0 c1 c2 s = .block t (.engineQueue body.engine (t.src.engineUnit body.engine)) := by
  simp only [engineBody, done, read, occFull, free, full, Nat.not_le.mpr room, Bool.not_true, Bool.false_eq_true, if_false,
    if_true, decide_false]

theorem engineBody_done (open_ : queueFull t body.engine (t.src.engineUnit body.engine) = false) :
    engineBody k q a c0 c1 c2 s =
      .done { owing t q with cmds := t.cmds ++ [newCmd t q body banks (consumed t q [c0, c1] c2)] } := by
  simp only [engineBody, done, read, occFull, free, open_, Nat.not_le.mpr room, Bool.not_true, Bool.false_eq_true, if_false,
    decide_false]
  rfl

end

theorem readBlock_misaligned (s : State) (k : CmdKind) {addr : Nat} (h : addr % 16 ≠ 0) :
    readBlock s k addr = .trap { cause := .align, faddr := addr % 2 ^ 56 } := by
  rw [readBlock, readRecord, if_pos h]

theorem readBlock_otherKind {s t : State} {k : CmdKind} {addr : Nat} {b : List Byte}
    (read : readRecord s false addr 16 k.size = .ok b t) (h : leAt b 0 1 ≠ k.code) :
    readBlock s k addr = .trap (recordTrap t) := by
  simp only [readBlock, read]
  exact if_pos h

/-- The engine instructions share one body. -/
theorem engineAt {i : Instr} {k : CmdKind} {q : QReg} {a : SReg} {c0 c1 : QReg} {c2 : Option QReg} {s : State}
    (run : exec i s = runSlot i s (engineBody k q a c0 c1 c2)) : EngineAt i k q a (engineDeps s q c0 c1 c2) s := by
  intro issues quiet
  refine ⟨fun owed => ?_, fun done => ⟨fun misaligned => ?_, fun b s1 read other => ?_,
    fun body banks s1 read room free => ⟨fun full => ?_, fun fits => ?_⟩⟩⟩
  · exact run.trans (runSlot_trap issues (engineBody_owed (s := begun s) owed))
  · exact run.trans (runSlot_trap issues (engineBody_trap (s := begun s) done (readBlock_misaligned _ k misaligned)))
  · refine run.trans (runSlot_trap issues ((engineBody_trap (s := begun s) done (readBlock_otherKind read other)).trans ?_))
    rw [recordTrap, (readsOnly_readRecord read).word]
  all_goals
    have reads := readsOnly_readBlock read
    have room' : s1.ctx.occ < 32 := reads.occ.trans_lt room
    have free' : banksBusy s1 s1.src.lc banks = false := by rw [reads.src]; exact free
    have same : s1.src.engineUnit body.engine = s.src.engineUnit body.engine := by rw [reads.src]
  · have ends := engineBody_full (s := begun s) (c0 := c0) (c1 := c1) (c2 := c2) done read room' free' (by rw [same]; exact full)
    rw [same] at ends
    exact (reads.untouched quiet).blocks run issues ends
  · have ends := engineBody_done (s := begun s) (c0 := c0) (c1 := c1) (c2 := c2) done read room' free' (by rw [same]; exact fits)
    have src := reads.src_owing q
    refine ⟨_, newCmd s1 q body banks (consumed s1 q [c0, c1] c2), run.trans (runSlot_done issues ends),
      (reads.untouched quiet).onlyToken reads.tokens ⟨_, rfl⟩ rfl rfl, List.mem_append_right _ (List.mem_singleton_self _), ?_⟩
    refine ⟨?_, rfl, rfl, congrArg Ctx.id src, rfl, (congrArg Token.gen (owing_q s1 q)).symm, rfl,
      congrArg (fun c => c.engineUnit body.engine) src, ?_, reads.consumed_pair q c0 c1 c2, congrArg (· + 1) reads.occ⟩
    · exact (List.map_append ..).trans (congrArg (· ++ _) reads.ids)
    · exact congrArg (fun c : Ctx => if body.engine = 2 then c.ldie else c.lc) src

/-! ### ARM -/

theorem ReadsOnly.consumed_triple {s t : State} (h : ReadsOnly (begun s) t) (q c0 c1 c2 : QReg) :
    consumed t q [c0, c1, c2] = depsOf s q [(0, c0), (1, c1), (2, c2)] := by
  rw [consumed, depsOf]
  by_cases e0 : c0 = q <;> by_cases e1 : c1 = q <;> by_cases e2 : c2 = q <;> simp [e0, e1, e2, h.depOf]

theorem aligned_of {addr n : Nat} (h : addr % n = 0) (e : SlotEnd) : aligned addr n e = e := if_neg (not_not.mpr h)

theorem aligned_trap {addr n : Nat} (h : addr % n ≠ 0) (e : SlotEnd) :
    aligned addr n e = .trap { cause := .align, faddr := addr % 2 ^ 56 } := if_pos h

theorem readsOnly_armFaults (s : State) (ctr blk n : Nat) : ReadsOnly s (armFaults s ctr blk n).2 := by
  have first := readsOnly_resolve s false .read (byteRange blk n)
  unfold armFaults
  split
  · exact readsOnly_resolve s false .read (byteRange ctr 4)
  · split
    next h =>
      rw [h] at first
      exact first
    next h =>
      rw [h] at first
      exact first.trans (readsOnly_resolve _ _ _ _)

/-- The command of an ARM, registered on its counter. -/
def newArmed (s : State) (q : QReg) (body : CmdBody) (banks : BitVec 48) (counter : Nat) (threshold : BitVec 32) : Armed :=
  { counter := counter, threshold := threshold, cmd := newCmd s q body banks [] }

/-- The state that an ARM leaves: its command is registered, and fires where the counter's value allows it. -/
def arming (s : State) (q : QReg) (x : Armed) : State :=
  fireArmed { owing s q with armed := s.armed ++ [x] } (granule x.counter)

/-- A command that is armed fires where its counter has come to its threshold, and else is registered. -/
theorem arming_newest (s : State) (q : QReg) (x : Armed) :
    if (BitVec.ofNat 32 (s.mem.le x.counter 4) - x.threshold).toNat < 2 ^ 31 then ∃ v, x.cmd.stamped v ∈ (arming s q x).cmds
    else x ∈ (arming s q x).armed := by
  have newest : x ∈ s.armed ++ [x] := List.mem_append_right _ (List.mem_singleton_self x)
  split
  next fires =>
    refine ⟨_, List.mem_append_right _ (List.mem_map.mpr ⟨x, List.mem_filter.mpr ⟨newest, ?_⟩, rfl⟩)⟩
    exact Bool.and_eq_true_iff.mpr ⟨beq_self_eq_true _, decide_eq_true fires⟩
  next waits =>
    refine List.mem_filter.mpr ⟨newest, ?_⟩
    rw [Bool.not_eq_true', Bool.and_eq_false_iff]
    exact .inr (decide_eq_false waits)

theorem arming_ctx (s : State) (q : QReg) (x : Armed) : (arming s q x).ctx = (owing s q).ctx := rfl

theorem arming_mem (s : State) (q : QReg) (x : Armed) : (arming s q x).mem = s.mem := rfl

theorem arming_spad (s : State) (q : QReg) (x : Armed) : (arming s q x).spad = s.spad := rfl

section
variable {d a b : SReg} {q : QReg} {s : State}

theorem exec_arm_owed (issues : Issues (.arm d a b q) s) (owed : (rdQ s q).done = false) :
    Traps (.arm d a b q) s { cause := .tokenError, xinfo := q.val } := by
  refine (exec_arm d a b q s).trans (runSlot_trap issues ?_)
  dsimp only
  rw [begun_rdQ, owed]
  rfl

variable (issues : Issues (.arm d a b q) s) (done : (rdQ s q).done = true)
include issues done

theorem exec_arm_block {blk : Nat} (hblk : (rdS s d).toNat = blk) (misaligned : blk % 16 ≠ 0) :
    Traps (.arm d a b q) s { cause := .align, faddr := blk % 2 ^ 56 } := by
  refine (exec_arm d a b q s).trans (runSlot_trap issues ?_)
  dsimp only
  rw [begun_rdQ, done, begun_rdS, hblk, aligned_trap misaligned]
  rfl

variable (aligned : (rdS s d).toNat % 16 = 0)
include aligned

theorem exec_arm_counter {ctr : Nat} (hctr : (rdS s a).toNat = ctr) (misaligned : ctr % 4 ≠ 0) :
    Traps (.arm d a b q) s { cause := .align, faddr := ctr % 2 ^ 56 } := by
  refine (exec_arm d a b q s).trans (runSlot_trap issues ?_)
  dsimp only
  rw [begun_rdQ, done, begun_rdS, aligned_of aligned, begun_rdS, hctr, aligned_trap misaligned]
  rfl

variable (counted : (rdS s a).toNat % 4 = 0) {p : Pa} {l : List Pa} {s1 s2 s3 : State} {hdr : List Byte} {k : CmdKind}
  {body : CmdBody} {banks : BitVec 48}
  (faults : armFaults (begun s) (rdS s a).toNat (rdS s d).toNat (armSize (begun s) (rdS s d).toNat) = (.ok (p :: l), s1))
  (header : readRecord s1 false (rdS s d).toNat 16 16 = .ok hdr s2) (kind : armKind (leAt hdr 0 1) = some k)
  (read : readBlock s1 k (rdS s d).toNat = .ok body banks s3)
include counted faults header kind read

omit issues done aligned counted header kind in
theorem readsOnly_arm : ReadsOnly (begun s) s3 := by
  have first := readsOnly_armFaults (begun s) (rdS s a).toNat (rdS s d).toNat (armSize (begun s) (rdS s d).toNat)
  rw [faults] at first
  exact first.trans (readsOnly_readBlock read)

/-- An ARM that finds room registers its command, and what the counter's value allows fires at once. -/
theorem exec_arm_done (room : s.ctx.occ < 32) (free : banksBusy s3 s.src.lc banks = false)
    (slots : (s3.armed.filter fun x => pressSlice s3 x.counter == pressSlice s3 p.pa).length < 64)
    (clear : readHeld s3 false [p.pa] true = false) :
    Does (.arm d a b q) s (arming s3 q (newArmed s3 q body banks p.pa ((rdS s b).setWidth 32))) := by
  have reads := readsOnly_arm faults read
  have full : occFull s3 = false := decide_eq_false (Nat.not_le.mpr (reads.occ.trans_lt room))
  have threshold : (rdS s b).setWidth 32 = BitVec.ofNat 32 (rdS (owing s3 q) b).toNat := by
    rw [BitVec.ofNat_toNat, Machine.rdS, Machine.rdS, reads.src_owing]
  rw [threshold]
  refine (exec_arm d a b q s).trans (runSlot_done issues ?_)
  dsimp only
  rw [begun_rdQ, done, begun_rdS, aligned_of aligned, begun_rdS, aligned_of counted]
  simp only [faults, List.head?_cons, header, kind, read, full, clear, reads.src, free, Nat.not_le.mpr slots,
    Bool.not_true, Bool.false_eq_true, or_self, if_false]
  rfl

end

end Sys2Proof.Machine

/-- The first part of O36: the five engine instructions share one body. -/
theorem Sys2Proof.Claim.engineInstructionsQueueTheirCommand : Claim.EngineInstructionsQueueTheirCommand := by
  intro q a c0 c1 c2 s
  exact ⟨engineAt (exec_cp ..), engineAt (exec_gather ..), engineAt (exec_scatter ..), engineAt (exec_collReshard ..),
    engineAt (exec_combine ..)⟩

namespace Sys2Proof.Machine

/-! ### Token instructions -/

section
variable {q : QReg} {ok : Bool} {s : State} (issues : Issues (.tokwait q ok) s)
include issues

theorem exec_tokwait_done (done : (rdQ s q).done = true) (good : ok = false ∨ (rdQ s q).status = .ok) :
    ∃ t, DoneWith (.tokwait q ok) s s.ctx.s t := by
  refine ⟨_, ((untouched_begun s).acquire (begun s).src (scope := 4) (by decide) []).flushHarrow.done (exec_tokwait q ok s) issues ?_⟩
  dsimp only
  rw [begun_rdQ, done]
  exact (if_neg Bool.false_ne_true).trans <| if_neg fun h => good.elim (fun e => Bool.false_ne_true (e.symm.trans h.1)) h.2

theorem exec_tokwait_error (done : (rdQ s q).done = true) (strict : ok = true) (bad : (rdQ s q).status ≠ .ok) :
    Traps (.tokwait q ok) s { cause := .tokenError, xinfo := q.val } := by
  refine (exec_tokwait q ok s).trans (runSlot_trap issues ?_)
  dsimp only
  rw [begun_rdQ, done]
  exact (if_neg Bool.false_ne_true).trans (if_pos ⟨strict, bad⟩)

theorem exec_tokwait_blocks (owed : (rdQ s q).done = false) : Blocks (.tokwait q ok) s (.token q.val) := by
  refine (untouched_begun s).flushHarrow.blocks (exec_tokwait q ok s) issues ?_
  dsimp only
  rw [begun_rdQ, owed]
  rfl

end

theorem token_word_owed {t : Token} (h : t.done = false) : t.word = 0 := by
  rw [Token.word, h]
  rfl

theorem token_word_done {t : Token} (h : t.done = true) : t.word = match t.status with
    | .ok => 1
    | .cancelled => 2
    | .fault cause addr => BitVec.ofNat 64 (3 + cause % 64 * 4 + addr % 2 ^ 56 * 256) := by
  rw [Token.word, h]
  rfl

theorem exec_toktest_done {d : SReg} {q : QReg} {s : State} (issues : Issues (.toktest d q) s) : ∃ t,
    DoneWith (.toktest d q) s (wrS (begun s) d (BitVec.ofNat 64 (rdQ s q).word.toNat)).ctx.s t := by
  rw [BitVec.ofNat_toNat, BitVec.setWidth_eq]
  exact ⟨_, ((untouched_begun s).wrS d _).taintResult.done (exec_toktest d q s) issues rfl⟩

/-- The state that a TOKJOIN leaves. -/
def joining (s : State) (q : QReg) (deps : List Dep) : State :=
  let t := (produceToken s q).2.fresh.2
  { t with joins := s.joins ++
    [{ id := (produceToken s q).2.nextId, who := t.src.id, q := q, gen := (produceToken s q).1, deps := deps }] }

theorem exec_tokjoin_owed {q a b c : QReg} {s : State} (issues : Issues (.tokjoin q a b c) s)
    (owed : (rdQ s q).done = false) : Traps (.tokjoin q a b c) s { cause := .tokenError, xinfo := q.val } := by
  refine (exec_tokjoin q a b c s).trans (runSlot_trap issues ?_)
  dsimp only
  rw [begun_rdQ, owed]
  rfl

theorem exec_tokjoin_done {q a b c : QReg} {s : State} (issues : Issues (.tokjoin q a b c) s)
    (done : (rdQ s q).done = true) :
    Does (.tokjoin q a b c) s (joining (begun s) q (depsOf s q [(0, a), (1, b), (2, c)])) := by
  refine (exec_tokjoin q a b c s).trans (runSlot_done issues ?_)
  dsimp only
  rw [begun_rdQ, done, (ReadsOnly.refl (begun s)).consumed_triple]
  rfl

end Sys2Proof.Machine

/-- The second part of O36. -/
theorem Sys2Proof.Claim.tokensAndArm : Claim.TokensAndArm := by
  intro q qa qb qc d a b ok s
  refine ⟨fun issues => ⟨fun done good => exec_tokwait_done issues done good,
      fun done strict bad => exec_tokwait_error issues done strict bad, fun owed => exec_tokwait_blocks issues owed⟩,
    fun issues => ?_, fun issues => ⟨fun owed => exec_tokjoin_owed issues owed, fun done => ?_⟩,
    fun issues => ⟨fun owed => exec_arm_owed issues owed, fun done bad => exec_arm_block issues done rfl bad,
      fun done good bad => exec_arm_counter issues done good rfl bad, ?_⟩⟩
  · obtain ⟨t, h⟩ := exec_toktest_done issues
    refine ⟨t, _, h, fun owed => ?_, fun done st => ?_, fun done st => ?_, fun c x done st hc hx => ?_⟩
    · rw [token_word_owed owed]
      rfl
    · rw [token_word_done done, st]
      rfl
    · rw [token_word_done done, st]
      rfl
    · rw [token_word_done done, st, BitVec.toNat_ofNat, Nat.mod_eq_of_lt hc, Nat.mod_eq_of_lt hx]
      exact Nat.mod_eq_of_lt (by omega)
  · refine ⟨_, _, exec_tokjoin_done issues done, (untouched_begun s).onlyToken rfl ⟨_, rfl⟩ rfl rfl, rfl, rfl, rfl, ?_, rfl⟩
    exact (congrArg Token.gen (owing_q (begun s) q)).symm
  · intro p l s1 hdr s2 k body banks s3 done aligned counted quiet faults header kind read room free slots clear threshold
    have reads := readsOnly_arm faults read
    have only : OnlyToken s (arming s3 q (newArmed s3 q body banks p.pa threshold)) q :=
      (reads.untouched quiet).onlyToken reads.tokens ⟨_, arming_ctx ..⟩ (arming_mem ..) (arming_spad ..)
    have occ : (arming s3 q (newArmed s3 q body banks p.pa threshold)).ctx.occ = s.ctx.occ + 1 := congrArg (· + 1) reads.occ
    have who : (newCmd s3 q body banks []).who = s.src.id := congrArg Ctx.id (reads.src_owing q)
    have does := exec_arm_done issues done aligned counted faults header kind read room free slots clear
    have newest := arming_newest s3 q (newArmed s3 q body banks p.pa threshold)
    rw [(reads.untouched quiet).mem] at newest
    split at newest
    next fires =>
      obtain ⟨v, fired⟩ := newest
      refine ⟨_, (newCmd s3 q body banks []).stamped v, does, only, occ, rfl, who, rfl, rfl, ?_⟩
      exact (if_pos fires).mpr fired
    next waits =>
      refine ⟨_, newCmd s3 q body banks [], does, only, occ, rfl, who, rfl, rfl, ?_⟩
      exact (if_neg waits).mpr ⟨_, newest, rfl, rfl, rfl⟩

/-- Settles O36, by its two parts. -/
theorem engineCommandsAndTokens : Obligations.EngineCommandsAndTokens := by
  unfold Obligations.EngineCommandsAndTokens
  exact ⟨Claim.engineInstructionsQueueTheirCommand, Claim.tokensAndArm⟩
end

section
/-! SUPPORT. Integer operations on patterns are those of bit vectors, in every width (04 R98 to R100, R104), and O15, O16 and O1. -/
open Sys2Proof Sys2Proof.Machine Sys2Proof.Claim

namespace Sys2Proof.Machine

/-! ### Operations on patterns -/

/-- Two's complement reads a pattern as its bit vector does. -/
theorem toSigned_toNat {n : Nat} (x : BitVec n) : toSigned n x.toNat = x.toInt := by
  have half : x.toNat < 2 ^ (n - 1) ↔ 2 * x.toNat < 2 ^ n := by
    cases n with
    | zero => simp [BitVec.eq_nil x]
    | succ k => rw [Nat.add_sub_cancel, Nat.pow_succ]; omega
  rw [toSigned, Nat.mod_eq_of_lt x.isLt, BitVec.toInt_eq_toNat_cond]
  simp only [half]
  push_cast
  rfl

/-- An operation reads the low bits of its operands alone. -/
theorem eval_mod (op : IntOp) (w a b : Nat) : op.eval w (a % 2 ^ w) (b % 2 ^ w) = op.eval w a b := by
  simp only [IntOp.eval, Nat.mod_mod]

section
variable {n : Nat} (x y : BitVec n)

theorem eval_add : IntOp.add.eval n x.toNat y.toNat = (x + y).toNat := by
  rw [IntOp.eval, BitVec.toNat_mod_cancel, BitVec.toNat_mod_cancel, BitVec.toNat_add]

theorem eval_sub : IntOp.sub.eval n x.toNat y.toNat = (x - y).toNat := by
  rw [IntOp.eval, BitVec.toNat_mod_cancel, BitVec.toNat_mod_cancel, BitVec.toNat_sub, Nat.add_comm]

theorem eval_mul : IntOp.mul.eval n x.toNat y.toNat = (x * y).toNat := by
  rw [IntOp.eval, BitVec.toNat_mod_cancel, BitVec.toNat_mod_cancel, BitVec.toNat_mul]

/-- The high half of a product of 2n bits. -/
theorem eval_mulh : IntOp.mulh.eval n x.toNat y.toNat =
    ((x.signExtend (2 * n) * y.signExtend (2 * n)).extractLsb' n n).toNat := by
  have product : x.signExtend (2 * n) * y.signExtend (2 * n) = BitVec.ofInt (2 * n) (x.toInt * y.toInt) := by
    rw [BitVec.ofInt_mul]; rfl
  have cut (v : ℤ) : v % 2 ^ (2 * n) / 2 ^ n % 2 ^ n = v / 2 ^ n % 2 ^ n := by
    have parts := Int.emod_add_mul_ediv v (2 ^ n * 2 ^ n)
    conv_rhs => rw [← parts, mul_assoc, Int.add_mul_ediv_left _ _ (by positivity), Int.add_mul_emod_self_left]
    rw [two_mul, pow_add]
  rw [product, BitVec.extractLsb'_toNat, BitVec.toNat_ofInt, Nat.shiftRight_eq_div_pow]
  simp only [IntOp.eval, BitVec.toNat_mod_cancel, toSigned_toNat, ofInt]
  rw [← cut]
  zify
  rw [Int.toNat_of_nonneg (Int.emod_nonneg _ (by positivity)), Int.toNat_of_nonneg (Int.emod_nonneg _ (by positivity))]

theorem eval_mulhn : IntOp.mulhn.eval n x.toNat y.toNat =
    ((x.setWidth (2 * n) * y.setWidth (2 * n)).extractLsb' n n).toNat := by
  have hx := x.isLt
  have hy := y.isLt
  have wide : 2 ^ (2 * n) = 2 ^ n * 2 ^ n := by rw [two_mul, pow_add]
  have product : x.toNat * y.toNat < 2 ^ (2 * n) := wide ▸ Nat.mul_lt_mul'' hx hy
  have le : 2 ^ n ≤ 2 ^ (2 * n) := Nat.pow_le_pow_right (by decide) (by omega)
  rw [IntOp.eval, BitVec.toNat_mod_cancel, BitVec.toNat_mod_cancel, BitVec.extractLsb'_toNat, BitVec.toNat_mul, BitVec.toNat_setWidth, BitVec.toNat_setWidth,
    Nat.mod_eq_of_lt (hx.trans_le le), Nat.mod_eq_of_lt (hy.trans_le le), Nat.mod_eq_of_lt product,
    Nat.shiftRight_eq_div_pow, Nat.mod_eq_of_lt (Nat.div_lt_of_lt_mul (wide ▸ product))]

theorem toNat_eq_zero_iff : y.toNat = 0 ↔ y = 0 := by
  rw [← BitVec.toNat_inj]; rfl

theorem eval_div : IntOp.div.eval n x.toNat y.toNat = (if y = 0 then BitVec.allOnes n else x.sdiv y).toNat := by
  have quotient : BitVec.ofInt n (Int.tdiv x.toInt y.toInt) = x.sdiv y :=
    BitVec.eq_of_toInt_eq (by rw [BitVec.toInt_ofInt, BitVec.toInt_sdiv])
  simp only [IntOp.eval, BitVec.toNat_mod_cancel, toSigned_toNat, ofInt_eq, quotient, toNat_eq_zero_iff, apply_ite BitVec.toNat, BitVec.toNat_allOnes]

theorem eval_divn : IntOp.divn.eval n x.toNat y.toNat = (if y = 0 then BitVec.allOnes n else x / y).toNat := by
  simp only [IntOp.eval, BitVec.toNat_mod_cancel, toNat_eq_zero_iff, apply_ite BitVec.toNat, BitVec.toNat_allOnes, BitVec.toNat_udiv]

theorem eval_rem : IntOp.rem.eval n x.toNat y.toNat = (if y = 0 then x else x.srem y).toNat := by
  have remainder : BitVec.ofInt n (Int.tmod x.toInt y.toInt) = x.srem y := by
    rw [← BitVec.toInt_srem, BitVec.ofInt_toInt]
  simp only [IntOp.eval, BitVec.toNat_mod_cancel, toSigned_toNat, ofInt_eq, remainder, toNat_eq_zero_iff, apply_ite BitVec.toNat]

theorem eval_remn : IntOp.remn.eval n x.toNat y.toNat = (if y = 0 then x else x % y).toNat := by
  simp only [IntOp.eval, BitVec.toNat_mod_cancel, toNat_eq_zero_iff, apply_ite BitVec.toNat, BitVec.toNat_umod]

theorem eval_and : IntOp.and.eval n x.toNat y.toNat = (x &&& y).toNat := by
  rw [IntOp.eval, BitVec.toNat_mod_cancel, BitVec.toNat_mod_cancel, BitVec.toNat_and]

theorem eval_or : IntOp.or.eval n x.toNat y.toNat = (x ||| y).toNat := by
  rw [IntOp.eval, BitVec.toNat_mod_cancel, BitVec.toNat_mod_cancel, BitVec.toNat_or]

theorem eval_xor : IntOp.xor.eval n x.toNat y.toNat = (x ^^^ y).toNat := by
  rw [IntOp.eval, BitVec.toNat_mod_cancel, BitVec.toNat_mod_cancel, BitVec.toNat_xor]

theorem eval_andn : IntOp.andn.eval n x.toNat y.toNat = (x &&& ~~~y).toNat := by
  rw [IntOp.eval, BitVec.toNat_mod_cancel, BitVec.toNat_mod_cancel, BitVec.toNat_and, BitVec.toNat_not]

theorem eval_shl : IntOp.shl.eval n x.toNat y.toNat = (x <<< (y.toNat % n)).toNat := by
  rw [IntOp.eval, BitVec.toNat_mod_cancel, BitVec.toNat_mod_cancel, BitVec.toNat_shiftLeft, Nat.shiftLeft_eq]

theorem eval_shr : IntOp.shr.eval n x.toNat y.toNat = (x >>> (y.toNat % n)).toNat := by
  rw [IntOp.eval, BitVec.toNat_mod_cancel, BitVec.toNat_mod_cancel, BitVec.toNat_ushiftRight, Nat.shiftRight_eq_div_pow]

theorem eval_sra : IntOp.sra.eval n x.toNat y.toNat = (x.sshiftRight (y.toNat % n)).toNat := by
  have shifted : BitVec.ofInt n (x.toInt / 2 ^ (y.toNat % n)) = x.sshiftRight (y.toNat % n) := by
    rw [← BitVec.ofInt_toInt (x := x.sshiftRight _), BitVec.toInt_sshiftRight, Int.shiftRight_eq_div_pow]
    push_cast
    rfl
  rw [IntOp.eval, BitVec.toNat_mod_cancel, BitVec.toNat_mod_cancel, toSigned_toNat, ofInt_eq, shifted]

/-- A rotation: what is shifted out at the top comes in at the bottom. -/
theorem eval_rotl : IntOp.rotl.eval n x.toNat y.toNat = (x.rotateLeft (y.toNat % n)).toNat := by
  rcases Nat.eq_zero_or_pos n with rfl | pos
  · simp only [BitVec.eq_nil x]
    simp [IntOp.eval, Nat.mod_one]
  have lt : y.toNat % n < n := Nat.mod_lt _ pos
  simp only [IntOp.eval, BitVec.toNat_mod_cancel]
  generalize y.toNat % n = r at lt
  have whole : 2 ^ n = 2 ^ r * 2 ^ (n - r) := by rw [← pow_add, Nat.add_sub_cancel' lt.le]
  have kept : x.toNat * 2 ^ r % 2 ^ n = 2 ^ r * (x.toNat % 2 ^ (n - r)) := by
    rw [whole, Nat.mul_comm, Nat.mul_mod_mul_left]
  have wrapped : x.toNat / 2 ^ (n - r) < 2 ^ r := Nat.div_lt_of_lt_mul (by rw [Nat.mul_comm, ← whole]; exact x.isLt)
  have fits : 2 ^ r * (x.toNat % 2 ^ (n - r)) + x.toNat / 2 ^ (n - r) < 2 ^ n :=
    calc _ < 2 ^ r * (x.toNat % 2 ^ (n - r)) + 2 ^ r := Nat.add_lt_add_left wrapped _
      _ = 2 ^ r * (x.toNat % 2 ^ (n - r) + 1) := by ring
      _ ≤ 2 ^ r * 2 ^ (n - r) := Nat.mul_le_mul_left _ (Nat.mod_lt _ (by positivity))
      _ = 2 ^ n := whole.symm
  rw [BitVec.rotateLeft_def, Nat.mod_eq_of_lt lt, BitVec.toNat_or, BitVec.toNat_shiftLeft, BitVec.toNat_ushiftRight,
    Nat.shiftLeft_eq, Nat.shiftRight_eq_div_pow, kept, ← Nat.two_pow_add_eq_or_of_lt wrapped, ← Nat.mod_add_mod, kept,
    Nat.mod_eq_of_lt fits]

theorem eval_min : IntOp.min.eval n x.toNat y.toNat = (if x.sle y then x else y).toNat := by
  simp only [IntOp.eval, BitVec.toNat_mod_cancel, toSigned_toNat, BitVec.sle_iff_toInt_le, apply_ite BitVec.toNat]

theorem eval_max : IntOp.max.eval n x.toNat y.toNat = (if x.sle y then y else x).toNat := by
  simp only [IntOp.eval, BitVec.toNat_mod_cancel, toSigned_toNat, BitVec.sle_iff_toInt_le, apply_ite BitVec.toNat]

theorem eval_minn : IntOp.minn.eval n x.toNat y.toNat = (if x ≤ y then x else y).toNat := by
  simp only [IntOp.eval, BitVec.toNat_mod_cancel, BitVec.le_def, apply_ite BitVec.toNat]

theorem eval_maxn : IntOp.maxn.eval n x.toNat y.toNat = (if x ≤ y then y else x).toNat := by
  simp only [IntOp.eval, BitVec.toNat_mod_cancel, BitVec.le_def, apply_ite BitVec.toNat]

theorem eval_clz (b : Nat) : IntOp.clz.eval n x.toNat b = leadingZeros n x.toNat := by
  simp only [IntOp.eval, BitVec.toNat_mod_cancel]

theorem eval_ctz (b : Nat) : IntOp.ctz.eval n x.toNat b = trailingZeros n x.toNat := by
  simp only [IntOp.eval, BitVec.toNat_mod_cancel]

/-- The ones counted bit by bit. -/
theorem popCount_eq (n v : Nat) : popCount n v = ((List.range n).filter v.testBit).length := by
  induction n generalizing v with
  | zero => rfl
  | succ n ih =>
    rw [popCount, ih, List.range_succ_eq_map, List.filter_cons, List.filter_map, Nat.testBit_zero]
    have shifted : (v / 2).testBit = v.testBit ∘ Nat.succ := funext fun i => (Nat.testBit_succ v i).symm
    rw [shifted]
    rcases Nat.mod_two_eq_zero_or_one v with h | h <;> simp [h, Nat.add_comm]

theorem eval_popc (b : Nat) : IntOp.popc.eval n x.toNat b = ((List.range n).filter x.getLsbD).length := by
  simp only [IntOp.eval, BitVec.toNat_mod_cancel]
  exact popCount_eq n x.toNat

end

/-! ### Register-register forms and comparisons -/

/-- The low bits of wider operands. -/
theorem eval_setWidth (op : IntOp) {n : Nat} (w : Nat) (a b : BitVec n) :
    op.eval w a.toNat b.toNat = op.eval w (a.setWidth w).toNat (b.setWidth w).toNat := by
  rw [BitVec.toNat_setWidth, BitVec.toNat_setWidth, eval_mod]

/-- The result of a register-register form, extended as its width and kind say (04 R98). -/
theorem extendW_eval {op : IntOp} {f : (n : Nat) → BitVec n → BitVec n → BitVec n}
    (h : ∀ {n : Nat} (x y : BitVec n), op.eval n x.toNat y.toNat = (f n x y).toNat) (w32 : Bool) (a b : Word) :
    extendW w32 op.signedKind (op.eval (widthOf w32) a.toNat b.toNat) = byWidth w32 op.signedKind f a b := by
  cases w32 with
  | false => exact (congrArg (BitVec.ofNat 64) (h a b)).trans ((BitVec.ofNat_toNat 64 _).trans (BitVec.setWidth_eq _))
  | true =>
    rw [show widthOf true = 32 from rfl, eval_setWidth, h]
    cases op.signedKind with
    | false => simp only [extendW, byWidth, if_true, Bool.false_eq_true, if_false, BitVec.toNat_mod_cancel, BitVec.ofInt_natCast, BitVec.ofNat_toNat]
    | true => simp only [extendW, byWidth, if_true, toSigned_toNat]; rfl

/-- A register-register form of an operation that acts as f on bit vectors. -/
theorem alu_of_eval {mk : SReg → SReg → SReg → Bool → Instr} {op : IntOp} {f : (n : Nat) → BitVec n → BitVec n → BitVec n}
    (h : ∀ {n : Nat} (x y : BitVec n), op.eval n x.toNat y.toNat = (f n x y).toNat)
    (run : ∀ d a b w s, exec (mk d a b w) s = runSlot (mk d a b w) s fun s => aluBody op w d (rdS s a) (rdS s b) s) :
    Alu mk op.signedKind f := by
  intro d a b w s issues
  rw [← extendW_eval h]
  exact (run d a b w s).trans (runSlot_done issues rfl)

section
variable {n : Nat} (x y : BitVec n)

theorem rel_eq : Rel.eq.eval n x.toNat y.toNat = (x == y) := by
  simp only [Rel.eval, BitVec.toNat_mod_cancel, Bool.beq_eq_decide_eq, BitVec.toNat_inj]

theorem rel_ne : Rel.ne.eval n x.toNat y.toNat = (x != y) := by
  simp only [Rel.eval, BitVec.toNat_mod_cancel, bne, Bool.beq_eq_decide_eq, BitVec.toNat_inj]

theorem rel_lt : Rel.lt.eval n x.toNat y.toNat = x.slt y := by
  simp only [Rel.eval, BitVec.toNat_mod_cancel, toSigned_toNat, BitVec.slt_eq_decide]

theorem rel_ge : Rel.ge.eval n x.toNat y.toNat = y.sle x := by
  simp only [Rel.eval, BitVec.toNat_mod_cancel, toSigned_toNat, BitVec.sle_eq_decide]

theorem rel_ltn : Rel.ltn.eval n x.toNat y.toNat = x.ult y := by
  simp only [Rel.eval, BitVec.toNat_mod_cancel, BitVec.ult]

theorem rel_gen : Rel.gen.eval n x.toNat y.toNat = y.ule x := by
  simp only [Rel.eval, BitVec.toNat_mod_cancel, BitVec.ule]

end

theorem rel_setWidth (r : Rel) {n : Nat} (w : Nat) (a b : BitVec n) :
    r.eval w a.toNat b.toNat = r.eval w (a.setWidth w).toNat (b.setWidth w).toNat := by
  simp only [Rel.eval, BitVec.toNat_setWidth, Nat.mod_mod]

/-- A comparison whose relation is f on bit vectors. -/
theorem cmp_of_eval {mk : PReg → SReg → SReg → Bool → Instr} {r : Rel} {f : (n : Nat) → BitVec n → BitVec n → Bool}
    (h : ∀ {n : Nat} (x y : BitVec n), r.eval n x.toNat y.toNat = f n x y)
    (run : ∀ p a b w s, exec (mk p a b w) s = runSlot (mk p a b w) s (cmpBody r w p a b)) : Cmp mk f := by
  intro p a b w s issues
  have value : r.eval (widthOf w) (rdS s a).toNat (rdS s b).toNat = relByWidth w f (rdS s a) (rdS s b) := by
    cases w with
    | false => exact h _ _
    | true => exact (rel_setWidth r 32 _ _).trans (h _ _)
  rw [← value]
  exact (run p a b w s).trans (runSlot_done issues rfl)

/-- A predicate operation writes its value. -/
theorem putsP_of_body {i : Instr} {s : State} {d : PReg} {b : Bool} {body : State → SlotEnd} (run : exec i s = runSlot i s body)
    (ends : body (begun s) = .done (wrP (begun s) d b)) (issues : Issues i s) : PutsP i s d b :=
  run.trans (runSlot_done issues ends)

end Sys2Proof.Machine

/-- Settles O15: each division acts on patterns as its bit-vector operation does, and the limit case is one of that. -/
theorem divisionResultsWithLimitCases : Obligations.DivisionResultsWithLimitCases := by
  have div : Alu .div true (fun n x y => if y = 0 then BitVec.allOnes n else x.sdiv y) := alu_of_eval (op := .div) eval_div exec_div
  have rem : Alu .rem true (fun _ x y => if y = 0 then x else x.srem y) := alu_of_eval (op := .rem) eval_rem exec_rem
  refine ⟨div, rem, alu_of_eval (op := .divn) eval_divn exec_divn, alu_of_eval (op := .remn) eval_remn exec_remn,
    fun d a b s ha hb => ⟨fun h => ?_, fun h => ?_⟩⟩
  · have puts := div d a b false s h
    rwa [ha, hb, show byWidth false true _ (BitVec.intMin 64) (-1) = BitVec.intMin 64 by decide] at puts
  · have puts := rem d a b false s h
    rwa [ha, hb, show byWidth false true _ (BitVec.intMin 64) (-1) = 0 by decide] at puts

/-- Settles O16: the relations are those of bit vectors, and a write of p0 is none. -/
theorem compareAndPredicateResults : Obligations.CompareAndPredicateResults := by
  refine ⟨cmp_of_eval (r := .eq) rel_eq exec_cmpEq, cmp_of_eval (r := .ne) rel_ne exec_cmpNe,
    cmp_of_eval (r := .lt) rel_lt exec_cmpLt, cmp_of_eval (r := .ge) rel_ge exec_cmpGe,
    cmp_of_eval (r := .ltn) rel_ltn exec_cmpLtn, cmp_of_eval (r := .gen) rel_gen exec_cmpGen,
    fun d a b s => ⟨?_, ?_, ?_, ?_, ?_, ?_⟩, fun i s b puts => ?_⟩
  · exact putsP_of_body (exec_pand d a b s) rfl
  · exact putsP_of_body (exec_por d a b s) rfl
  · exact putsP_of_body (exec_pxor d a b s) rfl
  · exact putsP_of_body (exec_pandn d a b s) rfl
  · exact putsP_of_body (exec_pnot d a s) rfl
  · exact putsP_of_body (exec_pmov d a s) rfl
  · rwa [PutsP, wrP_zero] at puts

/-- Settles O1, by evaluation of the decoder at each word. -/
theorem writtenWordsDecode : Obligations.WrittenWordsDecode :=
  ⟨rfl, rfl, rfl, rfl, rfl, rfl, rfl, rfl, rfl, rfl, rfl, rfl, rfl⟩
end

section
/-! SUPPORT. Control transfers and loops (04 R111 to R117), and O18. -/
open Sys2Proof Sys2Proof.Machine Sys2Proof.Claim

namespace Sys2Proof.Machine

/-! ### Transfers -/

/-- A slot whose body ends in a transfer: to the target, or with the trap that the target takes (04 R114). -/
theorem goes_of_jump {i : Instr} {s t : State} {dest : Word} {body : State → SlotEnd} (run : exec i s = runSlot i s body)
    (issues : Issues i s) (ends : body (begun s) = jumpTo t dest) : Goes i s t dest := by
  refine ⟨fun aligned low => ?_, fun misaligned => ?_, fun aligned high => ?_⟩
  · refine run.trans (runSlot_done issues (ends.trans ?_))
    rw [jumpTo, if_neg (not_not.mpr aligned), if_neg (not_not.mpr low)]
  · refine run.trans (runSlot_trap issues (ends.trans ?_))
    rw [jumpTo, if_pos misaligned]
  · refine run.trans (runSlot_trap issues (ends.trans ?_))
    rw [jumpTo, if_neg (not_not.mpr aligned), if_pos high]

/-! ### Stage predicates -/

/-- The predicates below p8 stay, and the others are the bits given. -/
theorem getLsbD_stagePreds (p : BitVec 16) (v i : Nat) :
    (stagePreds p v).getLsbD i = if i < 8 then p.getLsbD i else decide (i < 16) && v.testBit (i - 8) := by
  have low : p.toNat % 2 ^ 8 < 2 ^ 8 := Nat.mod_lt _ (by decide)
  rw [stagePreds, show p.toNat % 256 + v % 256 * 256 = 2 ^ 8 * (v % 2 ^ 8) + p.toNat % 2 ^ 8 by omega, BitVec.getLsbD_ofNat,
    Nat.testBit_two_pow_mul_add _ low]
  split
  next h =>
    rw [Nat.testBit_mod_two_pow, decide_eq_true h, decide_eq_true (show i < 16 by omega), Bool.true_and, Bool.true_and]
    rfl
  next h =>
    rw [Nat.testBit_mod_two_pow]
    by_cases top : i < 16
    · simp [top, show i - 8 < 8 by omega]
    · simp [top]

/-- The stage predicates at the start of a loop: p8 alone, where there is a pass to make (04 R116). -/
theorem startPreds_spec (p : BitVec 16) (n : Word) :
    let q := stagePreds p (if n.toNat = 0 then 0 else 1)
    (∀ i, i < 8 → q.getLsbD i = p.getLsbD i) ∧ (∀ i, 9 ≤ i → q.getLsbD i = false) ∧ q.getLsbD 8 = (n != 0) := by
  have zero : n.toNat = 0 ↔ n = 0 := toNat_eq_zero_iff n
  refine ⟨fun i hi => ?_, fun i hi => ?_, ?_⟩ <;> rw [getLsbD_stagePreds]
  · rw [if_pos hi]
  · rw [if_neg (by omega)]
    split
    · simp
    · rw [Nat.testBit_one_eq_true_iff_self_eq_zero.not.mpr (by omega) |> Bool.eq_false_of_not_eq_true, Bool.and_false]
  · by_cases h : n = 0
    · simp [h]
    · rw [if_neg (zero.not.mpr h)]
      simpa using h

/-- The stage predicates after an advance: p8 is given, and each other takes the one below it (04 R115). -/
theorem advancedPreds_spec (p : BitVec 16) (b : Bool) :
    let q := stagePreds p (p.toNat / 256 * 2 + b.toNat)
    (∀ i, i < 8 → q.getLsbD i = p.getLsbD i) ∧ q.getLsbD 8 = b ∧
      ∀ i, 8 ≤ i → i < 15 → q.getLsbD (i + 1) = p.getLsbD i := by
  refine ⟨fun i hi => ?_, ?_, fun i lo hi => ?_⟩ <;> rw [getLsbD_stagePreds]
  · rw [if_pos hi]
  · cases b <;> simp [Nat.testBit_zero, Nat.add_mod]
  · have half : (p.toNat / 256 * 2 + b.toNat) / 2 = p.toNat / 2 ^ 8 := by have := Bool.toNat_lt b; omega
    rw [if_neg (by omega), show i + 1 - 8 = i - 8 + 1 by omega, Nat.testBit_succ, half, Nat.testBit_div_two_pow,
      Nat.sub_add_cancel lo, decide_eq_true (show i + 1 < 16 by omega), Bool.true_and]
    rfl

theorem physV_val (c : Ctx) (r : VIdx) :
    (c.physV r).val = if r.val < 16 then r.val else 16 + (r.val - 16 + c.rbv) % 16 := by
  unfold Ctx.physV
  split
  · rfl
  · exact Nat.mod_eq_of_lt (by omega)

end Sys2Proof.Machine

theorem Sys2Proof.Claim.branchesAndCallsTransfer : Claim.BranchesAndCallsTransfer := by
  refine ⟨fun p neg imm s issues => ?_, fun imm s => ⟨fun issues => ?_, fun issues => ?_⟩,
    fun a s => ⟨fun issues => ?_, fun issues => ?_, fun issues => ?_⟩⟩
  · split
    next stays =>
      refine (exec_br p neg imm s).trans (runSlot_done issues (if_neg ?_))
      rw [begun_rdP, stays, Bool.xor_self]
      exact Bool.false_ne_true
    next goes =>
      refine goes_of_jump (exec_br p neg imm s) issues (if_pos ?_)
      rw [begun_rdP]
      exact Bool.xor_iff_ne.mpr goes
  · exact goes_of_jump (exec_jmp imm s) issues rfl
  · exact goes_of_jump (exec_call imm s) issues rfl
  · exact goes_of_jump (exec_jmpr a s) issues rfl
  · exact goes_of_jump (exec_callr a s) issues rfl
  · exact goes_of_jump (exec_ret s) issues rfl

theorem Sys2Proof.Claim.loopStartSetsPassesAndStages : Claim.LoopStartSetsPassesAndStages := by
  intro sc a imm s issues
  obtain ⟨kept, cleared, first⟩ := startPreds_spec s.ctx.p (rdS s a)
  refine ⟨_, kept, cleared, first, fun some => ?_, fun none => ?_⟩
  · have count : (rdS s a).toNat ≠ 0 := fun h => some ((toNat_eq_zero_iff _).mp h)
    have count' : (rdS (begun s) a).toNat ≠ 0 := count
    refine (exec_loopSt sc a imm s).trans (runSlot_done issues ?_)
    simp only [if_neg count, if_neg count']
    simp only [begun_rdS]
    rfl
  · have count : (rdS s a).toNat = 0 := (toNat_eq_zero_iff _).mpr none
    have count' : (rdS (begun s) a).toNat = 0 := count
    refine goes_of_jump (exec_loopSt sc a imm s) issues ?_
    simp only [if_pos count, if_pos count']
    rfl

theorem Sys2Proof.Claim.loopBranchAdvancesRotation : Claim.LoopBranchAdvancesRotation := by
  intro imm s issues
  refine ⟨fun none => (exec_loopBr imm s).trans (runSlot_done issues (if_pos none)), fun some => ?_⟩
  have left : (s.src.pass - 1).toNat = s.src.pass.toNat - 1 := by bv_omega
  obtain ⟨kept, first, moved⟩ := advancedPreds_spec s.ctx.p (decide (max s.src.sc 1 ≤ (s.src.pass - 1).toNat))
  refine ⟨_, kept, first.trans (by rw [left]), moved, fun last => ?_, fun more => ?_⟩
  · refine (exec_loopBr imm s).trans (runSlot_done issues ((if_neg some).trans (if_neg ?_)))
    rw [begun_src, last]
    decide
  · refine goes_of_jump (exec_loopBr imm s) issues ((if_neg some).trans (if_pos ?_))
    rw [begun_src]
    bv_omega

theorem Sys2Proof.Claim.advanceRenamesRotatingRegisters : Claim.AdvanceRenamesRotatingRegisters := by
  intro c p8 i hs hv
  have rbs : (advance c p8).rbs = (c.rbs + 31) % 32 := rfl
  have rbv : (advance c p8).rbv = (c.rbv + 15) % 16 := rfl
  have number {m n : Nat} (h : n < m + 1) : (Fin.ofNat (m + 1) n).val = n := Nat.mod_eq_of_lt h
  refine ⟨fun hi => Fin.ext ?_, Fin.ext ?_, fun hi => Fin.ext ?_, Fin.ext ?_, fun hi => Fin.ext ?_⟩
  · rw [physS_val, physS_val, rbs, number (by omega), number (by omega), if_neg (by omega), if_neg (by omega)]
    omega
  · rw [physS_val, physS_val, rbs, number (by omega), number (by omega), if_neg (by omega), if_neg (by omega)]
    omega
  · rw [physV_val, physV_val, rbv, number (by omega), number (by omega), if_neg (by omega), if_neg (by omega)]
    omega
  · rw [physV_val, physV_val, rbv, number (by omega), number (by omega), if_neg (by omega), if_neg (by omega)]
    omega
  · rw [physS_val, physS_val, number (by omega), if_pos hi, if_pos hi]

/-- Settles O18, by its four parts. -/
theorem controlTransfers : Obligations.ControlTransfers := by
  unfold Obligations.ControlTransfers
  exact ⟨Claim.branchesAndCallsTransfer, Claim.loopStartSetsPassesAndStages, Claim.loopBranchAdvancesRotation,
    Claim.advanceRenamesRotatingRegisters⟩
end

section
/-! SUPPORT. The natural literal of MINN is not bounded by the limits of its instruction, and O14 (04 R101). -/
open Sys2Proof Sys2Proof.Machine Sys2Proof.Claim

namespace Sys2Proof.Machine

/-- A state at rest in which s2 holds 1. -/
def oneInS2 : State := wrS State.reset 2 1

/-- MINN s1, s2 with a literal that is too wide for 64 bits. -/
def minnTwo64 : Instr := .minnImm 1 2 (2 ^ 64)

theorem minnTwo64_issues : Issues minnTwo64 oneInS2 :=
  Claim.quietSlotIssues _ _ ⟨rfl, rfl, rfl, by decide +kernel, by decide +kernel⟩ (by decide +kernel) (by decide +kernel)
    (.inl (by decide +kernel)) (by decide +kernel) (fun _ _ _ _ h => by cases h)

/-- The literal counts modulo 2^64, as 0, which is then the lesser operand. -/
theorem exec_minnTwo64 : exec minnTwo64 oneInS2 = .next (finished oneInS2 (wrS (begun oneInS2) 1 0)) := by
  refine (exec_minnImm 1 2 (2 ^ 64) oneInS2).trans (runSlot_done minnTwo64_issues ?_)
  have lesser : IntOp.minn.eval 64 (rdS (begun oneInS2) 2).toNat (ofInt 64 ((2 ^ 64 : Nat) : Int)) = 0 := by decide +kernel
  rw [aluImmBody, lesser]
  rfl

theorem finished_oneInS2 (v : Word) : (finished oneInS2 (wrS (begun oneInS2) 1 v)).ctx.s.get 1 = v := rfl

end Sys2Proof.Machine

/-- Refutes O14: MINN with the literal 2^64, which no limit of the instruction shuts out, writes 0 where A holds 1, and not
the lesser of 1 and 2^64. -/
theorem not_integerResults : ¬ Obligations.IntegerResults := by
  rintro ⟨-, -, -, ⟨-, -, -, -, -, -, -, -, naturals⟩, -⟩
  have claimed := (naturals 1 2 (2 ^ 64) 0 oneInS2).1 minnTwo64_issues
  have same := Host.Outcome.next.inj (exec_minnTwo64.symm.trans claimed)
  have value := congrArg (fun s : State => s.ctx.s.get 1) same
  rw [finished_oneInS2, finished_oneInS2] at value
  exact absurd value (by decide +kernel)
end

section
/-! SUPPORT. Element-wise slots and reductions (05 R132 to R138, R143), and O24. -/
open Sys2Proof Sys2Proof.Machine Sys2Proof.Claim

namespace Sys2Proof.Machine

/-! ### Elements of a register -/

theorem elemAt_eq (v : BitVec 16384) (w j : Nat) : elemAt v w j = (elem v w j).toNat := by
  rw [elem, BitVec.extractLsb'_toNat, Nat.shiftRight_eq_div_pow]
  rfl

/-- An element of a list joined at w bits. -/
theorem bits_joinElems (w : Nat) (l : List Nat) (j : Nat) : bits (joinElems w l) (w * j) w = l.getD j 0 % 2 ^ w := by
  induction l generalizing j with
  | nil => simp [joinElems, bits]
  | cons x l ih =>
    have low : x % 2 ^ w < 2 ^ w := Nat.mod_lt _ (by positivity)
    rw [joinElems, bits]
    cases j with
    | zero => rw [Nat.mul_zero, pow_zero, Nat.div_one, Nat.add_mul_mod_self_left, Nat.mod_mod]; rfl
    | succ j =>
      rw [Nat.mul_succ, Nat.add_comm (w * j), pow_add, ← Nat.div_div_eq_div_mul, Nat.add_mul_div_left _ _ (by positivity),
        Nat.div_eq_of_lt low, Nat.zero_add]
      exact ih j

/-- An element of a number that fills a register. -/
theorem elem_ofNat {w j : Nat} (v : Nat) (fits : w * j + w ≤ 16384) :
    elem (BitVec.ofNat 16384 v) w j = BitVec.ofNat w (bits v (w * j) w) := by
  refine BitVec.eq_of_getLsbD_eq fun i hi => ?_
  rw [elem, BitVec.getLsbD_extractLsb', BitVec.getLsbD_ofNat, BitVec.getLsbD_ofNat, bits, Nat.testBit_mod_two_pow,
    Nat.testBit_div_two_pow]
  have inside : w * j + i < 16384 := by omega
  rw [decide_eq_true hi, decide_eq_true inside, Nat.add_comm i]

/-- The elements of a register given as a list. -/
theorem elem_joinElems {w n j : Nat} {l : List Nat} (fits : w * n ≤ 16384) (hj : j < n) :
    elem (BitVec.ofNat 16384 (joinElems w l)) w j = BitVec.ofNat w (l.getD j 0) := by
  have room : w * j + w ≤ 16384 := (Nat.mul_le_mul_left w hj).trans fits
  rw [elem_ofNat _ room, bits_joinElems]
  exact BitVec.eq_of_toNat_eq (by rw [BitVec.toNat_ofNat, BitVec.toNat_ofNat, Nat.mod_mod])

/-- The flags of a list of results. -/
theorem getLsbD_foldl_or (l : List FR) (a : Flags) (b : Nat) :
    (l.foldl (fun a r => a ||| r.flags) a).getLsbD b = true ↔ a.getLsbD b = true ∨ ∃ r ∈ l, r.flags.getLsbD b = true := by
  induction l generalizing a with
  | nil => simp
  | cons r l ih => simp only [List.foldl_cons, ih, BitVec.getLsbD_or, Bool.or_eq_true, List.mem_cons, exists_eq_or_imp, or_assoc]

theorem getD_map_range {α : Type} (n : Nat) (f : Nat → α) (d : α) {j : Nat} (hj : j < n) : ((List.range n).map f).getD j d = f j := by
  rw [List.getD_eq_getElem?_getD, List.getElem?_map, List.getElem?_range hj]
  rfl

section
variable (s : State) (mk : MReg) {w n : Nat} (old : BitVec 16384) (f : Nat → FR)

theorem elem_mapElems (fits : w * n ≤ 16384) {j : Nat} (hj : j < n) :
    elem (BitVec.ofNat 16384 (mapElems s mk w n old f).1) w j =
      if active s mk j then BitVec.ofNat w (f j).bits else elem old w j := by
  rw [mapElems, elem_joinElems fits hj, List.map_map, getD_map_range n _ 0 hj]
  simp only [Function.comp_apply]
  split
  · rfl
  · rw [elemAt_eq, BitVec.ofNat_toNat, BitVec.setWidth_eq]

theorem flags_mapElems (b : Nat) :
    (mapElems s mk w n old f).2.getLsbD b = true ↔ ∃ j, j < n ∧ active s mk j = true ∧ (f j).flags.getLsbD b = true := by
  have none : (0 : Flags).getLsbD b = false := BitVec.getLsbD_zero
  simp only [mapElems, getLsbD_foldl_or, none, Bool.false_eq_true, false_or, List.mem_map, List.mem_range, exists_exists_and_eq_and]
  refine exists_congr fun j => and_congr_right fun _ => ?_
  split
  next on => simp [on]
  next off => simp [off]

end

/-- The elements of the present size fill a register. -/
theorem elems_fill (c : Ctx) : 8 * c.ebytes * c.elems = 16384 := by
  have small : c.ew < 4 := Nat.mod_lt _ (by decide)
  unfold Ctx.elems Ctx.ebytes
  generalize c.ew = e at small
  interval_cases e <;> rfl

/-! ### Element-wise slots -/

/-- A slot whose body maps g over the elements. -/
theorem vecMaps_of_body {i : Instr} {s : State} {d : VIdx} {mk : MReg} {w n : Nat} {f g : Nat → FR} {body : State → SlotEnd}
    (run : exec i s = runSlot i s body) (ends : body (begun s) = vecDone (begun s) d (mapElems s mk w n (rdV s d).elems g))
    (fits : w * n ≤ 16384) (same : Issues i s → ∀ j, j < n → g j = f j) : VecMaps i s d mk w n f := by
  intro issues
  refine ⟨_, _, fun j hj => ?_, fun b => ?_, fpEnds_of_body run ends issues⟩
  · rw [elem_mapElems s mk _ g fits hj, same issues j hj]
  · rw [flags_mapElems]
    exact exists_congr fun j => and_congr_right fun hj => by rw [same issues j hj]

/-- An element-wise slot of two operands in the element size of VSHAPE. -/
theorem vecOf_of_body {mk : VIdx → VIdx → VIdx → MReg → Instr} {f : (w : Nat) → BitVec w → BitVec w → FR}
    {g : State → Nat → Nat → FR}
    (run : ∀ d a b m s, exec (mk d a b m) s = runSlot (mk d a b m) s fun s => vecBody d a b m (fun x y _ => g s x y) s)
    (same : ∀ d a b m s, Issues (mk d a b m) s → ∀ x y : BitVec (8 * s.src.ebytes), g (begun s) x.toNat y.toNat = f _ x y) :
    VecOf mk f := fun d a b m s =>
  vecMaps_of_body (run d a b m s) rfl (elems_fill s.src).le fun issues j _ => by
    rw [elemAt_eq, elemAt_eq]
    exact same d a b m s issues _ _

/-- An element-wise slot of one operand in the element size of VSHAPE. -/
theorem vecOf1_of_body {mk : VIdx → VIdx → MReg → Instr} {f : (w : Nat) → BitVec w → FR} {g : State → Nat → FR}
    (run : ∀ d a m s, exec (mk d a m) s = runSlot (mk d a m) s fun s => vecBody d a a m (fun x _ _ => g s x) s)
    (same : ∀ d a m s, Issues (mk d a m) s → ∀ x : BitVec (8 * s.src.ebytes), g (begun s) x.toNat = f _ x) :
    VecOf1 mk f := fun d a m s =>
  vecMaps_of_body (run d a m s) rfl (elems_fill s.src).le fun issues j _ => by
    rw [elemAt_eq]
    exact same d a m s issues _

/-- An integer operation of two operands that acts as f on bit vectors. -/
theorem vecOf_of_eval {mk : VIdx → VIdx → VIdx → MReg → Instr} {op : IntOp} {f : (n : Nat) → BitVec n → BitVec n → BitVec n}
    (h : ∀ {n : Nat} (x y : BitVec n), op.eval n x.toNat y.toNat = (f n x y).toNat)
    (run : ∀ d a b m s, exec (mk d a b m) s =
      runSlot (mk d a b m) s fun s => vecBody d a b m (fun x y _ => { bits := op.eval (ewBits s) x y }) s) :
    VecOf mk fun n x y => plain (f n x y) :=
  vecOf_of_body run fun _ _ _ _ _ _ x y => congrArg (FR.mk · 0) (h x y)

/-- An integer operation of one operand that gives f. -/
theorem vecOf1_of_eval {mk : VIdx → VIdx → MReg → Instr} {op : IntOp} {f : (n : Nat) → BitVec n → Nat}
    (h : ∀ {n : Nat} (x : BitVec n) (b : Nat), op.eval n x.toNat b = f n x)
    (run : ∀ d a m s, exec (mk d a m) s =
      runSlot (mk d a m) s fun s => vecBody d a a m (fun x _ _ => { bits := op.eval (ewBits s) x 0 }) s) :
    VecOf1 mk fun n x => { bits := f n x } :=
  vecOf1_of_body run fun _ _ _ _ _ x => congrArg (FR.mk · 0) (h x 0)

/-- VADD and VSUB with S clamp the exact sum or difference. -/
theorem satAdd_toNat {w : Nat} (sub nat : Bool) (x y : BitVec w) :
    satAdd w sub nat x.toNat y.toNat = clamped w nat (if sub then valueI nat x - valueI nat y else valueI nat x + valueI nat y) := by
  have val (x : BitVec w) : IntTy.val { width := w, signed := !nat } x.toNat = valueI nat x := by
    rw [val_eq, BitVec.ofNat_toNat, BitVec.setWidth_eq, Bool.not_not]
  simp only [satAdd, clamped, val, clamp_eq, ofInt_eq, IntTy.lo, IntTy.hi]
  cases nat <;> simp

/-- An element-wise floating-point slot. -/
theorem vecFp_of_body {mk : VIdx → VIdx → VIdx → Rm → MReg → Instr} {g : Fmt → Rnd → Nat → Nat → Nat → FR}
    (run : ∀ d a b rm m s, exec (mk d a b rm m) s =
      runSlot (mk d a b rm m) s fun s => vecBody d a b m (g (ewFmt s) (rmMode rm s)) s) : VecFp mk g :=
  fun d a b rm m s => vecMaps_of_body (run d a b rm m s) rfl (elems_fill s.src).le fun _ j _ => by
    rw [elemAt_eq, elemAt_eq, elemAt_eq]
    rfl

theorem vecFp1_of_body {mk : VIdx → VIdx → Rm → MReg → Instr} {g : Fmt → Rnd → Nat → FR}
    (run : ∀ d a rm m s, exec (mk d a rm m) s =
      runSlot (mk d a rm m) s fun s => vecBody d a a m (fun x _ _ => g (ewFmt s) (rmMode rm s) x) s) : VecFp1 mk g :=
  fun d a rm m s => vecMaps_of_body (run d a rm m s) rfl (elems_fill s.src).le fun _ j _ => by
    rw [elemAt_eq]
    rfl

/-! ### Sign operations -/

/-- A pattern of which only the sign is replaced. -/
theorem withSign_toNat {f : Fmt} {w : Nat} (hw : w = f.signPos + 1) (x v : BitVec w) (b : Bool)
    (low : ∀ i, i < f.signPos → v.getLsbD i = x.getLsbD i) (top : v.getLsbD f.signPos = b) :
    withSign f x.toNat b = v.toNat := by
  refine Nat.eq_of_testBit_eq fun i => ?_
  have kept : x.toNat % 2 ^ f.signPos < 2 ^ f.signPos := Nat.mod_lt _ (by positivity)
  rw [withSign, Nat.add_comm, Nat.mul_comm, Nat.testBit_two_pow_mul_add _ kept]
  rcases Nat.lt_trichotomy i f.signPos with lt | rfl | gt
  · rw [if_pos lt, Nat.testBit_mod_two_pow, decide_eq_true lt]
    exact (low i lt).symm
  · rw [if_neg (by omega), Nat.sub_self, BitVec.testBit_toNat, ← top]
    cases v.getLsbD f.signPos <;> rfl
  · rw [if_neg (by omega), BitVec.testBit_toNat, BitVec.getLsbD_of_ge v i (by omega)]
    exact Nat.testBit_lt_two_pow (b.toNat_lt.trans_le (Nat.le_self_pow (by omega) 2))

/-- A slot of major 0x19 issues in 4 and 8-byte elements alone (05 R133). -/
theorem words_of_issues {i : Instr} {s : State} (major : encodeWord i / 2 ^ 26 = 0x19) (issues : Issues i s) :
    8 * s.src.ebytes = (ewFmt (begun s)).signPos + 1 := by
  have legal : (sigOf s i).legal = true := by
    by_contra illegal
    exact absurd (issues.1.symm.trans (decodeTrap_illegal (Bool.eq_false_of_not_eq_true illegal))) nofun
  have size : elemSizeOk (encodeWord i / 2 ^ 26) (encodeWord i / 64 % 32) s.src.ew = true := (Bool.and_eq_true_iff.mp legal).2
  rw [major, elemSizeOk, if_pos (.inl rfl), decide_eq_true_iff] at size
  have small : s.src.ew < 4 := Nat.mod_lt _ (by decide)
  rw [ewFmt, begun_src]
  unfold Ctx.ebytes
  obtain two | three : s.src.ew = 2 ∨ s.src.ew = 3 := by omega
  · rw [two]; rfl
  · rw [three]; rfl

section
variable {f : Fmt} {w : Nat} (hw : w = f.signPos + 1) (x y : BitVec w)
include hw

theorem getLsbD_intMin_sign (i : Nat) : (BitVec.intMin w).getLsbD i = decide (i = f.signPos) := by
  subst hw
  simp [BitVec.getLsbD_intMin]

theorem withSign_neg : withSign f x.toNat (!testBit x.toNat f.signPos) = (x ^^^ BitVec.intMin w).toNat := by
  refine withSign_toNat hw x _ _ (fun i hi => ?_) ?_ <;> rw [BitVec.getLsbD_xor, getLsbD_intMin_sign hw]
  · rw [decide_eq_false hi.ne, Bool.xor_false]
  · rw [decide_eq_true rfl, Bool.xor_true, testBit_eq]; rfl

theorem withSign_abs : withSign f x.toNat false = (x &&& ~~~(BitVec.intMin w)).toNat := by
  refine withSign_toNat hw x _ _ (fun i hi => ?_) ?_ <;>
    rw [BitVec.getLsbD_and, BitVec.getLsbD_not, getLsbD_intMin_sign hw, decide_eq_true (by omega), Bool.true_and]
  · rw [decide_eq_false hi.ne, Bool.not_false, Bool.and_true]
  · rw [decide_eq_true rfl, Bool.not_true, Bool.and_false]

theorem withSign_copy : withSign f x.toNat (testBit y.toNat f.signPos) =
    (x &&& ~~~(BitVec.intMin w) ||| y &&& BitVec.intMin w).toNat := by
  refine withSign_toNat hw x _ _ (fun i hi => ?_) ?_ <;>
    rw [BitVec.getLsbD_or, BitVec.getLsbD_and, BitVec.getLsbD_and, BitVec.getLsbD_not, getLsbD_intMin_sign hw,
      decide_eq_true (by omega), Bool.true_and]
  · rw [decide_eq_false hi.ne, Bool.not_false, Bool.and_true, Bool.and_false, Bool.or_false]
  · rw [decide_eq_true rfl, Bool.not_true, Bool.and_false, Bool.and_true, Bool.false_or, testBit_eq]; rfl

end

theorem major_vfneg (d a : VIdx) (m : MReg) : encodeWord (.vfneg d a m) / 2 ^ 26 = 0x19 := by
  show pack _ _ / _ = _
  simp only [pack]; omega

theorem major_vfabs (d a : VIdx) (m : MReg) : encodeWord (.vfabs d a m) / 2 ^ 26 = 0x19 := by
  show pack _ _ / _ = _
  simp only [pack]; omega

theorem major_vfcpsgn (d a b : VIdx) (m : MReg) : encodeWord (.vfcpsgn d a b m) / 2 ^ 26 = 0x19 := by
  show pack _ _ / _ = _
  simp only [pack]; omega

/-! ### Reductions -/

/-- With no exception enabled, flags end no slot. -/
theorem finishFlags_quiet {t before : State} (fl : Flags) (quiet : before.src.enables = 0) :
    finishFlags t before fl = .done (raise t fl) :=
  if_pos (by rw [enabledFlags, quiet]; exact BitVec.and_zero)

/-- A reduction in which no exception is enabled. -/
theorem reduction_done {i : Instr} {s : State} {d : SReg} {a : VIdx} {row : Bool} {m : MReg} {sx : Bool}
    {red : State → List (Option Nat) → Nat → FR} (run : exec i s = runSlot i s fun s => redBody d a row m sx (red s) s)
    (issues : Issues i s) (quiet : s.src.enables = 0) :
    ∃ t, exec i s = .next t ∧ t.bun.status = .done ∧ t.ctx.pc = s.src.pc + 16 ∧ t.ctx.p = s.ctx.p ∧ t.ctx.m = s.ctx.m ∧
      t.ctx.t = s.ctx.t ∧ t.ctx.q = s.ctx.q ∧ t.mem = s.mem ∧ t.spad = s.spad ∧
      (row = false → t.ctx.v = s.ctx.v ∧ ∀ r, r ≠ s.src.physS d → t.ctx.s.get r = s.ctx.s.get r) ∧
      (row = true → t.ctx.s = s.ctx.s ∧ ∀ r, r ≠ s.src.physV (lowV d) → t.ctx.v.get r = s.ctx.v.get r) := by
  cases row with
  | false =>
    refine ⟨_, run.trans (runSlot_done issues (finishFlags_quiet _ quiet)), rfl, ?_⟩
    simp only [finished_ctx, raise_ctx, wrS_ctx, ctx_wrS_pc, ctx_wrS_p, ctx_wrS_m, ctx_wrS_t, ctx_wrS_q, ctx_wrS_v, ctx_wrS_s]
    refine ⟨rfl, rfl, rfl, rfl, rfl, rfl, rfl, fun _ => ⟨rfl, fun r other => ?_⟩, nofun⟩
    split
    · rfl
    · exact (vector_get_set _ _ _ _).trans (if_neg other.symm)
  | true =>
    refine ⟨_, run.trans (runSlot_done issues (finishFlags_quiet _ quiet)), rfl, ?_⟩
    simp only [finished_ctx, raise_ctx, wrVElems, wrV_ctx, finished_mem, finished_spad, raise_mem, raise_spad, wrV_mem, wrV_spad]
    refine ⟨rfl, rfl, rfl, rfl, rfl, rfl, rfl, nofun, fun _ => ⟨rfl, fun r other => ?_⟩⟩
    exact (vector_get_set _ _ _ _).trans (if_neg other.symm)

end Sys2Proof.Machine

theorem Sys2Proof.Claim.vectorIntegerResults : Claim.VectorIntegerResults := by
  refine ⟨vecOf_of_eval eval_add fun d a b => exec_vadd d a b false false,
    vecOf_of_eval eval_sub fun d a b => exec_vsub d a b false false,
    fun nat => vecOf_of_body (fun d a b => exec_vadd d a b true nat) fun _ _ _ _ _ _ => satAdd_toNat false nat,
    fun nat => vecOf_of_body (fun d a b => exec_vsub d a b true nat) fun _ _ _ _ _ _ => satAdd_toNat true nat,
    vecOf_of_eval eval_mul exec_vmul, vecOf_of_eval eval_mulh exec_vmulh, vecOf_of_eval eval_mulhn exec_vmulhn,
    vecOf_of_eval eval_div exec_vdiv, vecOf_of_eval eval_divn exec_vdivn, vecOf_of_eval eval_rem exec_vrem,
    vecOf_of_eval eval_remn exec_vremn, vecOf_of_eval eval_and exec_vand, vecOf_of_eval eval_or exec_vor,
    vecOf_of_eval eval_xor exec_vxor, vecOf_of_eval eval_andn exec_vandn, vecOf_of_eval eval_shl exec_vshl,
    vecOf_of_eval eval_shr exec_vshr, vecOf_of_eval eval_sra exec_vsra, vecOf_of_eval eval_rotl exec_vrotl,
    vecOf_of_eval eval_min exec_vmin, vecOf_of_eval eval_max exec_vmax, vecOf_of_eval eval_minn exec_vminn,
    vecOf_of_eval eval_maxn exec_vmaxn, vecOf1_of_eval eval_clz exec_vclz, vecOf1_of_eval eval_ctz exec_vctz,
    vecOf1_of_eval eval_popc exec_vpopc⟩

theorem Sys2Proof.Claim.vectorFloatResults : Claim.VectorFloatResults := by
  refine ⟨vecFp_of_body exec_vfadd, vecFp_of_body exec_vfsub, vecFp_of_body exec_vfmul, vecFp_of_body exec_vfdiv,
    vecFp_of_body exec_vfma, vecFp_of_body exec_vfms, vecFp_of_body exec_vfnma, vecFp1_of_body exec_vfsqrt,
    vecFp_of_body fun d a b _ => exec_vfmin d a b, vecFp_of_body fun d a b _ => exec_vfmax d a b,
    vecFp_of_body exec_vfrcps, vecFp_of_body exec_vfrsqs, vecFp1_of_body exec_vfrcp, vecFp1_of_body exec_vfrsq,
    vecFp1_of_body exec_vfexp, vecFp1_of_body exec_vfexp2, vecFp1_of_body exec_vflog, vecFp1_of_body exec_vflog2,
    vecFp1_of_body exec_vferf, vecFp1_of_body exec_vferfc, ?_, ?_,
    vecOf1_of_body exec_vfmov fun _ _ _ _ _ _ => rfl, ?_⟩
  · exact vecOf1_of_body exec_vfneg fun d a m s issues x =>
      congrArg (FR.mk · 0) (withSign_neg (words_of_issues (major_vfneg d a m) issues) x)
  · exact vecOf1_of_body exec_vfabs fun d a m s issues x =>
      congrArg (FR.mk · 0) (withSign_abs (words_of_issues (major_vfabs d a m) issues) x)
  · exact vecOf_of_body exec_vfcpsgn fun d a b m s issues x y =>
      congrArg (FR.mk · 0) (withSign_copy (words_of_issues (major_vfcpsgn d a b m) issues) x y)

theorem Sys2Proof.Claim.reductionsAreDone : Claim.ReductionsAreDone := by
  intro d a row sat nat rm m s i listed issues quiet
  simp only [List.mem_cons, List.not_mem_nil, or_false] at listed
  rcases listed with rfl | rfl | rfl | rfl | rfl | rfl | rfl | rfl
  · exact reduction_done (exec_vredFsum d a row rm m s) issues quiet
  · exact reduction_done (exec_vredFmin d a row m s) issues quiet
  · exact reduction_done (exec_vredFmax d a row m s) issues quiet
  · exact reduction_done (exec_vredIsum d a row sat nat m s) issues quiet
  · exact reduction_done (exec_vredImin d a row m s) issues quiet
  · exact reduction_done (exec_vredImax d a row m s) issues quiet
  · exact reduction_done (exec_vredNmin d a row m s) issues quiet
  · exact reduction_done (exec_vredNmax d a row m s) issues quiet

/-- Settles O24, by its three parts. -/
theorem vectorResults : Obligations.VectorResults := by
  unfold Obligations.VectorResults
  exact ⟨Claim.vectorIntegerResults, Claim.vectorFloatResults, Claim.reductionsAreDone⟩
end

section
/-! SUPPORT. Whole-tile instructions at issue (07 R178 to R184). -/
open Sys2Proof Sys2Proof.Machine Sys2Proof.Claim

namespace Sys2Proof.Machine

/-! ### Checks of tiles -/

/-- A check that gives op where ok holds, and else the tile at fault, one of those that bad allows. -/
def Decides (check : Except TReg TileOp) (ok : Prop) (op : TileOp) (bad : TReg → Prop) : Prop :=
  (ok → check = .ok op) ∧ (¬ok → ∃ n, bad n ∧ check = .error n)

/-- A check of one tile, of valid shape and without a fault. -/
theorem decides_one (h? : Option Shape) (n : TReg) (fault : Shape → Prop) [DecidablePred fault] (op : TileOp) :
    Decides ((needShape h? n).bind fun h => if fault h then .error n else .ok op) (∃ h, h? = some h ∧ ¬fault h) op
      (fun m => m = n) := by
  cases h? with
  | none => exact ⟨fun ⟨_, found, _⟩ => (nomatch found), fun _ => ⟨n, rfl, rfl⟩⟩
  | some h =>
    by_cases wrong : fault h
    · exact ⟨fun ⟨_, found, right⟩ => absurd (Option.some.inj found ▸ wrong) right, fun _ => ⟨n, rfl, if_pos wrong⟩⟩
    · exact ⟨fun _ => if_neg wrong, fun no => absurd ⟨h, rfl, wrong⟩ no⟩

/-- Two tiles of valid shape that keep a condition between them: the first tile at fault, the destination before the
source, or the operation. -/
def twoTiles (h? k? : Option Shape) (d a : TReg) (ok : Shape → Shape → Bool) (op : TileOp) : Except TReg TileOp :=
  (needShape h? d).bind fun h => (needShape k? a).bind fun k => if ok h k then .ok op else .error d

theorem pairCheck_eq (c : Ctx) (side : Bool) (d a : TReg) (ok : Shape → Shape → Bool) (op : TileOp) :
    pairCheck c side d a ok op =
      twoTiles (if side then c.sideShape? d else c.shape? d) (if side then c.sideShape? a else c.shape? a) d a ok op := by
  unfold pairCheck twoTiles
  cases needShape (if side then c.sideShape? d else c.shape? d) d with
  | error => rfl
  | ok => cases needShape (if side then c.sideShape? a else c.shape? a) a <;> rfl

/-- A check of two tiles and of a condition between them. -/
theorem decides_two (h? k? : Option Shape) (d a : TReg) (ok : Shape → Shape → Bool) (op : TileOp) :
    Decides (twoTiles h? k? d a ok op) (∃ h k, h? = some h ∧ k? = some k ∧ ok h k = true) op (fun m => m = d ∨ m = a) := by
  cases h? with
  | none => exact ⟨fun ⟨_, _, found, _⟩ => (nomatch found), fun _ => ⟨d, .inl rfl, rfl⟩⟩
  | some h =>
    cases k? with
    | none => exact ⟨fun ⟨_, _, _, found, _⟩ => (nomatch found), fun _ => ⟨a, .inr rfl, rfl⟩⟩
    | some k =>
      by_cases good : ok h k = true
      · exact ⟨fun _ => if_pos good, fun no => absurd ⟨h, k, rfl, rfl, good⟩ no⟩
      · refine ⟨fun ⟨_, _, found, found', good'⟩ => absurd ?_ good, fun _ => ⟨d, .inl rfl, if_neg good⟩⟩
        rwa [Option.some.inj found, Option.some.inj found']

theorem decides_pair (c : Ctx) (side : Bool) (d a : TReg) (ok : Shape → Shape → Bool) (op : TileOp) :
    Decides (pairCheck c side d a ok op)
      (∃ h k, (if side then c.sideShape? d else c.shape? d) = some h ∧ (if side then c.sideShape? a else c.shape? a) = some k ∧
        ok h k = true) op (fun m => m = d ∨ m = a) :=
  pairCheck_eq c side d a ok op ▸ decides_two _ _ d a ok op

/-- The shape of a tile that TCVT takes: one that suits its sidecar and is no SC code. -/
def plainShape? (c : Ctx) (n : TReg) : Option Shape := (c.sideShape? n).bind fun h => if h.isSc then none else some h

theorem plainShape?_eq_some {c : Ctx} {n : TReg} {h : Shape} :
    plainShape? c n = some h ↔ c.sideShape? n = some h ∧ h.isSc ≠ true := by
  unfold plainShape?
  cases c.sideShape? n with
  | none => simp
  | some k =>
    by_cases sc : k.isSc = true
    · rw [Option.bind_some, if_pos sc]
      exact ⟨nofun, fun ⟨found, plain⟩ => absurd (Option.some.inj found ▸ sc) plain⟩
    · rw [Option.bind_some, if_neg sc]
      exact ⟨fun found => ⟨found, Option.some.inj found ▸ sc⟩, And.left⟩

/-- The same check under another statement of what it asks. -/
theorem Decides.congr {check : Except TReg TileOp} {ok ok' : Prop} {op : TileOp} {bad : TReg → Prop} (h : Decides check ok op bad)
    (same : ok' ↔ ok) : Decides check ok' op bad := by
  rwa [propext same]

/-- TCVT checks two plain tiles of equal rows and columns. -/
theorem exec_tcvt_twoTiles (d a : TReg) (rm : Rm) (s : State) :
    exec (.tcvt d a rm) s = runSlot (.tcvt d a rm) s (tileBody fun c => twoTiles (plainShape? c d) (plainShape? c a) d a
      (fun h k => decide (h.rows = k.rows ∧ h.cols = k.cols)) (.cvt d a (rmCode rm c))) := by
  refine congrArg (fun check => runSlot (.tcvt d a rm) s (tileBody check)) (funext fun c => ?_)
  unfold twoTiles plainShape?
  dsimp only
  split
  next wrong => rw [wrong]; rfl
  next n wrong others =>
    cases first : needShape ((c.sideShape? d).bind fun h => if h.isSc = true then none else some h) d with
    | error m => exact (others m first).elim
    | ok h => rw [wrong]; rfl
  next right right' =>
    rw [right, right', Except.bind, Except.bind]
    simp only [decide_eq_true_iff]

/-! ### Issue -/

/-- A whole-tile operation in flight changes no register. -/
theorem untouched_launchTile (s : State) (op : TileOp) : Untouched s (launchTile (begun s) op none 0) :=
  ⟨rfl, rfl, rfl, rfl, rfl, rfl, rfl, rfl, rfl, rfl⟩

/-- A whole-tile instruction issues as its check decides. -/
theorem tileIssue_of_check {i : Instr} {s : State} {check : Ctx → Except TReg TileOp} {ok : Prop} {op : TileOp}
    {bad : TReg → Prop} (run : exec i s = runSlot i s (tileBody check)) (decides : Decides (check s.src) ok op bad) :
    TileIssue i s ok op bad := by
  obtain ⟨good, wrong⟩ := decides
  refine fun issues => ⟨fun full => ?_, fun room => ?_⟩
  · exact run.trans (runSlot_stall issues (if_pos (decide_eq_true full)))
  have free : ¬countFull (begun s) .t = true := fun full => Nat.not_le.mpr room (of_decide_eq_true full)
  refine ⟨fun holds => ?_, fun fails => ?_⟩
  · have launched : tileBody check (begun s) = .done (launchTile (begun s) op none 0) := by
      rw [tileBody, if_neg free, begun_src, good holds]
    exact ⟨_, _, (untouched_launchTile s op).done run issues launched, rfl, rfl, rfl, rfl,
      fun n out => congrArg (fun m : Option TReg => m.elim 0 s.src.tcfg.get) out,
      fun n into => congrArg (fun m : Option TReg => m.elim 0 s.src.tcfg.get) into, rfl, rfl⟩
  · obtain ⟨n, names, breach⟩ := wrong fails
    refine ⟨n, names, run.trans (runSlot_trap issues ?_)⟩
    rw [tileBody, if_neg free, begun_src, breach]
    rfl

end Sys2Proof.Machine

theorem Sys2Proof.Claim.wholeTileInstructionsIssue : Claim.WholeTileInstructionsIssue := by
  intro d a v x rm s
  refine ⟨tileIssue_of_check (exec_tzero d s) ?_, tileIssue_of_check (exec_tfill d x s) ?_,
    tileIssue_of_check (exec_tmov d a s) ?_, tileIssue_of_check (exec_tmovFromVector d v x s) ?_,
    tileIssue_of_check (exec_tmovToVector v a x s) ?_, tileIssue_of_check (exec_ttrans d a s) ?_,
    tileIssue_of_check (exec_tcvt_twoTiles d a rm s) ?_, tileIssue_of_check (exec_tscale d a x rm s) ?_⟩
  · exact (decides_one (s.src.sideShape? d) d (fun _ => False) _).congr (by simp [sideIs])
  · exact (decides_one (s.src.shape? d) d (fun _ => False) _).congr (by simp [shapeIs])
  · exact (decides_pair s.src true d a _ _).congr (by simp [sideIs])
  · exact (decides_one (s.src.shape? d) d (fun h => h.rows ≤ (rdS s x).toNat) _).congr (by simp [shapeIs])
  · exact (decides_one (s.src.shape? a) a (fun h => h.rows ≤ (rdS s x).toNat) _).congr (by simp [shapeIs])
  · exact (decides_pair s.src false d a _ _).congr (by simp [shapeIs, and_assoc])
  · refine (decides_two (plainShape? s.src d) (plainShape? s.src a) d a _ _).congr ?_
    simp only [plainShape?_eq_some, sideIs, scaleFormat, decide_eq_true_iff]
    exact exists₂_congr fun h k => by tauto
  · exact (decides_pair s.src false d a _ _).congr (by simp [shapeIs, and_assoc])
end

section
/-! SUPPORT. TLD and TST of the scratchpad at issue (07 R186 to R188). -/
open Sys2Proof Sys2Proof.Machine Sys2Proof.Claim

namespace Sys2Proof.Machine

/-! ### Rows in the scratchpad -/

/-- Bytes that lie in banks that the gang holds are found. -/
theorem spadAll_held {cl : Nat} {held : BitVec 48} {l : List Nat}
    (inside : ∀ o ∈ l, o < 0xC00000 ∧ held.getLsbD (o / 262144) = true) :
    spadAll cl held l = .ok (l.map fun o => cl * 0xC00000 + o) := by
  induction l with
  | nil => rfl
  | cons o l ih =>
    obtain ⟨low, mine⟩ := inside o (List.mem_cons_self ..)
    have fits : ¬(0xC00000 ≤ o ∨ (!held.getLsbD (o / 262144)) = true) := by
      rw [mine]
      rintro (high | no)
      · omega
      · exact absurd no nofun
    rw [spadAll, if_neg fits, ih fun x hx => inside x (List.mem_cons_of_mem _ hx)]
    rfl

/-- Rows whose bytes are found pass their checks, and no translation changes the state. -/
theorem checkRows_spad {load : Bool} {base pitch irs : Nat} {l : List Nat} {s : State}
    (inside : ∀ r ∈ l, ∀ o ∈ byteRange ((base + r * pitch) % 2 ^ 64) irs,
      o < 0xC00000 ∧ (gangBanks s s.src.id.gang s.src.lc).getLsbD (o / 262144) = true) :
    ∃ rows pages, checkRows true load base pitch irs l s = (rows, pages, none, s) := by
  induction l with
  | nil => exact ⟨_, _, rfl⟩
  | cons r l ih =>
    obtain ⟨rows, pages, rest⟩ := ih fun x hx => inside x (List.mem_cons_of_mem _ hx)
    have found : ∃ p, resolve s true (if load then .read else .write) (byteRange ((base + r * pitch) % 2 ^ 64) irs) = (.ok p, s) :=
      ⟨_, by rw [resolve, if_pos rfl, spadAll_held (inside r (List.mem_cons_self ..))]⟩
    obtain ⟨p, found⟩ := found
    refine ⟨(r, (base + r * pitch) % 2 ^ 64, p.map fun x => x.pa) :: rows, (p.filterMap Pa.page).dedup ++ pages, ?_⟩
    rw [checkRows]
    simp only [found, rest]

theorem mem_byteRange {a n o : Nat} : o ∈ byteRange a n ↔ ∃ j < n, (a + j) % 2 ^ 64 = o := by
  simp [byteRange]

/-! ### Banks -/

theorem meets_allOnes {x b : BitVec 48} (h : (x &&& b != 0) = true) : (x &&& BitVec.allOnes 48 != 0) = true := by
  rw [bne_iff_ne] at h ⊢
  rw [BitVec.and_allOnes]
  rintro rfl
  exact h BitVec.zero_and

theorem any_imp {α : Type} {p q : α → Bool} {l : List α} (h : ∀ x, p x = true → q x = true) (some : l.any p = true) :
    l.any q = true := by
  rw [List.any_eq_true] at some ⊢
  exact some.imp fun x ⟨mem, holds⟩ => ⟨mem, h x holds⟩

/-- Where no bank of a cluster is reserved, none of some banks is. -/
theorem banksBusy_of_allOnes {s : State} {cl : Nat} (b : BitVec 48) (free : banksBusy s cl (BitVec.allOnes 48) = false) :
    banksBusy s cl b = false := by
  rw [← Bool.not_eq_true] at free ⊢
  refine mt (fun busy => ?_) free
  unfold banksBusy cmdHolds waitsBefore at busy ⊢
  simp only [Bool.or_eq_true] at busy ⊢
  refine busy.imp (Or.imp (Or.imp (Or.imp (Or.imp (any_imp fun k => ?_) (any_imp fun a => ?_)) (any_imp fun t => ?_))
    (any_imp fun f => ?_)) (any_imp fun g => any_imp fun k => ?_)) (any_imp fun w => ?_)
  · simp only [Bool.and_eq_true]
    exact And.imp_left (And.imp_right meets_allOnes)
  · simp only [Bool.and_eq_true]
    exact And.imp_left (And.imp_right meets_allOnes)
  · simp only [Bool.and_eq_true]
    exact And.imp_left (And.imp_left meets_allOnes)
  · simp only [Bool.and_eq_true]
    exact And.imp_right meets_allOnes
  · cases k.close with
    | none => exact id
    | some a =>
      dsimp only
      cases a.dst with
      | tile => exact id
      | spad =>
        simp only [Bool.and_eq_true]
        exact And.imp_left (And.imp_right meets_allOnes)
  · simp only [Bool.and_eq_true]
    exact And.imp_left (And.imp_right meets_allOnes)

/-! ### The token -/

/-- What a change of the tokens of the context in focus leaves, as an instruction and its operation see it. -/
structure TokensAlone (s t : State) : Prop where
  ctx : ∃ v, t.ctx = { s.ctx with q := v }
  tileOps : t.tileOps = s.tileOps
  pre : t.pre = s.pre
  mem : t.mem = s.mem
  spad : t.spad = s.spad

theorem TokensAlone.trans {s t u : State} (h : TokensAlone s t) (k : TokensAlone t u) : TokensAlone s u := by
  obtain ⟨⟨v, hv⟩, h1, h2, h3, h4⟩ := h
  obtain ⟨⟨w, hw⟩, k1, k2, k3, k4⟩ := k
  exact ⟨⟨w, by rw [hw, hv]⟩, k1.trans h1, k2.trans h2, k3.trans h3, k4.trans h4⟩

theorem tokensAlone_completeToken (s : State) (w : CtxId) (q : QReg) (g : Nat) (st : TokStatus) :
    TokensAlone s (completeToken s w q g st) := by
  refine ⟨?_, completeToken_tileOps .., completeToken_pre .., completeToken_mem .., completeToken_spad ..⟩
  unfold completeToken State.updCtx
  split
  · dsimp only
    split <;> exact ⟨_, rfl⟩
  · exact ⟨_, rfl⟩

theorem tokensAlone_produceToken (s : State) (q : QReg) : TokensAlone s (produceToken s q).2 :=
  ⟨⟨_, rfl⟩, rfl, rfl, rfl, rfl⟩

/-- A new token is incomplete; the one of a stopped transfer is cancelled for it. -/
theorem moveToken_new (s : State) (n : TReg) (q : QReg) :
    TokensAlone s (moveToken s n q false).2 ∧ ((moveToken s n q false).2.ctx.q.get q).done = false := by
  have owed (t : State) : ((produceToken t q).2.ctx.q.get q).done = false :=
    congrArg Token.done ((vector_get_set ..).trans (if_pos rfl))
  unfold moveToken
  rw [if_neg nofun]
  refine ⟨?_, owed _⟩
  cases s.ctx.stopTok.get n with
  | none => exact tokensAlone_produceToken s q
  | some o => exact (tokensAlone_completeToken ..).trans (tokensAlone_produceToken ..)

/-! ### Issue -/

section
variable {load : Bool} {n : TReg} {a b : SReg} {q : QReg} {s : State} {h : Shape}

/-- A transfer between a tile and rows of the scratchpad that all pass their checks goes in flight. -/
theorem tileMove_spad (room : s.ctx.oct < 16) (done : (rdQ s q).done = true) (side : s.src.sideShape? n = some h)
    (whole : (s.src.tcfg.get n).getLsbD 41 = false) (runs : s.src.rowStop = none)
    (free : banksBusy (begun s) s.src.lc (BitVec.allOnes 48) = false) (base : (rdS s a).toNat % 4 = 0)
    (pitch : (if b = 0 then h.pitch else (rdS s b).toNat) % 4 = 0)
    (inside : ∀ r j, r < h.rows → j < h.irs →
      let o := ((rdS s a).toNat + r * (if b = 0 then h.pitch else (rdS s b).toNat) + j) % 2 ^ 64
      o < 0xC00000 ∧ (gangBanks s s.src.id.gang s.src.lc).getLsbD (o / 262144) = true) :
    ∃ op banks pages, tileMove load n a b q true (begun s) = .done (launchTile
      ((moveToken (begun s) n q false).2.withCtx fun c => { c with stopTok := c.stopTok.set n.val none n.isLt })
      op (some (q, (moveToken (begun s) n q false).1)) banks false pages) := by
  have fresh : testBit (s.src.tcfg.get n).toNat 41 = false := (testBit_eq_getLsbD _ _).trans whole
  obtain ⟨rows, pages, found⟩ := checkRows_spad (load := load) (base := (rdS s a).toNat)
    (pitch := if b = 0 then h.pitch else (rdS s b).toNat) (irs := h.irs) (l := List.range h.rows) (s := begun s)
    (fun r hr o ho => by
      obtain ⟨j, hj, rfl⟩ := mem_byteRange.mp ho
      rw [Nat.mod_add_mod]
      exact inside r j (List.mem_range.mp hr) hj)
  have notFull : ¬countFull (begun s) .t = true := fun full => Nat.not_le.mpr room (of_decide_eq_true full)
  have aligned : ¬((rdS s a).toNat % 4 ≠ 0 ∨ (if b = 0 then h.pitch else (rdS s b).toNat) % 4 ≠ 0) := by
    rw [base, pitch]
    exact nofun
  have stays : preemptRow s.src 0 rows none = none := by rw [preemptRow, runs]; rfl
  unfold tileMove
  simp only [begun_src, begun_rdS, begun_rdQ, side, Option.getD_some, fresh, Bool.and_false, Bool.false_and, Bool.false_eq_true,
    if_false, List.drop_zero, found, notFull, banksBusy_of_allOnes _ free, done, Bool.not_true, and_false, false_and,
    Option.isNone_some, aligned, stays]
  exact ⟨_, _, _, rfl⟩

end

/-- What a transfer in flight leaves behind a new token. -/
theorem launchTile_after {s u : State} {q : QReg} (alone : TokensAlone (begun s) u) (owed : (u.ctx.q.get q).done = false)
    (n : TReg) (op : TileOp) (g : Nat) (banks : BitVec 48) (pages : List Page) :
    let t := finished s (launchTile (u.withCtx fun c => { c with stopTok := c.stopTok.set n.val none n.isLt }) op (some (q, g))
      banks false pages)
    ∃ f, t.bun.status = .done ∧ t.ctx.pc = s.src.pc + 16 ∧ t.tileOps = s.tileOps ++ [f] ∧
      f.who = s.src.id ∧ (∃ g, f.tok = some (q, g)) ∧ (t.ctx.q.get q).done = false ∧ t.ctx.oct = s.ctx.oct + 1 ∧
      t.ctx.t = s.ctx.t ∧ t.ctx.s = s.ctx.s ∧ t.ctx.v = s.ctx.v ∧ t.ctx.p = s.ctx.p ∧ t.mem = s.mem ∧ t.spad = s.spad := by
  obtain ⟨⟨v, ctx⟩, ops, pre, mem, spad⟩ := alone
  have who : (u.pre.getD { u.ctx with stopTok := u.ctx.stopTok.set n.val none n.isLt, oct := u.ctx.oct + 1 }).id = s.src.id := by
    rw [pre]
    rfl
  have left : u.ctx.pc = s.src.pc + 16 ∧ u.ctx.oct + 1 = s.ctx.oct + 1 ∧ u.ctx.t = s.ctx.t ∧ u.ctx.s = s.ctx.s ∧
      u.ctx.v = s.ctx.v ∧ u.ctx.p = s.ctx.p := by
    rw [ctx]
    exact ⟨rfl, rfl, rfl, rfl, rfl, rfl⟩
  obtain ⟨pc, count, tiles, regs, vectors, preds⟩ := left
  exact ⟨_, rfl, pc, congrArg (· ++ [_]) ops, who, ⟨g, rfl⟩, owed, count, tiles, regs, vectors, preds, mem, spad⟩

end Sys2Proof.Machine

theorem Sys2Proof.Claim.tileTransfersIssue (n : TReg) (a b : SReg) (q : QReg) (s : State) (h : Shape) (i : Instr)
    (which : i = .tld n a b q true ∨ i = .tst n a b q true) (issues : Issues i s) (room : s.ctx.oct < 16)
    (done : (rdQ s q).done = true) (side : sideIs s n h) (whole : (s.src.tcfg.get n).getLsbD 41 = false)
    (runs : s.src.rowStop = none) (free : banksBusy (begun s) s.src.lc (BitVec.allOnes 48) = false)
    (base : (rdS s a).toNat % 4 = 0) (pitch : (if b = 0 then h.pitch else (rdS s b).toNat) % 4 = 0)
    (inside : ∀ r j, r < h.rows → j < h.irs →
      let o := ((rdS s a).toNat + r * (if b = 0 then h.pitch else (rdS s b).toNat) + j) % 2 ^ 64
      o < 0xC00000 ∧ (gangBanks s s.src.id.gang s.src.lc).getLsbD (o / 262144) = true) :
    ∃ t f, exec i s = .next t ∧ t.bun.status = .done ∧ t.ctx.pc = s.src.pc + 16 ∧ t.tileOps = s.tileOps ++ [f] ∧
      f.who = s.src.id ∧ (∃ g, f.tok = some (q, g)) ∧ (t.ctx.q.get q).done = false ∧ t.ctx.oct = s.ctx.oct + 1 ∧
      t.ctx.t = s.ctx.t ∧ t.ctx.s = s.ctx.s ∧ t.ctx.v = s.ctx.v ∧ t.ctx.p = s.ctx.p ∧ t.mem = s.mem ∧ t.spad = s.spad := by
  obtain ⟨load, run⟩ : ∃ load, exec i s = runSlot i s (tileMove load n a b q true) := by
    rcases which with rfl | rfl
    · exact ⟨true, exec_tld n a b q true s⟩
    · exact ⟨false, exec_tst n a b q true s⟩
  obtain ⟨op, banks, pages, launched⟩ := tileMove_spad (load := load) room done side whole runs free base pitch inside
  obtain ⟨alone, owed⟩ := moveToken_new (begun s) n q
  obtain ⟨f, left⟩ := launchTile_after alone owed n op (moveToken (begun s) n q false).1 banks pages
  exact ⟨_, f, run.trans (runSlot_done issues launched), left⟩
end

section
/-! SUPPORT. The end of a tile transfer (07 R186 to R189), and O40. -/
open Sys2Proof Sys2Proof.Machine Sys2Proof.Claim

namespace Sys2Proof.Machine

/-! ### What the rows of a transfer leave of its context -/

/-- A context after rows have moved: other stamps, FENCE, taint and poison, and of the tiles only those that P allows. -/
def Ctx.Moved (P : TReg → Prop) (c d : Ctx) : Prop :=
  (∃ t r a n f x p, d = { c with
    t := t, readStamp := r, acqStamp := a, fenceSeen := n, fenceScope := f, taint := x, poisoned := p }) ∧
    ∀ m, ¬P m → d.t.get m = c.t.get m

section
variable {P : TReg → Prop} {w : CtxId}

theorem Ctx.Moved.refl (c : Ctx) : c.Moved P c := ⟨⟨_, _, _, _, _, _, _, rfl⟩, fun _ _ => rfl⟩

theorem Ctx.Moved.trans {c d e : Ctx} (h : c.Moved P d) (k : d.Moved P e) : c.Moved P e := by
  obtain ⟨⟨_, _, _, _, _, _, _, rfl⟩, kept⟩ := h
  obtain ⟨⟨_, _, _, _, _, _, _, rfl⟩, kept'⟩ := k
  exact ⟨⟨_, _, _, _, _, _, _, rfl⟩, fun m hm => (kept' m hm).trans (kept m hm)⟩

/-- The stamps and the FENCE seen are no tiles. -/
theorem Ctx.Stamped.moved {c d : Ctx} (h : c.Stamped d) : c.Moved P d := by
  obtain ⟨_, _, _, _, rfl⟩ := h
  exact ⟨⟨_, _, _, _, _, _, _, rfl⟩, fun _ _ => rfl⟩

/-- The context of a name is still there, with no more changed than rows that move can change. -/
def Finds (P : TReg → Prop) (w : CtxId) (s t : State) : Prop :=
  ∀ c, s.ctx? w = some c → ∃ d, t.ctx? w = some d ∧ c.Moved P d

theorem Finds.trans {s t u : State} (h : Finds P w s t) (k : Finds P w t u) : Finds P w s u := by
  intro c find
  obtain ⟨d, found, moved⟩ := h c find
  obtain ⟨e, found', moved'⟩ := k d found
  exact ⟨e, found', moved.trans moved'⟩

theorem finds_of_contexts {s t : State} (ctx : t.ctx = s.ctx) (others : t.others = s.others) : Finds P w s t := by
  intro c find
  refine ⟨c, ?_, Ctx.Moved.refl c⟩
  rwa [State.ctx?, ctx, others]

theorem Finds.refl (s : State) : Finds P w s s := finds_of_contexts rfl rfl

theorem finds_ite {p : Prop} [Decidable p] {s t u : State} (h : Finds P w s t) (k : Finds P w s u) :
    Finds P w s (if p then t else u) := by
  split
  · exact h
  · exact k

theorem Writes.finds {s t : State} (h : Writes s t) : Finds P w s t := by
  obtain ⟨x, rfl⟩ := h
  exact finds_of_contexts rfl rfl

theorem finds_updCtx {f : Ctx → Ctx} (h : ∀ c : Ctx, c.Moved P (f c)) (s : State) : Finds P w s (s.updCtx w f) := by
  intro c find
  refine ⟨f c, ?_, h c⟩
  rw [ctx?_updCtx (fun c => ?_) fun c => ?_, find]
  · rfl
  · obtain ⟨⟨_, _, _, _, _, _, _, e⟩, -⟩ := h c
    rw [e]
  · obtain ⟨⟨_, _, _, _, _, _, _, e⟩, -⟩ := h c
    rw [e]

theorem finds_acquire (s : State) {c : Ctx} (own : c.id = w) (scope : Nat) (v : List (BitVec 16)) :
    Finds P w s (acquire s c scope v) := by
  obtain ⟨l, drop⟩ := dropL1_eq s c scope
  unfold acquire
  rw [drop, own]
  dsimp only
  split
  · exact finds_of_contexts rfl rfl
  · split
    · exact Finds.trans (t := { s with l1 := l }) (finds_of_contexts rfl rfl)
        (finds_updCtx (fun c => Ctx.Stamped.moved ⟨_, _, _, _, rfl⟩) _)
    · exact finds_of_contexts rfl rfl

theorem finds_fenceEffect (s : State) (n : Nat) : Finds P w s (fenceEffect s w n) := by
  unfold fenceEffect
  split
  · exact Finds.refl s
  next c find =>
    split
    · exact ((finds_acquire s (ctx?_some find).2 _ _).trans
        (finds_updCtx (fun c => Ctx.Stamped.moved ⟨_, _, _, _, rfl⟩) _)).trans (finds_of_contexts rfl rfl)
    · exact Finds.refl s

theorem finds_noteReadBy (s : State) (b i : Nat) (v : List (BitVec 16)) : Finds P w s (noteReadBy s w b i v) := by
  have noted : Finds P w s (noteRead s w v) := finds_updCtx (fun c => Ctx.Stamped.moved ⟨_, _, _, _, rfl⟩) s
  exact noted.trans (finds_of_contexts rfl rfl)

theorem finds_fillL1 (s : State) (p : Bool × Nat) (g : Nat) (d : List Byte) (v : List (BitVec 16)) :
    Finds P w s (fillL1 s p g d v) :=
  (serves_boundBy _ _ _ s).writes.finds.trans (finds_of_contexts rfl rfl)

theorem finds_loadGranule (s : State) (c : Ctx) (g : Nat) : Finds P w s (loadGranule s c g).2 := by
  have served : Finds P w s (serve s g) := (serves_serve s g).writes.finds
  unfold loadGranule
  dsimp only
  split
  · exact served.trans (finds_fillL1 _ _ _ _ _)
  · split
    · exact served
    · have chosen := served.trans (serves_free _ 1).writes.finds
      split
      · exact chosen
      · exact chosen.trans (finds_fillL1 _ _ _ _ _)

/-- A fold with a state beside what it gathers. -/
theorem finds_gather {α β : Type} (state : β → State) {f : β → α → β}
    (step : ∀ acc x, Finds P w (state acc) (state (f acc x))) (l : List α) (acc : β) :
    Finds P w (state acc) (state (l.foldl f acc)) := by
  induction l generalizing acc with
  | nil => exact Finds.refl (state acc)
  | cons x l ih => exact (step acc x).trans (ih _)

theorem finds_loadCells (s : State) {c : Ctx} (own : c.id = w) (b i : Nat) (cells : List Nat) :
    Finds P w s (loadCells s c b i cells).2 := by
  subst own
  exact finds_gather Prod.snd (f := fun acc g => ((g, (loadGranule acc.2 c g).1.1) :: acc.1,
      noteReadBy (loadGranule acc.2 c g).2 c.id b i (loadGranule acc.2 c g).1.2))
    (fun acc g => (finds_loadGranule acc.2 c g).trans (finds_noteReadBy _ _ _ _)) (granulesOf cells) ([], s)

theorem serves_raceBit (s : State) (detl : Nat) : Serves s (raceBit s detl).2 := by
  unfold raceBit
  split
  · exact serves_free s 1
  · exact Serves.refl s

theorem finds_notePoison (s : State) (sp : Bool) (gs : List Nat) : Finds P w s (notePoison s w sp gs) := by
  unfold notePoison
  split
  · refine finds_updCtx (fun c => ?_) s
    exact ⟨⟨_, _, _, _, _, _, _, rfl⟩, fun _ _ => rfl⟩
  · exact Finds.refl s

theorem finds_noteWritten (s : State) (g : Nat) (l : List (Nat × Nat)) : Finds P w s (noteWritten s g l) := by
  unfold noteWritten
  split
  · exact Finds.refl s
  · exact finds_of_contexts rfl rfl

/-- A tile that takes a row, and its taint. -/
theorem moved_wrT (c : Ctx) (n : TReg) (t : Tile) (places hot : List Nat) :
    c.Moved (· = n) ((c.wrT n t).noteParts (.t n) places hot) := by
  have tiles (m : TReg) (other : m ≠ n) : (c.wrT n t).t.get m = c.t.get m := (vector_get_set ..).trans (if_neg other.symm)
  unfold Ctx.noteParts
  split
  · exact ⟨⟨_, _, _, _, _, _, _, rfl⟩, tiles⟩
  · exact ⟨⟨_, _, _, _, _, _, _, rfl⟩, tiles⟩

end

/-- Rows of memory that move into a tile change no other. -/
theorem finds_loadRows {c : Ctx} {w : CtxId} (own : c.id = w) (b i : Nat) (n : TReg) (h : Shape) (sp : Bool)
    (l : List (Nat × Nat × List Nat)) : ∀ (s : State) (tainted : Bool), Finds (· = n) w s (loadRows s c b i n h sp tainted l) := by
  induction l with
  | nil => exact fun s _ => Finds.refl s
  | cons x l ih =>
    intro s tainted
    obtain ⟨r, va, cells⟩ := x
    have read : Finds (· = n) w s (if sp then (cells.map s.spad.get, s) else loadCells s c b i cells).2 := by
      cases sp with
      | true => exact Finds.refl s
      | false => exact finds_loadCells s own b i cells
    rw [loadRows]
    generalize (if sp then (cells.map s.spad.get, s) else loadCells s c b i cells) = du at read ⊢
    obtain ⟨d, u⟩ := du
    dsimp only at read ⊢
    have raced : Finds (· = n) w u (raceBit u c.detl).2 := (serves_raceBit u c.detl).writes.finds
    generalize raceBit u c.detl = rv at raced ⊢
    obtain ⟨race, v⟩ := rv
    dsimp only at raced ⊢
    rw [own]
    exact ((read.trans raced).trans ((finds_notePoison v sp _).trans (finds_updCtx (fun c => moved_wrT c n _ _ _) _))).trans (ih _ _)

/-- Rows of a tile that move to memory change no tile. -/
theorem finds_storeRows {w : CtxId} (c : Ctx) (n : TReg) (h : Shape) (sp tainted : Bool) (v : List (BitVec 16))
    (l : List (Nat × Nat × List Nat)) : ∀ s : State, Finds (fun _ => False) w s (storeRows s c n h sp tainted v l) := by
  induction l with
  | nil => exact fun s => Finds.refl s
  | cons x l ih =>
    intro s
    obtain ⟨r, va, cells⟩ := x
    rw [storeRows]
    refine Finds.trans ?_ (ih _)
    have written (d : List (Nat × Byte)) : Finds (fun _ => False) w s
        (if sp then { s with spad := s.spad.setAll d } else patchL1 (writeGlobal s v d) (l1Place s c) v d) :=
      finds_ite (finds_of_contexts rfl rfl) ((writes_writeGlobal s v d).finds.trans (finds_of_contexts rfl rfl))
    have noted {u : State} (h : Finds (fun _ => False) w s u) (k : List Nat) : Finds (fun _ => False) w s { u with taintMem := k } :=
      h.trans (finds_of_contexts rfl rfl)
    exact finds_ite ((noted (written _) _).trans (finds_noteWritten _ _ _)) (noted (written _) _)

/-! ### The flight -/

theorem acquire_tileOps (s : State) (c : Ctx) (scope : Nat) (v : List (BitVec 16)) : (acquire s c scope v).tileOps = s.tileOps := by
  obtain ⟨l, drop⟩ := dropL1_eq s c scope
  unfold acquire
  rw [drop]
  dsimp only
  split
  · rfl
  · split
    · exact updCtx_tileOps ..
    · rfl

theorem find?_map_of_same {α : Type} {p : α → Bool} {f : α → α} (same : ∀ x, p (f x) = p x) (l : List α) :
    (l.map f).find? p = (l.find? p).map f := by
  rw [List.find?_map, show p ∘ f = p from funext same]

/-- A flight whose stamp is raised is the same but for the stamp. -/
theorem tileOp?_raiseStamps {s : State} {i : Nat} {f : TileFlight} (find : s.tileOp? i = some f) (w : CtxId)
    (p : Nat → Nat → Bool) (v : List (BitVec 16)) :
    ∃ a b, (raiseStamps s w p v).tileOp? i = some { f with stamp := a, left := b } := by
  have raised : ∃ j, (raiseStamps s w p v).tileOps = s.tileOps.map fun t =>
      if (t.who == w && p t.bundle t.fenceNo) = true then { t with stamp := vcMax t.stamp v, left := j } else t := ⟨_, rfl⟩
  obtain ⟨j, raised⟩ := raised
  rw [State.tileOp?] at find ⊢
  rw [raised, find?_map_of_same (fun y => ?_), find, Option.map_some]
  · split
    · exact ⟨_, _, rfl⟩
    · exact ⟨_, _, rfl⟩
  · split <;> rfl

/-- A FENCE that takes effect leaves what a tile flight does. -/
theorem tileOp?_fenceEffect {s : State} {i : Nat} {f : TileFlight} (find : s.tileOp? i = some f) (w : CtxId) (n : Nat) :
    ∃ a b, (fenceEffect s w n).tileOp? i = some { f with stamp := a, left := b } := by
  unfold fenceEffect
  split
  · exact ⟨_, _, find⟩
  · split
    · refine tileOp?_raiseStamps ?_ _ _ _
      rw [State.tileOp?, updCtx_tileOps, acquire_tileOps]
      exact find
    · exact ⟨_, _, find⟩

/-! ### The end -/

/-- A token that a context owes completes. -/
theorem ctx?_completeToken {s : State} {w : CtxId} {c : Ctx} {q : QReg} (find : s.ctx? w = some c) (owed : (c.q.get q).done = false)
    (st : TokStatus) : (completeToken s w q (c.q.get q).gen st).ctx? w =
      some { c with q := c.q.set q.val { done := true, status := st, gen := (c.q.get q).gen } q.isLt } := by
  have pending : (c.q.get q).gen = (c.q.get q).gen ∧ (!(c.q.get q).done) = true := ⟨rfl, by rw [owed]; rfl⟩
  refine (ctx?_updCtx (s := s) (w := w) (fun d => ?_) fun d => ?_).trans ?_
  · split <;> rfl
  · split <;> rfl
  · rw [find, Option.map_some, if_pos pending]

/-- The flight of a transfer goes, its count is released and its token completes. -/
theorem ends_tileMove {s : State} {f : TileFlight} {c : Ctx} {q : QReg} (find : s.ctx? f.who = some c)
    (owed : (c.q.get q).done = false) :
    let t := completeTok? (octDown { s with tileOps := s.tileOps.filter fun x => x.id != f.id } f.who) f.who
      (some (q, (c.q.get q).gen)) .ok
    t.tileOp? f.id = none ∧ t.ctx? f.who = some { c with
      oct := c.oct - 1, q := c.q.set q.val { done := true, status := .ok, gen := (c.q.get q).gen } q.isLt } := by
  have down : (octDown { s with tileOps := s.tileOps.filter fun x => x.id != f.id } f.who).ctx? f.who =
      some { c with oct := c.oct - 1 } := by
    refine (ctx?_updCtx (f := fun c => { c with oct := c.oct - 1 }) (fun _ => rfl) fun _ => rfl).trans ?_
    rw [show State.ctx? { s with tileOps := s.tileOps.filter fun x => x.id != f.id } f.who = s.ctx? f.who from rfl, find]
    rfl
  refine ⟨?_, ctx?_completeToken down owed .ok⟩
  rw [State.tileOp?, completeTok?, completeToken_tileOps, octDown, updCtx_tileOps]
  refine List.find?_eq_none.mpr fun x hx => ?_
  have other := (List.mem_filter.mp hx).2
  simpa using other

/-- A transfer that ends. -/
theorem tileMoved_ends {s : State} {f : TileFlight} {c : Ctx} {q : QReg} (find : s.ctx? f.who = some c)
    (tok : f.tok = some (q, (c.q.get q).gen)) (owed : (c.q.get q).done = false) :
    (tileMoved s f).tileOp? f.id = none ∧ ∃ k, (tileMoved s f).ctx? f.who = some { c with
      oct := c.oct - 1, tcfg := k, q := c.q.set q.val { done := true, status := .ok, gen := (c.q.get q).gen } q.isLt } := by
  unfold tileMoved
  rw [tok]
  dsimp only
  split
  next n _ =>
    have unset : (s.updCtx f.who fun c => c.setProg n false 0).ctx? f.who = some (c.setProg n false 0) := by
      rw [ctx?_updCtx (f := fun c => c.setProg n false 0) (fun _ => rfl) fun _ => rfl, find, Option.map_some]
    exact (ends_tileMove unset owed).imp_right fun found => ⟨_, found⟩
  next => exact (ends_tileMove find owed).imp_right fun found => ⟨_, found⟩

/-! ### The turns -/

/-- A transfer that may move, after the FENCE before it has taken effect. -/
theorem movingTile_free {s : State} {f : TileFlight} (find : s.tileOp? s.arg.id = some f)
    (free : rowsFree s f (cellsNow s f) = true) : ∃ a b,
      movingTile s = some ({ f with stamp := a, left := b }, fenceEffect s f.who f.fenceNo) := by
  obtain ⟨a, b, found⟩ := tileOp?_fenceEffect find f.who f.fenceNo
  have number : f.id = s.arg.id := eq_of_beq (List.find?_some (p := fun t : TileFlight => t.id == s.arg.id) find)
  rw [← number] at found
  refine ⟨a, b, ?_⟩
  unfold movingTile
  rw [find]
  dsimp only
  rw [if_pos free, found, Option.map_some]

/-- Where a turn moves all rows that are left, the transfer ends. -/
theorem tileGoes_all {s : State} (all : s.arg.val = 0) (t : State) (f : TileFlight) (rows : List (Nat × Nat × List Nat)) :
    tileGoes t f (rows.drop (rowsNow s rows)) = tileMoved t f := by
  rw [tileGoes, rowsNow, if_pos all, List.drop_length]
  rfl

/-- What the end of a transfer leaves of a context that its rows have moved. -/
theorem moved_ends {P : TReg → Prop} {t : State} {f : TileFlight} {c e : Ctx} {q : QReg} (find : t.ctx? f.who = some e)
    (moved : c.Moved P e) (tok : f.tok = some (q, (c.q.get q).gen)) (owed : (c.q.get q).done = false) :
    ∃ c', (tileMoved t f).ctx? f.who = some c' ∧ (tileMoved t f).tileOp? f.id = none ∧
      (c'.oct = c.oct - 1 ∧ (c'.q.get q).done = true ∧ (c'.q.get q).status = .ok ∧
        c'.s = c.s ∧ c'.v = c.v ∧ c'.p = c.p ∧ c'.pc = c.pc) ∧ ∀ m, ¬P m → c'.t.get m = c.t.get m := by
  obtain ⟨⟨_, _, _, _, _, _, _, rfl⟩, tiles⟩ := moved
  obtain ⟨gone, k, left⟩ := tileMoved_ends find tok owed
  have token (x : Token) : (c.q.set q.val x q.isLt).get q = x := (vector_get_set ..).trans (if_pos rfl)
  exact ⟨_, left, gone, ⟨rfl, congrArg Token.done (token _), congrArg Token.status (token _), rfl, rfl, rfl, rfl⟩, tiles⟩

section
variable {s : State} {f : TileFlight} {c : Ctx} {q : QReg} {n : TReg} {rows : List (Nat × Nat × List Nat)} {sp : Bool}
  (find : s.tileOp? s.arg.id = some f) (who : s.ctx? f.who = some c) (free : rowsFree s f (cellsNow s f) = true)
  (all : s.arg.val = 0)
include find who free all

/-- A turn that loads all rows. -/
theorem tldComplete_all (op : f.op = .load n rows sp) : ∃ a b t e, t.ctx? f.who = some e ∧ c.Moved (· = n) e ∧
    Acts .tldComplete s (tileMoved t { f with stamp := a, left := b }) := by
  obtain ⟨a, b, moving⟩ := movingTile_free find free
  obtain ⟨d, found, moved⟩ := finds_fenceEffect (P := (· = n)) s f.fenceNo c who
  obtain ⟨e, found', moved'⟩ := finds_loadRows (ctx?_some found).2 f.bundle f.id n f.hd sp
    (rows.take (rowsNow s rows)) (fenceEffect s f.who f.fenceNo) f.tainted d found
  refine ⟨a, b, _, e, found', moved.trans moved', ?_⟩
  rw [Acts, exec_tldComplete, execTldComplete, moving, ← tileGoes_all all _ _ rows]
  dsimp only
  rw [op, found]
  rfl

/-- A turn that stores all rows. -/
theorem tstComplete_all (op : f.op = .store n rows sp) : ∃ a b t e, t.ctx? f.who = some e ∧ c.Moved (fun _ => False) e ∧
    Acts .tstComplete s (tileMoved t { f with stamp := a, left := b }) := by
  obtain ⟨a, b, moving⟩ := movingTile_free find free
  obtain ⟨d, found, moved⟩ := finds_fenceEffect (P := fun _ => False) s f.fenceNo c who
  obtain ⟨e, found', moved'⟩ := finds_storeRows d n f.ha sp f.tainted
    (rowStamp (fenceEffect s f.who f.fenceNo) { f with stamp := a, left := b })
    (rows.take (rowsNow s rows)) (fenceEffect s f.who f.fenceNo) d found
  refine ⟨a, b, _, e, found', moved.trans moved', ?_⟩
  rw [Acts, exec_tstComplete, execTstComplete, moving, ← tileGoes_all all _ _ rows]
  dsimp only
  rw [op, found]
  rfl

end

end Sys2Proof.Machine

theorem Sys2Proof.Claim.tileTransfersIssueAndEnd : Claim.TileTransfersIssueAndEnd := by
  refine ⟨Claim.tileTransfersIssue, fun s f c q g n rows sp find who own free tok owed gen all => ?_⟩
  subst gen
  refine ⟨fun op => ?_, fun op => ?_⟩
  · obtain ⟨a, b, t, e, found, moved, acts⟩ := tldComplete_all find who free all op
    obtain ⟨c', left, gone, ends, tiles⟩ := moved_ends (f := { f with stamp := a, left := b }) found moved tok owed
    exact ⟨_, c', acts, left, gone, ends, tiles⟩
  · obtain ⟨a, b, t, e, found, moved, acts⟩ := tstComplete_all find who free all op
    obtain ⟨c', left, gone, ends, tiles⟩ := moved_ends (f := { f with stamp := a, left := b }) found moved tok owed
    exact ⟨_, c', acts, left, gone, ends, Vector.ext fun m hm => tiles ⟨m, hm⟩ id⟩

/-- Settles O40, by its two parts. -/
theorem tileInstructionsIssue : Obligations.TileInstructionsIssue := by
  unfold Obligations.TileInstructionsIssue
  exact ⟨Claim.wholeTileInstructionsIssue, Claim.tileTransfersIssueAndEnd⟩
end
